-- ==== Sys2Proof/Word.lean ====
section
/-! DEFINITION. The words of the SE-9624: bytes, 32-bit registers and 64-bit quantities (00 R3, 20 R484). -/
namespace Sys2Proof

/-- One byte of memory, of a descriptor, of a record or of a packet. -/
abbrev Byte := BitVec 8

/-- A 32-bit BAR0 register (R484), a 32-bit tag (R11) or the bits of an FP32 number. -/
abbrev Word := BitVec 32

/-- A 64-bit quantity: a Tally value (R12), a unit ID, a key half. -/
abbrev Dword := BitVec 64

end Sys2Proof
end

