-- ==== Sys2Proof/Machine/Table.lean ====
section
/-! DEFINITION. Sparse tables: lists of (key, value) pairs with strictly rising keys, in which no entry equals what an
unlisted key reads as. Memories, register files and every indexed family of units are such tables, so equal contents
are equal data. -/
namespace Sys2Proof.Machine

/-- A sparse table over natural keys. -/
abbrev Tbl (α : Type) := List (Nat × α)

/-- The value at a key; `d` is what unlisted keys read as. -/
def tblGet {α : Type} (d : Nat → α) : Tbl α → Nat → α
  | [], k => d k
  | (j, v) :: t, k => if k = j then v else tblGet d t k

/-- Write a key, keeping the canonical form: writing what an unlisted key reads as leaves no entry of the key. -/
def tblSet {α : Type} [DecidableEq α] (d : Nat → α) : Tbl α → Nat → α → Tbl α
  | [], k, v => if v = d k then [] else [(k, v)]
  | (j, w) :: t, k, v =>
    if k < j then (if v = d k then (j, w) :: t.filter (fun e => e.1 != k) else (k, v) :: (j, w) :: t)
    else if k = j then (if v = d k then t.filter (fun e => e.1 != k) else (k, v) :: t)
    else (j, w) :: tblSet d t k v

/-- Every key of the table is above `n`. -/
def tblAbove {α : Type} (n : Nat) (t : Tbl α) : Bool := t.all fun e => decide (n < e.1)

/-- The canonical form: keys strictly rising, no entry at its default. -/
def tblWf {α : Type} [DecidableEq α] (d : Nat → α) : Tbl α → Bool
  | [] => true
  | (k, v) :: t => decide (v ≠ d k) && tblAbove k t && tblWf d t

/-- Keep only the entries of the given keys' property. -/
def tblFilter {α : Type} (p : Nat → Bool) (t : Tbl α) : Tbl α := t.filter fun e => p e.1

/-- Apply a function to every listed value, dropping those that become the default. -/
def tblMap {α : Type} [DecidableEq α] (d : Nat → α) (f : Nat → α → α) (t : Tbl α) : Tbl α :=
  (t.map fun e => (e.1, f e.1 e.2)).filter fun e => decide (e.2 ≠ d e.1)

/-- Remove every entry whose key lies in `[lo, hi)`: those keys read their default again. -/
def tblClear {α : Type} (lo hi : Nat) (t : Tbl α) : Tbl α := t.filter fun e => e.1 < lo || hi ≤ e.1

end Sys2Proof.Machine
end

