-- ==== Sys2Proof/Machine/Types.lean ====
section
/-! DEFINITION. What the outside supplies with a command: register accesses, host memory contents, descriptors, and the
other operands of the rows of the command table. -/
namespace Sys2Proof.Machine

/-! ### Host side -/

/-- The 64 or 128 bytes the Cage reads at the head of a submission ring (12 R284, R288). -/
structure Desc where
  ring : Fin 32
  bytes : List Byte
  deriving DecidableEq, Repr

/-- What an access to one byte of host memory finds (11 R273, R274; 12 R293). -/
inductive HostByte where
  | ok (v : Byte)
  | absent            -- the translation reports the page not present
  | ioError           -- a CXL.io completion error
  deriving DecidableEq, Repr

/-- Host memory as a command's accesses meet it: contents (unlisted bytes read 0), pages reported not present, pages
whose accesses complete with an error. Pages are 4 KiB, by number. -/
structure HostView where
  cells : List (Nat × Byte)
  absent : List Nat
  bad : List Nat
  deriving DecidableEq, Repr

/-- One byte of the view. -/
def HostView.read (v : HostView) (a : Nat) : HostByte :=
  if a / 4096 ∈ v.absent then .absent
  else if a / 4096 ∈ v.bad then .ioError
  else .ok (match v.cells.find? (fun c => c.1 == a) with | some c => c.2 | none => 0)

/-- Why a read of ring memory failed (12 R287), in the cause codes of RING_ERROR. -/
inductive RingCause where
  | tail | ioError | page
  deriving DecidableEq, Repr

/-- What reading an 8-byte head word over CXL.io gives (12 R283, R285, R287, R306). -/
inductive HostWord where
  | ok (v : BitVec 64)
  | ioError
  | pageFail
  deriving DecidableEq, Repr

/-- What a register read addresses: BAR0, BAR4 (11 R264) or configuration space (11 R262, R263). -/
inductive RegSpace where
  | bar0 | bar4 | config
  deriving DecidableEq, Repr

/-- A 4-byte-granular read with the TEE indication of 11 R272; `len` is 1 to 8 bytes (20 R484). -/
structure BarRead where
  off : Nat
  len : Nat
  tee : Bool
  space : RegSpace := .bar0
  deriving DecidableEq, Repr

/-- A BAR0 write of the bytes given, from offset `off` (20 R484). -/
structure BarWrite where
  off : Nat
  bytes : List Byte
  tee : Bool
  deriving DecidableEq, Repr

/-! ### Configuration space (11) -/

/-- An item of configuration, or of BAR4, that a host write changes (11 R259, R264 to R275). `bars`: the three BAR addresses, 64 bits
each, BAR0 lowest. The items from `msixFunctionMask` on, but for the MSI-X table, are not locked items (R272). -/
inductive ConfigItem where
  | bars (v : Nat)
  | memSpaceEnable (b : Bool)
  | busMaster (b : Bool)
  | priEnable (b : Bool)
  | window (base size : Nat)
  | decoderUncommit
  | ideSettings (v : Nat)
  | atsEnable (b : Bool)
  | pasidEnable (b : Bool)
  | msixMask (vec : Fin 64) (b : Bool)
  | msixFunctionMask (b : Bool)
  | memEnable (b : Bool)
  | priAllocation (n : Nat)
  | msixEntry (vec : Fin 64) (addr data : Nat)
  | powerState (d3 : Bool)
  | aspmL1 (b : Bool)
  | aerClear (m : BitVec 32)
  | rasClear (m : BitVec 32)
  deriving DecidableEq, Repr

/-- The streams an IDE key can protect (11 R259, R271): the link stream, CXL.cachemem, four selective streams. -/
inductive IdeStream where
  | link | cachemem | sel (n : Fin 4)
  deriving DecidableEq, Repr

/-- The IDE key-management messages of 11 R271. -/
inductive IdeKmOp where
  | program (st : IdeStream) (keySet : Bool)
  | start (st : IdeStream) (keySet : Bool)      -- the key-set toggle
  | stop (st : IdeStream)
  deriving DecidableEq, Repr

/-- PRI response codes (11 R274). -/
inductive PriCode where
  | success | invalid | failure
  deriving DecidableEq, Repr

/-- What an ATS translation completion carries (11 R273). -/
inductive AtsResult where
  | present (addr : Nat)
  | notPresent
  deriving DecidableEq, Repr

/-- What waits on a translation (11 R273, R274). -/
inductive Waiter where
  | ringMem (ring : Fin 32)
  | cmd (serial : Nat)       -- a started descriptor, by its fetch-order number
  deriving DecidableEq, Repr

/-- How the host link came up (11 R261): flit mode, rate code and width code of `CXL_LINK_STAT` (R280). -/
structure LinkUp where
  cxl : Bool
  rate : Fin 4
  width : Fin 4
  deriving DecidableEq, Repr

/-- The reset kinds of 17 R432 that act on a running device. -/
inductive ResetKind where
  | cxl | sbr | perst
  deriving DecidableEq, Repr

/-! ### Power and sensors (17) -/

/-- One reading of every sensor (17 R426): hottest junction, hottest stack, stacks above 95 °C, above 85 °C and below
90 °C (bit masks), 10 ms average of the input power, whether every sensor is below 95 °C, whether a
regulator warning of over-temperature or over-current stands (17 R418). -/
structure Sensors where
  junction : Nat
  stack : Nat
  stacksOver95 : BitVec 24
  stacksUnder90 : BitVec 24
  stacksOver85 : BitVec 24
  watts : Nat
  allUnder95 : Bool
  regWarning : Bool
  deriving DecidableEq, Repr

/-- The straps (19 R472); none is a strap that changed inside its window. -/
structure Straps where
  profile : Option Bool
  recovery : Option Bool
  addr : Option (Fin 4)
  deriving DecidableEq, Repr

/-- The operations of `RAS_UNIT_CMD` that the gate of 17 R430 may hold, and the other non-volatile writes. -/
inductive NvOp where
  | flashImage                  -- FW image region (18 R456)
  | flashUnitMap                -- unit map and generation (18 R447)
  | flashLog (n : Nat)          -- append of event number n to the flash log (18 R444)
  | counter (svn : Nat)         -- anti-rollback counter (18 R458)
  deriving DecidableEq, Repr

/-- Causes of a unit fence (18 R445, UNIT_FENCED `SUB`). -/
inductive FenceCause where
  | sram | threshold | meshLink | selfTest | host
  deriving DecidableEq, Repr

/-- Structures named by SRAM_UE and CE_THRESHOLD (18 R445). -/
inductive SramStruct where
  | scratch | accum | panel | ring | row
  deriving DecidableEq, Repr

/-- The four faces of a site's router (18 R437). -/
inductive Dir where
  | n | e | s | w
  deriving DecidableEq, Repr

/-- What a corrected error was found in (18 R446). -/
inductive CeUnit where
  | site (k : Fin 8192) (st : SramStruct)
  | mill (m : Fin 768)
  deriving DecidableEq, Repr

/-- Which algorithms of each class a NEGOTIATE_ALGORITHMS offers (16 R391). -/
structure SpdmOffer where
  asym : Bool
  hash : Bool
  measHash : Bool
  dhe : Bool
  aead : Bool
  keySched : Bool
  deriving DecidableEq, Repr

/-- What a GET_MEASUREMENTS asks for (16 R394). -/
inductive MeasReq where
  | count | one (index : Nat) | all
  deriving DecidableEq, Repr

/-! ### What checks find in the dataflow (04, 09, 18) -/

/-- What a link or ring memory does to a token on its way: nothing, a tag parity error with the tag as read (18 R436), or an
uncorrectable word of ring memory. -/
inductive TokenFault where
  | none
  | tagParity (tag : Nat)
  | ringUe (word : Nat)
  | matchParity
  deriving DecidableEq, Repr

/-- Errors that the controllers newly find in the HBM lines a command reads (10 R248): lines not correctable, lines corrected. -/
structure HbmErrors where
  ue : List Nat
  ce : List Nat := []
  deriving DecidableEq, Repr

/-- Errors that the reads of a firing find (04 R85, 18 R436): corrected ones, uncorrectable 64-bit words of the site's
scratchpad, HBM lines, and a row-state entry. -/
structure FireErrors where
  ce : Nat
  spad : List Nat
  hbm : HbmErrors
  row : Option Nat
  /-- Accumulator memory read by the firing itself (03 R69): corrected errors, and an uncorrectable word. -/
  accCe : Nat := 0
  acc : Option Nat := none
  deriving DecidableEq, Repr

/-- What the residue checks of a run find: nothing, a mismatch that the recomputation clears, or two (R233). -/
inductive Residue where
  | clean | retried | fatal
  deriving DecidableEq, Repr

/-! ### Codes -/

def RingCause.code : RingCause → Nat | .tail => 1 | .ioError => 2 | .page => 3
def FenceCause.code : FenceCause → Nat
  | .sram => 1 | .threshold => 2 | .meshLink => 3 | .selfTest => 4 | .host => 5
def SramStruct.code : SramStruct → Nat | .scratch => 0 | .accum => 1 | .panel => 2 | .ring => 3 | .row => 4
def Dir.code : Dir → Nat | .n => 0 | .e => 1 | .s => 2 | .w => 3
/-- The stream numbers of IDE_FAIL `LOC` (18 R445): the manual numbers none, the order of Table 11-1 is used. -/
def IdeStream.code : IdeStream → Nat | .link => 0 | .cachemem => 1 | .sel n => 2 + n.val
def NvOp.code : NvOp → Nat | .flashImage => 1 | .flashUnitMap => 1 | .flashLog _ => 1 | .counter _ => 3

end Sys2Proof.Machine
end

