-- ==== Sys2Proof/Machine/SysState.lean ====
section
/-! DEFINITION. The state of the blocks of Level 0 and of the memory: clock root and Tally (15), power and reset (17, 19),
faults and service (18), security (16), CXL attachment (11), Cage (12), HBM (10). -/
namespace Sys2Proof.Machine

/-! ### Clock root and Tally (15) -/

/-- `TALLY_STAT.SYNC` (15 R378). -/
inductive SyncState where
  | free | root | acquiring | locked | holdover
  deriving DecidableEq, Repr

def SyncState.code : SyncState → Nat
  | .free => 0 | .root => 1 | .acquiring => 2 | .locked => 3 | .holdover => 4

/-- The controller's wait for a higher VDD_CORE set point (17 R417): the step it waits for and since when. -/
structure VoltWait where
  step : Nat
  since : Nat
  deriving DecidableEq, Repr

/-- Clock root, ACLK step and Tally. Steps are the codes 0 to 3 of `CLK_STAT.ACLK_STEP` (R384); times are root cycles. -/
structure ClockState where
  /-- Root cycles, 8 to the nanosecond, since the root's start (R369). -/
  root : Nat
  locked : Bool
  lockLost : Bool
  /-- The divider in force (R371). -/
  step : Nat
  /-- The step requested from the dividers, applied at the next alignment boundary (R372, R417). -/
  req : Nat
  /-- The step of the last POWER_SET (R371). -/
  hostStep : Nat
  /-- Steps the temperature input and the power input hold (17 R426). -/
  thermSteps : Nat
  powerSteps : Nat
  /-- Regulator warning (17 R418), sag throttle (17 R429) and first trip stage (17 R428): each asks for /8. -/
  regWarn : Bool
  sagThrottle : Bool
  tripThrottle : Bool
  /-- VDD_CORE set point in mV (17 R415) and the wait for a higher one. -/
  setPoint : Nat
  volt : Option VoltWait
  /-- Root time at which ACLK resumes after a change of step (R372). -/
  aclkResume : Nat
  tally : BitVec 64
  sync : SyncState
  parentPort : Option Nat
  parentAddr : Nat
  offset : Int
  trim : Int
  /-- Consecutive samples within `LOCK_NS` (R378). -/
  streak : Nat
  /-- Root time of the parent's last sample (R378). -/
  lastSample : Nat
  deriving DecidableEq, Repr

/-! ### Power, thermal, sag and reset (17, 19) -/

/-- Where the device stands between power-on reset and running (17 R420, 18 R459, 20 R486). -/
inductive Phase where
  | held          -- power-on reset
  | lockLost      -- the root lost lock (15 R370)
  | booting       -- power-on reset left, boot ROM runs
  | recovery      -- only the recovery registers respond (18 R459)
  | running
  deriving DecidableEq, Repr

/-- A device reset in progress (17 R432). -/
structure ResetProgress where
  kinds : List ResetKind
  memClear : Bool
  reboot : Bool
  deriving DecidableEq, Repr

/-- Why the device last woke: `PWR_STAT.WAKE_CAUSE` (17 R434). -/
inductive WakeCause where
  | none | doorbell | mem | bar | fabric | throttle | debug
  deriving DecidableEq, Repr

def WakeCause.code : WakeCause → Nat
  | .none => 0 | .doorbell => 1 | .mem => 2 | .bar => 3 | .fabric => 4 | .throttle => 5 | .debug => 6

/-- A host CXL.mem access that waits for a wake (10 R253, R254): line address and, for a write, its bytes and mask. -/
structure HostMem where
  line : Nat
  write : Option (List Byte × BitVec 64)
  deriving DecidableEq, Repr

/-- A non-volatile operation that waits for the gate (17 R430), and since when. -/
structure NvWait where
  op : NvOp
  since : Nat
  /-- It starts in this MCLK cycle, unless the gate closes in it (17 R430). -/
  starting : Bool
  deriving DecidableEq, Repr

structure PowerState where
  phase : Phase
  resetting : Option ResetProgress
  pwrok : Bool
  perst : Bool
  /-- VDD_CORE and VDD_IO as last seen, mV (R420, R429). -/
  coreMv : Nat
  ioMv : Nat
  /-- Straps as sampled (19 R472). -/
  air : Bool
  strapRecovery : Bool
  smbAddr : Nat
  thermAlert : Bool
  thermTrip : Bool
  /-- Idle state 0 to 4 for A0 to A4 (R423) and the wake on the way (cause). -/
  idle : Nat
  waking : Option WakeCause
  wakeCause : WakeCause
  wakeUs : Nat
  /-- Root time since which the device is idle, and the wait before A4 for the fabric epoch (R425). -/
  idleSince : Nat
  /-- Root time of the last entry to an idle state (17 R424; 04 R102). -/
  enteredAt : Nat
  a4Wait : Bool
  /-- Accesses held until the device is in A0 (R424, 10 R254, 20 R485). -/
  heldMem : List HostMem
  heldWrites : List BarWrite
  tMax : Nat
  tHbm : Nat
  watts : Nat
  tripped : Bool
  /-- MCLK cycle in which `TRIP` was last set, 1 the first; 0: never (00 R8). -/
  trippedSet : Nat
  tripLimit : Bool
  /-- Root times since which each throttle input is below its release level (R426). -/
  thermCool : Option Nat
  powerCool : Option Nat
  hotStacks : BitVec 24
  throttledStacks : BitVec 24
  coreLow : Bool
  ioLow : Bool
  sagSeen : Bool
  /-- MCLK cycle in which `SAG_SEEN` was last set, as `trippedSet` (00 R8). -/
  sagSet : Nat
  /-- Root time at which both rails came back (R429), and at which the gate opened (R430). -/
  railsBack : Option Nat
  gateOpen : Nat
  nvWait : List NvWait
  nvRunning : List NvOp
  /-- `RST_CAUSE` bits POR, CXL_RESET, SBR, PERST, LOCK_LOSS, THERMTRIP, MEM_CLEAR (R434). -/
  rstCause : BitVec 7
  deriving DecidableEq, Repr

/-! ### Events, faults and service (18) -/

/-- Event classes (18 R438). -/
inductive EvClass where
  | info | warning | corrected | job | unit | fatal
  deriving DecidableEq, Repr

def EvClass.code : EvClass → Nat
  | .info => 0 | .warning => 1 | .corrected => 2 | .job => 3 | .unit => 4 | .fatal => 5

/-- An event as the log keeps it (18 R442, R444): `payload` is record bytes 16 to 55. -/
structure EventRec where
  code : Nat
  cls : EvClass
  secondary : Bool
  slot : Option (Fin 8)
  seq : Nat
  tally : BitVec 64
  payload : List Byte
  deriving DecidableEq, Repr

/-- Site states (18 R447). -/
inductive UnitState where
  | inService | fenced | testing | routerOnly
  deriving DecidableEq, Repr

def UnitState.code : UnitState → Nat
  | .inService => 0 | .fenced => 1 | .testing => 2 | .routerOnly => 3

/-- `RAS_UNIT_STAT.RESULT` and `FW_STAT.STATE` (18 R460). -/
inductive UnitResult where
  | none | done | busy | refused
  deriving DecidableEq, Repr

def UnitResult.code : UnitResult → Nat | .none => 0 | .done => 1 | .busy => 2 | .refused => 3

inductive FwState where
  | idle | checking | writing | written | refused
  deriving DecidableEq, Repr

def FwState.code : FwState → Nat
  | .idle => 0 | .checking => 1 | .writing => 2 | .written => 3 | .refused => 4

/-- What the firmware flash holds (18 R455). -/
structure Flash where
  image : List Byte
  /-- Bus mode of SMB_SCL and SMB_SDA: I3C rather than SMBus (19 R476). -/
  i3c : Bool
  /-- Port modes by port, `MGR_ELIG`, `REQ_ADDR` with `REQ_EN`, and the power-on count INCARN. -/
  portModes : List Nat
  mgrElig : Bool
  reqAddr : Option Nat
  incarn : Nat
  /-- Unit map and generation. -/
  fenced : List Nat
  routerOnly : List Nat
  gen : Nat
  log : List EventRec
  /-- A thermal shutdown that no boot has reported (17 R434). -/
  tripUnreported : Bool
  deriving DecidableEq, Repr

/-- Corrected-error times of one site or Mill in the sliding hour, and SRAM_UE times (18 R446); root cycles. -/
structure CeHistory where
  ce : List Nat
  ue : List Nat
  /-- Crossings of a multiple of `CE_EVT_THR` not yet reported: the structure's code and the count. -/
  crossed : List (Nat × Nat)
  deriving DecidableEq, Repr

def CeHistory.none : CeHistory := { ce := [], ue := [], crossed := [] }

structure RasState where
  seq : Nat
  /-- The RAM log, newest first, at most 8,192 records (R444). -/
  log : List EventRec
  service : Bool
  units : Tbl UnitState
  /-- Root time at which a TESTING site began (R448). -/
  testSince : Tbl Nat
  /-- MCLK cycle of a site's last fence, and site and MCLK cycle of the last RETURN or RESTORE carried out (R449). -/
  fencedAt : Tbl Nat
  movedAt : Nat × Nat
  gen : Nat
  unitResult : UnitResult
  ceSites : Tbl CeHistory
  ceMills : Tbl CeHistory
  /-- Consecutive replays of one flit, per receiving site and face (key 4 × site + face) and per bridge (R437). -/
  linkReplays : Tbl Nat
  bridgeReplays : Tbl Nat
  fwState : FwState
  fwSvn : Nat
  /-- The image being written to flash (R456). -/
  staged : List Byte
  flash : Flash
  deriving DecidableEq, Repr

/-! ### Security (16) -/

inductive DbgState where
  | locked | verifying | scrubbing | unlocked
  deriving DecidableEq, Repr

def DbgState.code : DbgState → Nat | .locked => 0 | .verifying => 1 | .scrubbing => 2 | .unlocked => 3

/-- SPDM connection state (16 R391). -/
inductive SpdmConn where
  | none | version | capabilities | negotiated | failed
  deriving DecidableEq, Repr

structure SpdmSession where
  id : Nat
  keyGen : Nat
  deriving DecidableEq, Repr

/-- A sealed region (10 R246, R257; 16 R396, R400). -/
structure Sealed where
  slots : BitVec 8
  basePg : Nat
  limitPg : Nat
  kBind : List Byte
  bsetId : List Byte
  /-- Header bytes `OWNER_PUB` ‖ `OWNER_SIG` and the member table, kept for SEAL_EXPORT (R400, R406). -/
  owner : List Byte
  members : List Byte
  teeBound : Bool
  /-- Release in progress: the Mucker is zeroing it (R405). -/
  releasing : Bool
  deriving DecidableEq, Repr

/-- An MCTP message: message type, code of its response and body (19 R476). -/
structure MctpMsg where
  type : Nat
  code : Nat
  body : List Byte
  deriving DecidableEq, Repr

structure SecState where
  rollback : Nat
  bootSvn : Nat
  bootHost : Bool
  fwVersion : Nat
  meas2 : List Byte
  meas4 : List Byte
  conn : SpdmConn
  sessions : List SpdmSession
  sessionSerial : Nat
  dbg : DbgState
  dbgResult : Nat
  chal : Option (List Byte)
  scope : Nat
  /-- Scope of the token whose unlock is in progress. -/
  scopeWait : Nat
  sealed : Tbl (Option Sealed)
  /-- MCTP messages that the Headframe controller holds and has not delivered, oldest first (19 R476). -/
  mctp : List MctpMsg
  deriving DecidableEq, Repr

/-! ### CXL attachment (11) -/

inductive IdeState where
  | none | secure | insecure
  deriving DecidableEq, Repr

def IdeState.code : IdeState → Nat | .none => 0 | .secure => 1 | .insecure => 2

structure IdeKeys where
  state : IdeState
  keySet : Bool
  programmed : Option Bool
  deriving DecidableEq, Repr

def IdeKeys.none : IdeKeys := { state := .none, keySet := false, programmed := Option.none }

inductive TdiState where
  | unlocked | locked | run | error
  deriving DecidableEq, Repr

def TdiState.code : TdiState → Nat | .unlocked => 0 | .locked => 1 | .run => 2 | .error => 3

structure Decoder where
  committed : Bool
  base : Nat
  size : Nat
  ways : Nat
  error : Bool
  deriving DecidableEq, Repr

/-- A page request outstanding (R274): its page, its deadline as a Tally value (15 R374), what waits on it. -/
structure PageReq where
  pasid : Nat
  page : Nat
  deadline : BitVec 64
  waiters : List Waiter
  deriving DecidableEq, Repr

/-- A cached translation (R273). -/
structure AtcEntry where
  pasid : Nat
  page : Nat
  addr : Nat
  /-- MCLK cycle of its translation completion (R273). -/
  since : Nat
  deriving DecidableEq, Repr

structure CxlState where
  up : Bool
  mode : Bool
  rate : Nat
  width : Nat
  everUp : Bool
  memSpace : Bool
  busMaster : Bool
  cacheEn : Bool
  memEn : Bool
  atsEn : Bool
  priEn : Bool
  pasidEn : Bool
  /-- Outstanding Page Request Allocation (R274). -/
  priAlloc : Nat
  bars : Nat
  ideSettings : Nat
  dec : Decoder
  winErr : Bool
  orphan : Bool
  /-- The host-loss scrub runs; HOST_LOST and, with no host attached by then, A2 follow it (R277). -/
  hostLoss : Bool
  /-- The Cage stopped at a host loss and stays stopped until a reset (R277). -/
  cageStopped : Bool
  ide : Tbl IdeKeys
  tdi : TdiState
  /-- STOP_INTERFACE is being processed (R272). -/
  stopping : Bool
  atc : List AtcEntry
  /-- The last MCLK cycle that had an invalidation, and the ones in it: PASID, first page, pages (R273). -/
  invAt : Nat
  invs : List (Nat × Nat × Nat)
  pri : List PageReq
  /-- Faults on further pages that wait for an allocation to free (R274). -/
  priWait : List (Nat × Nat × Waiter)
  /-- Page requests are suppressed after a Response Failure (R274). -/
  priSuppressed : Bool
  /-- MSI-X: masked vectors, pending bits, function mask (R275). -/
  msixMasked : BitVec 64
  msixPending : BitVec 64
  msixFnMask : Bool
  /-- Address and data of each vector's table entry (R264, R275). -/
  msixTable : Tbl (Nat × Nat)
  /-- D3hot, ASPM L1 enabled, the uncorrectable error status of AER and of the CXL RAS capability (R259). -/
  d3 : Bool
  aspmL1 : Bool
  aer : BitVec 32
  rasUncor : BitVec 32
  deriving DecidableEq, Repr

/-! ### Cage (12) -/

structure Ring where
  tail : Nat
  head : Nat
  cqTail : Nat
  phase : Bool
  err : Bool
  /-- Completion head word as last read (R285). -/
  cqHead : Nat
  /-- Records held under 11 R266 or waiting for the store: posted by the command, not yet in host memory. -/
  unposted : Nat
  deriving DecidableEq, Repr

def Ring.init : Ring :=
  { tail := 0, head := 0, cqTail := 0, phase := false, err := false, cqHead := 0, unposted := 0 }

/-- Progress of a COPY (R292, R293): elements moved, destination bytes written, and the page it waits on. -/
structure CopyJob where
  desc : List Byte
  next : Nat
  bytes : Nat
  waiting : Option (Nat × Nat)
  /-- An ending met, with its status code, `DETAIL` and `FAULT_ADDR`. -/
  ended : Option (Nat × Nat × Nat)
  deriving DecidableEq, Repr

/-- Progress of a BUNDLE_LOAD or SEAL_EXPORT (16 R400, R406). -/
structure BundleJob where
  header : List Byte
  /-- The load started while the TDI was in RUN (16 R396). -/
  tee : Bool := false
  region : Nat
  desc : List Byte
  /-- The command waits for a page request for a host address (R274). -/
  waiting : Option (Nat × Nat)
  deriving DecidableEq, Repr

structure BarrierJob where
  fjob : Nat
  bid : Nat
  npart : Nat
  tmoLog2 : Nat
  /-- Contribution made: its deadline as a Tally value. -/
  sent : Option (BitVec 64)
  deriving DecidableEq, Repr

/-- Progress of a SURVEY_LOAD or SET_STEP_PARAMS (07 R179, R180; 11 R274): whether it waits for a page, whether its checks
have passed. -/
structure LoadJob where
  desc : List Byte
  waiting : Bool
  checked : Bool
  deriving DecidableEq, Repr

/-- What a started, uncompleted descriptor is doing. -/
inductive StartedKind where
  | runStep (step : Nat)
  | surveyLoad (job : LoadJob)
  | kill                               -- KILL_JOB or SURVEY_UNLOAD
  | copy (job : CopyJob)
  | fence (rings slots : Nat) (waits : List Nat)
  | barrier (job : BarrierJob) (waits : List Nat)
  | powerSet (step : Nat)
  | bundleLoad (job : BundleJob)
  | sealRelease (region : Nat)
  | sealExport (job : BundleJob)
  | stepParams (job : LoadJob)
  deriving DecidableEq, Repr

structure Started where
  serial : Nat
  ring : Fin 32
  index : Nat
  /-- Bytes 0 to 15 of the descriptor (Table 12-1). -/
  header : List Byte
  namesSlot : Bool
  /-- MCLK cycle in which it reached the arbiter (12 R302). -/
  arrived : Nat
  kind : StartedKind
  deriving DecidableEq, Repr

/-- A completion at its completion point, before it is given its place in the ring (R299). -/
structure Completion where
  ring : Fin 32
  index : Nat
  serial : Nat
  header : List Byte
  status : Nat
  detail : Nat
  result : List Byte
  deriving DecidableEq, Repr

/-- A record held while Bus Master Enable is 0 (11 R266); an event with its `LOST` (18 Table 18-3). -/
inductive HeldRec where
  | completion (c : Completion)
  | event (e : EventRec) (lost : Nat)
  deriving DecidableEq, Repr

structure CageState where
  rings : Tbl Ring
  /-- Fetch order number of the next start (R284). -/
  serial : Nat
  started : List Started
  held : List HeldRec
  /-- Completions whose record waits for room in the store (11 R266). -/
  waiting : List Completion
  evTail : Nat
  evPhase : Bool
  evHead : Nat
  evErr : Bool
  /-- MCLK cycle in which `EVQ_ERR` was last set, 1 the first; 0: never (00 R8). -/
  evErrSet : Nat
  /-- Events lost since the last record written to the ring or held for it (18 R442). -/
  evLost : Nat
  deriving DecidableEq, Repr

/-! ### HBM (10) -/

/-- Pseudo-channel power states (10 R253). -/
inductive PcState where
  | active | entering (since : Nat) | powerDown | waking (since : Nat) | selfRefresh
  deriving DecidableEq, Repr

structure HbmState where
  cells : List (Nat × Byte)
  /-- Lines (addresses / 64) with an uncorrectable error (R250). -/
  ue : List Nat
  /-- 2 MiB pages of HBM in host bias (R244), by page number. -/
  hostBias : List Nat
  pcs : Tbl PcState
  /-- Root time of the last access to each pseudo-channel (R253). -/
  pcLast : Tbl Nat
  /-- Host accesses accepted while their pseudo-channel wakes; the writes among them are its pending-write count (R253). -/
  waiting : List HostMem
  patrolPos : Tbl Nat
  violArmed : Bool
  viol : Tbl Nat
  ueValid : Bool
  /-- MCLK cycle in which `MEM_UE.VALID` was last set, 1 the first; 0: never (00 R8). -/
  ueSet : Nat
  ueSrc : Nat
  ueAddr : Nat
  deriving DecidableEq, Repr

end Sys2Proof.Machine
end

