-- ==== Sys2Proof/Machine/FabState.lean ====
section
/-! DEFINITION. The state of the fabric: ports, Flecel Direct links and MACs (13), discovery, routing and transport (14). -/
namespace Sys2Proof.Machine

/-! ### Packets (14 R335) -/

/-- Packet types (Table 14-2). -/
inductive PType where
  | hello | epochMark | ack | mgmt | gatherReq | gatherRsp | lease | red | bar | error | reserved
  deriving DecidableEq, Repr

def PType.ofCode (n : Nat) : PType :=
  if n = 0 then .hello else if n = 1 then .epochMark else if n = 2 then .ack else if n = 3 then .mgmt
  else if n = 4 then .gatherReq else if n = 5 then .gatherRsp else if n = 6 then .lease else if n = 7 then .red
  else if n = 8 then .bar else if n = 9 then .error else .reserved
def PType.code : PType → Nat
  | .hello => 0 | .epochMark => 1 | .ack => 2 | .mgmt => 3 | .gatherReq => 4 | .gatherRsp => 5 | .lease => 6 | .red => 7
  | .bar => 8 | .error => 9 | .reserved => 10

/-- An FMT packet: the header fields of Table 14-1 and the payload. -/
structure Packet where
  ptype : PType
  ecn : Nat
  ece : Bool
  flood : Bool
  status : Nat
  dst : Nat
  src : Nat
  epoch : Nat
  chan : Nat
  xid : Nat
  fjob : Nat
  rslot : Nat
  seq : Nat
  ackSeq : Nat
  tally : Nat
  payload : List Byte
  deriving DecidableEq, Repr

/-- A received packet that its router slice holds: the port it came in by, the source MAC address of its frame (empty on a
Flecel Direct port). -/
structure RxPacket where
  port : Nat
  mac : List Byte
  pkt : Packet
  deriving DecidableEq, Repr

/-! ### Ports (13) -/

inductive PortPhase where
  | down | training | aligning | init | up
  deriving DecidableEq, Repr

def PortPhase.code : PortPhase → Nat | .down => 0 | .training => 1 | .aligning => 2 | .init => 3 | .up => 4

/-- A DATA flit in the replay buffer: SEQ, channel, its 240 payload bytes, when it was last sent. -/
structure Flit where
  seq : Nat
  vc : Nat
  payload : List Byte
  sent : Nat
  deriving DecidableEq, Repr

/-- A frame waiting in a transmit queue: bytes from the destination address through the FCS, and the PTP identity of an
event message (13 R328). -/
structure Frame where
  bytes : List Byte
  ptp : Bool
  deriving DecidableEq, Repr

/-- A pre-empted frame on either side (13 R327): the frame, bytes sent or got so far, the fragment count of the next. -/
structure Fragment where
  frame : List Byte
  upTo : Nat
  count : Nat
  /-- What the address filter said at the frame's first byte (13 R323). -/
  passes : Bool := true
  deriving DecidableEq, Repr

/-- A neighbour known on a port by its HELLOs (14 R339): unit ID, incarnation, fabric address, root time of the last HELLO, and
the best candidate it announced, with its designation (R340). -/
structure Neighbour where
  uid : Nat
  incarn : Nat
  addr : Option Nat
  heard : Nat
  best : Option (Bool × Nat)
  deriving DecidableEq, Repr

/-- Transmit timestamp FIFO entry (13 R329). -/
structure TxStamp where
  ts : BitVec 64
  seqId : Nat
  msgType : Nat
  deriving DecidableEq, Repr

structure PortState where
  phase : PortPhase
  /-- Root time since which the port has been out of DOWN, or retrains (R313, R317). -/
  since : Nat
  retrain : Bool
  modeErr : Bool
  retryFail : Bool
  /-- MCLK cycles in which `MODE_ERR` and `RETRY_FAIL` were last set, 1 the first; 0: never (00 R8). -/
  modeErrSet : Nat
  retryFailSet : Nat
  preempt : Bool
  lanes : Nat
  /-- Flecel Direct: next SEQ, last accepted SEQ, NAK sent in flits, replay buffer oldest first, consecutive replays. -/
  txSeq : Nat
  rxSeq : Nat
  nak : Bool
  replay : List Flit
  retries : Nat
  /-- FCLK cycle of the last replay (R316). -/
  replayAt : Option Nat
  /-- Credits per channel at the transmitter; credits to return per channel. -/
  credits : List Nat
  returns : List Nat
  /-- Bytes that wait for flits, by channel, and bytes of a packet begun in earlier flits, by channel. -/
  txBytes : List (List Byte)
  /-- Bytes at the front of each channel that belong to a packet whose first byte has left. -/
  txLead : List Nat
  /-- Bytes of each channel up to the end of the last packet stamped with an epoch that is not current (14 R347). -/
  oldBytes : List Nat
  /-- Bytes of channel 3 up to the end of an EPOCH_MARK not yet sent (14 R347). -/
  markLeft : Nat
  rxBytes : List (List Byte)
  /-- TIMEX: T_TX of the partner's last flit and the Tally at its reception (R319); when the last was sent. -/
  echo : Option (BitVec 64 × BitVec 64)
  timexSent : Nat
  /-- MAC: transmit queues 0 to 7, the frame cut by an express frame, the frame being reassembled. -/
  queues : List (List Frame)
  cut : Option Fragment
  asm : Option Fragment
  stamps : List TxStamp
  /-- Frames in the diagnostic capture (R325). -/
  capture : List (List Byte)
  /-- Neighbours heard on the port, and root time of the last HELLO sent (R339). -/
  neigh : List Neighbour
  helloSent : Option Nat
  /-- Neighbour address table: fabric address to MAC address (R339). -/
  macs : List (Nat × List Byte)
  /-- The last epoch marked by EPOCH_MARK on the port (R347). -/
  marked : Option Nat
  /-- PTP: last Sync of the parent: sequenceId and its receive time; last Delay_Req sent: sequenceId and transmit time. -/
  sync : Option (Nat × BitVec 64)
  origin : Option (BitVec 64)
  delayReq : Option (Nat × BitVec 64)
  ptpSeq : Nat
  ptpSent : Nat
  deriving DecidableEq, Repr

def PortState.init : PortState :=
  { phase := .down, since := 0, retrain := false, modeErr := false, retryFail := false, modeErrSet := 0, retryFailSet := 0, preempt := false, lanes := 0
    txSeq := 0, rxSeq := 0, nak := false, replay := [], retries := 0, replayAt := none, credits := [0, 0, 0, 0], returns := [0, 0, 0, 0]
    txBytes := [[], [], [], []], txLead := [0, 0, 0, 0], oldBytes := [0, 0, 0, 0], markLeft := 0, rxBytes := [[], [], [], []], echo := none, timexSent := 0
    queues := [[], [], [], [], [], [], [], []], cut := none, asm := none, stamps := [], capture := []
    neigh := [], helloSent := none, macs := [], marked := none
    sync := none, origin := none, delayReq := none, ptpSeq := 0, ptpSent := 0 }

/-! ### Transport (14 R352 to R356) -/

/-- A packet in the retention buffer: when last sent, and whether a gap has already had it sent again. -/
structure Kept where
  pkt : Packet
  sent : Nat
  resent : Bool
  deriving DecidableEq, Repr

/-- Sender side of a channel (R352, R353, R355). -/
structure TxChan where
  next : Nat
  kept : List Kept
  /-- Packets that wait for the window or for room in the retention buffer. -/
  queue : List Packet
  timeouts : Nat
  /-- Root time of the last advance or timeout. -/
  mark : Nat
  deriving DecidableEq, Repr

def TxChan.init : TxChan := { next := 0, kept := [], queue := [], timeouts := 0, mark := 0 }

/-- Receiver side of a channel (R354): next sequence to deliver, packets delivered since the last ACK, root time of the first
of them, ECN seen. Packets ahead of a gap wait among the received ones. -/
structure RxChan where
  want : Nat
  since : Nat
  first : Option Nat
  ecn : Bool
  deriving DecidableEq, Repr

def RxChan.init : RxChan := { want := 0, since := 0, first := none, ecn := false }

/-- Rate limiter of a destination (R356): rate in parts of line rate (numerator over 2^30), last cut, last rise. -/
structure Limiter where
  rate : Nat
  cut : Nat
  rise : Nat
  deriving DecidableEq, Repr

def lineRate : Nat := 2 ^ 30
def Limiter.init : Limiter := { rate := lineRate, cut := 0, rise := 0 }

/-- Management messages of the fabric manager: the manual names them, not their bytes. -/
inductive Mgmt where
  | assign (uid addr : Nat)
  | table (addr epoch : Nat) (entries : List (Nat × BitVec 32))
  | confirm (addr epoch : Nat)
  | commit (epoch : Nat)
  | retired (addr epoch : Nat)
  | neighbours (uid : Nat) (list : List (Nat × Nat))
  | query
  | peerNew (addr : Nat)
  | peerLost (addr : Nat)
  | resetDone (uid incarn : Nat)
  | killReply (fjob : Nat) (preempted : Bool)
  | transit (addr : Nat) (allow : Bool)
  deriving DecidableEq, Repr

/-- What the fabric manager's Headframe controller knows of a device (R342, R347): its unit ID, incarnation, remembered
address, whether it is present, its neighbours by port and unit ID, whether transit may pass through it (17 R425). -/
structure Member where
  uid : Nat
  incarn : Nat
  addr : Option Nat
  present : Bool
  links : List (Nat × Nat)
  transit : Bool
  deriving DecidableEq, Repr

/-- A device's report to the fabric manager (R342, R349, R350; 17 R425, R433): what it is, the address it holds, the one its
`REQ_ADDR` asks for, its current epoch, its neighbours by port and unit ID, whether transit may pass through it, and whether
it reports a device reset. -/
structure Report where
  uid : Nat
  incarn : Nat
  held : Option (Fin 1024)
  req : Option (Fin 1024)
  epoch : Fin 65536
  links : List (Nat × Nat)
  transit : Bool
  wasReset : Bool
  deriving DecidableEq, Repr

/-! ### What the lanes deliver (13) -/

/-- One flit as the lanes deliver it: its bytes, FEC codewords corrected and not correctable among those that carry it (R314). -/
structure RxFlit where
  bytes : List Byte
  corrected : Nat
  uncorrected : Nat
  deriving DecidableEq, Repr

/-- How a received frame is delimited (13 R327, by IEEE 802.3br): express, first fragment or whole pre-emptable frame,
continuation with its fragment count. -/
inductive FrameForm where
  | express | first | cont (count : Fin 4)
  deriving DecidableEq, Repr

/-- One frame or fragment as the lanes deliver it: bytes up to and including its FCS or mCRC, whether an error control character
falls within it, FEC codewords corrected and not correctable in it, whether the router slice's receive buffer for the port is
full (R324). -/
structure RxFrame where
  form : FrameForm
  bytes : List Byte
  codeError : Bool
  corrected : Nat
  uncorrected : Nat
  noBuffer : Bool
  deriving DecidableEq, Repr

structure FabState where
  ports : Tbl PortState
  addr : Option Nat
  /-- The election (R340): best candidate, since when, settled manager. -/
  best : Option (Bool × Nat)
  bestSince : Nat
  settled : Bool
  mgr : Option Nat
  /-- Fabric address of the manager, from its messages (15 R375). -/
  mgrAddr : Option Nat
  firstUp : Option Nat
  noMgrRaised : Bool
  incarn : Nat
  /-- Flooded messages seen: origin and number (R341). -/
  seen : List (Nat × Nat)
  epoch : Nat
  cur : Tbl (BitVec 32)
  prev : Tbl (BitVec 32)
  prevEpoch : Option Nat
  shadow : Option (Nat × List (Nat × BitVec 32))
  committed : Nat
  tx : Tbl TxChan
  rx : Tbl RxChan
  limiters : Tbl Limiter
  rxq : List RxPacket
  /-- Bytes queued by output port since it last emptied: for the marking of R356. -/
  outq : Tbl Nat
  transit : Bool
  /-- Manager's memory: every unit ID with its remembered address, kept as long as it runs. -/
  members : List Member
  /-- The epoch the manager is moving to, and since when (R347). -/
  moving : Option (Nat × Nat)
  deriving DecidableEq, Repr

def FabState.reset : FabState :=
  { ports := [], addr := none, best := none, bestSince := 0, settled := false, mgr := none, mgrAddr := none, firstUp := none
    noMgrRaised := false, incarn := 0, seen := [], epoch := 0, cur := [], prev := [], prevEpoch := none
    shadow := none, committed := 0, tx := [], rx := [], limiters := [], rxq := [], outq := [], transit := true
    members := [], moving := none }

/-- What the fabric side puts on its lanes and management paths. -/
inductive FabOut where
  | flit (port : Nat) (bytes : List Byte)
  | frame (port : Nat) (bytes : List Byte)
  | fragment (port : Nat) (count : Option Nat) (last : Bool) (bytes : List Byte)
  | mgmt (dst : Option Nat) (m : Mgmt)
  | ptp (port : Nat) (msgType seqId : Nat) (stamp : BitVec 64)
  deriving DecidableEq, Repr

end Sys2Proof.Machine
end

