-- ==== Sys2Proof/Machine/Bits.lean ====
section
/-! DEFINITION. Bit fields and little-endian byte order (00 R3), over plain numbers and byte lists. -/
namespace Sys2Proof.Machine

/-- Bits [lo + width - 1 : lo] of a number. -/
def bits (w lo width : Nat) : Nat := w / 2 ^ lo % 2 ^ width

/-- One bit of a number. -/
def bitAt (w i : Nat) : Bool := w / 2 ^ i % 2 == 1

/-- Bits [lo + width - 1 : lo] of `w` replaced by `v`. -/
def setBits (w lo width v : Nat) : Nat :=
  w - bits w lo width * 2 ^ lo + v % 2 ^ width * 2 ^ lo

/-- A Bool as a bit. -/
def b2n (b : Bool) : Nat := if b then 1 else 0

/-- Byte `i` of a byte list; bytes past the end read 0. -/
def byteAt (bs : List Byte) (i : Nat) : Nat := (bs.getD i 0).toNat

/-- Little-endian number in `n` bytes from byte `i` (R3). -/
def leAt (bs : List Byte) (i : Nat) : Nat → Nat
  | 0 => 0
  | n + 1 => byteAt bs i + 256 * leAt bs (i + 1) n

/-- The low `n` bytes of a number, little-endian (R3). -/
def leBytes : Nat → Nat → List Byte
  | 0, _ => []
  | n + 1, v => BitVec.ofNat 8 v :: leBytes n (v / 256)

/-- `n` zero bytes. -/
def zeroBytes (n : Nat) : List Byte := List.replicate n 0

/-- Bytes `i` to `i + n - 1` of a list, zero past its end. -/
def slice (bs : List Byte) (i n : Nat) : List Byte :=
  ((bs.drop i).take n) ++ zeroBytes (n - (bs.drop i).length)

/-- Whether bytes `i` to `i + n - 1` are all zero. -/
def zeroAt (bs : List Byte) (i n : Nat) : Bool := ((bs.drop i).take n).all (· == 0)

/-- A 32-bit register's two's-complement value. -/
def signed (width v : Nat) : Int :=
  if v % 2 ^ width < 2 ^ (width - 1) then (v % 2 ^ width : Nat) else (v % 2 ^ width : Nat) - (2 ^ width : Nat)

/-- Two's complement of an integer in `width` bits. -/
def unsigned (width : Nat) (i : Int) : Nat := (i % (2 ^ width : Nat)).toNat

/-- Floor of the quotient rounded up. -/
def ceilDiv (a b : Nat) : Nat := (a + (b - 1)) / b

/-- Clamp to the nearer bound, as the register tables say. -/
def clampNat (lo hi v : Nat) : Nat := if v < lo then lo else if hi < v then hi else v

end Sys2Proof.Machine
end

