-- ==== Sys2Proof/Machine/Survey.lean ====
section
/-! DEFINITION. What a Survey image says (07): its header, its ten sections as records, and how the bytes are read. -/
namespace Sys2Proof.Machine

/-- Input port descriptor (Table 07-4). -/
structure InPort where
  cls : Nat
  mSeq : Bool
  mIter : Bool
  mSub : Bool
  ring : Nat
  uses : Nat
  tkind : Nat
  ifmt : Nat
  ischeme : Nat
  role : Nat
  preg : Nat
  pbax : Nat
  sport : Nat
  deriving DecidableEq, Repr

/-- Output port descriptor (Table 07-5). -/
structure OutPort where
  seqSel : Nat
  iterSel : Nat
  subSel : Nat
  tensor : Nat
  seqK : Nat
  iterK : Nat
  subK : Nat
  route : Nat
  deriving DecidableEq, Repr

/-- Loop dimensions (06 R147). -/
inductive LoopDim where
  | m | n | k | b
  deriving DecidableEq, Repr

/-- Firing entry (Table 07-6). -/
structure Entry where
  inMask : Nat
  lead : Nat
  outMask : Nat
  arr : Nat
  axis : Nat
  panel : Nat
  op : Nat
  /-- The four loops, outermost first, with their trip counts. -/
  loops : List (LoopDim × Nat)
  kc : Nat
  pe : Nat
  causal : Bool
  predKEn : Bool
  predK : Bool
  causalOfs : Int
  pbase : Nat
  lenBind : Nat
  lenMask : Nat
  pbind : Nat
  fp32x : Bool
  prog : Option Nat
  /-- Stream template of a memory-unit station: `ARR` and `KC` as the index (R167). -/
  tmpl : Nat
  deriving DecidableEq, Repr

/-- Output conversion descriptor (Table 02-8). -/
structure OutConv where
  fmt : Nat
  conv : Nat
  scheme : Nat
  cen : Bool
  wlog2 : Nat
  satThr : Nat
  ufzThr : Nat
  nanThr : Nat
  s2 : Nat
  seed : Nat
  trows : Nat
  tinner : Nat
  deriving DecidableEq, Repr

/-- Station record (Table 07-3). -/
structure Station where
  kind : Nat
  ctx : Nat
  site : Nat
  part : Nat
  ins : List InPort
  outs : List OutPort
  ents : List Entry
  convs : List OutConv
  deriving DecidableEq, Repr

/-- A share of one resource of a site (R169). -/
structure Share where
  base : Nat
  count : Nat
  deriving DecidableEq, Repr

/-- Partition record (R169). -/
structure Part where
  site : Nat
  ctx : Nat
  acc : Share
  panel : Share
  ring : Share
  row : Share
  mtch : Share
  winMask : Nat
  agMask : Nat
  spillMask : Nat
  deriving DecidableEq, Repr

/-- Tag-class entry (R170). -/
structure TagRes where
  part : Nat
  cls : Nat
  resv : Nat
  deriving DecidableEq, Repr

/-- Route entry (Table 07-7). -/
structure Route where
  src : Nat
  dst : Nat
  wp1 : Nat
  wp2 : Nat
  dstn : Nat
  dport : Nat
  tmpl : Nat
  deriving DecidableEq, Repr

/-- Window image (Table 04-10). -/
structure WinImage where
  en : Bool
  slot : Nat
  basePg : Nat
  limitPg : Nat
  pads : List Nat
  deriving DecidableEq, Repr

/-- Spill image (Table 04-11): `size` is the region size in lines. -/
structure SpillImage where
  en : Bool
  win : Nat
  baseLn : Nat
  size : Nat
  limit : Nat
  deriving DecidableEq, Repr

/-- MU region record (R171). -/
structure MuRegion where
  site : Nat
  ctx : Nat
  wins : List WinImage
  spills : List SpillImage
  deriving DecidableEq, Repr

/-- HBM region of a Survey (R172). -/
structure Region where
  base : Nat
  len : Nat
  kind : Nat
  isSealed : Bool
  deriving DecidableEq, Repr

/-- Address-generator descriptor (Table 04-2). -/
structure AgDesc where
  ew : Nat
  write : Bool
  ptr : Bool
  cturn : Bool
  coal : Bool
  ndim : Nat
  padSel : Nat
  win : Nat
  base : Nat
  counts : List Nat
  lims : List Nat
  strides : List Int
  plist : Nat
  plen : Nat
  deriving DecidableEq, Repr

/-- Stream template (R174); `desc` is none where the 64 bytes are zero. -/
structure Tmpl where
  desc : Option AgDesc
  ring : Nat
  deep : Bool
  kind : Nat
  slots : Nat
  lines : Nat
  spill : Nat
  spillEn : Bool
  spillDir : Nat
  sinkTo : Nat
  rearm : Nat
  rearmN : Nat
  region : Option Nat
  off : Nat
  deriving DecidableEq, Repr

/-- Re-arm entry (R138, R174). -/
structure Rearm where
  base : Nat
  lims : List Nat
  deriving DecidableEq, Repr

/-- Mill rule record (Table 09-1). -/
structure Rule where
  rec8 : Bool
  usel : Nat
  hsel : Bool
  gBf16 : Bool
  nfFault : Bool
  mconv : Nat
  alpha1 : Word
  beta1 : Word
  alpha2 : Word
  beta2 : Word
  eps : Word
  lambda : Word
  mseed : Nat
  canary : OutConv
  deriving DecidableEq, Repr

/-- Vector instruction (R168). -/
structure VInstr where
  op : Nat
  d : Nat
  a : Nat
  b : Nat
  imm : Word
  deriving DecidableEq, Repr

/-- The image as read. -/
structure Survey where
  target : Nat
  digest : List Byte
  fjob : Nat
  nSluice : Nat
  nRule : Nat
  mapGen : Nat
  stations : List Station
  parts : List Part
  tags : List TagRes
  routes : List Route
  mus : List MuRegion
  regions : List Region
  tmpls : List Tmpl
  rearms : List Rearm
  rules : List Rule
  prog : List VInstr
  deriving DecidableEq, Repr

/-! ### Reading -/

def bitOf (b : List Byte) (i n : Nat) : Bool := bitAt (byteAt b i) n

def InPort.parse (b : List Byte) : InPort :=
  { cls := byteAt b 0 % 16, mSeq := bitOf b 0 4, mIter := bitOf b 0 5, mSub := bitOf b 0 6, ring := byteAt b 1 % 32
    uses := leAt b 2 2, tkind := byteAt b 4 % 8, ifmt := byteAt b 5 % 16, ischeme := bits (byteAt b 5) 4 2
    role := byteAt b 6 % 8, preg := bits (byteAt b 6) 3 3, pbax := bits (byteAt b 6) 6 1, sport := byteAt b 7 % 8 }

def OutPort.parse (b : List Byte) : OutPort :=
  { seqSel := byteAt b 0 % 2, iterSel := bits (byteAt b 0) 1 2, subSel := bits (byteAt b 0) 3 2
    tensor := bits (byteAt b 0) 5 3, seqK := byteAt b 1 % 128, iterK := leAt b 2 2 % 16384, subK := byteAt b 4
    route := leAt b 6 2 }

def LoopDim.ofCode (n : Nat) : LoopDim := if n = 0 then .m else if n = 1 then .n else if n = 2 then .k else .b

def Entry.parse (b : List Byte) : Entry :=
  { inMask := byteAt b 0, lead := byteAt b 1 % 8, outMask := bits (byteAt b 1) 4 4, arr := byteAt b 2 % 16
    axis := bits (byteAt b 2) 4 1, panel := bits (byteAt b 2) 5 3, op := byteAt b 3
    loops := (List.range 4).map fun i => (LoopDim.ofCode (byteAt b (4 + i) % 4), leAt b (8 + 2 * i) 2 + 1)
    kc := leAt b 16 2 + 1, pe := byteAt b 18 % 128, causal := bitOf b 18 7, predKEn := bitOf b 19 0, predK := bitOf b 19 1
    causalOfs := signed 16 (leAt b 20 2), pbase := byteAt b 22, lenBind := byteAt b 23, lenMask := byteAt b 24 % 16
    pbind := bits (byteAt b 24) 4 4, fp32x := bitOf b 25 0
    prog := if leAt b 28 4 = 2 ^ 32 - 1 then none else some (leAt b 28 4)
    tmpl := byteAt b 2 % 16 + 16 * leAt b 16 2 }

def OutConv.parse (b : List Byte) : OutConv :=
  { fmt := byteAt b 0 % 16, conv := bits (byteAt b 0) 4 4, scheme := byteAt b 1 % 4, cen := bitOf b 1 2
    wlog2 := byteAt b 2 % 64, satThr := leAt b 4 4, ufzThr := leAt b 8 4, nanThr := leAt b 12 2, s2 := leAt b 16 4
    seed := leAt b 20 4, trows := leAt b 24 4, tinner := leAt b 28 4 }

def Station.nin (b : List Byte) : Nat := byteAt b 1 % 8 + 1
def Station.nout (b : List Byte) : Nat := bits (byteAt b 1) 3 2 + 1
def Station.nent (b : List Byte) : Nat := bits (byteAt b 1) 5 2 + 1
def Station.nten (b : List Byte) : Nat := byteAt b 2 % 8 + 1

def Station.parse (b : List Byte) : Station :=
  { kind := byteAt b 0 % 16, ctx := bits (byteAt b 0) 4 1, site := leAt b 4 2 % 8192, part := leAt b 6 2
    ins := (List.range (Station.nin b)).map fun i => InPort.parse (slice b (64 + 8 * i) 8)
    outs := (List.range (Station.nout b)).map fun i => OutPort.parse (slice b (8 + 8 * i) 8)
    ents := (List.range (Station.nent b)).map fun i => Entry.parse (slice b (128 + 32 * i) 32)
    convs := (List.range (Station.nten b)).map fun i => OutConv.parse (slice b (256 + 32 * i) 32) }

def Part.parse (b : List Byte) : Part :=
  let sh (i : Nat) : Share := { base := byteAt b i, count := byteAt b (i + 1) }
  { site := leAt b 0 2 % 8192, ctx := byteAt b 2 % 2, acc := sh 4, panel := sh 6, ring := sh 8, row := sh 10, mtch := sh 12
    winMask := byteAt b 14, agMask := byteAt b 15 % 16, spillMask := leAt b 16 2 }

def TagRes.parse (b : List Byte) : TagRes := { part := leAt b 0 2, cls := byteAt b 2 % 16, resv := byteAt b 3 }

def Route.parse (b : List Byte) : Route :=
  { src := leAt b 0 2 % 8192, dst := leAt b 2 2 % 8192, wp1 := leAt b 4 2, wp2 := leAt b 6 2
    dstn := leAt b 8 2 % 8192, dport := byteAt b 10 % 8, tmpl := leAt b 12 2 }

def WinImage.parse (b : List Byte) : WinImage :=
  { en := bitOf b 0 0, slot := bits (byteAt b 0) 1 3, basePg := leAt b 4 2 % 512, limitPg := leAt b 8 2 % 1024
    pads := (List.range 4).map fun i => leAt b (16 + 4 * i) 4 }

def SpillImage.parse (b : List Byte) : SpillImage :=
  { en := bitOf b 0 0, win := bits (byteAt b 0) 1 3, baseLn := leAt b 4 2 % 32768, size := leAt b 6 2 + 1, limit := leAt b 8 2 }

def MuRegion.parse (b : List Byte) : MuRegion :=
  { site := leAt b 0 2 % 8192, ctx := byteAt b 2 % 2
    wins := (List.range 8).map fun i => WinImage.parse (slice b (64 + 32 * i) 32)
    spills := (List.range 16).map fun i => SpillImage.parse (slice b (320 + 16 * i) 16) }

def Region.parse (b : List Byte) : Region :=
  { base := leAt b 0 8, len := leAt b 8 8, kind := byteAt b 16, isSealed := bitOf b 17 0 }

def AgDesc.parse (b : List Byte) : AgDesc :=
  { ew := byteAt b 0 % 8, write := bitOf b 0 3, ptr := bitOf b 0 4, cturn := bitOf b 0 5, coal := bitOf b 0 6
    ndim := byteAt b 1 % 8, padSel := bits (byteAt b 1) 3 2, win := byteAt b 2 % 8, base := leAt b 4 4 % 2 ^ 21
    counts := (List.range 5).map fun i => leAt b (8 + 2 * i) 2 + 1
    lims := (List.range 5).map fun i => leAt b (18 + 2 * i) 2
    strides := (List.range 5).map fun i => signed 32 (leAt b (28 + 4 * i) 4)
    plist := leAt b 48 4 % 2 ^ 21, plen := leAt b 52 2 + 1 }

def Tmpl.parse (b : List Byte) : Tmpl :=
  { desc := if zeroAt b 0 64 then none else some (AgDesc.parse b)
    ring := byteAt b 64 % 32, deep := bitOf b 64 5, kind := byteAt b 65 % 8, slots := byteAt b 66 + 1, lines := byteAt b 67 + 1
    spill := byteAt b 68 % 16, spillEn := bitOf b 68 4, spillDir := bits (byteAt b 68) 5 2, sinkTo := byteAt b 69 % 4
    rearm := leAt b 72 4, rearmN := byteAt b 76
    region := if leAt b 80 2 = 0xFFFF then none else some (leAt b 80 2), off := leAt b 84 8 }

def Rearm.parse (b : List Byte) : Rearm :=
  { base := leAt b 0 4, lims := (List.range 5).map fun i => leAt b (4 + 2 * i) 2 }

def wordAt (b : List Byte) (i : Nat) : Word := BitVec.ofNat 32 (leAt b i 4)

def Rule.parse (b : List Byte) : Rule :=
  { rec8 := bitOf b 0 0, usel := bits (byteAt b 0) 1 2, hsel := bitOf b 0 3, gBf16 := bitOf b 0 4, nfFault := bitOf b 0 5
    mconv := byteAt b 1 % 16, alpha1 := wordAt b 4, beta1 := wordAt b 8, alpha2 := wordAt b 12, beta2 := wordAt b 16
    eps := wordAt b 20, lambda := wordAt b 24, mseed := leAt b 28 4, canary := OutConv.parse (slice b 32 32) }

def VInstr.parse (b : List Byte) : VInstr :=
  { op := byteAt b 0, d := byteAt b 1, a := byteAt b 2, b := byteAt b 3, imm := wordAt b 4 }

/-! ### The image's layout (R162, R163) -/

/-- `ESIZE` of each directory entry (Table 07-2; section 8 by 09 R213). -/
def sectionSize (e : Nat) : Nat := [512, 32, 4, 16, 576, 32, 128, 16, 64, 8].getD e 0
def sectOffset (img : List Byte) (e : Nat) : Nat := leAt img (64 + 16 * e) 8
def sectCount (img : List Byte) (e : Nat) : Nat := leAt img (72 + 16 * e) 4
def sectEsize (img : List Byte) (e : Nat) : Nat := leAt img (76 + 16 * e) 4

/-- The records of a section, each of its `ESIZE` bytes. -/
def sectRecords (img : List Byte) (e : Nat) : List (List Byte) :=
  (List.range (sectCount img e)).map fun i => slice img (sectOffset img e + sectionSize e * i) (sectionSize e)

def imgStations (img : List Byte) : Nat := leAt img 52 4 % 16384
def imgRules (img : List Byte) : Nat := byteAt img 51 % 32

/-- The Survey an image holds. -/
def Survey.parse (img : List Byte) : Survey :=
  { target := byteAt img 6, digest := slice img 16 32, fjob := leAt img 48 2 % 4096, nSluice := byteAt img 50 % 128
    nRule := imgRules img, mapGen := leAt img 56 4
    stations := (sectRecords img 0).map Station.parse, parts := (sectRecords img 1).map Part.parse
    tags := (sectRecords img 2).map TagRes.parse, routes := (sectRecords img 3).map Route.parse
    mus := (sectRecords img 4).map MuRegion.parse, regions := (sectRecords img 5).map Region.parse
    tmpls := (sectRecords img 6).map Tmpl.parse, rearms := (sectRecords img 7).map Rearm.parse
    rules := (sectRecords img 8).map Rule.parse, prog := (sectRecords img 9).map VInstr.parse }

/-! ### Reading the records together -/

/-- Bytes of `n` packed elements of a format, group padding included (02 R26; `rb` of 06 R150). `w` is the element width. -/
def packedBytes (w n : Nat) : Nat := if w = 6 then 3 * ceilDiv n 4 else ceilDiv (w * n) 8

def Station.isMuKind (k : Nat) : Bool := k = 6 || k = 7 || k = 8
/-- SINK, SOURCE and GATHER entries walk a template (R167, R174). -/
def Station.walks (st : Station) : Bool := Station.isMuKind st.kind
def Station.inPort (st : Station) (p : Nat) : Option InPort := st.ins[p]?
/-- A port carries the scale tokens of a scaled DATA port of an entry's input mask (R498). -/
def Entry.scales (e : Entry) (st : Station) (p : Nat) : Bool :=
  (List.range 8).any fun q => bitAt e.inMask q && (match st.inPort q with
    | some x => x.tkind == 0 && x.ischeme != 0 && x.sport == p | none => false)
/-- Ports an entry consumes, lowest first: those of its input mask, and the scale ports of its scaled tiles, which fire on neither alone
(02 R47). -/
def Entry.ports (e : Entry) (st : Station) : List (Nat × InPort) :=
  ((List.range 8).filter fun p => bitAt e.inMask p || e.scales st p).filterMap fun p => (st.inPort p).map fun q => (p, q)
/-- Consumed ports of a role (R498). -/
def Entry.role (e : Entry) (st : Station) (r : Nat) : List (Nat × InPort) := (e.ports st).filter fun p => p.2.role == r
/-- Arrays of the mask (03 R54), lowest first, and how many. -/
def Entry.arrays (e : Entry) : List Nat := (List.range 4).filter fun a => bitAt e.arr a
def Entry.nArr (e : Entry) : Nat := e.arrays.length
/-- Trip count of the loops of a dimension. -/
def Entry.trip (e : Entry) (d : LoopDim) : Nat := (e.loops.filter fun l => l.1 == d).foldl (fun a l => a * l.2) 1

/-- Open tiles of a loop nest (06 R148): the output loops inside the outermost reduction loop. -/
def openTiles : List (LoopDim × Nat) → Nat
  | [] => 0
  | l :: ls => if l.1 = .k ∧ 1 < l.2 then ((ls.filter fun x => x.1 != .k).foldl (fun a x => a * x.2) 1) else openTiles ls

/-- `CAUSAL` and the rest apart, a FUSED entry opens Dv ÷ 16 tiles per open query block (06 R161). -/
def Entry.openBlocks (e : Entry) : Nat := max 1 (openTiles e.loops)

/-- Where a loop nest stands at step `t`: index of each loop, outermost first (06 R147). -/
def loopIndices : List (LoopDim × Nat) → Nat → List Nat
  | [], _ => []
  | l :: ls, t => (t / (ls.foldl (fun a x => a * x.2) 1)) % l.2 :: loopIndices ls t

def Entry.steps (e : Entry) : Nat := e.loops.foldl (fun a l => a * l.2) 1
/-- Index along one dimension at step `t`, loops of that dimension taken together, outermost first. -/
def Entry.index (e : Entry) (d : LoopDim) (t : Nat) : Nat :=
  ((e.loops.zip (loopIndices e.loops t)).filter fun x => x.1.1 == d).foldl (fun a x => a * x.1.2 + x.2) 0
/-- Index among the output loops nested inside the outermost reduction loop: the open tile of a step. -/
def openIndex : List (LoopDim × Nat) → List Nat → Nat
  | l :: ls, _ :: is =>
    if l.1 = .k ∧ 1 < l.2 then ((ls.zip is).filter fun x => x.1.1 != .k).foldl (fun a x => a * x.1.2 + x.2) 0
    else openIndex ls is
  | _, _ => 0
/-- Index among every output loop: the stationary tile of a step (06 R148). -/
def Entry.outIndex (e : Entry) (t : Nat) : Nat :=
  ((e.loops.zip (loopIndices e.loops t)).filter fun x => x.1.1 != .k).foldl (fun a x => a * x.1.2 + x.2) 0

/-- The vector program from an index: its instructions before the closing 0x00 (R168). -/
def Survey.program (v : Survey) (i : Nat) : List VInstr := ((v.prog.drop i).take 256).takeWhile fun x => x.op != 0
def Survey.entryProg (v : Survey) (e : Entry) : List VInstr := match e.prog with | some i => v.program i | none => []

/-- Where an output port leads. -/
def Survey.routeOf (v : Survey) (o : OutPort) : Option Route := v.routes[o.route]?
def Survey.tmplOf (v : Survey) (o : OutPort) : Option Tmpl := (v.routeOf o).bind fun r => v.tmpls[r.tmpl]?
/-- The consumer ring's template of an input port: the one some route that ends at the port names. -/
def Survey.tmplAt (v : Survey) (st port : Nat) : Option (Nat × Tmpl) :=
  (v.routes.find? fun r => r.dstn == st && r.dport == port).bind fun r => (v.tmpls[r.tmpl]?).map fun t => (r.tmpl, t)
def Station.part? (v : Survey) (st : Station) : Option Part := v.parts[st.part]?
def Station.conv (st : Station) (o : OutPort) : OutConv :=
  st.convs.getD o.tensor { fmt := 0, conv := 0, scheme := 0, cen := false, wlog2 := 40, satThr := 0xFFFFFFFF
                           ufzThr := 0xFFFFFFFF, nanThr := 0xFFFF, s2 := 0, seed := 0, trows := 0, tinner := 0 }
/-- Elements in a row of the tiles that a walk delivers, and elements of a tile: its extents, the loops but B stepping through the
dimensions from the outermost inward (log entry 10). -/
def AgDesc.extent (d : AgDesc) (e : Entry) (k : Nat) : Nat :=
  match (e.loops.filter fun l => l.1 != .b)[d.ndim - 1 - k]? with
  | some l => ceilDiv (d.counts.getD k 1) l.2
  | none => d.counts.getD k 1
def AgDesc.row (d : AgDesc) (e : Entry) : Nat := d.extent e (if d.cturn then 1 else 0)
def AgDesc.elems (d : AgDesc) (e : Entry) : Nat := (List.range d.ndim).foldl (fun a k => a * d.extent e k) 1
/-- Elements in a row of the tiles that reach an input port from a walk, none where no walk feeds it. -/
def Survey.rowLen (v : Survey) (st port : Nat) : Option Nat :=
  (v.routes.zipIdx.find? fun t => t.1.dstn == st && t.1.dport == port).bind fun t =>
    v.stations.findSome? fun x => if !x.walks then none
      else x.outs.zipIdx.findSome? fun o => if o.1.route ≠ t.2 then none
        else x.ents.findSome? fun e => if bitAt e.outMask o.2 then ((v.tmpls[e.tmpl]?).bind (·.desc)).map (·.row e) else none
/-- Dv of a FUSED entry (06 R155): the row length of the walk that feeds its V port, and D where none does (log entry 12). -/
def Survey.dv (v : Survey) (idx : Nat) (st : Station) (e : Entry) : Nat :=
  match e.role st 5 with | p :: _ => (v.rowLen idx p.1).getD e.kc | [] => e.kc

/-- First accumulator tile of entry `i` of a station: the entries' resident counts stand one after another (06 R148). -/
def Entry.resident (e : Entry) (fused : Bool) (dvTiles : Nat) : Nat :=
  openTiles e.loops * (if fused then dvTiles else 1) + e.pe
/-- The station is fed by Hoist staging: a GATHER whose walk is no pointer-list walk (08 R186, R192). -/
def Survey.hoistFed (v : Survey) (st : Station) : Bool :=
  st.kind == 8 && st.ents.any fun e => match (v.tmpls[e.tmpl]?).bind (·.desc) with | some d => !d.ptr | none => true

end Sys2Proof.Machine
end

