-- ==== Sys2Proof/Machine/FlowState.lean ====
section
/-! DEFINITION. The state of the dataflow region: stations, tokens, rings, arrays, panels, scratchpad (03 to 06), job slots
(07), Hoists (08) and Mills (09). -/
namespace Sys2Proof.Machine

/-! ### Tokens and rings (05) -/

/-- What follows a token's tag (Table 05-2): nothing, the ERROR mark, or the payload bytes. -/
inductive Payload where
  | null
  | error
  | data (bs : List Byte)
  deriving DecidableEq, Repr

/-- A token, with what the model carries along and its 8 header bytes do not: the RUN_STEP number whose START set it off, none of the
Cage's other tokens, and the elements in a row of the tile, 0 where it has no rows (DESIGN CHOICE, log entry 13). -/
structure Token where
  tag : Nat
  pay : Payload
  step : Option Nat := none
  cols : Nat := 0
  deriving DecidableEq, Repr

/-- A token in a ring slot: slot number, arrival number, firings it has taken part in, whether the matching store indexes
it, and the arrival number of its indexing. -/
structure Held where
  tok : Token
  pos : Nat
  order : Nat
  used : Nat
  indexed : Option Nat
  deriving DecidableEq, Repr

/-- A token in a spill region: its first line there. -/
structure Spilled where
  line : Nat
  tok : Token
  deriving DecidableEq, Repr

/-- A stream ring at its consumer (R134, R139): owner, consumer port, template, held tokens in arrival order, next slot,
credits at the producers, released slots whose credit is on its way, spilled tokens oldest first. -/
structure RingRun where
  slot : Nat
  ctx : Nat
  station : Nat
  port : Nat
  tmpl : Nat
  toks : List Held
  tail : Nat
  credits : Nat
  freed : Nat
  spill : List Spilled
  deriving DecidableEq, Repr

/-- A token on the mesh (R135, R136): sender (station device index and output port, none for the Cage), destination ring,
and whether it took a ring credit. -/
structure Flight where
  slot : Nat
  src : Option (Nat × Nat)
  site : Nat
  ring : Nat
  credit : Bool
  tok : Token
  deriving DecidableEq, Repr

/-- Matching store of one context (R123): shared entries in use, reserved entries in use by class. An entry that a class took from
the shared pool may come back to its reserve, which then holds more free entries than `RESV`: a count below 0. -/
structure MatchStore where
  shared : Nat
  resv : List Int
  deriving DecidableEq, Repr

def MatchStore.empty : MatchStore := { shared := 0, resv := List.replicate 16 0 }

/-! ### Stations -/

/-- A tile the sequencer has issued (R132): entry, step of the loop nest, limits of the loops (none: full extent), firing
tag, and the length-clipped extent of each loop. -/
structure Issue where
  entry : Nat
  step : Nat
  limits : List (Option Nat)
  /-- Lead tag of the firing. -/
  tag : Nat
  /-- Tile count of the firing within its sequence and iteration (R121). -/
  count : Nat
  deriving DecidableEq, Repr

/-- Canary counts of one output tensor (02 R51, R52): the tile being written, window, lifetime. The four numbers
are saturations, underflows, NaNs and elements. -/
structure Canary where
  tile : List Nat
  win : List Nat
  tripped : List Bool
  life : List Nat
  deriving DecidableEq, Repr

def Canary.zero : Canary := { tile := [0, 0, 0, 0], win := [0, 0, 0, 0], tripped := [false, false, false], life := [0, 0, 0] }

/-- The running part of a station, by device index. -/
structure StationRun where
  issue : Option Issue
  /-- Step of each entry's loop nest, by entry, sequence and iteration: key entry × 2^21 + tag bits [28:8]. -/
  steps : Tbl Nat
  /-- Firings of each sequence and iteration, by the key of `steps`: the RUN_STEP they belong to, and how many (R121). -/
  counts : Tbl (Option Nat × Nat)
  /-- Arrival numbers of the LEN tokens whose clamped lengths have been counted (R132). -/
  clamped : List Nat
  /-- Stationary tiles that have been started, by accumulator tile (R204). -/
  started : List Nat
  canary : Tbl Canary
  /-- Tiles whose boundary has not come (R6, R98), and the tokens that wait for it. -/
  tiles : Nat
  /-- Those tiles, oldest first: RUN_STEP number, and Canary counts by tensor (R51). -/
  marks : List (Option Nat × Tbl (List Nat))
  /-- Tokens formed that hold no credit yet, by output port, oldest first (R134). -/
  outbox : List (Nat × Token)
  waiting : List (Nat × Token)
  /-- Tiles drained to an output port, by firing number and array, until all arrays of the firing have drained. -/
  drained : List (Nat × Nat × List Word)
  /-- Firings issued, the number of the next. -/
  firings : Nat
  /-- Banks for whose wake the generator waits (04 R103). -/
  wake : List Nat
  /-- A SINK's firing waits for credit of a Mill or of the Sluice (08 R195, 14 R359). -/
  starved : Bool
  /-- Output tiles of a reduction for which some tile has fired: key of `steps` × 2^20 + tile (R133). -/
  reduced : List Nat
  deriving DecidableEq, Repr

def StationRun.init : StationRun :=
  { issue := none, steps := [], counts := [], clamped := [], started := [], canary := [], tiles := 0, marks := [], outbox := [], waiting := [], drained := [], firings := 0, wake := [], starved := false, reduced := [] }

/-! ### Arrays, accumulator memory, panels (03) -/

/-- Where a finished phase of a tile goes (R67): its accumulator-memory tile, or the outputs of the entry. -/
inductive DrainTo where
  | acc (tile : Nat)
  | outs (entry : Nat)
  /-- The firing finishes the stationary tiles of an entry (08 R204): this tile drains, then all of them go out. -/
  | flush (entry tile : Nat)
  deriving DecidableEq, Repr

/-- A tile in an accumulator set: owning station and firing, firing tag, tile, values row by row, where it goes, the root
time at which its last add is complete. -/
structure TileWork where
  station : Nat
  firing : Nat
  tag : Nat
  tile : Nat
  vals : List Word
  dest : DrainTo
  done : Nat
  /-- Tile count of the firing within its sequence and iteration, and whether the values are INT32. -/
  count : Nat
  isInt : Bool
  /-- The first group of the tile's first firing carries the start flag: nothing is loaded (R64). -/
  fresh : Bool
  /-- RUN_STEP number of the firing's tokens, and the panel region it reads. -/
  step : Option Nat
  panel : Option Nat
  deriving DecidableEq, Repr

/-- One accumulator set (R63 to R65): its tile, the root time until which its shadow work lasts, and the part of that time
that is a wait for vector lanes (R67). -/
structure AccSet where
  work : Option TileWork
  busy : Nat
  laneWait : Nat
  deriving DecidableEq, Repr

def AccSet.idle : AccSet := { work := none, busy := 0, laneWait := 0 }

/-- An outer-product array: which set is active, the two sets, and a firing whose swap waits, with since when. -/
structure ArrayRun where
  active : Bool
  a : AccSet
  b : AccSet
  next : Option (TileWork × Nat)
  deriving DecidableEq, Repr

def ArrayRun.init : ArrayRun := { active := false, a := .idle, b := .idle, next := none }

/-- A panel region (R70 to R72): bytes filled so far, row after row, whether the last has arrived, tag of the fill, arrival number of the
fill's completion, and the firings it has taken part in as an operand. -/
structure PanelRun where
  bytes : List Byte
  ready : Bool
  tag : Nat
  order : Nat
  used : Nat
  /-- Block scales filled so far: first-order code and second-order scale of each block. -/
  scales : List (Nat × Word)
  deriving DecidableEq, Repr

def PanelRun.empty : PanelRun := { bytes := [], ready := false, tag := 0, order := 0, used := 0, scales := [] }

/-! ### Memory units (04) -/

/-- Bank power states (R102); `waking` since the access that waits arrived. -/
inductive BankState where
  | active | entering (since : Nat) | retain | waking (since : Nat) | off
  deriving DecidableEq, Repr

/-- The coalescing buffer of a generator (R97): the partly written line with its bytes, since when, and the lines read. -/
structure CoalRun where
  line : Option (Nat × List (Nat × Byte))
  since : Nat
  reads : List Nat
  deriving DecidableEq, Repr

def CoalRun.empty : CoalRun := { line := none, since := 0, reads := [] }

/-- A walk's place in its stream (R138): re-arm entry last taken, with the values it then had (none: the template's own), walks
complete whose tile boundary is to come, and replacements that wait. -/
structure StreamRun where
  at_ : Option Nat
  cur : Option Rearm
  due : Nat
  rearms : List (Nat × Rearm)
  deriving DecidableEq, Repr

def StreamRun.init : StreamRun := { at_ := none, cur := none, due := 0, rearms := [] }

/-- A debug-window access that waits for a bank's wake (R103, R105). -/
structure BankWait where
  site : Nat
  off : Nat
  write : Option Byte
  /-- Corrected errors that the access meets (R85). -/
  ce : Nat
  deriving DecidableEq, Repr

/-! ### Hoists (08) -/

/-- Layer entry (Table 08-2). -/
structure Layer where
  sfmt : Nat
  scheme : Nat
  frozen : Bool
  conv : Nat
  vmode : Bool
  rule : Nat
  rgCount : Nat
  rows : Nat
  cols : Nat
  rowsSh : Nat
  state : Nat
  s2f : Word
  s2t : Word
  fwdStg : Nat
  fwdN : Nat
  trnStg : Nat
  trnN : Nat
  seed : Nat
  deriving DecidableEq, Repr

/-- Staging chunk record (R186). -/
structure Chunk where
  site : Nat
  win : Nat
  page : Nat
  pages : Nat
  deriving DecidableEq, Repr

/-- The layer table of a slot as accepted (R185, R186). -/
structure HoistTable where
  nn : Nat
  nd : Nat
  myNode : Nat
  myDev : Nat
  peers : List Nat
  layers : List Layer
  ovfBase : Nat
  ovfLen : Nat
  chunks : List Chunk
  deriving DecidableEq, Repr

/-- Kinds of gather (R188, R189). -/
inductive GatherKind where
  | forward | regather | holder
  deriving DecidableEq, Repr

/-- A gather request this device has made, waiting for its response (R188, 14 R358): the rows lie in one shard. -/
structure GatherReq where
  num : Nat
  slot : Nat
  layer : Nat
  transposed : Bool
  kind : GatherKind
  version : Nat
  row : Nat
  rows : Nat
  /-- Address asked, none for this device itself. -/
  peer : Option Nat
  /-- A forward-only slot asks; it takes the latest version (R206). -/
  fwdOnly : Bool
  latest : Bool
  /-- Response bytes so far. -/
  got : Nat
  /-- A request of another device that this one passes on (R197): who asked, its request number and slot. -/
  relay : Option (Nat × Nat × Nat)
  deriving DecidableEq, Repr

/-- A gather read queued at this device: the slot that serves it (8: the slot is gone), the request and who asked (none: a
Hoist of this device), whether for a background slot (R207), and the root time at which it was queued. Values that wait for their block's amax
stand in `awaiting`, with the version served, and the blocks that have been converted in `blocks` (R231). -/
structure GatherRead where
  slot : Nat
  layer : Nat
  transposed : Bool
  kind : GatherKind
  version : Nat
  row : Nat
  rows : Nat
  num : Nat
  peer : Option Nat
  rslot : Nat
  fjob : Nat
  fwdOnly : Bool
  latest : Bool
  bg : Bool
  since : Nat
  awaiting : Option (List (Nat × Word))
  blocks : Nat
  deriving DecidableEq, Repr

/-- Part of a line of the HOIST_OVF region: line number, first byte, bytes (R189, R192). -/
structure OvfLine where
  line : Nat
  ofs : Nat
  len : Nat
  deriving DecidableEq, Repr

/-- Data that a Hoist holds: in lines of the HOIST_OVF region, then what has found no room there, in the Hoist itself. -/
structure OvfData where
  lines : List OvfLine
  rest : List Byte
  deriving DecidableEq, Repr

def OvfData.empty : OvfData := { lines := [], rest := [] }

/-- A retained piece at its holder (R189, R194): shard, version, both orders' bytes, device indices of completed re-gathers
and of holder fetches, revoked mark. -/
structure Retained where
  slot : Nat
  layer : Nat
  shard : Nat
  version : Nat
  fwd : OvfData
  trn : OvfData
  done : List Nat
  fetched : List Nat
  revoked : Bool
  deriving DecidableEq, Repr

/-- A copy on its way into staging (R192): its layer and order, and whether it is a re-gather's. -/
structure CopyId where
  slot : Nat
  layer : Nat
  transposed : Bool
  regather : Bool
  deriving DecidableEq, Repr

/-- A shard's part of such a copy: bytes that have gone into chunks, and the data that has arrived behind them. -/
structure Piece where
  copy : CopyId
  shard : Nat
  gone : Nat
  data : OvfData
  deriving DecidableEq, Repr

/-- How far such a copy has gone into its chunks, the chunk of its list that comes next, and for an unscaled layer's transposed copy the bytes of
the forward copy that its corner turn has taken so far (R191). -/
structure StageData where
  copy : CopyId
  pos : Nat
  next : Nat
  turn : List Byte
  deriving DecidableEq, Repr

/-- A staging chunk in use: slot, chunk index, the copy it holds part of, bytes filled, whether it gets no more, and whether the station has
released the token with the last of them (R192). -/
structure StagedChunk where
  slot : Nat
  chunk : Nat
  copy : CopyId
  filled : Nat
  closed : Bool
  read : Bool
  deriving DecidableEq, Repr

/-- A lease at the owner (R193). -/
structure Lease where
  slot : Nat
  layer : Nat
  shard : Nat
  version : Nat
  holder : Nat
  expiry : BitVec 64
  expired : Bool
  deriving DecidableEq, Repr

/-! ### Mills (09) -/

/-- Granule tail (Table 09-5). -/
structure Tail where
  version : Nat
  pend : Nat
  done : Nat
  rec8 : Bool
  deriving DecidableEq, Repr

/-- A gradient run (Table 09-6). -/
structure Run where
  run : Nat
  step : Nat
  layer : Nat
  slot : Nat
  bf16 : Bool
  vals : List Byte
  deriving DecidableEq, Repr

/-- The step parameters of one local rule (Table 09-2). -/
structure StepParam where
  eta : Word
  kappa1 : Word
  kappa2 : Word
  gamma : Word
  deriving DecidableEq, Repr

/-- Parameters the Mills hold for one step, and whether a run of it has been applied (R216). -/
structure StepHeld where
  step : Nat
  params : List StepParam
  applied : Bool
  deriving DecidableEq, Repr

/-! ### Sluice (14) -/

/-- Collective entry (Table 14-7). -/
structure Collective where
  op : Nat
  bf16 : Bool
  hbm : Bool
  layer : Nat
  dst : Nat
  deriving DecidableEq, Repr

/-- An accumulator slot of a reduction (R363): the shard whose owner the run goes to, run, step, values, count. -/
structure RedSlot where
  shard : Nat
  run : Nat
  step : Nat
  vals : List Word
  count : Nat
  deriving DecidableEq, Repr

/-- A reduction or barrier context (R359). -/
structure SluiceCtx where
  slot : Nat
  fjob : Nat
  barrier : Bool
  id : Nat
  /-- It is one of those that the slot's Survey reserved (R359). -/
  reserved : Bool
  slots : List RedSlot
  /-- Complete runs that wait for delivery, and runs delivered by step (R365). -/
  ready : List RedSlot
  delivered : Tbl Nat
  /-- Barrier: participants that have arrived, with their counts, and the NPART they name (R366). -/
  arrived : List (Nat × Nat)
  npart : Nat
  deriving DecidableEq, Repr

/-- Consecutive residue mismatches of one packet, by sender, channel and sequence; of a local contribution where `src` is
none (R364). -/
structure SluiceRetry where
  src : Option Nat
  chan : Nat
  seq : Nat
  misses : Nat
  deriving DecidableEq, Repr

/-! ### Job slots (07, 12, 18) -/

structure Slot where
  survey : Option Survey
  /-- Device index of the Survey's first station (R178). -/
  base : Nat
  loading : Bool
  stopped : Bool
  /-- MCLK cycle in which the slot became STOPPED (18 R440). -/
  stoppedAt : Nat
  killing : Bool
  firstFault : Nat
  firstStatus : Nat
  lastStep : Option Nat
  /-- Step number of the first RUN_STEP after the load (R361). -/
  firstStep : Option Nat
  /-- Root time and Tally of the last progress; watchdog raised since (R144). -/
  progress : BitVec 64
  barked : Bool
  hoist : Option HoistTable
  checking : Bool
  sluice : List (Nat × Collective)
  params : List (Option StepHeld)
  /-- Device rule slots given to the job, in local order (R213). -/
  rules : List Nat
  /-- Sums of squares by step and Mill, FP64 codes, key step × 768 + Mill (R217). -/
  sums : Tbl Nat
  /-- Runs sent per collective entry (R361). -/
  sent : Tbl Nat
  /-- Layers gathered for forward use, by step (01 R17). -/
  fetched : List (Nat × Nat)
  deriving DecidableEq, Repr

def Slot.empty : Slot :=
  { survey := none, base := 0, loading := false, stopped := false, stoppedAt := 0, killing := false, firstFault := 0, firstStatus := 0
    lastStep := none, firstStep := none, progress := 0, barked := false, hoist := none, checking := false, sluice := []
    params := [none, none], rules := [], sums := [], sent := [], fetched := [] }

structure FlowState where
  /-- Times the scratchpads have been powered off in A4 (17 R423): 0, and unlisted bytes read 0; else they are free values. -/
  lost : Nat
  /-- Scratchpad bytes, key site × 2 MiB + offset (R84). -/
  scratch : Tbl Byte
  /-- 64-bit words with an uncorrectable error, key as `scratch` divided by 8 (R85). -/
  scratchUe : List Nat
  /-- Dirty pages, key site × 512 + page (R104). -/
  dirty : List Nat
  /-- Contexts whose released ring memory, matching-store entries and accumulator tiles await the Mucker (R146): site, context. -/
  cuDirty : List (Nat × Nat)
  banks : Tbl BankState
  /-- State of the banks that `banks` does not list: RETAIN after A2 or A3, until an access (04 R102). -/
  bankRest : BankState
  bankLast : Tbl Nat
  bankWait : List BankWait
  coal : Tbl CoalRun
  streams : Tbl StreamRun
  /-- Largest spill occupancy, key site × 16 + descriptor (R110). -/
  spillMax : Tbl Nat
  /-- Accumulator memory, key ((site × 4 + array) × 64 + tile) × 256 + element. -/
  acc : Tbl Word
  arrays : Tbl ArrayRun
  /-- Root times at which tiles now passing the vector pipeline of a site leave its lanes (R67). -/
  lanes : Tbl (List Nat)
  panels : Tbl PanelRun
  /-- Row-state file, key site × 512 + entry. -/
  rows : Tbl (Word × Word)
  /-- Running sums of row-state entries, key as `rows`: the value they began with and each tile's tree result by tag (R76). -/
  rowAdds : Tbl (Word × List (Nat × Word))
  /-- Rings by site × 32 + ring. -/
  rings : Tbl (Option RingRun)
  stores : Tbl MatchStore
  flights : List Flight
  stations : Tbl StationRun
  /-- Number of the next token arrival. -/
  order : Nat
  /-- Runs handed to the Mill dispatchers, oldest first (09 R222). -/
  dispatch : List Run
  bufs : Tbl (List Run)
  /-- Open-granule tables, most recently used first (R225). -/
  tails : Tbl (List (Nat × Tail))
  /-- Rule slots: owning slot and local index (R237). -/
  ruleOwn : Tbl (Option (Nat × Nat))
  ruleCanary : Tbl Canary
  /-- Canary counts of granules whose update is in progress, by granule address (R232). -/
  granMarks : Tbl (List Nat)
  leases : List Lease
  reqs : List GatherReq
  reqNum : Nat
  reads : List GatherRead
  /-- Root time of each Hoist's last service of a background slot (R207). -/
  bgServed : Tbl Nat
  retained : List Retained
  pieces : List Piece
  staging : List StageData
  chunks : List StagedChunk
  /-- Runs that a SINK has handed to the Sluice: slot, layer, global run index, values (14 R361). -/
  contribs : List Run
  sluices : Tbl (Option SluiceCtx)
  retries : List SluiceRetry
  deriving DecidableEq, Repr

def FlowState.reset : FlowState :=
  { lost := 0, scratch := [], scratchUe := [], dirty := [], cuDirty := [], banks := [], bankRest := .active, bankLast := [], bankWait := [], coal := []
    streams := [], spillMax := [], acc := [], arrays := [], lanes := [], panels := [], rows := [], rowAdds := [], rings := [], stores := []
    flights := [], stations := [], order := 0, dispatch := [], bufs := [], tails := [], ruleOwn := [], ruleCanary := []
    leases := [], reqs := [], reqNum := 0, reads := [], bgServed := [], retained := [], pieces := [], granMarks := [], staging := [], chunks := [], contribs := []
    sluices := [], retries := [] }

end Sys2Proof.Machine
end

