-- ==== Sys2Proof/Syntax.lean ====
section
/-! DEFINITION. The commands and events of the block: one constructor per row of the command table, with the operands that come
from outside. `tee` is the TEE indication of a host access (11 R272); `ue` lists HBM lines, by number, that the accesses of the
step find uncorrectable; `view` is host memory as the step meets it. What the other operands are stands with each meaning. -/
namespace Sys2Proof
open Machine

/-- A command or an event that reaches the block (log entry 1). -/
inductive Instr where
  /-- `NOP` (R289). -/
  | nop (d : Desc)
  /-- `SURVEY_LOAD` (R175). -/
  | surveyLoad (d : Desc) (view : HostView)
  /-- `SURVEY_LOAD_COMPLETE` (R180). -/
  | surveyLoadComplete (view : HostView)
  /-- `SURVEY_UNLOAD` (R298). -/
  | surveyUnload (d : Desc) (tied : List (Fin 32))
  /-- `RUN_STEP` (R14). -/
  | runStep (d : Desc)
  /-- `RUN_STEP_COMPLETE` (R20). -/
  | runStepComplete (n : Fin 8)
  /-- `SET_STEP_PARAMS` (R215). -/
  | setStepParams (d : Desc) (view : HostView)
  /-- `REARM_STREAM` (R138). -/
  | rearmStream (d : Desc)
  /-- `COPY` (R292). -/
  | copy (d : Desc) (view : HostView) (err : HbmErrors)
  /-- `COPY_COMPLETE` (R293). -/
  | copyComplete (ring : Fin 32) (index : Nat) (view : HostView) (err : HbmErrors)
  /-- `FENCE` (R295). -/
  | fence (d : Desc)
  /-- `FENCE_COMPLETE` (R382). -/
  | fenceComplete (ring : Fin 32)
  /-- `BARRIER` (R296). -/
  | barrier (d : Desc)
  /-- `BARRIER_TIMEOUT` (R296). -/
  | barrierTimeout (ring : Fin 32)
  /-- `KILL_JOB` (R297). -/
  | killJob (d : Desc) (tied : List (Fin 32))
  /-- `KILL_COMPLETE` (R297). -/
  | killComplete (n : Fin 8)
  /-- `BIAS_SET` (R244). -/
  | biasSet (d : Desc)
  /-- `POWER_SET` (R423). -/
  | powerSet (d : Desc)
  /-- `BUNDLE_LOAD` (R400). -/
  | bundleLoad (d : Desc) (view : HostView)
  /-- `BUNDLE_LOAD_COMPLETE` (R400). -/
  | bundleLoadComplete (view : HostView)
  /-- `SEAL_RELEASE` (R405). -/
  | sealRelease (d : Desc)
  /-- `SEAL_EXPORT` (R406). -/
  | sealExport (d : Desc)
  /-- `SEAL_EXPORT_COMPLETE` (R406). -/
  | sealExportComplete (view : HostView)
  /-- `DOORBELL_SNOOP` (R269). -/
  | doorbellSnoop (lineAddr : Nat) (line : List Byte) (faults : List (Fin 32 × RingCause))
  /-- `COMPLETION_HEAD_POLL` (R285). -/
  | completionHeadPoll (ring : Fin 32) (w : HostWord)
  /-- `EVENT_RING_HEAD_POLL` (R443). -/
  | eventRingHeadPoll (w : HostWord)
  /-- `REGISTER_WRITE` (R6). -/
  | registerWrite (x : BarWrite)
  /-- `COUNTER_LOW_READ` (R83). -/
  | counterLowRead (r : BarRead)
  /-- `PTP_TXTS_POP` (R332). -/
  | ptpTxtsPop (p : Fin 12) (tee : Bool)
  /-- `CU_CTL_CNT_CLR` (R81). -/
  | cuCtlCntClr (k : Fin 8192) (tee : Bool)
  /-- `MU_CTL_CNT_CLR` (R106). -/
  | muCtlCntClr (k : Fin 8192) (tee : Bool)
  /-- `MILL_CTL_CNT_CLR` (R238). -/
  | millCtlCntClr (tee : Bool)
  /-- `MEM_CTL_CNT_CLR` (R255). -/
  | memCtlCntClr (tee : Bool)
  /-- `CXL_CTL_CNT_CLR` (R280). -/
  | cxlCtlCntClr (tee : Bool)
  /-- `CAGE_CTL_CNT_CLR` (R305). -/
  | cageCtlCntClr (tee : Bool)
  /-- `PORT_CTL_CNT_CLR` (R330). -/
  | portCtlCntClr (p : Fin 12) (tee : Bool)
  /-- `FAB_CFG_CNT_CLR` (R367). -/
  | fabCfgCntClr (tee : Bool)
  /-- `TALLY_CFG_CNT_CLR` (R384). -/
  | tallyCfgCntClr (tee : Bool)
  /-- `PWR_CTL_CNT_CLR` (R434). -/
  | pwrCtlCntClr (tee : Bool)
  /-- `RAS_CFG_CNT_CLR` (R460). -/
  | rasCfgCntClr (tee : Bool)
  /-- `GLB_CTL_CNT_CLR` (R490). -/
  | glbCtlCntClr (tee : Bool)
  /-- `RING_CTL_EN` (R307). -/
  | ringCtlEn (ring : Fin 32) (w : Word) (line : List Byte) (tee : Bool)
  /-- `EVQ_EN` (R306). -/
  | evqEn (w : Word) (tee : Bool)
  /-- `JOBCTL_HOIST_CFG_EN` (R186). -/
  | jobctlHoistCfgEn (n : Fin 8) (w : Word) (tee : Bool)
  /-- `JOBCTL_SLUICE_CFG_EN` (R360). -/
  | jobctlSluiceCfgEn (n : Fin 8) (w : Word) (tee : Bool)
  /-- `TALLY_SET_HI` (R384). -/
  | tallySetHi (w : Word) (tee : Bool)
  /-- `DBG_CTL_CHAL_NEW` (R408). -/
  | dbgCtlChalNew (tee : Bool)
  /-- `DBG_CTL_SUBMIT` (R409). -/
  | dbgCtlSubmit (tee : Bool)
  /-- `DEBUG_UNLOCK_SCRUB_DONE` (R410). -/
  | debugUnlockScrubDone
  /-- `RAS_UNIT_FENCE` (R447). -/
  | rasUnitFence (k : Fin 8192) (tee : Bool)
  /-- `RAS_UNIT_RETURN` (R448). -/
  | rasUnitReturn (k : Fin 8192) (tee : Bool)
  /-- `RAS_UNIT_RESTORE` (R449). -/
  | rasUnitRestore (k : Fin 8192) (tee : Bool)
  /-- `SITE_FENCE` (R447). -/
  | siteFence (k : Fin 8192) (cause : FenceCause)
  /-- `SELFTEST_COMPLETE` (R448). -/
  | selftestComplete (k : Fin 8192) (failing : Option (BitVec 16))
  /-- `FW_CTL_STAGE` (R456). -/
  | fwCtlStage (len : Nat) (tee : Bool)
  /-- `FW_WRITE_COMPLETE` (R456). -/
  | fwWriteComplete
  /-- `FW_CTL_ACTIVATE` (R457). -/
  | fwCtlActivate (tee : Bool)
  /-- `FW_CTL_COMMIT` (R458). -/
  | fwCtlCommit (tee : Bool)
  /-- `FW_CTL_RECOVER` (R459). -/
  | fwCtlRecover
  /-- `BUS_MASTER_ENABLE_WRITE` (R266). -/
  | busMasterEnableWrite (b : Bool)
  /-- `PRI_ENABLE_WRITE` (R274). -/
  | priEnableWrite (b : Bool)
  /-- `HDM_DECODER_COMMIT` (R267). -/
  | hdmDecoderCommit (base size ways : Nat)
  /-- `LOCKED_ITEM_CHANGE` (R272). -/
  | lockedItemChange (i : ConfigItem)
  /-- `LOCK_INTERFACE` (R395). -/
  | lockInterface
  /-- `STOP_INTERFACE` (R272). -/
  | stopInterface
  /-- `IDE_KM` (R271). -/
  | ideKm (op : IdeKmOp)
  /-- `IDE_STREAM_RECEIVE` (R271). -/
  | ideStreamReceive (st : IdeStream) (good : Bool)
  /-- `GET_VERSION` (R391). An SPDM request comes over DOE unless `mctp` says that it comes over MCTP. -/
  | getVersion (mctp : Bool := false)
  /-- `GET_CAPABILITIES` (R392). -/
  | getCapabilities (mctp : Bool := false)
  /-- `NEGOTIATE_ALGORITHMS` (R391). -/
  | negotiateAlgorithms (o : SpdmOffer) (mctp : Bool := false)
  /-- `GET_CERTIFICATE` (R393). -/
  | getCertificate (slot offset len : Nat) (mctp : Bool := false)
  /-- `CHALLENGE` (R393). -/
  | challenge (slot : Nat) (nonce : List Byte) (mctp : Bool := false)
  /-- `GET_MEASUREMENTS` (R394). -/
  | getMeasurements (q : MeasReq) (sign : Bool) (nonce : List Byte) (mctp : Bool := false)
  /-- `KEY_EXCHANGE` (R392). -/
  | keyExchange (mctp : Bool := false)
  /-- `KEY_UPDATE` (R392). -/
  | keyUpdate (id : Nat) (mctp : Bool := false)
  /-- `END_SESSION` (R392). -/
  | endSession (id : Nat) (mctp : Bool := false)
  /-- `HEARTBEAT_TIMEOUT` (R392). -/
  | heartbeatTimeout (id : Nat)
  /-- `CDAT_READ` (R263). -/
  | cdatRead
  /-- `PLDM_FW_UPDATE` (R456). -/
  | pldmFwUpdate (img : List Byte)
  /-- `JTAG_IDCODE` (R479). -/
  | jtagIdcode
  /-- `JTAG_BYPASS` (R479). -/
  | jtagBypass
  /-- `JTAG_SAMPLE_PRELOAD` (R479). -/
  | jtagSamplePreload (lands load : List Bool)
  /-- `JTAG_EXTEST` (R479). -/
  | jtagExtest
  /-- `HOST_CXL_MEM_READ` (R245). -/
  | hostCxlMemRead (hpa : Nat) (ue : Bool) (ce : Bool := false)
  /-- `HOST_CXL_MEM_WRITE` (R245). -/
  | hostCxlMemWrite (hpa : Nat) (data : List Byte) (mask : BitVec 64)
  /-- `HOST_BAR2_ACCESS` (R265). -/
  | hostBar2Access (off : Nat) (write : Option Byte) (ce : Nat := 0)
  /-- `ATS_INVALIDATION` (R273). -/
  | atsInvalidation (pasid page count : Nat)
  /-- `TRANSLATION_COMPLETION` (R273). -/
  | translationCompletion (pasid page : Nat) (r : AtsResult) (w : Waiter)
  /-- `PAGE_REQUEST_RESPONSE` (R274). -/
  | pageRequestResponse (pasid page : Nat) (c : PriCode)
  /-- `PAGE_REQUEST_TIMEOUT` (R274). -/
  | pageRequestTimeout (pasid page : Nat)
  /-- `CXL_LINK_UP` (R261). -/
  | cxlLinkUp (l : LinkUp)
  /-- `CXL_LINK_DOWN` (R277). -/
  | cxlLinkDown
  /-- `POWER_ON_RESET` (R420). -/
  | powerOnReset (straps : Straps) (coreMv ioMv : Nat)
  /-- `FIRMWARE_BOOT` (R389). -/
  | firmwareBoot (entropyOk : Bool)
  /-- `ROOT_LOCK_LOSS` (R370). -/
  | rootLockLoss
  /-- `PERST` (R473). -/
  | perst (us : Nat) (asserted : Bool)
  /-- `CXL_RESET` (R279). -/
  | cxlReset (memClear : Bool)
  /-- `SECONDARY_BUS_RESET` (R279). -/
  | secondaryBusReset
  /-- `THERMAL_SAMPLE` (R426). -/
  | thermalSample (r : Sensors)
  /-- `THERMTRIP` (R428). -/
  | thermtrip
  /-- `PMBUS_ALERT` (R418). -/
  | pmbusAlert (rail : Fin 8) (status : BitVec 16) (warning : Bool)
  /-- `VOLTAGE_TARGET_REACHED` (R417). -/
  | voltageTargetReached (reported : Bool)
  /-- `ACLK_STEP_CHANGE` (R372). -/
  | aclkStepChange
  /-- `SAG_DETECT` (R429). -/
  | sagDetect (coreMv ioMv : Nat)
  /-- `SAG_RELEASE` (R429). -/
  | sagRelease
  /-- `NV_OPERATION_START` (R430). -/
  | nvOperationStart
  /-- `NV_GATE_TIMEOUT` (R430). -/
  | nvGateTimeout
  /-- `IDLE_ENTRY` (R424). -/
  | idleEntry
  /-- `A4_ENTRY` (R425). -/
  | a4Entry
  /-- `TOKEN_ARRIVAL` (R126). -/
  | tokenArrival (n : Nat) (fault : TokenFault)
  /-- `STATION_FIRE` (R118). -/
  | stationFire (dev : Fin 8192) (errs : FireErrors)
  /-- `TILE_ISSUE` (R132). -/
  | tileIssue (dev : Fin 8192)
  /-- `TILE_BOUNDARY` (R6). -/
  | tileBoundary (dev : Fin 8192)
  /-- `ACCUMULATOR_SWAP` (R65). -/
  | accumulatorSwap (site : Fin 8192) (a : Fin 4)
  /-- `SHADOW_DRAIN` (R64). -/
  | shadowDrain (site : Fin 8192) (a : Fin 4) (set : Bool) (ce : Nat) (ue : Option Nat)
  /-- `PANEL_FILL_COMPLETE` (R72). -/
  | panelFillComplete (dev : Fin 8192) (region : Fin 8) (ce : Nat) (ue : Option Nat)
  /-- `RING_CREDIT_RETURN` (R134). -/
  | ringCreditReturn (site : Fin 8192) (ring : Fin 32)
  /-- `SPILL_RETURN` (R101). -/
  | spillReturn (site : Fin 8192) (ring : Fin 32) (ce : Nat := 0)
  /-- `COAL_HOLD_EXPIRY` (R97). -/
  | coalHoldExpiry (dev : Fin 8192)
  /-- `BANK_IDLE_ENTRY` (R102). -/
  | bankIdleEntry (site : Fin 8192) (b : Fin 32)
  /-- `BANK_RETAIN_ENTRY` (R102). -/
  | bankRetainEntry (site : Fin 8192) (b : Fin 32)
  /-- `BANK_WAKE` (R103). -/
  | bankWake (site : Fin 8192) (b : Fin 32)
  /-- `MUCKER_PAGE_SCRUBBED` (R104). -/
  | muckerPageScrubbed (site : Fin 8192) (pg : Fin 512)
  /-- `WATCHDOG_EXPIRY` (R144). -/
  | watchdogExpiry (n : Fin 8)
  /-- `HOIST_GATHER_REQUEST` (R188). -/
  | hoistGatherRequest (n : Fin 8) (layer : Nat) (kind : GatherKind) (newer : Bool)
  /-- `STAGING_CHUNK_CREDIT` (R192). -/
  | stagingChunkCredit (n : Fin 8) (chunk : Nat)
  /-- `MILL_RUN_ARRIVAL` (R228). -/
  | millRunArrival (m : Fin 768)
  /-- `MILL_RUN_APPLY` (R225). -/
  | millRunApply (m : Fin 768) (res : Residue) (err : HbmErrors)
  /-- `GATHER_READ_SERVE` (R230). -/
  | gatherReadServe (level : Fin 4) (err : HbmErrors)
  /-- `AMAX_EXCHANGE` (R231). -/
  | amaxExchange
  /-- `LEASE_EXPIRY` (R193). -/
  | leaseExpiry
  /-- `LEASE_CLOSE` (R194). -/
  | leaseClose
  /-- `LEASE_REVOKE` (R196). -/
  | leaseRevoke
  /-- `SLUICE_CONTRIBUTION` (R361). -/
  | sluiceContribution (fault : Bool)
  /-- `RED_RECEIVE` (R363). -/
  | redReceive (fault : Bool)
  /-- `SLUICE_RESIDUE_FATAL` (R364). -/
  | sluiceResidueFatal (own : Bool)
  /-- `RUN_DELIVERY` (R365). -/
  | runDelivery (c : Fin 64)
  /-- `BAR_ARRIVE` (R366). -/
  | barArrive
  /-- `BAR_RELEASE` (R366). -/
  | barRelease
  /-- `BAR_ABORT` (R366). -/
  | barAbort
  /-- `GATHER_REQ_RECEIVE` (R358). -/
  | gatherReqReceive
  /-- `GATHER_RSP_RECEIVE` (R358). -/
  | gatherRspReceive
  /-- `FMT_ERROR_RECEIVE` (R358). -/
  | fmtErrorReceive
  /-- `FMT_TRANSIT` (R334). -/
  | fmtTransit
  /-- `ACK_RECEIVE` (R355). -/
  | ackReceive
  /-- `ACK_DELAY_EXPIRY` (R354). -/
  | ackDelayExpiry (peer : Fin 1024) (chan : Fin 256)
  /-- `RETRANSMIT_TIMEOUT` (R355). -/
  | retransmitTimeout (peer : Fin 1024) (chan : Fin 256)
  /-- `FMT_CHANNEL_FAIL` (R355). -/
  | fmtChannelFail (peer : Fin 1024) (chan : Fin 256)
  /-- `RATE_INCREASE` (R356). -/
  | rateIncrease (dst : Fin 1024)
  /-- `HELLO` (R339). -/
  | hello
  /-- `HELLO_SEND` (R339). -/
  | helloSend (p : Fin 12)
  /-- `NEIGHBOUR_TIMEOUT` (R339). -/
  | neighbourTimeout (p : Fin 12)
  /-- `ELECTION_SETTLED` (R340). -/
  | electionSettled
  /-- `FABRIC_NO_MANAGER` (R340). -/
  | fabricNoManager
  /-- `MGMT_FLOOD` (R341). -/
  | mgmtFlood
  /-- `ADDRESS_ASSIGN` (R342). -/
  | addressAssign (addr mgr : Fin 1024)
  /-- `ROUTING_TABLE_LOAD` (R347). -/
  | routingTableLoad (mgr : Fin 1024) (epoch : Fin 65536) (entries : List (Fin 1024 × Word))
  /-- `EPOCH_COMMIT` (R347). -/
  | epochCommit (epoch : Fin 65536)
  /-- `EPOCH_MARK` (R347). -/
  | epochMark
  /-- `TABLE_RETIRE` (R347). -/
  | tableRetire
  /-- `EPOCH_CONFIRM_TIMEOUT` (R347). -/
  | epochConfirmTimeout (missing : List (Fin 1024))
  /-- `JOIN_REPORT` (R349). -/
  | joinReport (reports : List Report)
  /-- `MANAGER_LOSS` (R350). -/
  | managerLoss
  /-- `PEER_NEW` (R349). -/
  | peerNew (peer : Fin 1024)
  /-- `PEER_LOST` (R349). -/
  | peerLost (peer : Fin 1024)
  /-- `MGMT_JOB_KILL` (R351). -/
  | mgmtJobKill (fjob : Fin 4096) (tied : List (Fin 32)) (hostKill : BitVec 8)
  /-- `DATA_FLIT_RECEIVE` (R316). -/
  | dataFlitReceive (p : Fin 12) (f : RxFlit)
  /-- `REPLAY_TIMEOUT` (R316). -/
  | replayTimeout (p : Fin 12)
  /-- `FD_RETRY_EXHAUSTED` (R317). -/
  | fdRetryExhausted (p : Fin 12)
  /-- `FD_RETRAIN_TIMEOUT` (R317). -/
  | fdRetrainTimeout (p : Fin 12)
  /-- `FD_BRINGUP_TIMEOUT` (R313). -/
  | fdBringupTimeout (p : Fin 12)
  /-- `LINKCTL_FLIT_RECEIVE` (R313). -/
  | linkctlFlitReceive (p : Fin 12) (f : RxFlit)
  /-- `TIMEX_SEND` (R319). -/
  | timexSend (p : Fin 12)
  /-- `TIMEX_FLIT_RECEIVE` (R376). -/
  | timexFlitReceive (p : Fin 12) (f : RxFlit)
  /-- `TALLY_HOLDOVER` (R378). -/
  | tallyHoldover
  /-- `PTP_SYNC_SEND` (R377). -/
  | ptpSyncSend (p : Fin 12)
  /-- `FRAME_RECEIVE` (R324). -/
  | frameReceive (p : Fin 12) (f : RxFrame)
  /-- `FRAME_TRANSMIT` (R326). -/
  | frameTransmit (p : Fin 12) (waits : Option Nat)
  /-- `PREEMPT_VERIFY` (R327). -/
  | preemptVerify (p : Fin 12) (ok : Bool)
  /-- `ETHERNET_LINK_UP` (R320). -/
  | ethernetLinkUp (p : Fin 12)
  /-- `MESH_FLIT_CRC_ERROR` (R437). -/
  | meshFlitCrcError (bridge : Option (Fin 4)) (site : Fin 8192) (face : Dir) (again : Bool)
  /-- `MESH_LINK_FAIL` (R437). -/
  | meshLinkFail (site : Fin 8192) (face : Dir)
  /-- `BRIDGE_FAIL` (R437). -/
  | bridgeFail (b : Fin 4)
  /-- `CE_THRESHOLD` (R446). -/
  | ceThreshold (u : CeUnit) (n : Nat)
  /-- `HBM_PATROL_READ` (R249). -/
  | hbmPatrolRead (m : Fin 768) (ce ue : Bool)
  /-- `ODECC_STATUS_READ` (R248). -/
  | odeccStatusRead (m : Fin 768) (n : Nat)
  /-- `HBM_REFRESH` (R252). -/
  | hbmRefresh (stack : Fin 24) (over85 : Bool)
  /-- `PC_IDLE_ENTRY` (R253). -/
  | pcIdleEntry (k : Fin 1536)
  /-- `PC_POWER_DOWN_ENTRY` (R253). -/
  | pcPowerDownEntry (k : Fin 1536)
  /-- `PC_WAKE` (R253). -/
  | pcWake (k : Fin 1536)
  /-- `POWER_LOSS` (R420). -/
  | powerLoss (pwrok : Bool) (coreMv ioMv : Nat)
  /-- `RESET_COMPLETE` (R432). -/
  | resetComplete
  /-- `SEAL_RELEASE_COMPLETE` (R405). -/
  | sealReleaseComplete (r : Fin 16)
  /-- `STOP_INTERFACE_COMPLETE` (R272). -/
  | stopInterfaceComplete
  /-- `START_INTERFACE` (R272). -/
  | startInterface
  /-- `HOIST_TABLE_CHECK_COMPLETE` (R186). -/
  | hoistTableCheckComplete (n : Fin 8) (err : HbmErrors)
  /-- `FD_TRAINING_DONE` (R313). -/
  | fdTrainingDone (p : Fin 12)
  /-- `FD_ALIGNMENT_DONE` (R313). -/
  | fdAlignmentDone (p : Fin 12)
  /-- `ETHERNET_LINK_DOWN` (R327). -/
  | ethernetLinkDown (p : Fin 12)
  /-- `HBM_CHANNEL_FAIL` (R446). -/
  | hbmChannelFail (m : Fin 768) (status : BitVec 16)
  /-- `MSIX_MASK_CLEAR` (R275). -/
  | msixMaskClear (vec : Option (Fin 64))
  /-- `CACHE_ENABLE_WRITE` (R269). -/
  | cacheEnableWrite (b : Bool) (lines : List (Nat × List Byte))
  /-- `IDLE_EXIT_COMPLETE` (R423). -/
  | idleExitComplete
  /-- `PTP_DELAY_REQ_SEND` (R377). -/
  | ptpDelayReqSend (p : Fin 12)
  deriving DecidableEq, Repr

end Sys2Proof
end

