-- ==== Sys2Proof/Machine/Formats.lean ====
section
/-! DEFINITION. Number formats: exact values, reading codes, rounding and conversion, scale encodings, packing (02). -/
namespace Sys2Proof.Machine

/-! ### Exact values -/

/-- What a code stands for: NaN, an infinity, or the exact number (−1)^neg × num ÷ den × 2^exp; `den` is positive. -/
inductive Val where
  | nan
  | inf (neg : Bool)
  | fin (neg : Bool) (num den : Nat) (exp : Int)
  deriving DecidableEq, Repr

def Val.zero (neg : Bool) : Val := .fin neg 0 1 0
def Val.ofInt (i : Int) : Val := .fin (decide (i < 0)) i.natAbs 1 0
def Val.isNeg : Val → Bool | .nan => false | .inf n => n | .fin n _ _ _ => n
def Val.isZero : Val → Bool | .fin _ n _ _ => n == 0 | _ => false
def Val.isFinite : Val → Bool | .fin _ _ _ _ => true | _ => false
def Val.neg : Val → Val | .nan => .nan | .inf n => .inf !n | .fin n a b e => .fin (!n) a b e
def Val.abs : Val → Val | .nan => .nan | .inf _ => .inf false | .fin _ a b e => .fin false a b e

/-- Positive power of two of an integer, 1 for a negative one. -/
def pow2 (i : Int) : Nat := 2 ^ i.toNat

/-- Compare magnitudes of two finite values: a × 2^e ÷ b against c × 2^f ÷ d. -/
def magLe (a b : Nat) (e : Int) (c d : Nat) (f : Int) : Bool := a * d * pow2 (e - f) ≤ c * b * pow2 (f - e)

/-- Product; 0 × ∞ is NaN. -/
def Val.mul : Val → Val → Val
  | .nan, _ => .nan
  | _, .nan => .nan
  | .inf n, .inf m => .inf (n != m)
  | .inf n, .fin m a _ _ => if a = 0 then .nan else .inf (n != m)
  | .fin m a _ _, .inf n => if a = 0 then .nan else .inf (n != m)
  | .fin n a b e, .fin m c d f => .fin (n != m) (a * c) (b * d) (e + f)

/-- Sum; ∞ − ∞ is NaN, and a zero sum of opposite numbers is +0. -/
def Val.add : Val → Val → Val
  | .nan, _ => .nan
  | _, .nan => .nan
  | .inf n, .inf m => if n = m then .inf n else .nan
  | .inf n, .fin _ _ _ _ => .inf n
  | .fin _ _ _ _, .inf n => .inf n
  | .fin n a b e, .fin m c d f =>
    let g := min e f
    let x := a * d * pow2 (e - g)
    let y := c * b * pow2 (f - g)
    if n = m then .fin n (x + y) (b * d) g
    else if y < x then .fin n (x - y) (b * d) g
    else if x < y then .fin m (y - x) (b * d) g
    else .fin false 0 1 0

def Val.sub (x y : Val) : Val := x.add y.neg

/-- Quotient; x ÷ 0 is an infinity, 0 ÷ 0 and ∞ ÷ ∞ are NaN. -/
def Val.div : Val → Val → Val
  | .nan, _ => .nan
  | _, .nan => .nan
  | .inf _, .inf _ => .nan
  | .inf n, .fin m _ _ _ => .inf (n != m)
  | .fin n _ _ _, .inf m => .zero (n != m)
  | .fin n a b e, .fin m c d f =>
    if c = 0 then (if a = 0 then .nan else .inf (n != m)) else .fin (n != m) (a * d) (b * c) (e - f)

/-- x < y, false when either is NaN. -/
def Val.lt : Val → Val → Bool
  | .nan, _ => false
  | _, .nan => false
  | .inf n, .inf m => n && !m
  | .inf n, .fin _ _ _ _ => n
  | .fin _ _ _ _, .inf m => !m
  | .fin n a b e, .fin m c d f =>
    if a = 0 ∧ c = 0 then false
    else match n && a != 0, m && c != 0 with
      | true, true => !magLe a b e c d f
      | true, false => true
      | false, true => false
      | false, false => !magLe c d f a b e

/-- Larger and smaller of two values; NaN when either is NaN (DEDUCED, log entry 8). -/
def Val.max (x y : Val) : Val := match x, y with | .nan, _ => .nan | _, .nan => .nan | x, y => if x.lt y then y else x
def Val.min (x y : Val) : Val := match x, y with | .nan, _ => .nan | _, .nan => .nan | x, y => if y.lt x then y else x

/-- floor(log2) of num ÷ den × 2^exp, for num > 0. -/
def floorLog2 (num den : Nat) (exp : Int) : Int :=
  let k : Int := (Nat.log2 num : Int) - (Nat.log2 den : Int) + exp
  if magLe 1 1 k num den exp then k else k - 1

/-! ### Formats (R24 to R28) -/

/-- A float format: mantissa bits, exponent bias, code of the largest finite value, infinity, NaN, container shift. -/
structure FloatFmt where
  mant : Nat
  bias : Nat
  maxCode : Nat
  inf : Option Nat
  nan : Option Nat
  signBit : Nat
  shift : Nat
  deriving DecidableEq, Repr

/-- What a format code names (Table 02-1). -/
inductive Fmt where
  | float (f : FloatFmt)
  | int (width : Nat)
  | reserved
  deriving DecidableEq, Repr

def fp32 : FloatFmt := { mant := 23, bias := 127, maxCode := 0x7F7FFFFF, inf := some 0x7F800000, nan := some 0x7FC00000, signBit := 31, shift := 0 }
def f19 : FloatFmt := { mant := 10, bias := 127, maxCode := 0x3FBFF, inf := some 0x3FC00, nan := some 0x3FE00, signBit := 18, shift := 13 }
def bf16 : FloatFmt := { mant := 7, bias := 127, maxCode := 0x7F7F, inf := some 0x7F80, nan := some 0x7FC0, signBit := 15, shift := 0 }
def fp16 : FloatFmt := { mant := 10, bias := 15, maxCode := 0x7BFF, inf := some 0x7C00, nan := some 0x7E00, signBit := 15, shift := 0 }
def e4m3 : FloatFmt := { mant := 3, bias := 7, maxCode := 0x7E, inf := none, nan := some 0x7F, signBit := 7, shift := 0 }
def e5m2 : FloatFmt := { mant := 2, bias := 15, maxCode := 0x7B, inf := some 0x7C, nan := some 0x7E, signBit := 7, shift := 0 }
def e3m2 : FloatFmt := { mant := 2, bias := 3, maxCode := 0x1F, inf := none, nan := none, signBit := 5, shift := 0 }
def e2m3 : FloatFmt := { mant := 3, bias := 1, maxCode := 0x1F, inf := none, nan := none, signBit := 5, shift := 0 }
def e2m1 : FloatFmt := { mant := 1, bias := 1, maxCode := 0x7, inf := none, nan := none, signBit := 3, shift := 0 }

def fmtOf (code : Nat) : Fmt :=
  if code = 0 then .float fp32 else if code = 1 then .float f19 else if code = 2 then .float bf16
  else if code = 3 then .float fp16 else if code = 4 then .float e4m3 else if code = 5 then .float e5m2
  else if code = 6 then .float e3m2 else if code = 7 then .float e2m3 else if code = 8 then .float e2m1
  else if code = 9 then .int 8 else if code = 10 then .int 4 else .reserved

/-- Bits an element of a format takes in memory and tiles (R26). -/
def fmtBits (code : Nat) : Nat :=
  if code ≤ 1 then 32 else if code ≤ 3 then 16 else if code ≤ 5 then 8 else if code ≤ 7 then 6
  else if code = 8 then 4 else if code = 9 then 8 else 4

/-- The format has infinity, so `OVF` may be 1 (R33). -/
def fmtHasInf (code : Nat) : Bool := match fmtOf code with | .float f => f.inf.isSome | _ => false
def fmtOk (code : Nat) : Bool := code ≤ 10

/-- The conversion control is legal for a target (R33). -/
def convOk (code conv : Nat) : Bool := bits conv 0 2 ≠ 3 && !bitAt conv 3 && (!bitAt conv 2 || fmtHasInf code)

/-- Read a float code, the container shift removed (R24, R25, R28, R30). -/
def readFloat (f : FloatFmt) (raw : Nat) : Val :=
  let c := raw / 2 ^ f.shift
  let neg := bitAt c f.signBit
  let m := c % 2 ^ f.signBit
  let isNan := match f.nan, f.inf with
    | some _, some i => decide (i < m)
    | some n, none => decide (m = n)
    | none, _ => false
  if isNan then .nan
  else if f.inf = some m then .inf neg
  else
    let e := m / 2 ^ f.mant
    let x := m % 2 ^ f.mant
    if e = 0 then .fin neg x 1 (1 - (f.bias : Int) - f.mant)
    else .fin neg (2 ^ f.mant + x) 1 ((e : Int) - f.bias - f.mant)

/-- Read an element code. -/
def readElem (code raw : Nat) : Val :=
  match fmtOf code with
  | .float f => readFloat f raw
  | .int w => .ofInt (signed w raw)
  | .reserved => .nan

/-! ### Rounding (R34 to R37) -/

/-- Rounding controls of one conversion: mode, `OVF`, and the random value r of R36. -/
structure Rnd where
  mode : Nat
  ovf : Bool
  r : Nat
  deriving DecidableEq, Repr

def rne : Rnd := { mode := 0, ovf := true, r := 0 }

/-- What a Canary counts of one element (R29, R39, R40). -/
inductive Mark where
  | none | sat | ufz | nan
  deriving DecidableEq, Repr

/-- Units of 2^u in num ÷ den × 2^exp, rounded to a whole number. -/
def roundUnits (c : Rnd) (num den : Nat) (exp u : Int) : Nat :=
  let n := num * pow2 (exp - u)
  let d := den * pow2 (u - exp)
  let q := n / d
  let r := n % d
  if c.mode = 1 then q
  else if c.mode = 2 then (if 65536 ≤ r * 65536 / d + c.r then q + 1 else q)
  else if d < 2 * r ∨ (2 * r = d ∧ q % 2 = 1) then q + 1 else q

/-- The magnitude code of a rounded magnitude, in the format with its exponent range unbounded upward (R39). -/
def floatMag (f : FloatFmt) (c : Rnd) (num den : Nat) (exp : Int) : Nat :=
  if num = 0 then 0
  else
    let lowest : Int := 1 - (f.bias : Int) - f.mant
    let u := max (floorLog2 num den exp - f.mant) lowest
    let q := roundUnits c num den exp u
    if q < 2 ^ f.mant then q
    else
      let l := Nat.log2 q
      (((l : Int) + u + f.bias).toNat) * 2 ^ f.mant + (q / 2 ^ (l - f.mant) - 2 ^ f.mant)

/-- A value in a float format, and what the Canary counts (R29, R31, R34 to R40). -/
def writeFloat (f : FloatFmt) (c : Rnd) (v : Val) : Nat × Mark :=
  let put (neg : Bool) (m : Nat) : Nat := (m + (if neg then 2 ^ f.signBit else 0)) * 2 ^ f.shift
  match v with
  | .nan => (put false (match f.nan with | some n => n | none => f.maxCode), .nan)
  | .inf neg => match f.inf with
    | some i => (put neg i, .none)
    | none => (put neg f.maxCode, .sat)
  | .fin neg num den exp =>
    let m := floatMag f c num den exp
    if f.maxCode < m then
      (put neg (if c.ovf && c.mode != 1 then f.inf.getD f.maxCode else f.maxCode), .sat)
    else (put neg m, if m = 0 ∧ num ≠ 0 then .ufz else .none)

/-- A value in an integer format of `w` bits: 127 and −128, or 7 and −8, bound it (R39). -/
def writeInt (w : Nat) (c : Rnd) (v : Val) : Nat × Mark :=
  let top : Nat := 2 ^ (w - 1)
  match v with
  | .nan => (top - 1, .nan)
  | .inf neg => (if neg then top else top - 1, .sat)
  | .fin neg num den exp =>
    let q := roundUnits c num den exp 0
    if neg then (if top < q then (top, .sat) else ((2 ^ w - q) % 2 ^ w, if q = 0 ∧ num ≠ 0 then .ufz else .none))
    else (if top ≤ q then (top - 1, .sat) else (q, if q = 0 ∧ num ≠ 0 then .ufz else .none))

/-- One conversion to a format code (R38). -/
def writeElem (code : Nat) (c : Rnd) (v : Val) : Nat × Mark :=
  match fmtOf code with
  | .float f => writeFloat f c v
  | .int w => writeInt w c v
  | .reserved => (0, .none)

/-! ### Stochastic rounding bits (R37) -/

def mix32 (x : Word) : Word :=
  let x := (x ^^^ (x >>> 16)) * 0x6C8E9CF5
  let x := (x ^^^ (x >>> 13)) * 0xA53B9D27
  x ^^^ (x >>> 16)

def srBits (seed step tag idx : Word) : Nat :=
  ((mix32 (mix32 (mix32 (seed ^^^ step) ^^^ tag) ^^^ (idx * 0x9E3779B9))) >>> 16).toNat

/-- Controls of a conversion from its 4-bit field and the inputs of R37. -/
def rndOf (conv : Nat) (seed step tag idx : Nat) : Rnd :=
  { mode := bits conv 0 2, ovf := bitAt conv 2
    r := if bits conv 0 2 = 2 then srBits (BitVec.ofNat 32 seed) (BitVec.ofNat 32 step) (BitVec.ofNat 32 tag) (BitVec.ofNat 32 idx) else 0 }

/-! ### FP32 arithmetic of the pipelines: exact, then rounded to nearest even, overflow to infinity -/

def rd (x : Word) : Val := readFloat fp32 x.toNat
def wr (v : Val) : Word := BitVec.ofNat 32 (writeFloat fp32 rne v).1
def fAdd (x y : Word) : Word := wr ((rd x).add (rd y))
def fSub (x y : Word) : Word := wr ((rd x).sub (rd y))
def fMul (x y : Word) : Word := wr ((rd x).mul (rd y))
def fDiv (x y : Word) : Word := wr ((rd x).div (rd y))
def fFma (x y z : Word) : Word := wr (((rd x).mul (rd y)).add (rd z))
def fMax (x y : Word) : Word := wr ((rd x).max (rd y))
def fMin (x y : Word) : Word := wr ((rd x).min (rd y))
def fLt (x y : Word) : Bool := (rd x).lt (rd y)
def fNeg (x : Word) : Word := wr (rd x).neg
def fAbs (x : Word) : Word := wr (rd x).abs
def fZero : Word := 0
def fOne : Word := 0x3F800000
def fIsNan (x : Word) : Bool := rd x == .nan
def fIsFinite (x : Word) : Bool := (rd x).isFinite

/-- Integer square root. -/
def isqrtAux : Nat → Nat → Nat → Nat
  | 0, _, r => r
  | k + 1, n, r => let c := r + 2 ^ k; isqrtAux k n (if c * c ≤ n then c else r)
def isqrt (n : Nat) : Nat := isqrtAux (Nat.log2 n / 2 + 1) n 0

/-- Correctly rounded FP32 square root: the exact root is compared through its square at twice the precision. -/
def fSqrt (x : Word) : Word :=
  match rd x with
  | .nan => wr .nan
  | .inf neg => if neg then wr .nan else wr (.inf false)
  | .fin neg num den exp =>
    if num = 0 then x
    else if neg then wr .nan
    else
      let e := if exp % 2 = 0 then exp else exp - 1
      let n := if exp % 2 = 0 then num else 2 * num
      let scaled := n * 2 ^ 160 / den
      let r := isqrt scaled
      let sticky := if r * r = scaled then 0 else 1
      wr (.fin false (2 * r + sticky) 1 (e / 2 - 80 - 1))

/-! ### Scale encodings (R32, R43) -/

def readE8m0 (c : Nat) : Val := if c = 0xFF then .nan else .fin false 1 1 ((c : Int) - 127)
def readUe4m3 (c : Nat) : Val := readFloat e4m3 (c % 128)

/-- Sign bit of an element code. -/
def codeNeg (fmt raw : Nat) : Bool := bitAt raw (fmtBits fmt - 1)

/-- An element with the sign `neg` of its code under its first-order scale `s1` and, under Scheme B, its second-order scale (R43).
R43 gives its overrides no order: a second-order scale that is not positive and finite comes before a first-order scale of zero
(DESIGN CHOICE, log entry 8). -/
def scaleElem (scheme : Nat) (x : Val) (neg : Bool) (s1 : Nat) (s2 : Word) : Val :=
  if scheme = 1 then (match readE8m0 s1 with | .nan => .nan | v => x.mul v)
  else if scheme = 2 then
    (match rd s2 with
     | .fin false n _ _ =>
       if n = 0 then .nan
       else (match readUe4m3 s1 with
         | .nan => .nan
         | v => if v.isZero then .zero neg else (x.mul v).mul (rd s2))
     | _ => .nan)
  else x

/-- Exponent of the largest finite value of an element format (R45). -/
def emaxOf (code : Nat) : Int :=
  if code = 2 then 127 else if code = 3 then 15 else if code = 4 then 8 else if code = 5 then 15 else if code = 6 then 4
  else if code = 7 then 2 else if code = 8 then 2 else if code = 9 then 6 else if code = 10 then 2 else 127

/-- Largest finite element of a format (Table 02-2). -/
def largestOf (code : Nat) : Val :=
  match fmtOf code with
  | .float f => readFloat f (f.maxCode * 2 ^ f.shift)
  | .int w => .fin false (2 ^ (w - 1) - 1) 1 0
  | .reserved => .zero false

/-- Largest finite magnitude of a block; infinities and NaNs are left out (R45). -/
def amaxOf (xs : List Val) : Val :=
  xs.foldl (fun a x => if x.isFinite && a.lt x.abs then x.abs else a) (.zero false)

/-- A block's first-order scale code and the divisor its elements are converted with (R45, R46). -/
structure BlockScale where
  code : Nat
  divisor : Val
  zeroed : Bool
  deriving DecidableEq, Repr

def schemeAScale (fmt : Nat) (amax : Val) : BlockScale :=
  match amax with
  | .fin _ num den exp =>
    if num = 0 then { code := 0x00, divisor := .fin false 1 1 (-127), zeroed := false }
    else
      let e := max (-127) (min 127 (floorLog2 num den exp - emaxOf fmt))
      { code := (e + 127).toNat, divisor := .fin false 1 1 e, zeroed := false }
  | _ => { code := 0x00, divisor := .fin false 1 1 (-127), zeroed := false }

def schemeBScale (fmt : Nat) (s2 : Word) (amax : Val) : BlockScale :=
  if amax.isZero then { code := 0x38, divisor := rd s2, zeroed := false }
  else
    let q := amax.div ((largestOf fmt).mul (rd s2))
    let c := (writeFloat e4m3 { mode := 0, ovf := false, r := 0 } q).1 % 128
    if c = 0 then { code := 0, divisor := .zero false, zeroed := true }
    else { code := c, divisor := rd (wr ((readUe4m3 c).mul (rd s2))), zeroed := false }

/-- Convert one element under its block's scale (R45, R46). -/
def writeScaled (fmt : Nat) (c : Rnd) (b : BlockScale) (x : Val) : Nat × Mark :=
  if b.zeroed then
    match x with
    | .nan => ((writeElem fmt c (.zero false)).1, .nan)
    | .inf n => ((writeElem fmt c (.zero n)).1, .sat)
    | .fin n a _ _ => ((writeElem fmt c (.zero n)).1, if a = 0 then .none else .ufz)
  else writeElem fmt c (x.div b.divisor)

/-! ### Packing (R26) -/

/-- The code of element `i` of a packed run of bytes. -/
def packedElem (code : Nat) (bs : List Byte) (i : Nat) : Nat :=
  let w := fmtBits code
  bits (leAt bs (w * i / 8) 5) (w * i % 8) w

/-- Block length of a scheme (R41). -/
def blockLen (scheme : Nat) : Nat := if scheme = 2 then 16 else 32

/-- Pack codes into bytes, zero codes filling the last byte or group. -/
def packElems (code : Nat) (cs : List Nat) : List Byte :=
  let w := fmtBits code
  let n := cs.foldr (fun c a => c % 2 ^ w + 2 ^ w * a) 0
  let group := if w = 6 then 3 else 1
  leBytes (group * ceilDiv (w * cs.length) (8 * group)) n

/-- Elements that begin on a whole byte or group together (12 R293). -/
def packUnit (code : Nat) : Nat := if fmtBits code = 6 then 4 else if fmtBits code = 4 then 2 else 1

end Sys2Proof.Machine
end

