-- ==== Sys2Proof/Config.lean ====
section
/-! DEFINITION. What one device fixes and the manual leaves open: fuses, cryptographic functions, free values.
Every constant here is opaque: no proof sees a value of it. Log entry 4. -/
namespace Sys2Proof.Config

/-! ### Fuses and fixed values (16 R386, 20 R487) -/

/-- The fused 64-bit unit ID (R386). -/
opaque unitId : Dword
/-- `DEV_REV` bits [7:0]: `METAL` and `STEP` (R487, R488). -/
opaque devRev : Byte
/-- The boot ROM version (R487, R394). -/
opaque romVersion : Word
/-- SM3 digest of the firmware-signing public key (R386). -/
opaque fwKeyDigest : List Byte
/-- SM3 digest of the debug-authority public key (R386). -/
opaque dbgKeyDigest : List Byte
/-- The root secret RS (R386), seen only by the key derivations of R387. -/
opaque rootSecret : List Byte
/-- The certificate chain of slot 0 held in the firmware flash (R393, R455). -/
opaque certChain : List Byte
/-- The CDAT bytes of DOE instance 1 (R263): 800 ns and 200 GB/s for the window's base and size. -/
opaque cdatBytes : Nat → Nat → List Byte

/-! ### The firmware image (16 R389): the manual gives its contents, not its layout -/

/-- The signing public key a firmware image carries. -/
opaque imageKey : List Byte → List Byte
/-- The security version number a firmware image carries, used modulo 64. -/
opaque imageSvn : List Byte → Nat
/-- The bytes of an image that precede its signature. -/
opaque imageSigned : List Byte → List Byte
/-- The SM2 signature an image carries. -/
opaque imageSig : List Byte → List Byte
/-- The version fields of an image: `FW_VER` bits [23:0] (R487). -/
opaque imageVersion : List Byte → Nat

/-! ### Cryptography by the published standards (16): the manual names SM2, SM4-GCM and AES-GCM, not their arithmetic -/

/-- SM2 verification: public key, digest, signature (R389, R397, R399, R407). -/
opaque sm2Verify : List Byte → List Byte → List Byte → Bool
/-- SM2 signing with the fused identity key d: digest and nonce draw (R393, R399). -/
opaque sm2Sign : List Byte → Nat → List Byte
/-- SM2 decryption of a wrapped key with d; none when the C3 check fails (R400). -/
opaque sm2Unwrap : List Byte → Option (List Byte)
/-- SM4-GCM decryption: key, IV, AAD, ciphertext (R399). -/
opaque gcmDecrypt : List Byte → List Byte → List Byte → List Byte → List Byte
/-- SM4-GCM encryption: key, IV, AAD, plaintext (R399). -/
opaque gcmEncrypt : List Byte → List Byte → List Byte → List Byte → List Byte
/-- The 16-byte SM4-GCM tag: key, IV, AAD, ciphertext (R399). -/
opaque gcmTag : List Byte → List Byte → List Byte → List Byte → List Byte
/-- The body of an SPDM response that the SPDM standard lays out: request code, what the device reports, draw. -/
opaque spdmBody : Nat → List Byte → Nat → List Byte
/-- Subsystem Vendor ID (low half) and Subsystem ID, taken from the firmware flash image (11 R262). -/
opaque subsystem : List Byte → Word
/-- Fields of configuration space and of BAR4 that the standards settle and the manual does not (11 R263), by offset; BAR4 from 0x1000. -/
opaque capWord : Nat → Word
/-- Offset in BAR4 of the CXL RAS uncorrectable error status (11 R264: the component registers' own layout). -/
opaque rasStatusOff : Nat

/-! ### Free values: the n-th value that the manual leaves open (log entry 4) -/

/-- The n-th open number. -/
opaque freeNat : Nat → Nat
/-- The n-th open bit. -/
opaque freeBool : Nat → Bool
/-- Bytes of the random bit generator (R388): draw and byte index. -/
opaque drbgByte : Nat → Nat → Byte
/-- The signed slew of Tally on the n-th XCLK cycle under a trim: whether the cycle is a chosen one (R373). -/
opaque slewChosen : Nat → Int → Bool

/-! ### Vector functions known only to an accuracy bound (03 R75), on FP32 bits: open results, held within the bound where they are used -/

/-- Reciprocal. -/
opaque fRecip : Word → Word
/-- Reciprocal square root. -/
opaque fRsqrt : Word → Word
/-- 2 to the power x. -/
opaque fExp2 : Word → Word
/-- Base-2 logarithm. -/
opaque fLog2 : Word → Word
/-- e to the power x. -/
opaque fExp : Word → Word
/-- Hyperbolic tangent. -/
opaque fTanh : Word → Word
/-- Logistic function. -/
opaque fSigmoid : Word → Word
/-- GELU. -/
opaque fGelu : Word → Word
/-- SiLU. -/
opaque fSilu : Word → Word

/-! ### Dataflow points that the manual leaves open -/

/-- A scratchpad byte after the n-th A4 (04 R102: contents survive every state but OFF). -/
opaque lostByte : Nat → Nat → Byte
/-- Whether a station drains its tiles column by column for an output (03 R66: the station table chooses, and 07 gives it no bit):
digest of the Survey, station index, entry index, output port. -/
opaque drainByCol : List Byte → Nat → Nat → Nat → Bool
/-- Which of the two FP32 values of a row-state entry an operation of a vector program names (07 R168). -/
opaque rowPick : Nat → Bool
/-- Result of the vector compare (07 R168: the relation and the result are not stated). -/
opaque vecCompare : Word → Word → Word
/-- Whether the vector select takes its first source: destination before, two sources (07 R168: its predicate is not stated). -/
opaque vecSelect : Word → Word → Word → Bool
/-- A vector operation code that the manual does not list, on its operands. -/
opaque vecOther : Nat → Word → Word → Word → Word
/-- Number, in its second-order group, of the first block of a tile (02 R48: a tile's place in its tensor is not in the scale token):
first group listed, tag. -/
opaque firstBlock : Nat → Nat → Nat
/-- Number, in its tensor, of the first block of a tile that a station writes: device index, tag. -/
opaque outBlock : Nat → Nat → Nat
/-- Layer of the runs that a SINK hands on (09 R222, 14 R361: the image names none): template, tag. -/
opaque sinkLayer : Nat → Nat → Nat
/-- Node of the owner that a RED packet's runs are for, where a sender of the receiver's own node does not say (14 R361, R362). -/
opaque redNode : List Byte → Nat
/-- A routing table as the fabric manager computes it (14 R343, R346, R347: the manual states what it must satisfy, no algorithm):
epoch, the table's device, links as (address, port, neighbour's address), addresses that transit must avoid. -/
opaque routeTable : Nat → Nat → List (Nat × Nat × Nat) → List Nat → List (Nat × Word)
/-- Rate correction that slewing away an offset uses, before it is held within ±200,000 ppb (15 R373, R378): offset, draw. -/
opaque slewTrim : Int → Nat → Int
/-- Coefficient of a compatibility UPDATE station from its program's immediates (09 R235): α1, β1, α2, β2, ε, λ. -/
opaque updateCoef : List Word → Nat → Word
/-- `USEL` (bits 1:0) and `HSEL` (bit 2) of a compatibility UPDATE station from its program's immediates (09 R235). -/
opaque updateSel : List Word → Nat

end Sys2Proof.Config
end

