-- ==== Sys2Proof/Machine/RegMap.lean ====
section
/-! DEFINITION. The writable fields of every BAR0 register: place, access type, reset value and clamp (00 R5 to R9; 20
R483, R496; the register tables of each chapter). Read-only fields are computed from the state (Machine/RegRead.lean). -/
namespace Sys2Proof.Machine

/-- Access types of a stored field (00 Table 00-5). -/
inductive Acc where
  | rw | rwl | rwq
  deriving DecidableEq, Repr

/-- A stored field: low bit, width, access, reset value, bounds of what a write sets (the nearer bound is taken). -/
structure RField where
  lo : Nat
  width : Nat
  acc : Acc
  reset : Nat
  least : Nat
  most : Nat
  deriving DecidableEq, Repr

/-- A field without bounds of its own. -/
def fld (lo width : Nat) (acc : Acc) (reset : Nat) : RField :=
  { lo := lo, width := width, acc := acc, reset := reset, least := 0, most := 2 ^ width - 1 }

/-- A field whose writes are brought within bounds. -/
def fldB (lo width : Nat) (acc : Acc) (reset least most : Nat) : RField :=
  { lo := lo, width := width, acc := acc, reset := reset, least := least, most := most }

/-! ### Block bases (20 Table 20-1) -/

def jobBase (n : Nat) : Nat := 0x4000 + 0x40 * n
def clkBase : Nat := 0x5000
def pwrBase : Nat := 0x6000
def rasBase : Nat := 0x7000
def secBase : Nat := 0x8000
def cxlBase : Nat := 0x9000
def cageBase : Nat := 0xA000
def ringBase (k : Nat) : Nat := 0xB000 + 0x40 * k
def fabBase : Nat := 0xC000
def portBase (p : Nat) : Nat := 0x10000 + 0x1000 * p
def hoistBase (l n : Nat) : Nat := 0x20000 + 0x1000 * l + 0x100 + 0x80 * n
def memBase : Nat := 0x40000
def chanBase (m : Nat) : Nat := 0x50000 + 0x80 * m
def millBase : Nat := 0x200000
def millCtr (m : Nat) : Nat := 0x300000 + 0x100 * m
def siteBase (k : Nat) : Nat := 0x1000000 + 0x800 * k
def imageBase : Nat := 0x2000000

/-- Site index, Level, row and column of a site (00 R10, Table 00-6). -/
def siteRow (k : Nat) : Nat := k % 2048 / 64
def siteCol (k : Nat) : Nat := k % 64
/-- A site whose row plus column is even is a compute unit (R10). -/
def isCu (k : Nat) : Bool := (siteRow k + siteCol k) % 2 == 0

/-! ### Fields -/

/-- Job-slot control block, offset within the slot's 64 bytes (05 R145, 08 R208, 14 R367). -/
def jobFields (o : Nat) : List RField :=
  if o = 0x00 then [fld 6 26 .rwq 0]
  else if o = 0x04 then [fld 0 16 .rwq 0]
  else if o = 0x08 then [fld 0 1 .rwq 0]
  else if o = 0x20 then [fld 0 1 .rwl 1, fldB 1 6 .rwl 30 16 40]
  else if o = 0x30 then [fld 6 26 .rwq 0]
  else if o = 0x34 then [fld 0 16 .rwq 0]
  else if o = 0x38 then [fld 0 1 .rwq 0, fld 1 1 .rwq 0, fld 2 1 .rwl 0, fldB 3 5 .rwq 25 10 31]
  else []

/-- Ring k registers, offset within the ring's 64 bytes (12 R307). -/
def ringFields (o : Nat) : List RField :=
  if o = 0x00 then
    [fld 0 1 .rw 0, fldB 1 4 .rwq 4 4 15, fld 5 6 .rwq 0, fld 11 8 .rwq 0, fld 19 1 .rwq 0, fld 20 1 .rwq 0]
  else if o = 0x04 then [fld 0 20 .rwq 0]
  else if o = 0x08 ∨ o = 0x10 then [fld 6 26 .rwq 0]
  else if o = 0x0C ∨ o = 0x14 ∨ o = 0x1C ∨ o = 0x24 then [fld 0 32 .rwq 0]
  else if o = 0x18 then [fld 3 3 .rwq 0, fld 6 26 .rwq 0]
  else if o = 0x20 then [fld 3 29 .rwq 0]
  else []

/-- Port p registers, offset within the port (13 R330 to R332). Filter entry 0 resets to the port's own address (R322). -/
def portFields (o : Nat) : List RField :=
  if o = 0x000 then [fld 0 3 .rwq 0, fld 3 1 .rwq 0, fld 4 4 .rwq 0, fld 8 1 .rwq 1]
  else if o = 0x008 then [fldB 0 10 .rwl 0xC8 1 1023, fld 10 4 .rwl 7, fldB 14 4 .rwl 8 1 15]
  else if o = 0x00C then [fld 0 8 .rwq 64, fld 8 8 .rwq 64, fld 16 8 .rwq 64, fld 24 8 .rwq 64]
  else if o = 0x010 then
    [fldB 0 14 .rwq 9216 1518 9600, fld 14 1 .rwl 1, fld 15 1 .rwl 0, fld 16 1 .rwq 0, fld 17 12 .rwq 0,
      fld 29 1 .rwq 1, fld 30 1 .rwq 0]
  else if o = 0x014 then [fld 0 16 .rwq 0x88B5]
  else if o = 0x018 then [fld 0 12 .rwl 0, fld 16 12 .rwl 0]
  else if 0x040 ≤ o ∧ o < 0x0C0 then
    if o % 8 = 0 then [fld 0 32 .rwl 0]
    else [fld 0 16 .rwl 0, fld 16 1 .rwl (if o = 0x044 then 1 else 0)]
  else []

/-- CU site registers (03 R81). -/
def cuFields (o : Nat) : List RField :=
  if o = 0x000 then [fld 0 1 .rwl 1, fldB 1 11 .rwq 0x100 16 2047, fld 16 1 .rwl 0] else []

/-- MU site registers (04 R106, R108 to R110). -/
def muFields (o : Nat) : List RField :=
  if o = 0x000 then [fldB 0 8 .rwq 0x10 1 255, fld 16 1 .rwl 0]
  else if o = 0x008 then [fld 0 16 .rwl 0x0400]
  else if 0x200 ≤ o ∧ o < 0x300 then
    if o % 0x20 = 0x00 then [fld 0 1 .rwq 0, fld 1 3 .rwq 0]
    else if o % 0x20 = 0x04 then [fld 0 9 .rwq 0]
    else if o % 0x20 = 0x08 then [fld 0 10 .rwq 0]
    else if 0x10 ≤ o % 0x20 then [fld 0 32 .rwl 0]
    else []
  else if 0x300 ≤ o ∧ o < 0x400 then
    if o % 0x10 = 0x0 then [fld 0 1 .rwq 0, fld 1 3 .rwq 0]
    else if o % 0x10 = 0x4 then [fld 0 15 .rwq 0, fld 16 16 .rwq 0]
    else if o % 0x10 = 0x8 then [fld 0 16 .rwl 0]
    else []
  else []

/-- The stored fields of the register at a BAR0 offset; none for read-only and unassigned offsets. -/
def regFields (off : Nat) : List RField :=
  if off % 4 ≠ 0 then []
  else if off < 0x4000 then (if off = 0x088 then [fld 0 32 .rw 0] else [])
  else if off < 0x4200 then jobFields (off % 0x40)
  else if off < 0x5000 then []
  else if off < 0x6000 then
    if off = 0x5010 then [fld 0 32 .rw 0]
    else if off = 0x5018 then
      [fld 0 1 .rwl 1, fld 1 8 .rwq 0, fldB 9 10 .rwl 100 4 1023, fldB 19 12 .rwl 1000 64 4095]
    else []
  else if off < 0x7000 then
    if off = 0x6000 then [fldB 0 16 .rw 100 1 65535]
    else if off = 0x6010 then [fldB 0 8 .rwl 100 80 105, fldB 8 4 .rwl 5 1 15]
    else []
  else if off < 0x8000 then
    if off = 0x7000 then [fld 0 1 .rw 1, fldB 1 15 .rwl 64 1 32767, fldB 16 15 .rwl 4096 1 32767]
    else if off = 0x7008 then [fld 0 13 .rw 0, fld 13 2 .rw 0]
    else if off = 0x7010 then [fld 0 13 .rw 0]
    else if off = 0x7080 then [fld 0 25 .rw 0]
    else []
  else if off < 0x9000 then (if 0x8100 ≤ off ∧ off < 0x8200 then [fld 0 32 .rw 0] else [])
  else if off < 0xA000 then
    if off = 0x9008 then [fldB 0 14 .rwq 0 0 9215]
    else if off = 0x900C then [fldB 0 14 .rwq 256 1 9216]
    else if off = 0x9010 then [fldB 0 5 .rwl 20 10 30]
    else []
  else if off < 0xB000 then
    if off = 0xA040 then [fld 0 1 .rw 0, fldB 1 4 .rwq 4 4 15, fld 5 6 .rwq 0]
    else if off = 0xA048 then [fld 6 26 .rwq 0]
    else if off = 0xA050 then [fld 3 29 .rwq 0]
    else if off = 0xA04C ∨ off = 0xA054 then [fld 0 32 .rwq 0]
    else []
  else if off < 0xB800 then ringFields (off % 0x40)
  else if off < 0xC000 then []
  else if off < 0x10000 then
    if off = 0xC000 then
      [fld 0 1 .rwl 0, fld 1 1 .rwl 0, fld 2 10 .rwl 0, fld 12 1 .rwl 0, fldB 13 7 .rwl 10 1 127]
    else if off = 0xC010 then [fldB 0 8 .rwl 50 1 255, fldB 8 4 .rwl 8 1 15, fldB 12 4 .rwq 10 4 10]
    else if off = 0xC014 then
      [fld 0 8 .rwl 64, fld 8 4 .rwl 3, fld 12 4 .rwl 6, fldB 16 8 .rwl 16 1 255, fld 24 1 .rwl 1]
    else []
  else if off < 0x1C000 then portFields (off % 0x1000)
  else if off < 0x40000 then []
  else if off < 0x80000 then
    if off = 0x40000 then [fld 0 1 .rw 1, fldB 1 6 .rw 24 1 63, fld 8 1 .rwl 0]
    else if off = 0x40008 then [fld 0 16 .rwl 0x0100]
    else []
  else if off < 0x1000000 then []
  else if off < 0x2000000 then
    if isCu ((off - 0x1000000) / 0x800) then cuFields (off % 0x800) else muFields (off % 0x800)
  else if off < 0x3000000 then [fld 0 32 .rw 0]
  else []

/-- The reset value of the stored fields of a register (20 R493). -/
def regReset (off : Nat) : Word :=
  BitVec.ofNat 32 ((regFields off).foldl (fun w f => w + f.reset * 2 ^ f.lo) 0)

/-- Write one stored field: clamp, and keep an RWQ field whose block is busy (R7). -/
def writeField (busy : Bool) (old new : Nat) (f : RField) : Nat :=
  let v := clampNat f.least f.most (bits new f.lo f.width)
  if f.acc = .rwq ∧ busy then bits old f.lo f.width else v

/-- The register after a write: every stored field written, reserved bits 0 (R5, R7). -/
def writeFields (busy : Bool) (fs : List RField) (old new : Nat) : Nat :=
  fs.foldl (fun w f => w + writeField busy old new f * 2 ^ f.lo) 0

/-- Whether a write would change an RWQ field of a busy block (R7). -/
def changesRwq (fs : List RField) (old new : Nat) : Bool :=
  fs.any fun f => f.acc = .rwq && clampNat f.least f.most (bits new f.lo f.width) != bits old f.lo f.width

/-- The part of a write that waits for a tile boundary: the RWL fields at their new values, the others as they are. -/
def heldFields (fs : List RField) (cur new : Nat) : Nat :=
  fs.foldl (fun w f =>
    w + (if f.acc = .rwl then clampNat f.least f.most (bits new f.lo f.width) else bits cur f.lo f.width) * 2 ^ f.lo) 0

/-! ### Counters (03 R83): offsets of the low words of the 48-bit pairs -/

/-- Whether `off` is the low word of a 48-bit counter that some block keeps or sums. -/
def isCounterLow (off : Nat) : Bool :=
  off % 8 == 0 &&
  ((off == 0x100) ||
   (0x4000 ≤ off && off < 0x4200 && off % 0x40 == 0x28) ||
   (0x5100 ≤ off && off ≤ 0x5128) || (0x6100 ≤ off && off ≤ 0x6150) || (0x7100 ≤ off && off ≤ 0x7130) ||
   (0x9100 ≤ off && off ≤ 0x9140) || (0xA100 ≤ off && off ≤ 0xA128) || (0xC100 ≤ off && off ≤ 0xC170) ||
   (0x10000 ≤ off && off < 0x1C000 && 0x100 ≤ off % 0x1000 && off % 0x1000 ≤ 0x1B0) ||
   (0x20000 ≤ off && off < 0x24000 && 0x100 ≤ off % 0x1000 && off % 0x1000 < 0x500 && off % 0x80 ≤ 0x38) ||
   (0x40800 ≤ off && off ≤ 0x40848) || (0x40880 ≤ off && off ≤ 0x40890) ||
   (0x50000 ≤ off && off < 0x68000 && off % 0x80 ≤ 0x48) ||
   (0x2000C8 ≤ off && off ≤ 0x200118) ||
   (0x300000 ≤ off && off < 0x330000 && off % 0x100 ≤ 0x50) ||
   (0x1000000 ≤ off && off < 0x2000000 &&
     ((0x100 ≤ off % 0x800 && off % 0x800 ≤ (if isCu ((off - 0x1000000) / 0x800) then 0x150 else 0x168)) ||
      (0x400 ≤ off % 0x800 && off % 0x800 < 0x600 && off % 0x100 < 0x80))))

/-- The largest value of a 48-bit saturating counter. -/
def ctrMax : Nat := 2 ^ 48 - 1

end Sys2Proof.Machine
end

