-- ==== Sys2Proof/Machine/State.lean ====
section
/-! DEFINITION. The state of the whole device, the reasons a step can stop, and the state after power-on reset. -/
namespace Sys2Proof.Machine

/-- Output pins the device drives (19). -/
inductive Pin where
  | thermAlert | thermTrip | smbAlert | boundary
  deriving DecidableEq, Repr

/-- What an outside observer sees the device do. -/
inductive Output where
  /-- A completion or event record: its entry, the PASID and the host address of its write, its bytes; bytes 0 to 55 go first,
  then 56 to 63 (12 R299, R305). -/
  | completion (ring : Fin 32) (entry : Nat) (pasid : Option Nat) (addr : Nat) (record : List Byte)
  | event (entry : Nat) (addr : Nat) (record : List Byte)
  | msix (vec : Nat)
  | hostWrite (pasid : Option Nat) (addr : Nat) (data : List Byte)
  | memData (line : Nat) (data : List Byte)
  /-- Ownership of a host-bias line is resolved with the host over CXL.cache, for a read or a write (10 R244). -/
  | cacheOwn (line : Nat) (write : Bool)
  | bar0Data (off : Nat) (data : List Byte)
  | bar2Data (addr : Nat) (data : Byte)
  | unsupported (off : Nat)
  | translationRequest (pasid page : Nat)
  | pageRequest (pasid page : Nat)
  | invalidationDone (pasid page : Nat)
  | spdm (code : Nat) (body : List Byte)
  | tdisp (accepted : Bool)
  /-- A message delivered over MCTP, on I3C or SMBus (19 R476). -/
  | mctp (i3c : Bool) (m : MctpMsg)
  | configData (off : Nat) (data : List Byte)
  | bar4Data (off : Nat) (data : List Byte)
  /-- Request Retry Status (11 R276). -/
  | configRetry
  | doe (body : List Byte)
  | jtag (bitsOut : List Bool)
  | pin (p : Pin) (asserted : Bool)
  | avsVoltage (mv : Nat)
  | pmbus (rail : Nat) (word : Nat)
  | fab (o : FabOut)
  deriving DecidableEq, Repr

/-- The state of the SE-9624. -/
structure State where
  regs : Tbl Word
  held : Tbl (Option Word)
  ctrs : Tbl Nat
  latches : Tbl Nat
  clk : ClockState
  pwr : PowerState
  ras : RasState
  sec : SecState
  cxl : CxlState
  cage : CageState
  hbm : HbmState
  slots : Tbl Slot
  flow : FlowState
  fab : FabState
  jtag : Nat
  boundary : List Bool
  pending : List Instr
  out : List Output
  fresh : Nat
  deriving DecidableEq, Repr


/-! ### Why a step can stop -/

/-- Faults of a step. There are none: whatever a command meets, the manual says what the device does (errors, events, fences,
refused accesses), and an event whose condition does not hold changes nothing (log entry 3). -/
inductive Fault where
  deriving DecidableEq, Repr

/-- Reasons to refuse a command. -/
inductive Refusal where
  /-- Raised by `exec` for a row that has no meaning yet; safe. No row is in that state. -/
  | notModelled (mnemonic : String)
  deriving DecidableEq, Repr

/-- What a command or a step answers. -/
abbrev Answer := Host.Outcome State Fault Refusal

/-! ### Reset -/

def ClockState.reset : ClockState :=
  { root := 0, locked := false, lockLost := false, step := 0, req := 0, hostStep := 0, thermSteps := 0, powerSteps := 0
    regWarn := false, sagThrottle := false, tripThrottle := false, setPoint := 720, volt := none, aclkResume := 0
    tally := 0, sync := .free, parentPort := none, parentAddr := 0, offset := 0, trim := 0, streak := 0, lastSample := 0 }

def PowerState.reset : PowerState :=
  { phase := .held, resetting := none, pwrok := false, perst := true, coreMv := 0, ioMv := 0, air := false
    strapRecovery := false, smbAddr := 0, thermAlert := false, thermTrip := false, idle := 0, waking := none
    wakeCause := .none, wakeUs := 0, idleSince := 0, enteredAt := 0, a4Wait := false, heldMem := [], heldWrites := [], tMax := 0, tHbm := 0
    watts := 0, tripped := false, trippedSet := 0, tripLimit := false, thermCool := none, powerCool := none, hotStacks := 0
    throttledStacks := 0, coreLow := false, ioLow := false, sagSeen := false, sagSet := 0, railsBack := none, gateOpen := 0
    nvWait := [], nvRunning := [], rstCause := 1 }

def Flash.blank : Flash :=
  { image := [], i3c := false, portModes := [], mgrElig := false, reqAddr := none, incarn := 0, fenced := [], routerOnly := [], gen := 0
    log := [], tripUnreported := false }

def RasState.reset : RasState :=
  { seq := 0, log := [], service := false, units := [], testSince := [], fencedAt := [], movedAt := (0, 0), gen := 0, unitResult := .none, ceSites := []
    ceMills := [], linkReplays := [], bridgeReplays := [], fwState := .idle, fwSvn := 0, staged := [], flash := Flash.blank }

def SecState.reset : SecState :=
  { rollback := 0, bootSvn := 0, bootHost := false, fwVersion := 0, meas2 := [], meas4 := [], conn := .none, sessions := []
    sessionSerial := 0, dbg := .locked, dbgResult := 0, chal := none, scope := 0, scopeWait := 0, sealed := [], mctp := [] }

def CxlState.reset : CxlState :=
  { up := false, mode := false, rate := 0, width := 0, everUp := false, memSpace := false, busMaster := false
    cacheEn := false, memEn := false, atsEn := false, priEn := false, pasidEn := false, priAlloc := 0, bars := 0
    ideSettings := 0, dec := { committed := false, base := 0, size := 0, ways := 1, error := false }, winErr := false
    orphan := false, hostLoss := false, cageStopped := false, ide := [], tdi := .unlocked, stopping := false, atc := [], invAt := 0, invs := [], pri := [], priWait := []
    priSuppressed := false, msixMasked := BitVec.allOnes 64, msixPending := 0, msixFnMask := false
    msixTable := [], d3 := false, aspmL1 := false, aer := 0, rasUncor := 0 }

def CageState.reset : CageState :=
  { rings := [], serial := 0, started := [], held := [], waiting := [], evTail := 0, evPhase := false, evHead := 0
    evErr := false, evErrSet := 0, evLost := 0 }

def HbmState.reset : HbmState :=
  { cells := [], ue := [], hostBias := [], pcs := [], pcLast := [], waiting := [], patrolPos := [], violArmed := true, viol := []
    ueValid := false, ueSet := 0, ueSrc := 0, ueAddr := 0 }

/-- The device held in power-on reset (17 R420, 20 R493): every register at its Reset column. -/
def State.reset : State :=
  { regs := [], held := [], ctrs := [], latches := [], clk := .reset, pwr := .reset, ras := .reset, sec := .reset
    cxl := .reset, cage := .reset, hbm := .reset, slots := [], flow := .reset, fab := .reset, jtag := 0, boundary := []
    pending := [], out := [], fresh := 0 }

end Sys2Proof.Machine
end

