-- ==== Sys2Proof/Machine/Ops.lean ====
section
/-! DEFINITION. The named operations over the state that the meanings share: registers, counters, time, events, completion
records, memory, job stop, non-volatile writes. -/
namespace Sys2Proof.Machine

/-! ### Registers, counters, outputs, draws -/

/-- The stored value of a register. -/
def State.reg (s : State) (off : Nat) : Nat := (tblGet regReset s.regs off).toNat
def State.setReg (s : State) (off v : Nat) : State :=
  { s with regs := tblSet regReset s.regs off (BitVec.ofNat 32 v) }
/-- One field of a stored register. -/
def State.rf (s : State) (off lo width : Nat) : Nat := bits (s.reg off) lo width
def State.rfBit (s : State) (off lo : Nat) : Bool := bitAt (s.reg off) lo
def State.setRf (s : State) (off lo width v : Nat) : State := s.setReg off (setBits (s.reg off) lo width v)

def State.emit (s : State) (o : Output) : State := { s with out := o :: s.out }

/-- The stored value of a counter, by the BAR0 offset of its low word. -/
def State.ctr (s : State) (off : Nat) : Nat := tblGet (fun _ => 0) s.ctrs off
/-- Add to a 48-bit saturating counter (03 R83). -/
def State.bump (s : State) (off : Nat) (n : Nat := 1) : State :=
  { s with ctrs := tblSet (fun _ => 0) s.ctrs off (min (s.ctr off + n) ctrMax) }
/-- Clear the counters of a range and their latched high words. -/
def State.clearCtrs (s : State) (lo hi : Nat) : State :=
  { s with ctrs := tblClear lo hi s.ctrs, latches := tblClear lo hi s.latches }
/-- Bump unless the block's `CNT_FREEZE` is 1. -/
def State.bumpMem (s : State) (off : Nat) (n : Nat := 1) : State :=
  if s.rfBit memBase 8 then s else s.bump off n

/-- The number of the next free value. -/
def State.draw (s : State) : State := { s with fresh := s.fresh + 1 }
/-- `n` bytes from the random bit generator (16 R388). -/
def State.drbg (s : State) (n : Nat) : List Byte := (List.range n).map fun i => Config.drbgByte s.fresh i

/-! ### Time: root cycles of 125 ps (15 R369) -/

def nsRoot (n : Nat) : Nat := 8 * n
def usRoot (n : Nat) : Nat := 8000 * n
def msRoot (n : Nat) : Nat := 8000000 * n
/-- Root cycles per ACLK cycle at a step (15 Table 15-1). -/
def aclkDiv (step : Nat) : Nat := if step = 0 then 4 else if step = 1 then 5 else if step = 2 then 6 else 8
/-- VDD_CORE set point of a step, mV (17 R415). -/
def setPointOf (step : Nat) : Nat := if step = 0 then 720 else if step = 1 then 680 else if step = 2 then 650 else 620
/-- The present MCLK cycle, 1 the first. -/
def State.mclk (s : State) : Nat := s.clk.root / 16 + 1
/-- A W1C bit after a write of `clear`: one that hardware set in this same MCLK cycle stays 1 (00 R8). -/
def State.w1c (s : State) (bit : Bool) (set : Nat) (clear : Bool) : Bool := bit && !(clear && set != s.mclk)
/-- A Tally deadline `us` µs from now (15 R374). -/
def State.deadline (s : State) (us : Nat) : BitVec 64 := s.clk.tally + BitVec.ofNat 64 (1000 * us)
/-- Whether a Tally deadline has passed, in the modular order of 64-bit times. -/
def State.passed (s : State) (d : BitVec 64) : Bool := (s.clk.tally - d).toNat < 2 ^ 63

/-! ### Running, links and masks -/

/-- The device runs its work: booted, no reset in progress. -/
def State.live (s : State) : Bool := s.pwr.phase == .running && s.pwr.resetting.isNone
/-- The host reaches BAR0 (11 R266, R276; 20 R486). -/
def State.barOpen (s : State) : Bool :=
  s.cxl.up && s.cxl.memSpace && !s.cxl.d3 && (s.pwr.phase == .running || s.pwr.phase == .recovery)
/-- Device-originated CXL.io requests go out: Bus Master Enable is 1, the link carries CXL, the function is in D0, and its TDI is not in
ERROR (11 R259, R261, R266, R272). -/
def State.busOn (s : State) : Bool := s.cxl.busMaster && s.cxl.mode && !s.cxl.d3 && s.cxl.tdi != .error

/-- Send or hold pending one MSI-X message (11 R275); none goes out where the link carries CXL.io alone (R261). -/
def State.msix (s : State) (vec : Nat) : State :=
  if s.cxl.msixFnMask || s.cxl.msixMasked.getLsbD vec then
    { s with cxl := { s.cxl with msixPending := s.cxl.msixPending ||| (BitVec.ofNat 64 (2 ^ vec)) } }
  else if s.cxl.mode then s.emit (.msix vec)
  else s

/-! ### Ring registers (12 R307) -/

def State.ringReg (s : State) (k o : Nat) : Nat := s.reg (ringBase k + o)
def State.ringEn (s : State) (k : Nat) : Bool := bitAt (s.ringReg k 0) 0
def State.ringSize (s : State) (k : Nat) : Nat := 2 ^ bits (s.ringReg k 0) 1 4
def State.ringVec (s : State) (k : Nat) : Nat := bits (s.ringReg k 0) 5 6
def State.ringSlots (s : State) (k : Nat) : Nat := bits (s.ringReg k 0) 11 8
def State.ringAdmin (s : State) (k : Nat) : Bool := bitAt (s.ringReg k 0) 19
def State.ringPasidEn (s : State) (k : Nat) : Bool := bitAt (s.ringReg k 0) 20
def State.ringPasid (s : State) (k : Nat) : Nat := bits (s.ringReg k 4) 0 20
/-- Host line that holds the ring's doorbell word, and the word in it (11 R269). -/
def State.ringDbLine (s : State) (k : Nat) : Nat :=
  (bits (s.ringReg k 0x18) 6 26 * 64) + 2 ^ 32 * s.ringReg k 0x1C
def State.ringDbWord (s : State) (k : Nat) : Nat := bits (s.ringReg k 0x18) 3 3
/-- Start of the ring's completion entries, and the PASID of its accesses where they are translated (12 R282, R307). -/
def State.ringCq (s : State) (k : Nat) : Nat := bits (s.ringReg k 0x10) 6 26 * 64 + 2 ^ 32 * s.ringReg k 0x14
def State.ringTag (s : State) (k : Nat) : Option Nat := if s.ringPasidEn k then some (s.ringPasid k) else none
def State.ring (s : State) (k : Nat) : Ring := tblGet (fun _ => Ring.init) s.cage.rings k
def State.setRing (s : State) (k : Nat) (r : Ring) : State :=
  { s with cage := { s.cage with rings := tblSet (fun _ => Ring.init) s.cage.rings k r } }

/-! ### Slots -/

def State.slot (s : State) (n : Nat) : Slot := tblGet (fun _ => Slot.empty) s.slots n
def State.setSlot (s : State) (n : Nat) (x : Slot) : State :=
  { s with slots := tblSet (fun _ => Slot.empty) s.slots n x }
/-- A Survey is resident: its load has completed (07 R178, R180). -/
def State.loaded (s : State) (n : Nat) : Bool := (s.slot n).survey.isSome && !(s.slot n).loading

/-! ### Event records (18 R442 to R444) -/

/-- Generic payload of record bytes 16 to 55 (Table 18-3). -/
def genPayload (loc sub arg0 arg1 arg2 : Nat) : List Byte :=
  leBytes 2 loc ++ leBytes 2 sub ++ zeroBytes 4 ++ leBytes 8 arg0 ++ leBytes 8 arg1 ++ leBytes 8 arg2 ++ zeroBytes 8

/-- The 64 bytes of an event record (Table 18-3). -/
def EventRec.bytes (e : EventRec) (lost : Nat) (phase : Bool) : List Byte :=
  leBytes 2 e.code ++ leBytes 1 (e.cls.code + 8 * b2n e.secondary) ++
  leBytes 1 (match e.slot with | some n => n.val + 8 | none => 0) ++
  leBytes 4 e.seq ++ leBytes 8 e.tally.toNat ++ slice e.payload 0 40 ++
  leBytes 2 (min lost 0xFFFF) ++ zeroBytes 5 ++ leBytes 1 (b2n phase)

def State.evqEn (s : State) : Bool := s.rfBit 0xA040 0
/-- Start of the event ring in host memory (12 R305). -/
def State.evqBase (s : State) : Nat := bits (s.reg 0xA048) 6 26 * 64 + 2 ^ 32 * s.reg 0xA04C
def State.evqSize (s : State) : Nat := 2 ^ s.rf 0xA040 1 4
/-- Event records in the store, not yet in the ring. -/
def State.heldEvents (s : State) : Nat := (s.cage.held.filter fun r => match r with | .event _ _ => true | _ => false).length
/-- The event ring holds 2^`EVQ_SIZE_LOG2` − 1 records that the head word has not passed (R443). -/
def State.evqFull (s : State) : Bool :=
  s.evqSize - 1 ≤ (s.cage.evTail + s.evqSize - s.cage.evHead % s.evqSize) % s.evqSize + s.heldEvents

/-- Lose an event from the ring (R443). -/
def State.evLose (s : State) : State :=
  ({ s with cage := { s.cage with evLost := s.cage.evLost + 1 } } : State).bump 0x7128

/-- Write an event record at the event ring's tail and send `EVQ_VEC` (R443, 12 R306). -/
def State.evWrite (s : State) (e : EventRec) (lost : Nat) : State :=
  let t := s.cage.evTail
  let s1 := s.emit (.event t (s.evqBase + 64 * t) (e.bytes lost s.cage.evPhase))
  let wrap := decide (t + 1 = s.evqSize)
  let s2 : State := { s1 with cage := { s1.cage with
    evTail := if wrap then 0 else t + 1
    evPhase := if wrap then !s1.cage.evPhase else s1.cage.evPhase } }
  (s2.bump 0x7120).msix (s.rf 0xA040 5 6)

/-- Give an event to the event ring: written, held (11 R266) or lost (R443). -/
def State.evPost (s : State) (e : EventRec) : State :=
  if !s.evqEn || s.evqFull || !s.cxl.up || !s.cxl.mode then s.evLose
  else if s.busOn then ({ s with cage := { s.cage with evLost := 0 } } : State).evWrite e s.cage.evLost
  else if s.cage.held.length < 64 then { s with cage := { s.cage with held := s.cage.held ++ [.event e s.cage.evLost], evLost := 0 } }
  else s.evLose

/-- Keep an event in the RAM log of the last 8,192 records (R444). -/
def State.evLog (s : State) (e : EventRec) : State :=
  if s.ras.log.length < 8192 then { s with ras := { s.ras with log := e :: s.ras.log } }
  else ({ s with ras := { s.ras with log := e :: s.ras.log.take 8191 } } : State).bump 0x7130

/-- The non-volatile write gate has stayed open for 10 ms (17 R430). -/
def State.nvOpen (s : State) : Bool :=
  !s.pwr.coreLow && !s.pwr.ioLow && s.pwr.gateOpen + msRoot 10 ≤ s.clk.root

/-- Append to the flash log, in this MCLK cycle or when the gate allows (R444, 17 R430). -/
def State.flashLog (s : State) (e : EventRec) : State :=
  { s with pwr := { s.pwr with nvWait := s.pwr.nvWait ++ [{ op := .flashLog e.seq, since := s.clk.root, starting := s.nvOpen }] } }

/-- A fault of a STOPPED or dying slot is a later one; of two in one MCLK cycle the one with the lower code is the first (R440). -/
def State.secondary (s : State) (n code : Nat) : Bool :=
  (s.slot n).killing || ((s.slot n).stopped && !((s.slot n).stoppedAt == s.mclk && decide (code < (s.slot n).firstFault)))

/-- Raise an event (R442 to R444). Classes UNIT and FATAL go to the flash log too. -/
def State.raise (s : State) (code : Nat) (cls : EvClass) (slot : Option (Fin 8)) (payload : List Byte) : State :=
  let e : EventRec :=
    { code := code, cls := cls
      secondary := match slot with
        | some n => (cls == .job || cls == .unit) && s.secondary n.val code
        | none => false
      slot := slot, seq := (s.ras.seq + 1) % 2 ^ 32, tally := s.clk.tally, payload := payload }
  let s1 : State := { s with ras := { s.ras with seq := e.seq } }
  let s2 := s1.evLog e
  let s3 := if cls == .unit || cls == .fatal then s2.flashLog e else s2
  s3.evPost e

/-- Raise an event of no slot with the generic payload. -/
def State.ev (s : State) (code : Nat) (cls : EvClass) (loc sub arg0 arg1 arg2 : Nat) : State :=
  s.raise code cls none (genPayload loc sub arg0 arg1 arg2)

/-- CFG_BUSY_WRITE names the register (00 R7). -/
def State.busyWrite (s : State) (off : Nat) : State := s.ev 0x0001 .warning 0 0 off 0 0

/-! ### Completion records (12 R299 to R301) -/

/-- The 64 bytes of a completion record (Table 12-5). -/
def Completion.bytes (c : Completion) (tally : BitVec 64) (sqHead : Nat) (phase : Bool) : List Byte :=
  slice c.header 8 8 ++ leBytes 8 tally.toNat ++ leBytes 1 c.status ++ leBytes 1 (byteAt c.header 0) ++
  leBytes 1 c.ring.val ++ leBytes 1 (byteAt c.header 2 % 8) ++ leBytes 2 c.index ++ leBytes 1 c.detail ++
  zeroBytes 1 ++ slice c.result 0 32 ++ leBytes 2 sqHead ++ zeroBytes 5 ++ leBytes 1 (b2n phase)

/-- Write a record into its completion ring, then send the vector when `IRQ` is 1 (R299). -/
def State.postRecord (s : State) (c : Completion) : State :=
  let k := c.ring.val
  let r := s.ring k
  let s1 := s.emit (.completion c.ring r.cqTail (s.ringTag k) (s.ringCq k + 64 * r.cqTail) (c.bytes s.clk.tally r.head r.phase))
  let wrap := decide (r.cqTail + 1 = s.ringSize k)
  let s2 := s1.setRing k { r with
    cqTail := if wrap then 0 else r.cqTail + 1
    phase := if wrap then !r.phase else r.phase }
  if bitAt (byteAt c.header 1) 0 then s2.msix (s.ringVec k) else s2

/-- One record less on the way (held or waiting). -/
def State.unpost (s : State) (k : Nat) : State :=
  s.setRing k { s.ring k with unposted := (s.ring k).unposted - 1 }

/-- A descriptor reaches its completion point (R301, 11 R266). After a host loss there is no record (11 R277). -/
def State.finish (s : State) (c : Completion) : State :=
  if (c.status = 0 ∧ bitAt (byteAt c.header 1) 1) ∨ s.cxl.cageStopped then s.bump 0xA108
  else if s.busOn then (s.bump 0xA108).postRecord c
  else
    let s1 := s.setRing c.ring.val { s.ring c.ring.val with unposted := (s.ring c.ring.val).unposted + 1 }
    if s1.cage.held.length < 64 then
      ({ s1 with cage := { s1.cage with held := s1.cage.held ++ [.completion c] } } : State).bump 0xA108
    else { s1 with cage := { s1.cage with waiting := s1.cage.waiting ++ [c] } }

/-- Complete a started descriptor: it leaves the list of started ones, and its record is posted. -/
def State.complete (s : State) (d : Started) (status detail : Nat) (result : List Byte) : State :=
  let s1 : State := { s with cage := { s.cage with started := s.cage.started.filter fun x => x.serial != d.serial } }
  s1.finish { ring := d.ring, index := d.index, serial := d.serial, header := d.header, status := status,
              detail := detail, result := result }

/-- Update what a started descriptor is doing. -/
def State.setKind (s : State) (serial : Nat) (k : StartedKind) : State :=
  { s with cage := { s.cage with started := s.cage.started.map fun x => if x.serial = serial then { x with kind := k } else x } }

def Started.slot (d : Started) : Nat := byteAt d.header 2 % 8

/-! ### Memory of the package (10) -/

/-- Bytes of HBM: 2,304 GiB (R240). -/
def hbmSize : Nat := 0x24000000000

/-- The local granule of an address: H ÷ 3 (R242). -/
def localGranule (a : Nat) : Nat := a / 4096 / 256 / 3
/-- The hash of a local granule (R242). -/
def granuleHash (l : Nat) : Nat := (l % 256) ^^^ (l / 256 % 256) ^^^ (l / 65536 % 16)
/-- The channel, that is Mill index, of an HBM address (R242). -/
def chanOf (a : Nat) : Nat :=
  (a / 4096 / 256 % 3) * 256 + ((a / 4096 % 256) ^^^ granuleHash (localGranule a))
/-- The pseudo-channel index 2 m + pc of an address (R242). -/
def pcOf (a : Nat) : Nat := 2 * chanOf a + localGranule a % 2
/-- Local line number of an address within its channel: the order in which the patrol reads (R249). -/
def addrOfLocal (m l : Nat) : Nat :=
  ((3 * l + m / 256) * 256 + ((m % 256) ^^^ granuleHash l)) * 4096

def State.hbmByte (s : State) (a : Nat) : Byte := tblGet (fun _ => 0) s.hbm.cells a
def State.setHbmByte (s : State) (a : Nat) (v : Byte) : State :=
  { s with hbm := { s.hbm with cells := tblSet (fun _ => 0) s.hbm.cells a v } }

/-- `n` bytes of HBM from `a`, as they stand. -/
def State.hbmBytes (s : State) (a n : Nat) : List Byte := (List.range n).map fun i => s.hbmByte (a + i)

/-- Store bytes from `a`. -/
def State.putBytes (s : State) (a : Nat) : List Byte → State
  | [] => s
  | b :: bs => (s.setHbmByte a b).putBytes (a + 1) bs

/-- Lines that `n` bytes from `a` touch. -/
def linesOf (a n : Nat) : List Nat :=
  if n = 0 then [] else (List.range ((a + n - 1) / 64 - a / 64 + 1)).map fun i => a / 64 + i

/-- Lines wholly covered by `n` bytes from `a`. -/
def wholeLines (a n : Nat) : List Nat := (linesOf a n).filter fun l => a ≤ 64 * l && 64 * l + 64 ≤ a + n

/-- Whether a device-side access of the lines meets an uncorrectable one; the first such line. -/
def State.firstUe (s : State) (a n : Nat) : Option Nat := (linesOf a n).find? fun l => s.hbm.ue.contains l

/-- A line access keeps active its pseudo-channel, cancels an entry in progress, or starts the wake from POWER_DOWN; its idle count
restarts (R253). -/
def State.touchPc (s : State) (line : Nat) : State :=
  let k := pcOf (64 * line)
  let x := tblGet (fun _ => PcState.active) s.hbm.pcs k
  let s1 : State := { s with hbm := { s.hbm with
    pcs := tblSet (fun _ => PcState.active) s.hbm.pcs k
      (match x with | .powerDown => .waking s.clk.root | .waking t => .waking t | _ => .active)
    pcLast := tblSet (fun _ => 0) s.hbm.pcLast k s.clk.root } }
  match x with
  | .entering _ => s1.bumpMem (chanBase (k / 2) + 0x48)
  | _ => s1

/-- Window of HBM that the host reaches: base and size (R243, 11 R267). -/
def State.winBase (s : State) : Nat := s.rf 0x9008 0 14 * 2 ^ 28
def State.winSize (s : State) : Nat := s.rf 0x900C 0 14 * 2 ^ 28
/-- An address lies in a host-bias page: outside the window every page is treated as device bias (R244). -/
def State.hostBiased (s : State) (a : Nat) : Bool :=
  s.hbm.hostBias.contains (a / 2 ^ 21) && s.winBase ≤ a && a < s.winBase + s.winSize

/-- Account for one line read or written by a device-side access; ownership of a host-bias line is resolved with the host first (R244,
R258). -/
def State.touchLine (s : State) (write : Bool) (line : Nat) : State :=
  let s1 := (s.touchPc line).bumpMem (chanBase (chanOf (64 * line)) + (if write then 0x08 else 0x00))
  if s.hostBiased (64 * line) then (s1.bumpMem 0x40890).emit (.cacheOwn line write) else s1

def hourRoot : Nat := msRoot 3600000
/-- The count of corrected errors over the last hour (18 R446). -/
def State.hourly (s : State) (h : CeHistory) : List Nat := h.ce.filter fun t => s.clk.root < t + hourRoot
/-- `n` corrected errors of a structure join the hour's count; a crossing of a multiple of `CE_EVT_THR` is kept for its report. -/
def State.ceNoted (s : State) (h : CeHistory) (st n : Nat) : CeHistory :=
  let old := s.hourly h
  let ce := List.replicate n s.clk.root ++ old
  { h with ce := ce, crossed := h.crossed ++ List.replicate (ce.length / s.rf 0x7000 1 15 - old.length / s.rf 0x7000 1 15) (st, ce.length) }
/-- Corrected errors of a site's structure (R446). -/
def State.ceSite (s : State) (k st n : Nat) : State :=
  if n = 0 then s
  else { s with ras := { s.ras with
    ceSites := tblSet (fun _ => CeHistory.none) s.ras.ceSites k (s.ceNoted (tblGet (fun _ => CeHistory.none) s.ras.ceSites k) st n) } }
/-- Corrected errors of a Mill's channel (R446). -/
def State.ceMill (s : State) (m n : Nat) : State :=
  { s with ras := { s.ras with
    ceMills := tblSet (fun _ => CeHistory.none) s.ras.ceMills m (s.ceNoted (tblGet (fun _ => CeHistory.none) s.ras.ceMills m) 8 n) } }

/-- Lines found with an error that the controller corrects are delivered right, written back and counted (R248). -/
def State.correct (s : State) (line : Nat) : State :=
  ((s.touchLine true line).bumpMem (chanBase (chanOf (64 * line)) + 0x20)).ceMill (chanOf (64 * line)) 1

/-- A device-side read of `n` bytes: accounted, then `hbmBytes`. -/
def State.hbmRead (s : State) (a n : Nat) : State := (linesOf a n).foldl (fun s l => s.touchLine false l) s

/-- A device-side write: whole lines get fresh check symbols, which clears their errors (R250). -/
def State.hbmWrite (s : State) (a : Nat) (bs : List Byte) : State :=
  let s1 := (linesOf a bs.length).foldl (fun s l => s.touchLine true l) (s.putBytes a bs)
  let whole := wholeLines a bs.length
  { s1 with hbm := { s1.hbm with ue := s1.hbm.ue.filter fun l => !whole.contains l } }

/-- The Mucker's writes to lines of one granule: they are accounted together where the granule is in device bias. -/
def State.touchGran (s : State) (first n : Nat) : State :=
  if n = 0 then s
  else if s.hostBiased (64 * first) then (List.range n).foldl (fun s i => s.touchLine true (first + i)) s
  else (s.touchPc first).bumpMem (chanBase (chanOf (64 * first)) + 0x08) n

/-- The Mucker's writes to the lines of `n` bytes from `a`, granule by granule. -/
def State.touchSpan (s : State) (a n : Nat) : State :=
  (List.range ((a + n + 4095) / 4096 - a / 4096)).foldl (fun (s : State) i =>
    let g := 4096 * (a / 4096 + i)
    s.touchGran (max a g / 64) ((min (a + n) (g + 4096) - max a g) / 64)) s

/-- Numbers of `[lo, hi)` that leave the rest `r` on division by 6. -/
def countMod6 (lo hi r : Nat) : Nat := (hi + 5 - r) / 6 - (lo + 5 - r) / 6

/-- The same for the whole MiB blocks `[lo, hi)`. A block holds one granule of each channel of one third of the stacks, and its number mod 6
gives the third and the pseudo-channel (R242): blocks in device bias are accounted together, the others line by line. -/
def State.touchBlocks (s : State) (lo hi : Nat) : State :=
  let biased := ((s.hbm.hostBias.map fun p => [2 * p, 2 * p + 1]).flatten.filter fun b => lo ≤ b && b < hi && s.hostBiased (2 ^ 20 * b)).dedup
  let s1 := biased.foldl (fun s b => s.touchSpan (2 ^ 20 * b) (2 ^ 20)) s
  (List.range 6).foldl (fun s r =>
    let n := countMod6 lo hi r - (biased.filter fun b => b % 6 == r).length
    if n = 0 then s
    else (List.range 256).foldl (fun (s : State) i =>
      let line := 64 * (256 * r + i)
      (s.touchPc line).bumpMem (chanBase (chanOf (64 * line)) + 0x08) (64 * n)) s) s1

/-- The same for any `n` bytes from `a`. -/
def State.touchRange (s : State) (a n : Nat) : State :=
  let lo := (a + 2 ^ 20 - 1) / 2 ^ 20
  let hi := (a + n) / 2 ^ 20
  if hi ≤ lo then s.touchSpan a n
  else ((s.touchSpan a (2 ^ 20 * lo - a)).touchBlocks lo hi).touchSpan (2 ^ 20 * hi) (a + n - 2 ^ 20 * hi)

/-- The Mucker zeroes `n` bytes from `a` with whole-line writes (R251): unlisted bytes already read 0. -/
def State.hbmZero (s : State) (a n : Nat) : State :=
  let s1 := s.touchRange a n
  { s1 with hbm := { s1.hbm with
    cells := tblClear a (a + n) s1.hbm.cells
    ue := s1.hbm.ue.filter fun l => 64 * l + 64 ≤ a || a + n ≤ 64 * l } }

/-! ### Regions -/

/-- Ranges `[a, a + n)` and `[b, b + m)` overlap. -/
def overlaps (a n b m : Nat) : Bool := 0 < n && 0 < m && a < b + m && b < a + n

def Survey.region (v : Survey) (a : Nat) : Option Region := v.regions.find? fun r => r.base ≤ a && a < r.base + r.len
/-- The slot that owns an address: its Survey region covers it, or its Hoist table placed it, as the HOIST_OVF region (R250). -/
def State.ownerOf (s : State) (a : Nat) : Option (Fin 8) :=
  (List.finRange 8).find? fun n =>
    (match (s.slot n.val).survey with | some v => (v.region a).isSome | none => false) ||
    (match (s.slot n.val).hoist with | some h => h.ovfBase ≤ a && a < h.ovfBase + h.ovfLen | none => false)

def State.sealedAt (s : State) (r : Nat) : Option Sealed := tblGet (fun _ => none) s.sec.sealed r
def Sealed.base (x : Sealed) : Nat := 4096 * x.basePg
def Sealed.len (x : Sealed) : Nat := 4096 * (x.limitPg - x.basePg)
/-- The sealed region that a range touches (10 R246). -/
def State.sealedIn (s : State) (a n : Nat) : Option (Nat × Sealed) :=
  s.sec.sealed.findSome? fun e => match e.2 with
    | some x => if overlaps a n x.base x.len then some (e.1, x) else none
    | none => none
/-- A sealed region that a range touches and that slot `n` may not use (R246). -/
def State.sealedAgainst (s : State) (slot : Nat) (a n : Nat) : Option Nat :=
  s.sec.sealed.findSome? fun e => match e.2 with
    | some x => if overlaps a n x.base x.len && !x.slots.getLsbD slot then some e.1 else none
    | none => none

/-! ### Orders that lose (12 R303) -/

/-- Order kinds and masters of `SUB` (R303). -/
inductive OrdKind where
  | reset | kill | fence | power | ordinary | limit
  deriving DecidableEq, Repr
def OrdKind.code : OrdKind → Nat | .reset => 0 | .kill => 1 | .fence => 2 | .power => 3 | .ordinary => 4 | .limit => 5

/-- ORDER_PREEMPTED and the count (R303). `loc`: slot, 0x100 + ring, or 0x200 for the power state. -/
def State.orderLost (s : State) (loc : Nat) (win : OrdKind) (winMaster : Nat) (lose : OrdKind) (loseMaster : Nat) : State :=
  (s.bump 0xA110).ev 0x0002 .info loc
    (win.code + 8 * winMaster + 256 * (lose.code + 8 * loseMaster)) s.clk.tally.toNat s.clk.tally.toNat 0

/-! ### Units (18 R447) -/

def State.unit (s : State) (k : Nat) : UnitState := tblGet (fun _ => UnitState.inService) s.ras.units k

end Sys2Proof.Machine
end

