-- ==== Sys2Proof/Machine/Sm3.lean ====
section
/-! DEFINITION. The SM3 digest and its key derivation function. The manual names them (16 R386, R387, R389, R397); their
arithmetic is PRESUMED from the published standards GB/T 32905 and GB/T 32918.4 (log entry 4). -/
namespace Sys2Proof.Machine

/-- Big-endian 32-bit words of a byte list. -/
def beWords : List Byte → List Word
  | a :: b :: c :: d :: t => (a ++ b ++ c ++ d) :: beWords t
  | _ => []

/-- The bytes of a word, most significant first. -/
def beBytes (n v : Nat) : List Byte := (leBytes n v).reverse

/-- Padding: one 1 bit, zeros, the length in bits. -/
def sm3Pad (m : List Byte) : List Byte :=
  m ++ [0x80] ++ zeroBytes ((119 - m.length % 64) % 64) ++ beBytes 8 (8 * m.length)

def sm3P0 (x : Word) : Word := x ^^^ x.rotateLeft 9 ^^^ x.rotateLeft 17
def sm3P1 (x : Word) : Word := x ^^^ x.rotateLeft 15 ^^^ x.rotateLeft 23

/-- Message expansion, `w` newest first. -/
def sm3Expand : Nat → List Word → List Word
  | 0, w => w
  | n + 1, w =>
    let x := sm3P1 (w.getD 15 0 ^^^ w.getD 8 0 ^^^ (w.getD 2 0).rotateLeft 15) ^^^ (w.getD 12 0).rotateLeft 7 ^^^ w.getD 5 0
    sm3Expand n (x :: w)

/-- The eight chaining words. -/
structure Sm3V where
  a : Word
  b : Word
  c : Word
  d : Word
  e : Word
  f : Word
  g : Word
  h : Word
  deriving DecidableEq, Repr

def sm3Iv : Sm3V :=
  { a := 0x7380166f, b := 0x4914b2b9, c := 0x172442d7, d := 0xda8a0600
    e := 0xa96f30bc, f := 0x163138aa, g := 0xe38dee4d, h := 0xb0fb0e4e }

/-- One round with the words W and W'. -/
def sm3Round (j : Nat) (v : Sm3V) (w w' : Word) : Sm3V :=
  let t : Word := if j < 16 then 0x79cc4519 else 0x7a879d8a
  let ss1 := (v.a.rotateLeft 12 + v.e + t.rotateLeft (j % 32)).rotateLeft 7
  let ss2 := ss1 ^^^ v.a.rotateLeft 12
  let ff := if j < 16 then v.a ^^^ v.b ^^^ v.c else (v.a &&& v.b) ||| (v.a &&& v.c) ||| (v.b &&& v.c)
  let gg := if j < 16 then v.e ^^^ v.f ^^^ v.g else (v.e &&& v.f) ||| (~~~v.e &&& v.g)
  { a := ff + v.d + ss2 + w', b := v.a, c := v.b.rotateLeft 9, d := v.c
    e := sm3P0 (gg + v.h + ss1 + w), f := v.e, g := v.f.rotateLeft 19, h := v.g }

/-- The rounds over the expanded words, oldest first. -/
def sm3Rounds : Nat → List Word → Sm3V → Sm3V
  | j, w0 :: w1 :: w2 :: w3 :: w4 :: t, v => sm3Rounds (j + 1) (w1 :: w2 :: w3 :: w4 :: t) (sm3Round j v w0 (w0 ^^^ w4))
  | _, _, v => v

def sm3Block (v : Sm3V) (b : List Word) : Sm3V :=
  let x := sm3Rounds 0 (sm3Expand 52 b.reverse).reverse v
  { a := v.a ^^^ x.a, b := v.b ^^^ x.b, c := v.c ^^^ x.c, d := v.d ^^^ x.d
    e := v.e ^^^ x.e, f := v.f ^^^ x.f, g := v.g ^^^ x.g, h := v.h ^^^ x.h }

def sm3Blocks : Nat → List Word → Sm3V → Sm3V
  | 0, _, v => v
  | n + 1, ws, v => sm3Blocks n (ws.drop 16) (sm3Block v (ws.take 16))

/-- The 32-byte SM3 digest. -/
def sm3 (m : List Byte) : List Byte :=
  let ws := beWords (sm3Pad m)
  let v := sm3Blocks (ws.length / 16) ws sm3Iv
  ([v.a, v.b, v.c, v.d, v.e, v.f, v.g, v.h].map fun x => beBytes 4 x.toNat).flatten

/-- The SM2 standard's key derivation function: `klen` bytes from Z (16 R387). -/
def sm2Kdf (z : List Byte) (klen : Nat) : List Byte :=
  ((List.range (ceilDiv klen 32)).map fun i => sm3 (z ++ beBytes 4 (i + 1))).flatten.take klen

/-- ASCII bytes of a label (16 Table 16-1). -/
def ascii (s : String) : List Byte := s.toList.map fun c => BitVec.ofNat 8 c.toNat

end Sys2Proof.Machine
end

