-- ==== Sys2Proof/Machine/Fmt.lean ====
section
/-! DEFINITION. Flits, frames and packets on their way out: layout, CRC, routing by the epoch's table, retention and send
queues (13 R315 to R318, R326; 14 R335 to R348, R353, R355, R356). -/
namespace Sys2Proof.Machine

def State.port (s : State) (p : Nat) : PortState := tblGet (fun _ => PortState.init) s.fab.ports p
def State.setPort (s : State) (p : Nat) (x : PortState) : State :=
  { s with fab := { s.fab with ports := tblSet (fun _ => PortState.init) s.fab.ports p x } }
/-- `PORT_CTL.MODE` (R312). -/
def State.portMode (s : State) (p : Nat) : Nat := s.rf (portBase p) 0 3
def State.isEth (s : State) (p : Nat) : Bool := 2 ≤ s.portMode p && s.portMode p ≤ 5
def State.isFd (s : State) (p : Nat) : Bool := s.portMode p == 1
def State.portUp (s : State) (p : Nat) : Bool := (s.port p).phase == .up
/-- The port has no mode of its own: its pair runs on the lower port (R311). -/
def State.pairTaken (s : State) (p : Nat) : Bool := p % 3 == 1 && 4 ≤ s.portMode (p - 1) && s.portMode (p - 1) ≤ 5
def State.bumpPort (s : State) (p o : Nat) (n : Nat := 1) : State := s.bump (portBase p + o) n
def State.bumpFab (s : State) (o : Nat) (n : Nat := 1) : State := s.bump (fabBase + o) n
def upPorts (s : State) : List Nat := (List.range 12).filter s.portUp

/-! ### CRC-64 (R315) -/

/-- One bit of the CRC, most significant bit of each byte first. -/
def crcBit (c : BitVec 64) (b : Bool) : BitVec 64 :=
  if (c.getMsbD 0) != b then (c <<< 1) ^^^ 0x42F0E1EBA9EA3693 else c <<< 1
def crcByte (c : BitVec 64) (x : Byte) : BitVec 64 := (List.range 8).foldl (fun c i => crcBit c (x.getMsbD i)) c
/-- CRC-64 with the ECMA-182 polynomial, starting from all ones. -/
def crc64 (bs : List Byte) : BitVec 64 := bs.foldl crcByte (BitVec.allOnes 64)

/-! ### Flits (Table 13-2) -/

/-- The 256 bytes of a flit. -/
def flitBytes (ftype vc seq ack : Nat) (nak : Bool) (crVc crCnt : Nat) (payload : List Byte) : List Byte :=
  let head := leBytes 1 (ftype + 16 * vc) ++ leBytes 2 seq ++ leBytes 2 (ack + 32768 * b2n nak) ++ leBytes 1 crVc ++
    leBytes 2 crCnt ++ slice payload 0 240
  head ++ leBytes 8 (crc64 head).toNat

/-- The channel whose credits the next flit returns: the lowest with any (R315). -/
def PortState.creditVc (x : PortState) : Nat := ((List.range 4).find? fun v => 0 < x.returns.getD v 0).getD 0

/-- Send one flit of any type with current ACK, NAK and credit return (R316). -/
def State.sendFlit (s : State) (p ftype vc seq : Nat) (payload : List Byte) : State :=
  let x := s.port p
  let v := x.creditVc
  let n := min (x.returns.getD v 0) 1023
  (s.setPort p { x with returns := x.returns.set v (x.returns.getD v 0 - n) }).emit
    (.fab (.flit p (flitBytes ftype vc seq x.rxSeq x.nak v n payload)))

/-- A channel may send a flit: bytes and a credit, and no packet of the new epoch before a mark of it (R316, R318, 14 R347). -/
def PortState.mayFlit (x : PortState) (v : Nat) : Bool :=
  !(x.txBytes.getD v []).isEmpty && 0 < x.credits.getD v 0 && (v == 3 || x.markLeft == 0 || 240 ≤ x.oldBytes.getD v 0)

/-- Bytes left of the packet begun last, once 240 bytes have gone of which the first `lead` end an earlier one. -/
def nextLead : Nat → List Byte → Nat → Nat
  | 0, _, lead => lead - 240
  | n + 1, b, lead => if 240 ≤ lead then lead - 240 else if b.length ≤ lead then 0 else nextLead n b (lead + 32 + leAt b (lead + 20) 2 % 8192)

/-- New DATA flits while a channel has bytes and a credit and the replay buffer has room (R316, R318). -/
def State.pumpFlits : Nat → State → Nat → State
  | 0, s, _ => s
  | n + 1, s, p =>
    let x := s.port p
    if 1024 ≤ x.replay.length ∨ x.phase ≠ .up then s
    else match [3, 0, 1, 2].find? x.mayFlit with
      | none => s
      | some v =>
        let bs := x.txBytes.getD v []
        let pl := slice bs 0 240
        let s1 := s.setPort p { x with
          txSeq := (x.txSeq + 1) % 4096, txBytes := x.txBytes.set v (bs.drop 240)
          txLead := x.txLead.set v (nextLead 9 bs (x.txLead.getD v 0))
          oldBytes := x.oldBytes.set v (x.oldBytes.getD v 0 - 240)
          markLeft := if v = 3 then x.markLeft - 240 else x.markLeft
          credits := x.credits.set v (x.credits.getD v 0 - 1)
          replay := x.replay ++ [{ seq := x.txSeq, vc := v, payload := pl, sent := s.clk.root }] }
        pumpFlits n (((s1.sendFlit p 1 v x.txSeq pl).bumpPort p 0x108).bumpPort p 0x118 240) p

/-! ### Packets (Table 14-1) -/

def Packet.bytes (k : Packet) : List Byte :=
  leBytes 1 (k.ptype.code + 16 * k.ecn + 64 * b2n k.ece + 128 * b2n k.flood) ++ leBytes 1 k.status ++ leBytes 2 k.dst ++
  leBytes 2 k.src ++ leBytes 2 k.epoch ++ leBytes 1 k.chan ++ leBytes 1 k.xid ++ leBytes 2 (k.fjob + 4096 * k.rslot) ++
  leBytes 3 k.seq ++ zeroBytes 1 ++ leBytes 3 k.ackSeq ++ zeroBytes 1 ++ leBytes 2 k.payload.length ++ zeroBytes 2 ++
  leBytes 5 k.tally ++ zeroBytes 3 ++ k.payload

def Packet.parse (b : List Byte) : Packet :=
  { ptype := PType.ofCode (byteAt b 0 % 16), ecn := bits (byteAt b 0) 4 2, ece := bitOf b 0 6, flood := bitOf b 0 7
    status := byteAt b 1, dst := leAt b 2 2 % 1024, src := leAt b 4 2 % 1024, epoch := leAt b 6 2, chan := byteAt b 8
    xid := byteAt b 9, fjob := leAt b 10 2 % 4096, rslot := bits (leAt b 10 2) 12 3, seq := leAt b 12 3
    ackSeq := leAt b 16 3, tally := leAt b 24 5, payload := slice b 32 (leAt b 20 2 % 8192) }

/-- A packet that the first router slice to read it drops (R336, R338): reserved type or field, `LEN` above 4,096, or a
channel the traffic map does not assign. `b` is the header. -/
def badHeader (b : List Byte) : Bool :=
  let t := PType.ofCode (byteAt b 0 % 16)
  let chan := byteAt b 8
  t == .reserved || bits (byteAt b 0) 4 2 == 2 || 4096 < leAt b 20 2 % 8192 || 8192 ≤ leAt b 20 2 ||
  1024 ≤ leAt b 2 2 || 1024 ≤ leAt b 4 2 || bitAt (leAt b 10 2) 15 || byteAt b 15 != 0 || byteAt b 19 != 0 ||
  !zeroAt b 22 2 || !zeroAt b 29 3 ||
  (match t with
   | .mgmt => chan != 0
   | .gatherReq => chan != 1 + leAt b 10 2 % 4096 % 8
   | .gatherRsp => chan != 1 + leAt b 10 2 % 4096 % 8
   | .lease => chan != 1 + leAt b 10 2 % 4096 % 8
   | .red => chan != 16 + byteAt b 9 % 64
   | .bar => chan != 16 + byteAt b 9 % 64
   | .error => !((1 ≤ chan && chan ≤ 8) || (16 ≤ chan && chan < 80))
   | .ack => !(chan ≤ 8 || (16 ≤ chan && chan < 80))
   | _ => false)

/-- Flecel Direct channel and Ethernet queue of a packet (Table 14-3). -/
def Packet.vc (k : Packet) : Nat :=
  match k.ptype with
  | .gatherReq => 1 | .lease => 1 | .gatherRsp => 0 | .red => 2 | .bar => 2
  | .error => if k.chan < 16 then 1 else 2
  | _ => 3
def Packet.queue (k : Packet) : Nat :=
  match k.ptype with
  | .gatherReq => 3 | .lease => 3 | .gatherRsp => 2 | .red => 4 | .bar => 4
  | .error => if k.chan < 16 then 3 else 4
  | _ => 6
/-- Sequenced packets: the channel-scoped types but ACK. -/
def Packet.sequenced (k : Packet) : Bool :=
  match k.ptype with | .hello => false | .epochMark => false | .ack => false | .reserved => false | .mgmt => !k.flood | _ => true

/-- Channel of job messages and of reductions (Table 14-3). -/
def jobChan (fjob : Nat) : Nat := 1 + fjob % 8
def redChan (xid : Nat) : Nat := 16 + xid % 64

/-- A packet of this device, before it is numbered. -/
def State.packet (s : State) (t : PType) (dst chan : Nat) (payload : List Byte) : Packet :=
  { ptype := t, ecn := 0, ece := false, flood := false, status := 0, dst := dst, src := s.fab.addr.getD 0, epoch := s.fab.epoch
    chan := chan, xid := 0, fjob := 0, rslot := 0, seq := 0, ackSeq := 0, tally := s.clk.tally.toNat % 2 ^ 40
    payload := payload }

/-! ### Routing (R343 to R348) -/

/-- The table of a stamped epoch: current or previous. -/
def State.tableFor (s : State) (epoch : Nat) : Option (Tbl (BitVec 32)) :=
  if epoch = s.fab.epoch then some s.fab.cur else if s.fab.prevEpoch = some epoch then some s.fab.prev else none

def setBitsOf (mask : Nat) : List Nat := (List.range 12).filter fun p => bitAt mask p

/-- The port of an entry's set that a packet takes (R344). -/
def hashPort (k : Packet) (ports : List Nat) : Option Nat :=
  let h := mix32 ((BitVec.ofNat 32 k.src <<< 20) ^^^ (BitVec.ofNat 32 k.dst <<< 8) ^^^ BitVec.ofNat 32 k.chan)
  let h2 := if k.ptype = .gatherRsp ∨ k.ptype = .red then mix32 (h ^^^ BitVec.ofNat 32 k.seq) else h
  ports[h2.toNat % ports.length]?

/-- Bytes that the output queue a packet enters already holds (R356): its transmit queue, or its virtual channel. -/
def State.queued (s : State) (p : Nat) (k : Packet) : Nat :=
  let x := s.port p
  if s.isEth p then (x.queues.getD k.queue []).foldl (fun a f => a + f.bytes.length) 0 else (x.txBytes.getD k.vc []).length

/-- The port's own MAC address, filter entry 0 as R322 sets it. -/
def ownMac (p : Nat) : List Byte :=
  let v := Config.unitId.toNat % 2 ^ 36 * 16 + p
  BitVec.ofNat 8 2 :: (leBytes 5 v).reverse

/-- Filter entry i of a port as its 6 octets; entry 0 is the port's own until it is replaced (R322). -/
def State.filterMac (s : State) (p i : Nat) : List Byte :=
  leBytes 4 (s.reg (portBase p + 0x40 + 8 * i)) ++ leBytes 2 (s.reg (portBase p + 0x44 + 8 * i))

/-- Big-endian number in `n` bytes from byte `i`: fields of 802.3 and IEEE 1588 keep network byte order (13 R322). -/
def beAt (bs : List Byte) (i n : Nat) : Nat := leAt (slice bs i n).reverse 0 n

/-- A frame of the FMT EtherType: addresses, tag, packet, FCS (R337, R321); the FCS bytes are those of 802.3. -/
def crc32Bit (c : BitVec 32) (b : Bool) : BitVec 32 := if c.getLsbD 0 != b then (c >>> 1) ^^^ 0xEDB88320 else c >>> 1
def fcsOf (bs : List Byte) : List Byte :=
  leBytes 4 (~~~ (bs.foldl (fun c x => (List.range 8).foldl (fun c i => crc32Bit c (x.getLsbD i)) c) (BitVec.allOnes 32))).toNat

def State.frameOf (s : State) (p queue : Nat) (dst : List Byte) (etype : Nat) (body : List Byte) : List Byte :=
  let c := s.reg (portBase p + 0x10)
  let tag := if bitAt c 16 then beBytes 2 0x8100 ++ beBytes 2 (queue * 8192 + bits c 17 12) else []
  let f := dst ++ s.filterMac p 0 ++ tag ++ beBytes 2 etype ++ body
  let padded := f ++ zeroBytes (60 - f.length)
  padded ++ fcsOf padded

/-- Put a frame into a transmit queue of the MAC (R326). -/
def State.enqueue (s : State) (p q : Nat) (f : Frame) : State :=
  let x := s.port p
  s.setPort p { x with queues := x.queues.set q (x.queues.getD q [] ++ [f]) }

/-- Give a packet to an output port: marked when its queue is long (R356), then into a frame or into flits. -/
def State.outPort (s : State) (p : Nat) (mac : Option (List Byte)) (k : Packet) : State :=
  let mark := k.ecn = 1 && s.rf 0xC014 0 8 * 1024 < s.queued p k
  let k := if mark then { k with ecn := 3 } else k
  let s := if mark then s.bumpFab 0x148 else s
  match mac with
  | some m =>
    let f := s.frameOf p k.queue m (s.rf (portBase p + 0x14) 0 16) k.bytes
    if s.rf (portBase p + 0x10) 0 14 < f.length then s.bumpFab 0x100
    else s.enqueue p k.queue { bytes := f, ptp := false }
  | none =>
    let x := s.port p
    let bs := x.txBytes.getD k.vc [] ++ k.bytes
    let old := if k.epoch = s.fab.epoch then x.oldBytes else x.oldBytes.set k.vc bs.length
    (s.setPort p { x with txBytes := x.txBytes.set k.vc bs, oldBytes := old }).pumpFlits 1024 p

/-- A port that takes traffic: UP, or retraining with its replay buffer kept (13 R317). -/
def State.portTakes (s : State) (p : Nat) : Bool := s.portUp p || (s.port p).retrain

/-- Forward one packet by the table of its epoch (R343 to R345, R348). A port that is DOWN delivers nothing (R317). -/
def State.forward (s : State) (k : Packet) : State :=
  match s.tableFor k.epoch with
  | none => s.bumpFab 0x118
  | some t =>
    let e := (tblGet (fun _ => (0 : BitVec 32)) t k.dst).toNat
    if !bitAt e 12 then s.bumpFab 0x108
    else match hashPort k (setBitsOf (e % 4096)) with
      | none => s.bumpFab 0x108
      | some p =>
        if !s.portTakes p then s
        else if s.isEth p then
          match (s.port p).macs.find? fun m => m.1 == bits e 14 10 with
          | some m => s.outPort p (some m.2) k
          | none => s.bumpFab 0x110
        else s.outPort p none k

/-! ### Channels: the sender (R352, R353) -/

def State.txChan (s : State) (peer chan : Nat) : TxChan := tblGet (fun _ => TxChan.init) s.fab.tx (peer * 256 + chan)
def State.setTxChan (s : State) (peer chan : Nat) (c : TxChan) : State :=
  { s with fab := { s.fab with tx := tblSet (fun _ => TxChan.init) s.fab.tx (peer * 256 + chan) c } }

/-- The router slice whose retention buffer a packet uses: that of the port it leaves by (R353). -/
def State.sliceOf (s : State) (k : Packet) : Nat :=
  match s.tableFor s.fab.epoch with
  | some t => (hashPort k (setBitsOf ((tblGet (fun _ => (0 : BitVec 32)) t k.dst).toNat % 4096))).getD 0 / 3
  | none => 0

/-- Bytes of a slice's 8 MiB of retention buffer in use. -/
def State.retention (s : State) (slc : Nat) : Nat :=
  s.fab.tx.foldl (fun a c => c.2.kept.foldl (fun a r => if s.sliceOf r.pkt = slc then a + 32 + r.pkt.payload.length else a) a) 0

/-- The channel may number and send one more packet (R353). -/
def State.windowOpen (s : State) (c : TxChan) (k : Packet) : Bool :=
  c.kept.length < 2 ^ s.rf 0xC010 12 4 && s.retention (s.sliceOf k) + 32 + k.payload.length ≤ 2 ^ 23

/-- Number, retain and send the packets of a channel's queue as far as window and buffer allow. -/
def State.pumpChan : Nat → State → Nat → Nat → State
  | 0, s, _, _ => s
  | n + 1, s, peer, chan =>
    let c := s.txChan peer chan
    match c.queue with
    | [] => s
    | k :: q =>
      if !s.windowOpen c k then s
      else
        let k1 := { k with seq := c.next, epoch := s.fab.epoch, src := s.fab.addr.getD 0
                           tally := s.clk.tally.toNat % 2 ^ 40, ecn := b2n (s.rfBit 0xC014 24) }
        let s1 := s.setTxChan peer chan { c with
          next := (c.next + 1) % 2 ^ 24, queue := q
          kept := c.kept ++ [{ pkt := k1, sent := s.clk.root, resent := false }]
          mark := if c.kept.isEmpty then s.clk.root else c.mark }
        pumpChan n (s1.forward k1) peer chan

/-- Send a sequenced packet on its channel. -/
def State.sendPacket (s : State) (k : Packet) : State :=
  let c := s.txChan k.dst k.chan
  (s.setTxChan k.dst k.chan { c with queue := c.queue ++ [k] }).pumpChan 1024 k.dst k.chan

/-! ### Barrier messages (R366) -/

/-- BAR payload: kind (0 ARRIVE, 1 RELEASE, 2 ABORT), count, NPART. The manual names the contents, not the bytes. -/
def barPayload (kind count npart : Nat) : List Byte := leBytes 1 kind ++ zeroBytes 1 ++ leBytes 2 count ++ leBytes 2 npart ++ zeroBytes 2

def State.sendBar (s : State) (dst fjob bid kind count npart : Nat) : State :=
  s.sendPacket { s.packet .bar dst (redChan bid) (barPayload kind count npart) with xid := bid, fjob := fjob }

end Sys2Proof.Machine
end

