-- ==== Sys2Proof/Machine/JobStop.lean ====
section
/-! DEFINITION. The job-stop response and the faults that lead to it (18 R439 to R441, 10 R250), and what a stop does to
the slot's barriers (12 R296, 14 R366). -/
namespace Sys2Proof.Machine

/-! ### The barrier tree (14 R366) -/

/-- Address of device j of node k in a peer table (08 R185). -/
def HoistTable.peer (h : HoistTable) (k j : Nat) : Nat := h.peers.getD (k * h.nd + j) 0
/-- The next device toward the root, none at the root. -/
def HoistTable.up (h : HoistTable) : Option Nat :=
  if h.myDev ≠ 0 then some (h.peer h.myNode 0) else if h.myNode ≠ 0 then some (h.peer 0 0) else none
/-- The devices below this one in the tree. -/
def HoistTable.down (h : HoistTable) : List Nat :=
  if h.myDev ≠ 0 then []
  else (List.range (h.nd - 1)).map (fun j => h.peer h.myNode (j + 1)) ++
    (if h.myNode = 0 then (List.range (h.nn - 1)).map fun k => h.peer (k + 1) 0 else [])

def State.sluice (s : State) (c : Nat) : Option SluiceCtx := tblGet (fun _ => none) s.flow.sluices c
def State.setSluice (s : State) (c : Nat) (x : Option SluiceCtx) : State :=
  { s with flow := { s.flow with sluices := tblSet (fun _ => none) s.flow.sluices c x } }
/-- The open context of a key (R359). -/
def State.ctxOf (s : State) (slot fjob : Nat) (barrier : Bool) (id : Nat) : Option (Nat × SluiceCtx) :=
  s.flow.sluices.findSome? fun e => match e.2 with
    | some x => if x.slot = slot ∧ x.fjob = fjob ∧ x.barrier = barrier ∧ x.id = id then some (e.1, x) else none
    | none => none

/-- Complete the BARRIERs of a slot that the test names. -/
def State.endBarriers (s : State) (n : Nat) (p : BarrierJob → Bool) (status : Nat) (result : List Byte) : State :=
  s.cage.started.foldl (fun s d => match d.kind with
    | .barrier j _ => if d.slot = n ∧ p j then s.complete d status 0 result else s
    | _ => s) s

/-- ABORT to the devices above and below, but not to the one it came from; the context closes (R366). -/
def State.abortBarrier (s : State) (n fjob bid : Nat) (origin : Option Nat) : State :=
  let s1 := match (s.slot n).hoist with
    | some h => ((match h.up with | some u => [u] | none => []) ++ h.down).foldl (fun (s : State) d =>
        if some d = origin then s else s.sendBar d fjob bid 2 0 0) s
    | none => s
  let s2 := match s1.ctxOf n fjob true bid with | some c => s1.setSluice c.1 none | none => s1
  s2.endBarriers n (fun j => j.fjob == fjob && j.bid == bid) 0x10 []

/-- Every barrier of a slot fails (12 R296, 18 R439). -/
def State.failBarriers (s : State) (n : Nat) : State :=
  let open_ := s.flow.sluices.filterMap fun e => match e.2 with
    | some x => if x.slot = n ∧ x.barrier then some (x.fjob, x.id) else none
    | none => none
  (open_.foldl (fun s b => s.abortBarrier n b.1 b.2 none) s).endBarriers n (fun _ => true) 0x10 []

/-! ### Job stop (18 R439, R440) -/

/-- Status the RUN_STEP in progress completes with after a stop: JOB_FAULT unless the rule names another (R439). -/
def stJobFault : Nat := 0x0A

/-- A slot becomes STOPPED; the first fault stays named, of two in one MCLK cycle the one with the lower code (R440). -/
def State.stopSlot (s : State) (n : Fin 8) (code status : Nat) : State :=
  let x := s.slot n.val
  if x.survey.isNone then s
  else if x.stopped then
    (if x.stoppedAt = s.mclk ∧ code < x.firstFault then s.setSlot n.val { x with firstFault := code, firstStatus := status } else s)
  else ((s.setSlot n.val { x with stopped := true, stoppedAt := s.mclk, firstFault := code, firstStatus := status }).bump 0x7100).failBarriers n.val

/-- A fault of a job: its event, then the job-stop response. -/
def State.jobFaultWith (s : State) (n : Fin 8) (code status : Nat) (payload : List Byte) : State :=
  (s.raise code .job (some n) payload).stopSlot n code status
def State.jobFault (s : State) (n : Fin 8) (code loc sub arg0 arg1 arg2 : Nat) : State :=
  s.jobFaultWith n code stJobFault (genPayload loc sub arg0 arg1 arg2)

/-- An uncorrectable HBM line met by an access (10 R250): log, event, and stop of the owner. `src` as in Table 10-5. -/
def State.hbmUe (s : State) (line src : Nat) : State :=
  let a := 64 * line
  let s1 := s.bumpMem (chanBase (chanOf a) + 0x28)
  let s2 : State := { s1 with hbm := { s1.hbm with ueValid := true, ueSet := s1.mclk, ueSrc := src, ueAddr := a } }
  match s2.ownerOf a with
  | some n => s2.jobFault n 0x0030 (chanOf a) src a 0 0
  | none => s2.raise 0x0030 .job none (genPayload (chanOf a) src a 0 0)

/-- An access for a slot outside a sealed region's set is not performed: SEAL_VIOLATION and job stop (10 R246). -/
def State.sealStop (s : State) (n region a : Nat) : State := s.jobFault (Fin.ofNat 8 n) 0x0031 region 1 a 0 0

/-- Lines newly found uncorrectable by the accesses of a step. -/
def State.plantUe (s : State) (ls : List Nat) : State :=
  { s with hbm := { s.hbm with ue := s.hbm.ue ++ ls.filter fun l => !s.hbm.ue.contains l } }
/-- What the controllers find in the lines that a command reads (10 R248). -/
def State.foundErrors (s : State) (e : HbmErrors) : State := (e.ce.foldl State.correct s).plantUe e.ue

/-- A device-side write that may cover lines in part: one of them uncorrectable refuses the write and meets R250. -/
def State.hbmStore (s : State) (a : Nat) (bs : List Byte) : State :=
  match (linesOf a bs.length).find? fun l => s.hbm.ue.contains l && !(wholeLines a bs.length).contains l with
  | some l => s.hbmUe l 0
  | none => s.hbmWrite a bs

end Sys2Proof.Machine
end

