-- ==== Sys2Proof/Machine/Tokens.lean ====
section
/-! DEFINITION. Tokens, rings, credits, matching stores and spill (05 R114 to R126, R134, R135, R139; 04 R100, R101). -/
namespace Sys2Proof.Machine

/-! ### Stations by device index -/

/-- A resident station: its slot, the Survey, its local index and record, its device index (07 R178). -/
structure StRef where
  slot : Nat
  survey : Survey
  idx : Nat
  st : Station
  dev : Nat
  deriving DecidableEq, Repr

def State.station (s : State) (dev : Nat) : Option StRef :=
  s.slots.findSome? fun e => match e.2.survey with
    | some v => if dev < e.2.base then none
      else (v.stations[dev - e.2.base]?).map fun st =>
        { slot := e.1, survey := v, idx := dev - e.2.base, st := st, dev := dev }
    | none => none

/-- The station in a context of a site. -/
def State.stationIn (s : State) (site ctx : Nat) : Option StRef :=
  s.slots.findSome? fun e => match e.2.survey with
    | some v => (v.stations.findIdx? fun st => st.site == site && st.ctx == ctx).bind fun i =>
        (v.stations[i]?).map fun st => { slot := e.1, survey := v, idx := i, st := st, dev := e.2.base + i }
    | none => none

def State.run (s : State) (dev : Nat) : StationRun := tblGet (fun _ => StationRun.init) s.flow.stations dev
def State.setRun (s : State) (dev : Nat) (r : StationRun) : State :=
  { s with flow := { s.flow with stations := tblSet (fun _ => StationRun.init) s.flow.stations dev r } }

def StRef.part (r : StRef) : Part := (r.survey.parts[r.st.part]?).getD
  { site := 0, ctx := 0, acc := ⟨0, 0⟩, panel := ⟨0, 0⟩, ring := ⟨0, 0⟩, row := ⟨0, 0⟩, mtch := ⟨0, 0⟩, winMask := 0, agMask := 0, spillMask := 0 }

/-! ### Site registers and counters -/

/-- A counter of the site's block, unless `CNT_FREEZE` holds it (03 R81, 04 R106). -/
def State.bumpSite (s : State) (site o : Nat) (n : Nat := 1) : State :=
  if s.rfBit (siteBase site) 16 then s else s.bump (siteBase site + o) n
/-- A counter of a station context (05 R141). -/
def State.bumpCtx (s : State) (site ctx o : Nat) (n : Nat := 1) : State := s.bumpSite site (0x400 + 0x100 * ctx + o) n

/-! ### Tags (00 R11) -/

def tagSlot (t : Nat) : Nat := bits t 29 3
def tagSeq (t : Nat) : Nat := bits t 22 7
def tagIter (t : Nat) : Nat := bits t 8 14
def tagSub (t : Nat) : Nat := t % 256
/-- Sequence and iteration together. -/
def tagSi (t : Nat) : Nat := bits t 8 21
def mkTag (slot seq iter sub : Nat) : Nat := slot % 8 * 2 ^ 29 + seq % 128 * 2 ^ 22 + iter % 16384 * 256 + sub % 256

/-- Tags agree in the fields of a port's mask (R117, R118). -/
def InPort.agrees (p : InPort) (a b : Nat) : Bool :=
  tagSlot a == tagSlot b && (!p.mSeq || tagSeq a == tagSeq b) && (!p.mIter || tagIter a == tagIter b) &&
  (!p.mSub || tagSub a == tagSub b)

/-! ### Rings -/

def ringKey (site ring : Nat) : Nat := 32 * site + ring
def State.rng (s : State) (site ring : Nat) : Option RingRun := tblGet (fun _ => none) s.flow.rings (ringKey site ring)
def State.setRng (s : State) (site ring : Nat) (r : Option RingRun) : State :=
  { s with flow := { s.flow with rings := tblSet (fun _ => none) s.flow.rings (ringKey site ring) r } }

/-- The template and the consumer port of an armed ring. -/
def State.ringTmpl (s : State) (r : RingRun) : Option Tmpl := (s.slot r.slot).survey.bind fun v => v.tmpls[r.tmpl]?
def State.ringPort (s : State) (r : RingRun) : Option (StRef × InPort) :=
  (s.station r.station).bind fun x => (x.st.ins[r.port]?).map fun p => (x, p)

/-- Neighbouring site of a face, none off the Level's grid: 0 north, 1 east, 2 south, 3 west (07 R174). -/
def neighbour (site dir : Nat) : Option Nat :=
  let r := siteRow site
  let c := siteCol site
  if dir = 0 then (if r = 0 then none else some (site - 64))
  else if dir = 1 then (if c = 63 then none else some (site + 1))
  else if dir = 2 then (if r = 31 then none else some (site + 64))
  else (if c = 0 then none else some (site - 1))

/-- Site whose memory unit holds a ring's spill region (R139). -/
def Tmpl.spillSite (t : Tmpl) (site : Nat) : Nat := if isCu site then (neighbour site t.spillDir).getD site else site

/-- The spill registers of descriptor q (04 R110). -/
def spillBase (site q : Nat) : Nat := siteBase site + 0x300 + 0x10 * q
def State.spillSize (s : State) (site q : Nat) : Nat := s.rf (spillBase site q + 4) 16 16 + 1
def State.spillLimit (s : State) (site q : Nat) : Nat := min (s.rf (spillBase site q + 8) 0 16) (s.spillSize site q)

/-- Lines of a spilled token (R101). -/
def Token.lines (t : Token) : Nat :=
  match t.pay with | .data bs => ceilDiv (bs.length + 8) 64 | _ => 1
def RingRun.occ (r : RingRun) : Nat := r.spill.foldl (fun a x => a + x.tok.lines) 0

/-! ### Scratchpad bytes (04 R84 to R86) -/

def State.spadDefault (s : State) (key : Nat) : Byte := if s.flow.lost = 0 then 0 else Config.lostByte s.flow.lost key
def State.scratchByte (s : State) (k a : Nat) : Byte := tblGet s.spadDefault s.flow.scratch (k * 2 ^ 21 + a)
def State.setScratchByte (s : State) (k a : Nat) (v : Byte) : State :=
  { s with flow := { s.flow with scratch := tblSet s.spadDefault s.flow.scratch (k * 2 ^ 21 + a) v } }
def State.putScratch (s : State) (k a : Nat) : List Byte → State
  | [] => s
  | b :: bs => (s.setScratchByte k a b).putScratch k (a + 1) bs

/-! ### Banks (04 R84, R102, R103) -/

def bankKey (site b : Nat) : Nat := 32 * site + b
def lineBank (line : Nat) : Nat := line % 32
/-- State of a bank; A2 and A3 take every bank through ENTERING to RETAIN, A4 to OFF. -/
def State.bank (s : State) (site b : Nat) : BankState :=
  let x := tblGet (fun _ => s.flow.bankRest) s.flow.banks (bankKey site b)
  if 4 ≤ s.pwr.idle then .off
  else if 2 ≤ s.pwr.idle then
    (if x ≠ .retain ∧ s.clk.root < s.pwr.enteredAt + 16 * aclkDiv s.clk.step then .entering s.pwr.enteredAt else .retain)
  else x
def State.setBank (s : State) (site b : Nat) (x : BankState) : State :=
  { s with flow := { s.flow with banks := tblSet (fun _ => s.flow.bankRest) s.flow.banks (bankKey site b) x } }

/-- An access arrives at a bank: entry cancelled, or a wake begins; none says that the access waits. -/
def State.accessBank (s : State) (site b : Nat) : State × Bool :=
  match s.bank site b with
  | .active => ({ s with flow := { s.flow with bankLast := tblSet (fun _ => 0) s.flow.bankLast (bankKey site b) s.clk.root } }, true)
  | .entering _ =>
    let s1 := (s.setBank site b .active).bumpSite site 0x150
    ({ s1 with flow := { s1.flow with bankLast := tblSet (fun _ => 0) s1.flow.bankLast (bankKey site b) s.clk.root } }, true)
  | .retain => (s.setBank site b (.waking s.clk.root), false)
  | .waking _ => (s, false)
  | .off => (s, false)

/-- Accesses arrive at several banks; whether all of them can be performed now. -/
def State.accessBanks (s : State) (site : Nat) (bs : List Nat) : State × Bool :=
  bs.foldl (fun acc b => let x := acc.1.accessBank site b; (x.1, acc.2 && x.2)) (s, true)

/-- Banks of a run of lines. -/
def lineBanks (line n : Nat) : List Nat := ((List.range n).map fun i => lineBank (line + i)).dedup

/-! ### The matching store (R122, R123) -/

def State.store (s : State) (site ctx : Nat) : MatchStore := tblGet (fun _ => MatchStore.empty) s.flow.stores (2 * site + ctx)
def State.setStore (s : State) (site ctx : Nat) (m : MatchStore) : State :=
  { s with flow := { s.flow with stores := tblSet (fun _ => MatchStore.empty) s.flow.stores (2 * site + ctx) m } }
def MatchStore.used (m : MatchStore) : Nat := ((m.shared : Int) + m.resv.foldl (· + ·) 0).toNat

/-- Reserved entries of a class in a context (R170), and the shared pool's size. -/
def StRef.resv (r : StRef) (cls : Nat) : Nat :=
  match r.survey.tags.find? fun t => t.part == r.st.part && t.cls == cls with | some t => t.resv | none => 0
def StRef.sharedSize (r : StRef) : Nat :=
  16 * r.part.mtch.count - (r.survey.tags.filter fun t => t.part == r.st.part).foldl (fun a t => a + t.resv) 0

/-- A free entry for a class: shared first, then the class's reserve (R123). -/
def takeEntry (r : StRef) (m : MatchStore) (cls : Nat) : Option MatchStore :=
  if m.shared < r.sharedSize then some { m with shared := m.shared + 1 }
  else if m.resv.getD cls 0 < r.resv cls then some { m with resv := m.resv.set cls (m.resv.getD cls 0 + 1) }
  else none

/-- A released entry goes to the shared pool if that is below its size, else to its class's reserve (R123), whichever of the two it was
taken from. -/
def freeEntry (m : MatchStore) (cls : Nat) : MatchStore :=
  if 0 < m.shared then { m with shared := m.shared - 1 } else { m with resv := m.resv.set cls (m.resv.getD cls 0 - 1) }

/-- Index the earliest unindexed token of a port for which an entry is free and no earlier token of its class waits. -/
def State.indexOne (s : State) (r : StRef) : Option State :=
  let site := r.st.site
  let cand := ((List.range r.st.ins.length).filterMap fun p => (r.st.ins[p]?).bind fun ip =>
    (s.rng site ip.ring).bind fun g => (g.toks.find? fun h => h.indexed.isNone).map fun h => (h.order, ip, g, h))
  let m := s.store site r.st.ctx
  let firstOf := cand.filter fun c => !cand.any fun d => d.2.1.cls == c.2.1.cls && d.1 < c.1
  let ok := firstOf.filter fun c => (takeEntry r m c.2.1.cls).isSome
  match ok.foldl (fun a c => match a with | some b => if c.1 < b.1 then some c else a | none => some c) (none : Option (Nat × InPort × RingRun × Held)) with
  | none => none
  | some c => (takeEntry r m c.2.1.cls).map fun m2 =>
    let g := { c.2.2.1 with toks := c.2.2.1.toks.map fun h => if h.order = c.1 then { h with indexed := some s.flow.order } else h }
    let s1 := (s.setStore site r.st.ctx m2).setRng site c.2.1.ring (some g)
    { s1 with flow := { s1.flow with order := s1.flow.order + 1 } }

/-- Index tokens in arrival order as far as entries are free (R123, R125). -/
def State.indexAll : Nat → State → StRef → State
  | 0, s, _ => s
  | n + 1, s, r => match s.indexOne r with | some s1 => s1.indexAll n r | none => s

/-! ### Landing and release (R101, R119, R123, R126, R134) -/

/-- A free slot of the ring, from its tail on. -/
def freeSlot (g : RingRun) (slots : Nat) : Option Nat :=
  ((List.range slots).map fun i => (g.tail + i) % slots).find? fun p => !g.toks.any fun h => h.pos == p

/-- Put a token into a ring slot. -/
def State.intoRing (s : State) (site ring : Nat) (g : RingRun) (slots : Nat) (t : Token) : Option State :=
  (freeSlot g slots).map fun p =>
    let s1 := s.setRng site ring (some { g with
      tail := (p + 1) % slots
      toks := g.toks ++ [{ tok := t, pos := p, order := s.flow.order, used := 0, indexed := none }] })
    { s1 with flow := { s1.flow with order := s1.flow.order + 1 } }

/-- The 8 header bytes of a token (Table 05-2) and its payload. -/
def Token.bytes (t : Token) : List Byte :=
  leBytes 4 t.tag ++ (match t.pay with
    | .null => leBytes 4 0 | .error => leBytes 4 0xFFFFFFFF | .data bs => leBytes 4 bs.length ++ bs)

/-- Scratchpad lines of a spilled token that begins at a line of its region, wrapping at the region's end (R101). -/
def State.spillLines (s : State) (site q line n : Nat) : List Nat :=
  let win := s.rf (spillBase site q) 1 3
  let base := 64 * s.rf (siteBase site + 0x204 + 0x20 * win) 0 9 + s.rf (spillBase site q + 4) 0 15
  (List.range n).map fun i => base + (line + i) % s.spillSize site q

/-- Write a spilled token's lines into its region, whole, with fresh ECC (R85, R101). -/
def State.writeSpill (s : State) (site q line : Nat) (t : Token) : State :=
  let bs := t.bytes ++ zeroBytes (64 * t.lines - t.bytes.length)
  (s.spillLines site q line t.lines).zipIdx.foldl (fun (s : State) l =>
    let s1 := (s.putScratch site (64 * l.1) (slice bs (64 * l.2) 64)).bumpSite site 0x108
    { s1 with flow := { s1.flow with scratchUe := s1.flow.scratchUe.filter fun k => k / 8 != site * 2 ^ 15 + l.1 } }) s
/-- The first uncorrectable word of a spilled token's lines (R85). -/
def State.spillUe (s : State) (site q : Nat) (k : Spilled) : Option Nat :=
  (s.spillLines site q k.line k.tok.lines).findSome? fun l => s.flow.scratchUe.find? fun w => w / 8 == site * 2 ^ 15 + l

/-- The line of a ring's region at which the next spilled token begins. -/
def State.spillNext (s : State) (ms q : Nat) (g : RingRun) : Nat :=
  match g.spill.getLast? with | some x => (x.line + x.tok.lines) % s.spillSize ms q | none => 0

/-- Send a token to the spill region of its ring; none when it does not fit below `LIMIT` (R101). -/
def State.intoSpill (s : State) (site ring : Nat) (g : RingRun) (t : Tmpl) (k : Token) : Option State :=
  let ms := t.spillSite site
  if !t.spillEn ∨ s.spillLimit ms t.spill < g.occ + k.lines then none
  else
    let line := s.spillNext ms t.spill g
    let s1 := s.setRng site ring (some { g with spill := g.spill ++ [{ line := line, tok := k }] })
    let s2 := (s1.writeSpill ms t.spill line k).bumpSite ms 0x138 k.lines
    let key := 16 * ms + t.spill
    some { s2 with flow := { s2.flow with
      spillMax := tblSet (fun _ => 0) s2.flow.spillMax key (max (tblGet (fun _ => 0) s2.flow.spillMax key) (g.occ + k.lines)) } }

/-- Release one held token of a port: its slot's credit starts back, its matching entry is freed (R119, R123, R134). -/
def State.releaseTok (s : State) (r : StRef) (ip : InPort) (order : Nat) : State :=
  match s.rng r.st.site ip.ring with
  | none => s
  | some g => match g.toks.find? fun h => h.order == order with
    | none => s
    | some h =>
      let s1 := s.setRng r.st.site ip.ring (some { g with toks := g.toks.filter (fun x => x.order != order), freed := g.freed + 1 })
      let s2 := if h.indexed.isSome then s1.setStore r.st.site r.st.ctx (freeEntry (s1.store r.st.site r.st.ctx) ip.cls) else s1
      s2.indexAll 64 r

/-- A held token takes part in one firing; it is released after its last use (R119). -/
def State.useTok (s : State) (r : StRef) (ip : InPort) (order : Nat) : State :=
  match s.rng r.st.site ip.ring with
  | none => s
  | some g => match g.toks.find? fun h => h.order == order with
    | none => s
    | some h =>
      if ip.uses ≤ h.used + 1 then s.releaseTok r ip order
      else s.setRng r.st.site ip.ring (some { g with
        toks := g.toks.map fun x => if x.order = order then { x with used := x.used + 1 } else x })

/-! ### Sending (R134, R139) -/

/-- A ring's spill region can take tokens: its descriptor is enabled and lies in a window of the ring's slot (R100, R139). -/
def State.spillOpen (s : State) (site q slot : Nat) : Bool :=
  let w := siteBase site + 0x200 + 0x20 * s.rf (spillBase site q) 1 3
  s.rfBit (spillBase site q) 0 && s.rfBit w 0 && s.rf w 1 3 == slot

/-- Flights to a ring that hold no credit: they go to its spill region. -/
def State.toSpill (s : State) (site ring : Nat) : List Flight :=
  s.flow.flights.filter fun f => f.site == site && f.ring == ring && !f.credit

/-- A producer may send a token of up to `lines` spill lines to a ring (R134, R139): by a credit, or into the spill
region. -/
def State.canSend (s : State) (site ring : Nat) (lines : Nat) : Bool :=
  match s.rng site ring with
  | none => true
  | some g => match s.ringTmpl g with
    | none => true
    | some t =>
      if 0 < g.credits ∧ g.spill.isEmpty ∧ (s.toSpill site ring).isEmpty then true
      else t.spillEn && s.spillOpen (t.spillSite site) t.spill g.slot && (g.occ + (s.toSpill site ring).foldl (fun a f => a + f.tok.lines) 0 + lines ≤
        s.spillLimit (t.spillSite site) t.spill)

/-- Put a token on the mesh toward a ring (R135, R136). -/
def State.send (s : State) (slot : Nat) (src : Option (Nat × Nat)) (site ring : Nat) (k : Token) : State :=
  let credit := match s.rng site ring with
    | some g => decide (0 < g.credits) && g.spill.isEmpty && (s.toSpill site ring).isEmpty
    | none => false
  let s1 := match s.rng site ring with
    | some g => if credit then s.setRng site ring (some { g with credits := g.credits - 1 }) else s
    | none => s
  { s1 with flow := { s1.flow with flights := s1.flow.flights ++
      [{ slot := slot, src := src, site := site, ring := ring, credit := credit, tok := k }] } }

/-- Destination of an output port. -/
def StRef.dest (r : StRef) (q : Nat) : Option (Nat × Nat × Tmpl) :=
  (r.st.outs[q]?).bind fun o => (r.survey.routeOf o).bind fun t => (r.survey.tmpls[t.tmpl]?).map fun m => (t.dst, m.ring, m)

/-- Write a token to an output port. A producer sends only with a credit, or into a spill region that has room (R134, R139): without
either the token waits at the port, behind those that already do. -/
def State.output (s : State) (r : StRef) (q : Nat) (k : Token) : State :=
  match r.dest q with
  | some d =>
    let x := s.run r.dev
    if (x.outbox.any fun w => w.1 == q) || !s.canSend d.1 d.2.1 k.lines then
      s.setRun r.dev { x with outbox := x.outbox ++ [(q, k)] }
    else s.send r.slot (some (r.dev, q)) d.1 d.2.1 k
  | none => s

/-- Send the tokens that wait at a station's ports for a ring, in order, as far as credits and spill room go. -/
def State.pumpPort (s : State) (r : StRef) (site ring : Nat) : State :=
  (s.run r.dev).outbox.foldl (fun s w => match r.dest w.1 with
    | some d =>
      let x := s.run r.dev
      if d.1 = site ∧ d.2.1 = ring ∧ x.outbox.find? (fun y => y.1 == w.1) = some w ∧ s.canSend site ring w.2.lines = true then
        (s.setRun r.dev { x with outbox := x.outbox.erase w }).send r.slot (some (r.dev, w.1)) site ring w.2
      else s
    | none => s) s
/-- A ring has room again: the stations whose tokens wait for it send them. -/
def State.pump (s : State) (site ring : Nat) : State :=
  s.flow.stations.foldl (fun s e => if e.2.outbox.isEmpty then s
    else match s.station e.1 with | some r => s.pumpPort r site ring | none => s) s

/-- The rings whose spill region lies in a memory unit: room may have come under a new `LIMIT`. -/
def State.pumpSpills (s : State) (site : Nat) : State :=
  s.flow.rings.foldl (fun s e => match e.2 with
    | some g => (match s.ringTmpl g with
      | some t => if t.spillEn ∧ t.spillSite (e.1 / 32) = site then s.pump (e.1 / 32) (e.1 % 32) else s
      | none => s)
    | none => s) s

/-- Output ports of an entry. -/
def Entry.outPorts (e : Entry) (st : Station) : List Nat := (List.range st.outs.length).filter fun q => bitAt e.outMask q

/-- Output tag (R121); `count` is the firing's tile count within the sequence and iteration. -/
def OutPort.tag (o : OutPort) (t count : Nat) : Nat :=
  mkTag (tagSlot t) (if o.seqSel = 0 then tagSeq t else o.seqK)
    (if o.iterSel = 0 then tagIter t else if o.iterSel = 1 then tagIter t + o.iterK else o.iterK)
    (if o.subSel = 0 then tagSub t else if o.subSel = 1 then o.subK else count)

/-- The same payload on every output port of an entry (R116, R127), with the RUN_STEP number and the row length of its tile. -/
def State.outputAll (s : State) (r : StRef) (e : Entry) (t count : Nat) (pay : Payload) (step : Option Nat := none) (cols : Nat := 0) :
    State :=
  (e.outPorts r.st).foldl (fun s q => match r.st.outs[q]? with
    | some o => s.output r q { tag := o.tag t count, pay := pay, step := step, cols := cols }
    | none => s) s

/-! ### Progress (R144) -/

/-- Progress of a slot restarts its watchdog. -/
def State.progress (s : State) (n : Nat) : State :=
  if (s.slot n).survey.isNone then s
  else
    let s1 := s.setSlot n { s.slot n with progress := s.clk.tally, barked := false }
    { s1 with ctrs := tblSet (fun _ => 0) s1.ctrs (jobBase n + 0x28) 0 }

end Sys2Proof.Machine
end

