-- ==== Sys2Proof/Machine/Match.lean ====
section
/-! DEFINITION. When a station can fire and why it stalls (05 R117 to R120, R126, R131, R132, R140, R144; 03 R65, R72, R79). -/
namespace Sys2Proof.Machine

/-! ### Arrays and panels -/

def State.arr (s : State) (site a : Nat) : ArrayRun := tblGet (fun _ => ArrayRun.init) s.flow.arrays (4 * site + a)
def State.setArr (s : State) (site a : Nat) (x : ArrayRun) : State :=
  { s with flow := { s.flow with arrays := tblSet (fun _ => ArrayRun.init) s.flow.arrays (4 * site + a) x } }
def panelKey (site ctx reg : Nat) : Nat := 16 * site + 8 * ctx + reg
def State.panel (s : State) (site ctx reg : Nat) : PanelRun := tblGet (fun _ => PanelRun.empty) s.flow.panels (panelKey site ctx reg)
def State.setPanel (s : State) (site ctx reg : Nat) (x : PanelRun) : State :=
  { s with flow := { s.flow with panels := tblSet (fun _ => PanelRun.empty) s.flow.panels (panelKey site ctx reg) x } }

/-- The entry reads its column operand from a panel region (07 R498). -/
def Entry.fromPanel (e : Entry) (st : Station) : Bool := st.kind == 1 && (e.role st 1).isEmpty

/-! ### Matched firings (R118) -/

/-- A firing whose ports are all matched: entry, lead tag, chosen token of each port, arrival number of the last indexing. -/
structure Firing where
  entry : Nat
  tag : Nat
  toks : List (Nat × Held)
  last : Nat
  deriving DecidableEq, Repr

/-- The payload of the token that a firing has on a port. -/
def Firing.pay (f : Firing) (p : Nat) : Option Payload := (f.toks.find? fun t => t.1 == p).map fun t => t.2.tok.pay
def Firing.bytes (f : Firing) (p : Nat) : List Byte := match f.pay p with | some (.data bs) => bs | _ => []
/-- Elements in a row of the tile on a port. -/
def Firing.cols (f : Firing) (p : Nat) : Nat := match f.toks.find? fun t => t.1 == p with | some t => t.2.tok.cols | none => 0
/-- RUN_STEP number of a firing: the latest of its tokens' (log entry 13). -/
def Firing.step (f : Firing) : Option Nat :=
  f.toks.foldl (fun a t => match a, t.2.tok.step with | some x, some y => some (max x y) | none, y => y | x, none => x) none

/-- Indexed tokens of an input port, in arrival order. -/
def State.portToks (s : State) (r : StRef) (p : Nat) : List Held :=
  match r.st.ins[p]? with
  | some ip => match s.rng r.st.site ip.ring with
    | some g => g.toks.filter fun h => h.indexed.isSome
    | none => []
  | none => []

/-- Ports an entry waits for: a constant predicate replaces the PRED port (R127). -/
def Entry.needs (e : Entry) (st : Station) : List (Nat × InPort) :=
  (e.ports st).filter fun p => !(e.predKEn && p.2.tkind == 2)

/-- The LEN port matches with the sub-index masked out (R131), and so do the K and V ports of a FUSED entry (06 R160). -/
def InPort.matches (p : InPort) (kind : Nat) (a b : Nat) : Bool :=
  if p.tkind = 3 ∨ (kind = 2 ∧ (p.role = 4 ∨ p.role = 5)) then ({ p with mSub := false } : InPort).agrees a b else p.agrees a b

/-- The first token of a port that agrees with a tag. -/
def State.partner (s : State) (r : StRef) (p : Nat × InPort) (tag : Nat) : Option (Nat × Held) :=
  ((s.portToks r p.1).find? fun h => p.2.matches r.st.kind h.tok.tag tag).map fun h => (p.1, h)

/-- The token a port gives a firing under a lead tag: a scale token carries the tag of the data tile it belongs to (02 R47). -/
def State.partnerOf (s : State) (r : StRef) (e : Entry) (tag : Nat) (p : Nat × InPort) : Option (Nat × Held) :=
  match (if p.2.tkind = 1 then (e.ports r.st).find? fun d => d.2.tkind == 0 && d.2.ischeme != 0 && d.2.sport == p.1 else none) with
  | some d => (s.partner r d tag).bind fun x =>
      ((s.portToks r p.1).find? fun h => h.tok.tag == x.2.tok.tag).map fun h => (p.1, h)
  | none => s.partner r p tag

/-- The tokens an entry would fire with under a lead tag, port by port. -/
def State.partners (s : State) (r : StRef) (e : Entry) (tag : Nat) : List (Option (Nat × Held)) :=
  (e.needs r.st).map (s.partnerOf r e tag)

/-- The port that fills an entry's panel region. -/
def StRef.panelPort (r : StRef) (e : Entry) : Option InPort := r.st.ins.find? fun p => p.role == 6 && p.preg == e.panel
/-- The panel region an entry names holds all its bytes, and the fill's tag agrees with the firing's: its completion is an operand
(03 R72). -/
def State.panelReady (s : State) (r : StRef) (e : Entry) (tag : Nat) : Bool :=
  !e.fromPanel r.st || (let x := s.panel r.st.site r.st.ctx e.panel
    x.ready && (match r.panelPort e with | some p => p.agrees x.tag tag | none => true))

/-- Rows and columns of the panel that a region holds: the first entry that reads it spans it (log entry 12). -/
def Station.panelShape (st : Station) (reg : Nat) : Option (Nat × Nat) :=
  (st.ents.find? fun e => e.fromPanel st && e.panel == reg).map fun e =>
    if e.axis = 0 then (16 * e.trip .m, e.kc * e.trip .k) else (e.kc * e.trip .k, 16 * e.trip .m)

/-! ### Places in a loop nest (06 R147, R160) -/

/-- Key of a nest: entry, sequence and iteration. -/
def nestKey (entry tag : Nat) : Nat := entry * 2 ^ 21 + tagSi tag
/-- Steps issued or skipped so far, and the step of the nest, which runs again after its end. -/
def State.stepAt (s : State) (r : StRef) (entry tag : Nat) : Nat := tblGet (fun _ => 0) (s.run r.dev).steps (nestKey entry tag)
def State.nestStep (s : State) (r : StRef) (entry : Nat) (e : Entry) (tag : Nat) : Nat := s.stepAt r entry tag % max 1 e.steps
/-- Tile count of the next tile of a sequence and iteration under a RUN_STEP (R121): firings and skipped tiles so far. -/
def State.countOf (s : State) (r : StRef) (entry tag : Nat) (step : Option Nat) : Nat :=
  let c := tblGet (fun _ => ((none, 0) : Option Nat × Nat)) (s.run r.dev).counts (nestKey entry tag)
  if c.1 = step then c.2 else 0

/-- The last reduction step of an output tile: every K loop stands at its end. -/
def Entry.blockEnd (e : Entry) (step : Nat) : Bool :=
  (e.loops.zip (loopIndices e.loops step)).all fun l => l.1.1 != .k || l.2 + 1 == l.1.2
/-- Step at which the `o`-th tile among those open together ends: loops with the indices of a step that is open with it; `inn` inside the
outermost reduction loop. -/
def endStep (inn : Bool) (o : Nat) : List (LoopDim × Nat) → List Nat → Nat
  | l :: ls, i :: is =>
    let w := ls.foldl (fun a x => a * x.2) 1
    if l.1 = .k then (l.2 - 1) * w + endStep (inn || decide (1 < l.2)) o ls is
    else if inn then o / ((ls.filter fun x => x.1 != .k).foldl (fun a x => a * x.2) 1) % l.2 * w + endStep inn o ls is
    else i * w + endStep inn o ls is
  | _, _ => 0
/-- Which of the query tokens held for a sequence and iteration belongs to the block of a step: each block's token stays until the block's
last step (06 R160). -/
def Entry.queryPlace (e : Entry) (step : Nat) : Nat :=
  let is := loopIndices e.loops step
  ((List.range (openIndex e.loops is)).filter fun o => step ≤ endStep false o e.loops is).length
/-- A lead token is the one that the next tile of its nest takes: in a FUSED entry its block's query token. -/
def State.leadFits (s : State) (r : StRef) (i : Nat) (e : Entry) (h : Held) : Bool :=
  r.st.kind != 2 || (((s.portToks r e.lead).filter fun x => tagSi x.tok.tag == tagSi h.tok.tag)[
    e.queryPlace (s.nestStep r i e h.tok.tag)]?.map (·.order)) == some h.order
/-- An entry whose nest keeps tiles open runs the nests of one sequence and iteration at a time: its accumulator tiles are those of one
nest (06 R148). -/
def State.nestFree (s : State) (r : StRef) (i : Nat) (e : Entry) (tag : Nat) : Bool :=
  openTiles e.loops == 0 || !(s.run r.dev).steps.any fun k =>
    k.1 / 2 ^ 21 == i && k.1 != nestKey i tag && k.2 % max 1 e.steps != 0

/-- Every matched firing of a station (R118). -/
def State.firings (s : State) (r : StRef) : List Firing :=
  ((List.range r.st.ents.length).filterMap fun i => (r.st.ents[i]?).map fun e =>
    (s.portToks r e.lead).filterMap fun h =>
      let ps := s.partners r e h.tok.tag
      if ps.all Option.isSome && s.leadFits r i e h && s.panelReady r e h.tok.tag && s.nestFree r i e h.tok.tag then
        let ts := ps.filterMap id
        some ({ entry := i, tag := h.tok.tag, toks := ts
                last := ts.foldl (fun a t => max a (t.2.indexed.getD 0))
                  (if e.fromPanel r.st then (s.panel r.st.site r.st.ctx e.panel).order else 0) } : Firing)
      else none).flatten

/-- The firing whose last operand was matched earliest; the lower entry on a tie (R118). -/
def firstFiring (fs : List Firing) : Option Firing :=
  fs.foldl (fun a f => match a with
    | some g => if f.last < g.last ∨ (f.last = g.last ∧ f.entry < g.entry) then some f else some g
    | none => some f) none

/-! ### What a firing's tokens are (R115, R116, R127, R128) -/

/-- Walk of a memory-unit entry. -/
def StRef.tmpl (r : StRef) (e : Entry) : Option Tmpl := r.survey.tmpls[e.tmpl]?
def StRef.desc (r : StRef) (e : Entry) : Option AgDesc := (r.tmpl e).bind (·.desc)
def StRef.dv (r : StRef) (e : Entry) : Nat := r.survey.dv r.idx r.st e
/-- Elements of a tile of `n` bytes whose rows hold `cols` elements, each row padded to whole bytes or groups (02 R26); no rows known: one
row. -/
def tileElems (fmt cols n : Nat) : Nat :=
  if cols = 0 then n * 8 / fmtBits fmt else n / packedBytes (fmtBits fmt) cols * cols

/-- Payload length that a firing's DATA port requires of its tile; none accepts any (R115). -/
def StRef.needBytes (r : StRef) (e : Entry) (p : Nat × InPort) : Option Nat :=
  let rb := packedBytes (fmtBits p.2.ifmt) e.kc
  if p.2.tkind ≠ 0 then none
  else if r.st.kind = 1 then (if p.2.role = 1 then some (16 * rb) else if p.2.role = 2 then some (16 * e.nArr * rb) else none)
  else if r.st.kind = 2 then (if p.2.role = 3 then some (16 * e.nArr * rb) else if p.2.role = 4 then some (16 * rb)
    else if p.2.role = 5 then some (16 * packedBytes (fmtBits p.2.ifmt) (r.dv e)) else none)
  else none
/-- DATA tiles of an entry: port, elements. -/
def StRef.dataElems (r : StRef) (e : Entry) (f : Firing) : List (Nat × Nat) :=
  (e.ports r.st).filterMap fun p => if p.2.tkind ≠ 0 then none
    else match f.pay p.1 with | some (.data bs) => some (p.1, tileElems p.2.ifmt (f.cols p.1) bs.length) | _ => none
/-- The tiles of a VECTOR, REDUCE or UPDATE firing do not have the lengths it requires: whole rows; tiles of one size; a record of three
values for each gradient, and the four factors of the step (R115, 09 R235). -/
def StRef.badLengths (r : StRef) (e : Entry) (f : Firing) : Bool :=
  let ns := (r.dataElems e f).map (·.2)
  let broken := (e.ports r.st).any fun p => p.2.tkind == 0 && f.cols p.1 != 0 &&
    (f.bytes p.1).length % packedBytes (fmtBits p.2.ifmt) (f.cols p.1) != 0
  (3 ≤ r.st.kind && r.st.kind ≤ 5 && broken) ||
  (r.st.kind == 4 && ns.any fun n => n != ns.headD 0) ||
  (r.st.kind == 5 && (ns.getD 0 0 != 3 * ns.getD 1 0 || decide (ns.getD 2 0 < 4)))

/-- A port's token is an ERROR token, or its tile has not the length its firing requires. -/
def StRef.errorIn (r : StRef) (e : Entry) (f : Firing) : Bool :=
  ((e.ports r.st).any fun p => match f.pay p.1 with
    | some .error => true
    | some (.data bs) => (match r.needBytes e p with | some n => bs.length != n | none => false)
    | _ => false) || r.badLengths e f

/-- The gating predicate of a firing: a constant, a PRED token's bit 0, or 1 where there is none. A NULL predicate has no bit:
free (R127; log entry 11). -/
def State.predOf (s : State) (r : StRef) (e : Entry) (f : Firing) : Bool :=
  if e.predKEn then e.predK
  else match (e.ports r.st).find? fun p => p.2.tkind == 2 with
    | some p => (match f.pay p.1 with | some (.data bs) => bitAt (byteAt bs 0) 0 | some .null => Config.freeBool s.fresh | _ => true)
    | none => true

/-- Some port other than PRED holds a NULL token (R128). -/
def StRef.nullIn (r : StRef) (e : Entry) (f : Firing) : Bool :=
  (e.ports r.st).any fun p => p.2.tkind != 2 && f.pay p.1 == some .null

/-- The firing does no work: a predicate of 0, or a NULL operand outside SELECT and REDUCE (R127, R128). A SELECT's predicate chooses
between its operands and never nulls it, a constant one too (R127 and R129 meet there; DESIGN CHOICE, log entry 10). -/
def State.nullFiring (s : State) (r : StRef) (e : Entry) (f : Firing) : Bool :=
  r.st.kind != 9 && (!s.predOf r e f || (r.st.kind != 4 && r.nullIn e f))

/-! ### The tokens a firing writes (R134, R139; 02 R48) -/

/-- A station drains the tiles of entry `i` column by column for output `q` (03 R66). -/
def StRef.byCol (r : StRef) (i q : Nat) : Bool := Config.drainByCol r.survey.digest r.idx i q
/-- Rows and columns of the tile that a firing writes to a port: 16 lines an array, side by side or one after another (log entry 12); for a
FUSED block Dv values a query; a walk's tile; or the shape of its first DATA tile. -/
def StRef.outShape (r : StRef) (e : Entry) (f : Firing) (q : Nat) : Nat × Nat :=
  if r.st.kind = 1 then (if r.byCol f.entry q then (16 * e.nArr, 16) else (16, 16 * e.nArr))
  else if r.st.kind = 2 then (16 * e.nArr, r.dv e)
  else if r.st.kind = 6 ∨ r.st.kind = 8 then
    (match r.desc e with | some d => (d.elems e / max 1 (d.row e), d.row e) | none => (0, 0))
  else match r.dataElems e f with
    | p :: _ => let c := if f.cols p.1 = 0 then p.2 else f.cols p.1
                (p.2 / max 1 c, c)
    | [] => (0, 0)

/-- First group and number of groups of the blocks of a tile that a station writes: blocks row-major over a tensor whose rows hold
`TINNER` elements (02 R41, R48); the tile's first block is a free value (log entry 11). -/
def outGroups (c : OutConv) (dev tag rows cols : Nat) : Nat × Nat :=
  let b := Config.outBlock dev tag
  let last := b + (rows - 1) * max (ceilDiv c.tinner (blockLen c.scheme)) (ceilDiv cols (blockLen c.scheme)) +
    (ceilDiv cols (blockLen c.scheme) - 1)
  (b / 1024, last / 1024 - b / 1024 + 1)
/-- Blocks of a tile. -/
def outBlocks (c : OutConv) (rows cols : Nat) : Nat := rows * ceilDiv cols (blockLen c.scheme)

/-- A tile that a station writes or forwards splits no block, and its scale token stays within its limits (02 R42, R48): its rows hold whole
blocks, or a whole row of the tensor. -/
def outTileOk (c : OutConv) (dev tag rows cols : Nat) : Bool :=
  c.scheme == 0 || rows * cols == 0 ||
  ((cols % blockLen c.scheme == 0 || (c.tinner != 0 && decide (c.tinner ≤ cols))) && decide (outBlocks c rows cols ≤ 1024) &&
    (c.scheme != 2 || decide ((outGroups c dev tag rows cols).2 ≤ 64)))

/-- Payload bytes of the token that a firing writes to a port. -/
def State.outBytes (s : State) (r : StRef) (e : Entry) (f : Firing) (q : Nat) : Nat :=
  if r.errorIn e f || s.nullFiring r e f then 0
  else match r.st.outs[q]? with
  | none => 0
  | some o =>
    let c := r.st.conv o
    let sh := r.outShape e f q
    if r.st.kind = 7 ∨ r.st.kind = 9 then (f.toks.map fun t => (f.bytes t.1).length).foldl max 0
    else if (match r.dest q with | some d => d.2.2.kind == 1 | none => false) then
      8 + 4 * (if c.scheme = 2 then (outGroups c r.dev (o.tag f.tag 0) sh.1 sh.2).2 else 0) + outBlocks c sh.1 sh.2
    else sh.1 * packedBytes (fmtBits c.fmt) sh.2

/-! ### Units a firing needs (R113, R140) -/

/-- The set that takes k-steps. -/
def ArrayRun.cur (x : ArrayRun) : AccSet := if x.active then x.b else x.a
/-- The last k-step of a tile has not entered: its last add is complete 3 cycles after that (03 R63). -/
def TileWork.entering (w : TileWork) (now aclk : Nat) : Bool := decide (now + 3 * aclk < w.done)
/-- The tile whose k-steps an array runs, or whose first waits for a swap. -/
def State.stepping (s : State) (site a : Nat) : Option TileWork :=
  let x := s.arr site a
  match x.next with
  | some w => some w.1
  | none => x.cur.work.filter fun w => w.entering s.clk.root (aclkDiv s.clk.step)

/-- One product firing at a time runs across a unit's arrays, whose column vector they share (03 R54): a firing waits while an array of
the unit, in its mask or not, runs k-steps or waits for its swap (R79, R113). -/
def State.arraysBusy (s : State) (r : StRef) : Bool :=
  (r.st.kind == 1 || r.st.kind == 2) && (List.range 4).any fun a => (s.stepping r.st.site a).isSome

/-- Times at which the tiles in a site's vector pipeline leave its lanes. -/
def State.busyLanes (s : State) (site : Nat) : List Nat :=
  (tblGet (fun _ => []) s.flow.lanes site).filter fun t => s.clk.root < t
/-- The vector pipeline, which takes two lines of 16 values a cycle, is held (03 R67, R140). -/
def State.lanesBusy (s : State) (r : StRef) : Bool := 3 ≤ r.st.kind && r.st.kind ≤ 5 && decide (2 ≤ (s.busyLanes r.st.site).length)

/-- The generator of a memory-unit firing still holds the last tile (R98), or a bank it needs is asleep: the station's
tile boundary has not come. -/
def State.tileOpen (s : State) (r : StRef) : Bool := r.st.walks && 0 < (s.run r.dev).tiles

/-- Room for a firing's token at an output port: none waits there, and its ring takes the whole token (R134, R139). -/
def State.portFree (s : State) (r : StRef) (e : Entry) (f : Firing) (q : Nat) : Bool :=
  match r.dest q with
  | some d => !((s.run r.dev).outbox.any fun w => w.1 == q) && s.canSend d.1 d.2.1 (max 1 (ceilDiv (s.outBytes r e f q + 8) 64))
  | none => true
/-- Every output port of an entry can take the firing's token. -/
def State.outputsFree (s : State) (r : StRef) (e : Entry) (f : Firing) : Bool := (e.outPorts r.st).all (s.portFree r e f)

/-- Some output ring of an entry is full and its spill region at `LIMIT` (row 1 of Table 05-6). -/
def State.outputsAtLimit (s : State) (r : StRef) (e : Entry) (f : Firing) : Bool :=
  (e.outPorts r.st).any fun q => match r.dest q with
    | some d => d.2.2.spillEn && !s.portFree r e f q
    | none => false

/-- What an earlier firing or the other context may hold: arrays, vector pipeline, generator (row 3 of Table 05-6). -/
def State.unitBusy (s : State) (r : StRef) : Bool := s.arraysBusy r || s.lanesBusy r || s.tileOpen r

/-- A primary station of the site has a firing that could issue (R79). -/
def State.primaryReady (s : State) (site : Nat) : Bool :=
  match s.stationIn site 0 with
  | some r => (s.firings r).any fun f => match r.st.ents[f.entry]? with
    | some e => s.outputsFree r e f && !s.unitBusy r
    | none => false
  | none => false

/-- The fill context is held back (R79). -/
def State.fillHeld (s : State) (r : StRef) : Bool :=
  r.st.ctx == 1 && isCu r.st.site && (s.primaryReady r.st.site || !s.rfBit (siteBase r.st.site) 0)

/-! ### Lengths (R131, R132) -/

/-- The LEN token an entry's nest of a sequence and iteration runs under. -/
def State.lenTok (s : State) (r : StRef) (e : Entry) (tag : Nat) : Option (InPort × Held) :=
  if e.lenMask = 0 then none
  else ((e.ports r.st).find? fun p => p.2.tkind == 3).bind fun p =>
    ((s.portToks r p.1).find? fun h => p.2.matches r.st.kind h.tok.tag tag).map fun h => (p.2, h)

/-- Length of loop position `i`, none where no length binds it or the full extent is kept. -/
def lengthOf (e : Entry) (bs : List Byte) (i : Nat) : Option Nat :=
  ((List.range 4).find? fun n => bitAt e.lenMask n && bits e.lenBind (2 * n) 2 == i).bind fun n =>
    let l := leAt bs (4 * n) 4
    if l = 2 ^ 32 - 1 then none else some l

/-- Walk dimension that loop position `i` of a memory-unit entry steps through: the loops but B go through the walk's
dimensions from the outermost inward (DESIGN CHOICE, log entry 10). -/
def Entry.walkDim (e : Entry) (d : AgDesc) (i : Nat) : Option Nat :=
  let j := ((e.loops.take i).filter fun l => l.1 != .b).length
  if j < d.ndim then some (d.ndim - 1 - j) else none

/-- Tile extent along loop position `i` (R132, 06 R147): 16 rows for M, 16 rows an array for N, Kc for K (16 kv positions in
a FUSED entry), one list position for B; in a memory-unit entry the share of the walk dimension it steps through. -/
def StRef.extent (r : StRef) (e : Entry) (i : Nat) : Nat :=
  match e.loops[i]? with
  | none => 1
  | some l =>
    if r.st.walks then
      if l.1 = .b then 1
      else match r.desc e with
        | some d => (match e.walkDim d i with | some k => ceilDiv (d.counts.getD k 1) l.2 | none => 1)
        | none => 1
    else match l.1 with
      | .m => 16
      | .n => 16 * e.nArr
      | .k => if r.st.kind = 2 then 16 else e.kc
      | .b => 1

/-- Limits of a step, by loop position; none at a position where the length skips it (R132). -/
def StRef.clips (r : StRef) (e : Entry) (lens : List Byte) (step : Nat) : List (Option (Option Nat)) :=
  let is := loopIndices e.loops step
  (List.range e.loops.length).map fun i =>
    match lengthOf e lens i, e.loops[i]? with
    | some l0, some lp =>
      let t := r.extent e i
      let l := min l0 (t * lp.2)
      let k := is.getD i 0
      if l ≤ k * t then (none : Option (Option Nat)) else if l < (k + 1) * t then some (some (l - k * t)) else some none
    | _, _ => some none
/-- Limits of a step, or none where a length skips it. -/
def StRef.clip (r : StRef) (e : Entry) (lens : List Byte) (step : Nat) : Option (List (Option Nat)) :=
  let rs := r.clips e lens step
  if rs.all Option.isSome then some (rs.map fun x => x.getD none) else none

/-- A length exceeds its dimension's full extent (R132). -/
def StRef.overLong (r : StRef) (e : Entry) (lens : List Byte) : Nat :=
  ((List.range e.loops.length).filter fun i => match lengthOf e lens i, e.loops[i]? with
    | some l, some lp => r.extent e i * lp.2 < l
    | _, _ => false).length

/-! ### What a context does in a cycle (R140) -/

/-- Counter offsets of Table 05-7 for the rows of Table 05-6. -/
def stallOffset (row : Nat) : Nat := [0, 0x40, 0x38, 0x48, 0x50, 0x30, 0x20, 0x28, 0x18].getD row 0x18

/-- Cause of a stall among rows 1 to 4, for a matched firing. -/
def State.blockedBy (s : State) (r : StRef) (f : Firing) : Option Nat :=
  match r.st.ents[f.entry]? with
  | none => none
  | some e =>
    if s.outputsAtLimit r e f then some 1
    else if !s.outputsFree r e f then some 2
    else if s.unitBusy r then some 3
    else if s.fillHeld r then some 4
    else none

/-- The nearest firing: entry and lead tag with the most ports matched, the earliest lead token on a tie (R140). -/
def State.nearest (s : State) (r : StRef) : Option (Entry × Nat × Nat) :=
  let all := (r.st.ents.map fun e => (s.portToks r e.lead).map fun h =>
    (e, h.tok.tag, ((s.partners r e h.tok.tag).filter Option.isSome).length, h.order)).flatten
  (all.foldl (fun a c => match a with
    | some b => if b.2.2.1 < c.2.2.1 ∨ (b.2.2.1 = c.2.2.1 ∧ c.2.2.2 < b.2.2.2) then some c else some b
    | none => some c) (none : Option (Entry × Nat × Nat × Nat))).map fun x => (x.1, x.2.1, x.2.2.1)

/-- Unmatched ports of the nearest firing, and whether its panel region is still filling. Where no lead token is held, the nearest is
the entry with the most ports that hold a token, the first on a tie. -/
def State.gaps (s : State) (r : StRef) : List (Nat × InPort) × Bool :=
  match s.nearest r with
  | some n => ((n.1.needs r.st).filter fun p => (s.partnerOf r n.1 n.2.1 p).isNone, !s.panelReady r n.1 n.2.1)
  | none =>
    let empty (e : Entry) : List (Nat × InPort) := (e.needs r.st).filter fun p => (s.portToks r p.1).isEmpty
    match r.st.ents with
    | [] => ([], false)
    | e :: es => (es.foldl (fun a x => if (x.needs r.st).length - (empty x).length > a.1 then ((x.needs r.st).length - (empty x).length, empty x) else a)
        ((e.needs r.st).length - (empty e).length, empty e) |>.2, false)

/-- A port's ring holds a token that the matching store has no entry for (R123). -/
def State.unindexed (s : State) (r : StRef) (ip : InPort) : Bool :=
  match s.rng r.st.site ip.ring with | some g => g.toks.any fun h => h.indexed.isNone | none => false

/-- Rows 5 to 8 for the nearest firing. -/
def State.lacks (s : State) (r : StRef) : Nat :=
  let g := s.gaps r
  if g.1.any fun p => s.unindexed r p.2 then 5
  else if g.1.any fun p => p.2.tkind == 2 || p.2.tkind == 3 then 6
  else if g.2 then 7
  else 8

/-- Row of the operand that completed a matched firing (R140). -/
def State.lateRow (s : State) (r : StRef) (f : Firing) : Nat :=
  match f.toks.find? fun t => t.2.indexed == some f.last with
  | some t => (match r.st.ins[t.1]? with | some p => if p.tkind = 2 ∨ p.tkind = 3 then 6 else 8 | none => 8)
  | none => 7

/-- What a resident station does in a cycle in which it does not fire: idle (0), or the stall cause. A firing that nothing holds back
counts in the row of its last operand: it issues in the cycle after it is matched. -/
def State.ctxRow (s : State) (r : StRef) : Nat :=
  let holds := r.st.ins.any fun ip => match s.rng r.st.site ip.ring with | some g => !g.toks.isEmpty | none => false
  if !holds && (s.run r.dev).issue.isNone then 0
  else if (s.run r.dev).starved then 2
  else match s.firings r with
    | [] => s.lacks r
    | fs => match fs.findSome? (s.blockedBy r) with
      | some c => c
      | none => match firstFiring fs with | some f => s.lateRow r f | none => 8

/-- Count a context's cycles (R140, R141). -/
def State.countCtx (s : State) (r : StRef) (n : Nat) : State :=
  s.bumpCtx r.st.site r.st.ctx (if s.ctxRow r = 0 then 0x10 else stallOffset (s.ctxRow r)) n

/-- The stations of a slot. -/
def State.stationsOf (s : State) (n : Nat) : List StRef :=
  match (s.slot n).survey with
  | some v => (List.range v.stations.length).filterMap fun i => (v.stations[i]?).map fun st =>
      { slot := n, survey := v, idx := i, st := st, dev := (s.slot n).base + i }
  | none => []

/-- A RUN_STEP of the slot is in progress (started and not completed). -/
def State.running (s : State) (n : Nat) : Bool :=
  s.cage.started.any fun d => d.slot == n && (match d.kind with | .runStep _ => true | _ => false)
/-- Its step number. -/
def State.stepOf (s : State) (n : Nat) : Option Nat :=
  s.cage.started.findSome? fun d => if d.slot = n then (match d.kind with | .runStep k => some k | _ => none) else none

/-- The watchdog of a slot counts (R144): enabled, a RUN_STEP in progress, and not yet reported. -/
def State.watching (s : State) (n : Nat) : Bool :=
  s.running n && s.rfBit (jobBase n + 0x20) 0 && !(s.slot n).barked

/-- A primary firing of a compute unit waits for a fill firing, whose k-steps run or wait for a swap (R79). -/
def State.waitsForFill (s : State) (r : StRef) : Bool :=
  r.st.ctx == 0 && isCu r.st.site && (r.st.kind == 1 || r.st.kind == 2) && !(s.firings r).isEmpty &&
  (List.range 4).any fun a => match s.stepping r.st.site a with
    | some w => (match s.station w.station with | some o => o.st.ctx == 1 | none => false)
    | none => false

end Sys2Proof.Machine
end

