-- ==== Sys2Proof/Machine/MillOps.lean ====
section
/-! DEFINITION. Shards, granules and their tails, step parameters, sums of squares: what Mills and Hoists share (08 R187, 09
R216 to R220, R225, R227). -/
namespace Sys2Proof.Machine

/-! ### Shards (08 R187, 09 R219) -/

/-- Shard of device j of node k. -/
def HoistTable.shardOf (h : HoistTable) (k j : Nat) : Nat := k * h.nd + j
def HoistTable.shard (h : HoistTable) : Nat := h.shardOf h.myNode h.myDev
def HoistTable.shards (h : HoistTable) : Nat := h.nn * h.nd
/-- First row of a shard, and its rows. -/
def Layer.row0 (l : Layer) (sh : Nat) : Nat := min (sh * l.rowsSh) l.rows
def Layer.rowsIn (l : Layer) (sh : Nat) : Nat := min ((sh + 1) * l.rowsSh) l.rows - l.row0 sh
/-- Shard of a row. -/
def Layer.shardOfRow (l : Layer) (r : Nat) : Nat := r / l.rowsSh
/-- Parameters, and runs, of a shard. -/
def Layer.params (l : Layer) (sh : Nat) : Nat := l.rowsIn sh * l.cols
def Layer.runs (l : Layer) (sh : Nat) : Nat := l.params sh / 16

/-- Records per granule, record bytes, runs per granule (Table 09-4). -/
def recsPer (rec8 : Bool) : Nat := if rec8 then 496 else 336
def recSize (rec8 : Bool) : Nat := if rec8 then 8 else 12
def runsPer (rec8 : Bool) : Nat := if rec8 then 31 else 21

/-- Granules of a shard, granule of a run, runs of a granule. -/
def Layer.granules (l : Layer) (rec8 : Bool) (sh : Nat) : Nat := ceilDiv (l.params sh) (recsPer rec8)
def Layer.granRuns (l : Layer) (rec8 : Bool) (sh g : Nat) : Nat := min (runsPer rec8) (l.runs sh - g * runsPer rec8)
def Layer.granAddr (l : Layer) (g : Nat) : Nat := l.state + 4096 * g
/-- Address of a parameter's record (R219). -/
def Layer.recAddr (l : Layer) (rec8 : Bool) (i : Nat) : Nat :=
  l.state + 4096 * (i / recsPer rec8) + recSize rec8 * (i % recsPer rec8)

/-- Rule record of a layer of a slot: its local index in the Survey (R213). -/
def State.ruleOf (s : State) (n : Nat) (l : Layer) : Option Rule := (s.slot n).survey.bind fun v => v.rules[l.rule]?
def State.layer (s : State) (n i : Nat) : Option (HoistTable × Layer) :=
  (s.slot n).hoist.bind fun h => (h.layers[i]?).map fun l => (h, l)

/-- A shard's own index of a run numbered over the whole layer (09 R219, 14 R361); one before the shard is out of range. -/
def Layer.ownRun (l : Layer) (sh run : Nat) : Nat :=
  let first := l.row0 sh * l.cols / 16
  if run < first then 2 ^ 32 - 1 else run - first

/-! ### Tails (Table 09-5, R225) -/

def Tail.bytes (t : Tail) : List Byte :=
  leBytes 4 t.version ++ leBytes 4 t.pend ++ leBytes 4 t.done ++ leBytes 1 (b2n t.rec8) ++ zeroBytes 51
def Tail.parse (b : List Byte) : Tail :=
  { version := leAt b 0 4, pend := leAt b 4 4, done := leAt b 8 4 % 2 ^ 31, rec8 := bitOf b 12 0 }

def State.openTails (s : State) (m : Nat) : List (Nat × Tail) := tblGet (fun _ => []) s.flow.tails m
def State.setTails (s : State) (m : Nat) (ts : List (Nat × Tail)) : State :=
  { s with flow := { s.flow with tails := tblSet (fun _ => []) s.flow.tails m ts } }
/-- A granule's tail as its Mill knows it: the open-granule table, else memory. -/
def State.tail (s : State) (a : Nat) : Tail :=
  match (s.openTails (chanOf a)).find? fun e => e.1 == a with
  | some e => e.2
  | none => Tail.parse (s.hbmBytes (a + 4032) 64)
def State.tailOpen (s : State) (a : Nat) : Bool := (s.openTails (chanOf a)).any fun e => e.1 == a

def millOff (m o : Nat) : Nat := millCtr m + o
def State.bumpMill (s : State) (m o : Nat) (n : Nat := 1) : State := s.bump (millOff m o) n

/-- Write a tail and drop its entry. -/
def State.closeTail (s : State) (a : Nat) (t : Tail) : State :=
  (s.hbmWrite (a + 4032) t.bytes).setTails (chanOf a) ((s.openTails (chanOf a)).filter fun e => e.1 != a)

/-- Keep a tail open as the most recently used; a full table evicts the least recently used by writing it (R225). -/
def State.keepTail (s : State) (a : Nat) (t : Tail) : State :=
  let m := chanOf a
  let rest := (s.openTails m).filter fun e => e.1 != a
  if rest.length < 1024 then s.setTails m ((a, t) :: rest)
  else match rest.getLast? with
    | some e => ((s.closeTail e.1 e.2).bumpMill m 0x30).setTails m ((a, t) :: rest.dropLast)
    | none => s.setTails m [(a, t)]

/-- HBM addresses of a slot's granules. -/
def State.inSlot (s : State) (n a : Nat) : Bool :=
  match (s.slot n).survey with | some v => (v.region a).isSome | none => false

/-- Every Mill writes back the open tails of a slot (R227). -/
def State.flushTails (s : State) (n : Nat) : State :=
  ((s.flow.tails.map (·.2)).flatten.filter fun e => s.inSlot n e.1).foldl (fun s e => s.closeTail e.1 e.2) s

/-! ### Versions reached (R15, R21, R227) -/

/-- The signed distance from a found version to a named one (01 R15): positive when the record is older. -/
def verDist (named found : Nat) : Int := signed 32 (named + 2 ^ 32 - found % 2 ^ 32)

/-- Every granule of this device's shard of a layer has reached the version. -/
def State.shardAt (s : State) (n : Nat) (h : HoistTable) (l : Layer) (v : Nat) : Bool :=
  match s.ruleOf n l with
  | some r => (List.range (l.granules r.rec8 h.shard)).all fun g => verDist v (s.tail (l.granAddr g)).version ≤ 0
  | none => false

/-- Layers this device trains: not frozen, with rows in its shard. -/
def HoistTable.trained (h : HoistTable) : List Layer := h.layers.filter fun l => !l.frozen && 0 < l.params h.shard

def State.shardsOwned (s : State) (n : Nat) : Nat :=
  match (s.slot n).hoist with | some h => h.trained.length | none => 0
def State.shardsDone (s : State) (n v : Nat) : Nat :=
  match (s.slot n).hoist with | some h => (h.trained.filter fun l => s.shardAt n h l v).length | none => 0

/-! ### Sum of squares (R217) -/

def fp64 : FloatFmt :=
  { mant := 52, bias := 1023, maxCode := 0x7FEFFFFFFFFFFFFF, inf := some 0x7FF0000000000000, nan := some 0x7FF8000000000000, signBit := 63, shift := 0 }
/-- Add a value to an FP64 code, rounded to nearest even. -/
def add64 (c : Nat) (v : Val) : Nat := (writeFloat fp64 rne ((readFloat fp64 c).add v)).1

/-- The device's sum for a step, Mill by Mill in index order, rounded once to FP32. -/
def State.sumSq (s : State) (n step : Nat) : Nat :=
  (wr (readFloat fp64 ((List.range 768).foldl (fun a m =>
    add64 a (readFloat fp64 (tblGet (fun _ => 0) (s.slot n).sums (768 * step + m)))) 0))).toNat

/-- Result bytes of a RUN_STEP (12 Table 12-6). -/
def State.stepResult (s : State) (n step : Nat) : List Byte :=
  leBytes 4 step ++ leBytes 4 (s.sumSq n step) ++ leBytes 4 (s.shardsDone n step) ++ leBytes 4 (s.shardsOwned n) ++
  leBytes 2 (s.slot n).firstFault

/-! ### Step parameters (R216, R237) -/

def Slot.held (x : Slot) (step : Nat) : Option StepHeld := (x.params.filterMap id).find? fun p => p.step == step
/-- Retire a step (R216). -/
def Slot.retire (x : Slot) (step : Nat) : Slot :=
  { x with params := x.params.map fun p => match p with | some q => if q.step = step then none else some q | none => none }

/-- Registers at 0x040 to 0x0C0 of the Mill block (Table 09-8). -/
def State.millReg (s : State) (o : Nat) : Nat :=
  if o < 0x40 then
    match tblGet (fun _ => none) s.flow.ruleOwn (o / 4) with
    | some w => 1 + 2 * w.1 + 16 * w.2 + 256 * b2n (match ((s.slot w.1).survey.bind fun (v : Survey) => v.rules[w.2]?) with | some r => r.rec8 | none => false)
    | none => 0
  else if o < 0xC0 then
    if o % 16 = 0 ∨ o % 16 = 4 then
      match ((s.slot ((o - 0x40) / 16)).params.getD (o % 16 / 4) none) with | some p => p.step | none => 0
    else 0
  else if o = 0xC0 then
    (List.range 8).foldl (fun a n => a + 2 ^ (2 * n) * b2n ((s.slot n).params.getD 0 none).isSome +
      2 ^ (2 * n + 1) * b2n ((s.slot n).params.getD 1 none).isSome) 0
  else 0

/-- A counter summed over the Mills (R238). -/
def State.millSum (s : State) (o : Nat) : Nat :=
  min ((List.range 768).foldl (fun a m => a + s.ctr (millCtr m + o)) 0) ctrMax

/-! ### Canaries (02 R51 to R53) -/

def Mark.index : Mark → Option Nat | .none => Option.none | .sat => some 0 | .ufz => some 1 | .nan => some 2
/-- Add one converted element to a tile's counts. -/
def Canary.mark (c : Canary) (m : Mark) : Canary :=
  let t := c.tile.set 3 (c.tile.getD 3 0 + 1)
  { c with tile := match m.index with | some i => t.set i (t.getD i 0 + 1) | none => t }
def Canary.marks (c : Canary) (ms : List Mark) : Canary := ms.foldl Canary.mark c

/-- CANARY_TRIP payload (Table 02-9). -/
def tripPayload (station slot kind tensor wcount life welem : Nat) : List Byte :=
  leBytes 2 (station + 8192 * slot) ++ leBytes 1 kind ++ leBytes 1 tensor ++ leBytes 4 (min wcount 0xFFFFFFFF) ++
  leBytes 6 life ++ zeroBytes 2 ++ leBytes 6 welem ++ zeroBytes 2

/-- Add a tile's counts to the window, find the counters that trip now, and close a full window (R51). -/
def Canary.close (c : Canary) (d : OutConv) : Canary × List Nat :=
  let win := (List.range 4).map fun i => c.win.getD i 0 + c.tile.getD i 0
  let life := (List.range 3).map fun i => min (c.life.getD i 0 + c.tile.getD i 0) ctrMax
  let thr := [d.satThr, d.ufzThr, d.nanThr]
  let never := [0xFFFFFFFF, 0xFFFFFFFF, 0xFFFF]
  let trips := (List.range 3).filter fun i =>
    thr.getD i 0 < win.getD i 0 && thr.getD i 0 != never.getD i 0 && !c.tripped.getD i false
  let c1 : Canary := { tile := [0, 0, 0, 0], win := win, life := life
                       tripped := (List.range 3).map fun i => c.tripped.getD i false || trips.contains i }
  (if 2 ^ d.wlog2 ≤ win.getD 3 0 then { c1 with win := [0, 0, 0, 0], tripped := [false, false, false] } else c1, trips)

/-- Close a tile of a Canary and raise its trips. -/
def State.canaryClose (s : State) (c : Canary) (d : OutConv) (station : Nat) (slot : Fin 8) (tensor : Nat) : State × Canary :=
  let r := c.close d
  let win (i : Nat) := c.win.getD i 0 + c.tile.getD i 0
  (if d.cen then r.2.foldl (fun s k => s.raise 0x0010 .info (some slot)
      (tripPayload station slot.val k tensor (win k) (r.1.life.getD k 0) (win 3))) s else s, r.1)

end Sys2Proof.Machine
end

