-- ==== Sys2Proof/Machine/FlowOps.lean ====
section
/-! DEFINITION. What the rest of the device asks of the dataflow region: which sites a Survey uses, release and scrub of a
slot, cycle counts, idle states, registers (03 R82, 04 R104 to R110, 05 R136, R140 to R146, 07 R173, 15 R382, 17 R423). -/
namespace Sys2Proof.Machine

/-! ### Sites on a route (05 R136, 07 R173) -/

/-- Level of a site, and its row and column on the package grid. -/
def siteLevel (k : Nat) : Nat := k / 2048
def pkgRow (k : Nat) : Nat := 32 * (siteLevel k / 2) + siteRow k
def pkgCol (k : Nat) : Nat := 64 * (siteLevel k % 2) + siteCol k
/-- Site at a place of the package grid. -/
def siteAt (row col : Nat) : Nat := 2048 * (2 * (row / 32) + col / 64) + 64 * (row % 32) + col % 64

/-- The numbers between two, both ends included. -/
def span (a b : Nat) : List Nat := (List.range (max a b - min a b + 1)).map (min a b + ·)

/-- Sites a leg passes, its ends included: along the row first, but column first for a diagonal leg that starts on Level 2
or 3. -/
def legSites (a b : Nat) : List Nat :=
  let colFirst := (siteLevel a = 2 ∧ siteLevel b = 1) ∨ (siteLevel a = 3 ∧ siteLevel b = 0)
  if colFirst then (span (pkgRow a) (pkgRow b)).map (siteAt · (pkgCol a)) ++ (span (pkgCol a) (pkgCol b)).map (siteAt (pkgRow b) ·)
  else (span (pkgCol a) (pkgCol b)).map (siteAt (pkgRow a) ·) ++ (span (pkgRow a) (pkgRow b)).map (siteAt · (pkgCol b))

/-- Sites of a route, leg by leg. -/
def Route.sites (r : Route) : List Nat :=
  if r.wp1 = 0xFFFF then legSites r.src r.dst
  else if r.wp2 = 0xFFFF then legSites r.src r.wp1 ++ legSites r.wp1 r.dst
  else legSites r.src r.wp1 ++ legSites r.wp1 r.wp2 ++ legSites r.wp2 r.dst

/-- A Survey has a station, a partition, an MU record or a route leg on a site (07 R182). -/
def Survey.usesSite (v : Survey) (k : Nat) : Bool :=
  v.stations.any (·.site == k) || v.parts.any (·.site == k) || v.mus.any (·.site == k) || v.routes.any fun r => r.sites.contains k

/-! ### Windows (04 R89, R109) -/

def winBase_ (site w : Nat) : Nat := siteBase site + 0x200 + 0x20 * w
def State.winEn (s : State) (site w : Nat) : Bool := s.rfBit (winBase_ site w) 0
def State.winSlot (s : State) (site w : Nat) : Nat := s.rf (winBase_ site w) 1 3
/-- A Survey's partition gives a window to the slot that holds it (04 R91). -/
def State.winGiven (s : State) (n site w : Nat) : Bool :=
  match (s.slot n).survey with
  | some v => v.parts.any fun p => p.site == site && bitAt p.winMask w
  | none => false
/-- A window belongs to the slot whose Survey owns it, and otherwise to the slot its `SLOT` names (04 R89, R91, 07 R171; where an image's `SLOT`
and the slot of the load differ the spec names no owner: DESIGN CHOICE, log entry 14). -/
def State.winOf (s : State) (n site w : Nat) : Bool :=
  s.winGiven n site w || (s.winSlot site w == n && !(List.range 8).any fun m => s.winGiven m site w)
def State.winFirst (s : State) (site w : Nat) : Nat := s.rf (winBase_ site w + 4) 0 9
def State.winLimit (s : State) (site w : Nat) : Nat := s.rf (winBase_ site w + 8) 0 10
/-- Window size in bytes. -/
def State.winBytes (s : State) (site w : Nat) : Nat := 4096 * (s.winLimit site w - s.winFirst site w)

def pageKey (site pg : Nat) : Nat := 512 * site + pg
def State.pageDirty (s : State) (site pg : Nat) : Bool := s.flow.dirty.contains (pageKey site pg)
/-- Sites whose records or stations a Survey has. -/
def Survey.sites (v : Survey) : List Nat :=
  (v.stations.map (·.site) ++ v.mus.map (·.site) ++ v.parts.map (·.site)).dedup

/-! ### Release and scrub of a slot (04 R104, 05 R146, 08 R194, 09 R227, 14 R359) -/

/-- Disable a slot's windows on a memory unit, and mark every page they cover dirty. -/
def State.releaseWindows (s : State) (n site : Nat) : State :=
  (List.range 8).foldl (fun s w =>
    if s.winEn site w ∧ s.winOf n site w then
      let pgs := (List.range (s.winLimit site w - s.winFirst site w)).map fun i => pageKey site (s.winFirst site w + i)
      let s1 := s.setRf (winBase_ site w) 0 1 0
      { s1 with flow := { s1.flow with dirty := s1.flow.dirty ++ pgs.filter fun p => !s1.flow.dirty.contains p } }
    else s) s

/-- Sites with an enabled window of a slot: every memory unit releases its own (R104). -/
def State.windowSites (s : State) (n : Nat) : List Nat :=
  (s.regs.filterMap fun e =>
    let o := (e.1 - 0x1000000) % 0x800
    if 0x1000000 ≤ e.1 ∧ e.1 < 0x2000000 ∧ 0x200 ≤ o ∧ o < 0x300 ∧ o % 0x20 = 0 ∧
      e.2.toNat % 2 = 1 ∧ s.winOf n ((e.1 - 0x1000000) / 0x800) ((o - 0x200) / 0x20) then some ((e.1 - 0x1000000) / 0x800) else none).dedup

/-- Registers, rings, matching store, arrays and panels of one context of a slot let go. The tokens that the rings hold go uncounted:
`KILL_DROP` counts those that arrive afterwards (R146; whether it counts the held ones too is not said: DESIGN CHOICE, log entry 14). -/
def State.releaseCtx (s : State) (r : StRef) : State :=
  let site := r.st.site
  let p := r.part
  let s1 := (List.range 16).foldl (fun s q => if bitAt p.spillMask q then s.setRf (spillBase site q) 0 1 0 else s) s
  let s2 := (List.range 32).foldl (fun s k => match s.rng site k with
    | some g => if g.slot = r.slot then s.setRng site k none else s
    | none => s) s1
  let s3 := s2.setStore site r.st.ctx MatchStore.empty
  let s4 := (List.range 8).foldl (fun s k => s.setPanel site r.st.ctx k .empty) s3
  let mine (w : TileWork) : Bool := w.station == r.dev
  let clean (x : AccSet) : AccSet := if x.work.any mine then .idle else x
  let s5 := (List.range 4).foldl (fun s a =>
    let x := s.arr site a
    s.setArr site a { x with a := clean x.a, b := clean x.b, next := x.next.filter fun w => !mine w.1 }) s4
  let s6 := s5.setRun r.dev .init
  { s6 with flow := { s6.flow with
      coal := tblSet (fun _ => CoalRun.empty) s6.flow.coal (2 * site + r.st.ctx) .empty
      cuDirty := (site, r.st.ctx) :: s6.flow.cuDirty } }

/-- Message of a lease (08 R194, R196): 0 LEASE_CLOSE, 1 LEASE_REVOKE. The manual names the contents, not the bytes. -/
def leasePayload (op layer shard version : Nat) : List Byte :=
  leBytes 1 op ++ zeroBytes 1 ++ leBytes 2 layer ++ leBytes 4 shard ++ leBytes 4 version ++ zeroBytes 4
def State.sendLease (s : State) (dst fjob rslot op layer shard version : Nat) : State :=
  s.sendPacket { s.packet .lease dst (jobChan fjob) (leasePayload op layer shard version) with fjob := fjob, rslot := rslot }

/-- The fabric job of a slot's Survey. -/
def State.fjobOf (s : State) (n : Nat) : Nat := match (s.slot n).survey with | some v => v.fjob | none => 0

/-- A holder's copies of a slot's layer have leases: not those of a frozen layer or a forward-only slot (08 R200, R206). -/
def State.leased (s : State) (n layer : Nat) : Bool :=
  !s.rfBit (jobBase n + 0x38) 1 && (match s.layer n layer with | some x => !x.2.frozen | none => false)

/-- A lease closes at its owner (08 R194). -/
def State.closeLease (s : State) (p : Lease → Bool) : State :=
  { s with flow := { s.flow with leases := s.flow.leases.filter fun l => !p l } }
def Lease.is (l : Lease) (slot layer shard version holder : Nat) : Bool :=
  l.slot == slot && l.layer == layer && l.shard == shard && l.version == version && l.holder == holder
/-- This device's fabric address. -/
def State.myAddr (s : State) : Nat := s.fab.addr.getD 0

/-- Tell the owner of a shard that its lease closes: by LEASE_CLOSE, or at once where the owner is this device. -/
def State.tellClose (s : State) (r : Retained) : State :=
  match (s.slot r.slot).hoist with
  | none => s
  | some h =>
    if r.revoked ∨ !s.leased r.slot r.layer then s
    else if r.shard = h.shard then s.closeLease fun l => l.is r.slot r.layer r.shard r.version s.myAddr
    else s.sendLease (h.peer (r.shard / h.nd) (r.shard % h.nd)) (s.fjobOf r.slot) r.slot 0 r.layer r.shard r.version

/-- Retained pieces go, and their leases close (08 R194). -/
def State.closeRetained (s : State) (p : Retained → Bool) : State :=
  let gone := s.flow.retained.filter p
  let s1 : State := { s with flow := { s.flow with retained := s.flow.retained.filter fun r => !p r } }
  gone.foldl State.tellClose s1

/-- Slot number of a queued read whose slot is gone: it is answered with JOB_ABSENT. -/
def goneSlot : Nat := 8
/-- The reads queued at a slot that goes: those of other slots and devices stay, to be answered; values read for them go. -/
def dropReads (n : Nat) (rs : List GatherRead) : List GatherRead :=
  (rs.filter fun r => !(r.peer.isNone && r.rslot == n)).map fun r =>
    if r.slot = n then { r with slot := goneSlot, awaiting := none } else r

/-- What a kill releases in its first cycle (12 R297 step 1), after every Mill has written its open tails (09 R227). -/
def State.releaseSlot (s : State) (n : Nat) : State :=
  let s1 := s.flushTails n
  let s2 := (s1.stationsOf n).foldl State.releaseCtx s1
  let s3 := (s2.windowSites n).foldl (fun (s : State) k => s.releaseWindows n k) s2
  let s4 := s3.closeRetained fun r => r.slot == n
  let s5 : State := s4.failBarriers n
  { (s5.setSlot n { s5.slot n with params := [none, none] }) with flow := { s5.flow with
      bufs := s5.flow.bufs.filterMap fun (e : Nat × List Run) => match e.2.filter fun r => r.slot != n with | [] => none | l => some (e.1, l)
      dispatch := s5.flow.dispatch.filter (·.slot != n)
      contribs := s5.flow.contribs.filter (·.slot != n)
      reads := dropReads n s5.flow.reads
      pieces := s5.flow.pieces.filter (·.copy.slot != n)
      granMarks := s5.flow.granMarks.filter fun e => !s5.inSlot n e.1
      reqs := s5.flow.reqs.filter (·.slot != n)
      staging := s5.flow.staging.filter (·.copy.slot != n)
      chunks := s5.flow.chunks.filter (·.slot != n)
      leases := s5.flow.leases.filter (·.slot != n)
      retries := s5.flow.retries.filter fun x => !(x.src.isNone && x.chan == n)
      sluices := s5.flow.sluices.filter fun e => match e.2 with | some x => x.slot != n | none => true } }

/-- Accesses that the device makes in the course of a longer work: banks that sleep are woken first (R103). -/
def State.useBanks (s : State) (site : Nat) (bs : List Nat) : State :=
  let x := s.accessBanks site bs
  if x.2 then x.1
  else bs.foldl (fun (s : State) b => { s.setBank site b .active with flow := { (s.setBank site b .active).flow with
    bankLast := tblSet (fun _ => 0) s.flow.bankLast (bankKey site b) s.clk.root } }) x.1

/-- Zero one dirty page, whole lines, by 64 bank writes (04 R104, R111). -/
def State.scrubPage (s : State) (site pg : Nat) : State :=
  let lo := site * 2 ^ 21 + 4096 * pg
  let t : Tbl Byte := tblClear lo (lo + 4096) s.flow.scratch
  let t2 := if s.flow.lost = 0 then t
    else (List.range 4096).foldl (fun (t : Tbl Byte) i => tblSet s.spadDefault t (lo + i) 0) t
  let s1 : State := { s with flow := { s.flow with
    scratch := t2
    scratchUe := s.flow.scratchUe.filter fun w => 8 * w + 8 ≤ lo || lo + 4096 ≤ 8 * w
    dirty := s.flow.dirty.filter (· != pageKey site pg) } }
  ((s1.useBanks site (List.range 32)).bumpSite site 0x160 64).bumpSite site 0x108 64

/-- Accumulator tiles and row state of a partition read 0 again (05 R146). -/
def State.scrubPart (s : State) (p : Part) : State :=
  let acc := (List.range 4).foldl (fun t a =>
    tblClear (((p.site * 4 + a) * 64 + p.acc.base) * 256) (((p.site * 4 + a) * 64 + p.acc.base + p.acc.count) * 256) t) s.flow.acc
  { s with flow := { s.flow with
    acc := acc
    rows := tblClear (512 * p.site + 32 * p.row.base) (512 * p.site + 32 * (p.row.base + p.row.count)) s.flow.rows
    rowAdds := tblClear (512 * p.site + 32 * p.row.base) (512 * p.site + 32 * (p.row.base + p.row.count)) s.flow.rowAdds
    cuDirty := s.flow.cuDirty.filter (· != (p.site, p.ctx)) } }

/-- A token discarded under R117 or R146 counts in its context (05 R141). -/
def State.killDrop (s : State) (f : Flight) : State :=
  let ctx := match (s.slot f.slot).survey with
    | some v => (match v.stations.find? fun st => st.site == f.site && st.ins.any (·.ring == f.ring) with | some st => st.ctx | none => 0)
    | none => (match s.rng f.site f.ring with | some g => g.ctx | none => 0)
  s.bumpCtx f.site ctx 0x68

/-- The Mucker's scrub that ends a kill: every memory unit's dirty pages (R104), the slot's partitions, and what it held besides: rule
slots with their Canaries, tokens still on the mesh (02 R52, 09 R213). -/
def State.scrubSlot (s : State) (n : Nat) : State :=
  match (s.slot n).survey with
  | none => s
  | some v =>
    let s1 := s.flow.dirty.foldl (fun s k => s.scrubPage (k / 512) (k % 512)) s
    let s2 := v.parts.foldl State.scrubPart s1
    let s3 := (s2.flow.flights.filter (·.slot == n)).foldl State.killDrop s2
    let owned (e : Nat × Option (Nat × Nat)) : Bool := match e.2 with | some w => w.1 == n | none => false
    let ruleIds := (s3.flow.ruleOwn.filter owned).map (·.1)
    { s3 with flow := { s3.flow with
      flights := s3.flow.flights.filter (·.slot != n)
      ruleOwn := s3.flow.ruleOwn.filter fun e => !owned e
      ruleCanary := s3.flow.ruleCanary.filter fun e => !ruleIds.contains e.1 } }

/-- A device reset zeroes scratchpad, accumulators, rings and matching stores (17 R432); open tails are written by the kills
that precede it. -/
def State.flowReset (s : State) : State := { s with flow := FlowState.reset }

/-- A site's own memories are zeroed after its self-test (18 R448). -/
def State.siteZero (s : State) (k : Nat) : State :=
  let s1 := (List.range 512).foldl (fun s pg => s.scrubPage k pg) s
  { s1 with flow := { s1.flow with
    acc := tblClear (k * 65536) ((k + 1) * 65536) s1.flow.acc
    rows := tblClear (512 * k) (512 * (k + 1)) s1.flow.rows
    rowAdds := tblClear (512 * k) (512 * (k + 1)) s1.flow.rowAdds } }

/-! ### Idle (17 R423, R424; 15 R382) -/

/-- Work belongs to one of the given RUN_STEPs. -/
def ofSteps (later : List Nat) (x : Option Nat) : Bool := match x with | some k => later.contains k | none => false
/-- An array of the station's unit runs its k-steps, or holds a finished tile of its that goes out; an open tile may stay. Work of the
RUN_STEPs `later` is not counted. -/
def State.arrayOwes (s : State) (r : StRef) (later : List Nat) : Bool :=
  (List.range 4).any fun a => let x := s.arr r.st.site a
    [x.next.map (·.1), x.a.work, x.b.work].any fun w => match w with
      | some y => y.station == r.dev && !ofSteps later y.step && ((match y.dest with | .acc _ => false | _ => true) || y.entering s.clk.root (aclkDiv s.clk.step))
      | none => false
/-- A station has a tile on its way: issued, in the arrays, at its boundary, or formed and not sent. With steps given, an issued tile
counts among its station's firings instead, and partial drains among its arrays' work. -/
def State.stationOwes (s : State) (later : List Nat) (r : StRef) : Bool :=
  let x := s.run r.dev
  x.marks.any (fun m => !ofSteps later m.1) || (x.waiting ++ x.outbox).any (fun w => !ofSteps later w.2.step) ||
  (later.isEmpty && (0 < x.tiles || x.issue.isSome || !x.drained.isEmpty)) || s.arrayOwes r later

/-- Dataflow work of a slot is on its way: tokens in flight, tiles, runs, gathers, reads. Work of the RUN_STEPs `later` is not counted; a
gather belongs to the step after the version it names. -/
def State.slotOwes (s : State) (n : Nat) (later : List Nat) : Bool :=
  let run (x : Run) : Bool := x.slot == n && !later.contains x.step
  let gather (v : Nat) : Bool := !later.contains ((v + 1) % 2 ^ 32)
  s.flow.flights.any (fun f => f.slot == n && !ofSteps later f.tok.step) || s.flow.dispatch.any run || s.flow.contribs.any run ||
  s.flow.bufs.any (fun e => e.2.any run) || s.flow.reqs.any (fun q => q.slot == n && gather q.version) ||
  s.flow.reads.any (fun r => r.slot == n && gather r.version) || (s.stationsOf n).any (s.stationOwes later)
/-- The slot holds dataflow work of any step. -/
def State.slotBusy (s : State) (n : Nat) : Bool := s.slotOwes n []

/-- FENCE: no stream of the named slots holds a token in flight (R382). -/
def State.streamsIdle (s : State) (slots : Nat) : Bool := (List.range 8).all fun n => !bitAt slots n || !s.slotBusy n

/-- No engine of the dataflow region holds work (17 R424). -/
def State.flowIdle (s : State) : Bool :=
  (List.range 8).all (fun n => !s.slotBusy n && !(s.slot n).loading) && s.flow.dirty.isEmpty && s.flow.sluices.isEmpty

/-! ### Device idle states (04 R102, R103) -/

/-- Banks of a memory unit that take device entry to A2 or A3: `PD_ENTER` counts them (R102, R111). -/
def State.banksEnter (s : State) (k : Nat) : State :=
  let n := ((List.range 32).filter fun b => match s.bank k b with | .active => true | .waking _ => true | _ => false).length
  if n = 0 then s else s.bumpSite k 0x148 n
/-- A2 and A3 send the banks to ENTERING, then RETAIN (R102). -/
def State.flowSleep (s : State) (level : Nat) : State :=
  if level = 2 ∨ level = 3 then ((List.range 8192).filter fun k => !isCu k).foldl State.banksEnter s else s
/-- Leaving A2 or A3 leaves the banks in RETAIN until an access (R102); leaving A4 powers them, the scratchpads' contents lost, and with them
the arrays, panels and row state (R102, 17 R423). -/
def State.flowWake (s0 : State) : State :=
  let s : State := if s0.pwr.idle = 4 then
    { s0 with flow := { s0.flow with lost := s0.flow.lost + 1, scratch := [], scratchUe := [], acc := [], rows := [], rowAdds := [], arrays := []
                                     panels := [], lanes := [] } } else s0
  if s.pwr.idle < 2 then s
  else { s with flow := { s.flow with banks := [], bankRest := if s.pwr.idle = 4 then .active else .retain
                                      bankLast := s.flow.bankLast.map fun e => (e.1, s.clk.root) } }

/-! ### Cycle counts (05 R140, R144; 03 R83; 04 R111; 09 R238) -/

/-- A lease that defers an update of a shard (08 R195): open, unexpired, on the version before the run's step. -/
def Lease.on (l : Lease) (slot layer shard version : Nat) : Bool :=
  l.slot == slot && l.layer == layer && l.shard == shard && l.version == version
def State.deferred (s : State) (r : Run) : Bool :=
  match s.layer r.slot r.layer with
  | none => false
  | some x => !s.rfBit (jobBase r.slot + 0x38) 1 &&
      s.flow.leases.any fun l => l.on r.slot r.layer x.1.shard ((r.step + 2 ^ 32 - 1) % 2 ^ 32) && !l.expired

/-- What holds a Mill: the oldest run's update is deferred, or some run's parameters are absent (08 R195, 01 R16). -/
def State.millWaits (s : State) (m : Nat) : List Nat :=
  let rs := (tblGet (fun _ => []) s.flow.bufs m).filter fun r => !(s.slot r.slot).stopped
  (if rs.any s.deferred then [0x20] else []) ++
  (if rs.any fun r => ((s.slot r.slot).held r.step).isNone then [0x28] else [])

/-- First and last granule of rows of this device's shard, and the granules between them. -/
def Layer.rowGrans (l : Layer) (rec8 : Bool) (row0 row rows : Nat) : List Nat :=
  let a := (row - row0) * l.cols / recsPer rec8
  let b := ((row + rows - row0) * l.cols - 1) / recsPer rec8
  (List.range (b + 1 - a)).map (a + ·)

/-- A queued forward gather waits for an older record (01 R18): the Level whose Hoist counts it. -/
def State.readOlder (s : State) (r : GatherRead) : Option Nat :=
  if r.latest ∨ r.kind ≠ .forward then none
  else match s.layer r.slot r.layer, (s.layer r.slot r.layer).bind fun x => s.ruleOf r.slot x.2 with
    | some (h, l), some u =>
      if l.frozen then none
      else ((l.rowGrans u.rec8 (l.row0 h.shard) r.row r.rows).find? fun g =>
        0 < verDist r.version (s.tail (l.granAddr g)).version).map fun g => chanOf (l.granAddr g) / 192
    | _, _ => none

/-- Blocks of a scaled read, and the Mills of the values of one block: its values lie along a row of W, or a column (R231). -/
def GatherRead.blockCount (r : GatherRead) (l : Layer) : Nat :=
  if r.transposed then l.cols * ceilDiv r.rows (blockLen l.scheme) else r.rows * ceilDiv l.cols (blockLen l.scheme)
def GatherRead.blockMills (r : GatherRead) (h : HoistTable) (l : Layer) (u : Rule) (k : Nat) : List Nat :=
  let bl := blockLen l.scheme
  let inner := if r.transposed then r.rows else l.cols
  let nb := ceilDiv inner bl
  (List.range (min bl (inner - k % nb * bl))).map fun i =>
    let j := k % nb * bl + i
    let p := if r.transposed then (r.row - l.row0 h.shard + j) * l.cols + k / nb else (r.row - l.row0 h.shard + k / nb) * l.cols + j
    chanOf (l.granAddr (p / recsPer u.rec8))
/-- Values of blocks from `k` on at each Mill, added to a count. -/
def GatherRead.addBlock (r : GatherRead) (h : HoistTable) (l : Layer) (u : Rule) (t : Tbl Nat) (k : Nat) : Tbl Nat :=
  (r.blockMills h l u k).foldl (fun t m => tblSet (fun _ => 0) t m (tblGet (fun _ => 0) t m + 1)) t
/-- Of `n` blocks from `k` on, those whose values the Mills hold: each holds the first 4,096 of its own (R231). -/
def GatherRead.heldBlocks (r : GatherRead) (h : HoistTable) (l : Layer) (u : Rule) : Nat → Nat → Tbl Nat → Nat
  | 0, _, _ => 0
  | n + 1, k, t =>
    let t1 := r.addBlock h l u t k
    if t1.any fun e => 4096 < e.2 then 0 else r.heldBlocks h l u n (k + 1) t1 + 1
/-- The Mills whose buffer of values is full while the oldest scaled read waits for its amaxes (R231). -/
def State.amaxFull (s : State) : List Nat :=
  match s.flow.reads.find? fun r => r.awaiting.isSome with
  | none => []
  | some r => match s.layer r.slot r.layer, (s.layer r.slot r.layer).bind fun x => s.ruleOf r.slot x.2 with
    | some (h, l), some u =>
      ((((List.range (r.blockCount l - r.blocks)).map (r.blocks + ·)).foldl (r.addBlock h l u) []).filter fun e => 4096 < e.2).map (·.1)
    | _, _ => []

/-- Counts of one slot over n ACLK cycles. -/
def State.tickSlot (s : State) (c n : Nat) : State :=
  let s1 := (s.stationsOf n).foldl (fun s r =>
    let s1 := s.countCtx r c
    let s2 := if s1.waitsForFill r then s1.bumpSite r.st.site 0x138 c else s1
    -- a generator that waits for a bank's wake (04 R103)
    if (s2.run r.dev).wake.any fun b => match s2.bank r.st.site b with | .waking _ => true | _ => false
    then s2.bumpSite r.st.site 0x130 c else s2) s
  if s1.watching n then s1.bump (jobBase n + 0x28) c else s1

/-- What happens in the dataflow region in one XCLK cycle that has `c` ACLK edges: the Mills and Hoists count
XCLK cycles. -/
def State.flowTick (s0 : State) (c : Nat) : State :=
  let s8 := s0.flow.bufs.foldl (fun s e => (s.millWaits e.1).foldl (fun s o => s.bumpMill e.1 o) s) s0
  let s9 := s8.amaxFull.foldl (fun s m => s.bumpMill m 0x48) s8
  let s := (s9.flow.reads.filterMap fun r => (s9.readOlder r).map fun l => (l, r.slot)).dedup.foldl
    (fun s x => s.bump (hoistBase x.1 x.2 + 0x18)) s9
  if c = 0 then s
  else
    (List.range 8).foldl (fun s n => if (s.slot n).survey.isSome then s.tickSlot c n else s) s

/-! ### Registers (03 R82, 04 R107, R108, R110; 05 R142, R143; 08 R209; 09 R237) -/

def State.stationAt (s : State) (site ctx : Nat) : Option StRef := s.stationIn site ctx
/-- Arrays or vector lanes of a CU hold work, or a station can fire; generators, spill or scrub of an MU hold work. -/
def State.siteBusy (s : State) (k : Nat) : Bool :=
  let canFire := [0, 1].any fun c => match s.stationIn k c with
    | some r => !(s.firings r).isEmpty || 0 < (s.run r.dev).tiles || (s.run r.dev).issue.isSome
    | none => false
  if isCu k then
    (List.range 4).any (fun a => let x := s.arr k a
      x.next.isSome || x.a.work.isSome || x.b.work.isSome || decide (s.clk.root < x.a.busy) || decide (s.clk.root < x.b.busy)) ||
    !(s.busyLanes k).isEmpty || canFire
  else canFire || s.flow.dirty.any (fun p => p / 512 == k) ||
    s.flow.rings.any fun e => match e.2 with
      | some g => !g.spill.isEmpty && (match s.ringTmpl g with | some t => t.spillSite (e.1 / 32) == k | none => false)
      | none => false

def State.cuStat (s : State) (k : Nat) : Nat :=
  let slotOf (c : Nat) : Nat := match s.stationIn k c with | some r => r.slot | none => 0
  let res (c : Nat) : Nat := b2n (s.stationIn k c).isSome
  b2n (s.siteBusy k) + 2 * res 0 + 4 * res 1 + 8 * slotOf 0 + 64 * slotOf 1 +
  512 * b2n (s.unit k == .fenced || s.unit k == .testing) + 1024 * b2n (s.unit k == .routerOnly)

def State.muStat (s : State) (k : Nat) : Nat :=
  b2n (s.siteBusy k) + 2 * b2n (s.flow.dirty.any fun p => p / 512 == k) + 4 * b2n (s.unit k == .fenced || s.unit k == .testing) +
  8 * b2n (s.unit k == .routerOnly) + (List.range 8).foldl (fun a w => a + 2 ^ (4 + w) * b2n (s.winEn k w)) 0

/-- Lines that the spill region of a descriptor holds. -/
def State.spillOcc (s : State) (k q : Nat) : Nat :=
  s.flow.rings.foldl (fun a e => match e.2 with
    | some g => (match s.ringTmpl g with
      | some t => if t.spillEn ∧ t.spillSite (e.1 / 32) = k ∧ t.spill = q then a + g.occ else a
      | none => a)
    | none => a) 0

/-- `CTX_STAT` (05 R142). -/
def State.ctxStat (s : State) (k c : Nat) : Nat :=
  match s.stationIn k c with
  | some r => r.dev + 2 ^ 13 + 2 ^ 16 * (s.store k c).used
  | none => 0

/-- Status of a ring (05 R143). -/
def State.ringStat (s : State) (k i : Nat) : Nat :=
  match s.rng k i with
  | some g =>
    (match g.toks with | h :: _ => h.pos | [] => g.tail) + 16 * g.tail + 256 * g.toks.length + 2 ^ 13 * b2n (!g.spill.isEmpty) +
    2 ^ 14 + 2 ^ 15 * g.ctx + 2 ^ 16 * (match s.ringTmpl g with | some t => t.kind | none => 0)
  | none => 0

/-- What a read of a stored site register returns: an RWL field reads as last written, while its write is held too (00 Table 00-5, R6). -/
def State.lastWritten (s : State) (off : Nat) : Nat :=
  match tblGet (fun _ => none) s.held off with
  | some v => ((regFields off).filter fun f => f.acc == .rwl).foldl (fun a f => setBits a f.lo f.width (bits v.toNat f.lo f.width)) (s.reg off)
  | none => s.reg off

/-- Registers of a site that the state fixes. -/
def State.siteReg (s : State) (off k : Nat) : Nat :=
  let o := off % 0x800
  if 0x600 ≤ o ∧ o < 0x700 ∧ o % 8 = 0 then s.ringStat k ((o - 0x600) / 8)
  else if o = 0x480 then s.ctxStat k 0
  else if o = 0x580 then s.ctxStat k 1
  else if isCu k then (if o = 4 then s.cuStat k else s.lastWritten off)
  else if o = 4 then s.muStat k
  else if o = 0xC then (List.range 32).foldl (fun a b => a + 2 ^ b * b2n (match s.bank k b with | .retain => true | .off => true | .waking _ => true | _ => false)) 0
  else if 0x300 ≤ o ∧ o < 0x400 ∧ o % 0x10 = 0xC then
    let q := (o - 0x300) / 0x10
    s.spillOcc k q % 65536 + 65536 * (tblGet (fun _ => 0) s.flow.spillMax (16 * k + q) % 65536)
  else s.lastWritten off

/-- Registers between 0x20000 and 0x40000 and between 0x80000 and 0x2000000: Hoists, Mills, sites. -/
def State.flowReg (s : State) (off : Nat) : Nat :=
  if off < 0x1000000 then
    (if millBase ≤ off ∧ off ≤ millBase + 0xC0 then s.millReg (off - millBase) else s.reg off)
  else s.siteReg off ((off - 0x1000000) / 0x800)

end Sys2Proof.Machine
end

