-- ==== Sys2Proof/Machine/Layers.lean ====
section
/-! DEFINITION. The layer table and the collective table of a job slot as they stand in HBM, and their checks (08 R185, R186, 09
R213, R219, 14 R360). -/
namespace Sys2Proof.Machine

/-! ### The layer table (08 R185) -/

/-- Why a check fails: the layer or the chunk it names (R186). -/
structure TableFail where
  chunk : Bool
  index : Nat
  deriving DecidableEq, Repr

def tableBase (s : State) (n : Nat) : Nat := s.reg (jobBase n + 0x30) + 2 ^ 32 * s.reg (jobBase n + 0x34)
/-- Bytes of the header and the peer table. -/
def layerOfs (shards : Nat) : Nat := 64 + 64 * ceilDiv (2 * shards) 64

/-- The fields of the header are in range and its reserved bits 0 (Table 08-1). -/
def headerOk (b : List Byte) : Bool :=
  let nn := byteAt b 4 + 1
  let nd := byteAt b 5 + 1
  let nl := leAt b 8 4
  leAt b 0 4 == 0x54534F48 && byteAt b 4 < 128 && byteAt b 5 < 8 && nn * nd ≤ 1024 && byteAt b 6 < nn && byteAt b 7 < nd &&
  1 ≤ nl && nl ≤ 65536 && zeroAt b 12 4 && zeroAt b 22 2 && zeroAt b 30 2 && leAt b 16 6 % 4096 == 0 && leAt b 24 6 % 4096 == 0 &&
  leAt b 16 6 + leAt b 24 6 ≤ hbmSize && leAt b 32 4 % 64 == 0 && 1 ≤ leAt b 36 4 && leAt b 36 4 ≤ 65535 && zeroAt b 40 24

def Layer.parse (b : List Byte) : Layer :=
  { sfmt := byteAt b 0 % 16, scheme := bits (byteAt b 0) 4 2, frozen := bitOf b 0 6, conv := byteAt b 1 % 16
    vmode := bitOf b 1 4, rule := byteAt b 2 % 16, rgCount := bits (byteAt b 2) 4 2, rows := leAt b 4 4, cols := leAt b 8 4
    rowsSh := leAt b 12 4, state := leAt b 16 6, s2f := wordAt b 24, s2t := wordAt b 28, fwdStg := leAt b 32 2
    fwdN := leAt b 34 2, trnStg := leAt b 36 2, trnN := leAt b 38 2, seed := leAt b 40 4 }

/-- Blocks of 32 elements decide the scheme (02 R41). -/
def Layer.schemeOk (l : Layer) : Bool :=
  l.scheme == 0 || (if l.rows * ceilDiv l.cols 32 ≤ 65536 then l.scheme == 1 else l.scheme == 2)

/-- Ranges and reserved bits of a layer entry (Table 08-2). -/
def layerFieldsOk (b : List Byte) (stgN : Nat) : Bool :=
  let l := Layer.parse b
  2 ≤ l.sfmt && l.sfmt ≤ 8 && l.scheme != 3 && !bitOf b 0 7 && convOk l.sfmt l.conv && byteAt b 1 < 32 && 1 ≤ l.rgCount &&
  byteAt b 2 < 64 && byteAt b 3 == 0 && 0 < l.rows && l.rows % 16 == 0 && 0 < l.cols && l.cols % 16 == 0 && 0 < l.rowsSh &&
  l.rowsSh % 32 == 0 && l.state % 4096 == 0 && zeroAt b 22 2 && 1 ≤ l.fwdN && 1 ≤ l.trnN && l.fwdStg + l.fwdN ≤ stgN &&
  l.trnStg + l.trnN ≤ stgN && zeroAt b 44 20 && l.schemeOk

def Chunk.parse (b : List Byte) : Chunk :=
  { site := leAt b 0 2 % 8192, win := byteAt b 2 % 8, page := leAt b 3 2 % 512, pages := leAt b 5 2 % 1024 }
def chunkFieldsOk (b : List Byte) : Bool :=
  leAt b 0 2 < 8192 && byteAt b 2 < 8 && leAt b 3 2 < 512 && leAt b 5 2 < 1024 && byteAt b 7 == 0 &&
  !isCu (leAt b 0 2) && 1 ≤ leAt b 5 2 && leAt b 5 2 ≤ 512

/-- The table as it stands in HBM from address `a`. -/
def State.readTable (s : State) (a : Nat) : HoistTable :=
  let h := s.hbmBytes a 64
  let nn := byteAt h 4 + 1
  let nd := byteAt h 5 + 1
  let lo := a + layerOfs (nn * nd)
  { nn := nn, nd := nd, myNode := byteAt h 6, myDev := byteAt h 7
    peers := (List.range (nn * nd)).map fun i => leAt (s.hbmBytes (a + 64 + 2 * i) 2) 0 2
    layers := (List.range (leAt h 8 4)).map fun i => Layer.parse (s.hbmBytes (lo + 64 * i) 64)
    ovfBase := leAt h 16 6, ovfLen := leAt h 24 6
    chunks := (List.range (leAt h 36 4)).map fun i => Chunk.parse (s.hbmBytes (a + leAt h 32 4 + 8 * i) 8) }

/-- What the slot's Survey adds to the check of a layer: `RULE` names a rule of it, every granule lies in a STATE region
(09 R213, R219). Without a Survey in the slot there is none to hold the entry against: the layer's first record lies in HBM, and the load of a
Survey checks the accepted table again (10 R241; log entry 16). -/
def State.layerPlaced (s : State) (n : Nat) (h : HoistTable) (l : Layer) : Bool :=
  match (s.slot n).survey with
  | none => decide (l.state < hbmSize)
  | some v => match v.rules[l.rule]? with
    | none => false
    | some r => (List.range (l.granules r.rec8 h.shard)).all fun g => match v.region (l.granAddr g) with
      | some x => x.kind == 0
      | none => false

/-- A chunk lies inside its window, which the slot owns. -/
def State.chunkPlaced (s : State) (n : Nat) (c : Chunk) : Bool :=
  (s.slot n).survey.isNone ||
  (s.winEn c.site c.win && s.winOf n c.site c.win && c.page + c.pages ≤ s.winLimit c.site c.win - s.winFirst c.site c.win)

/-- The check of R186: the first failure, header and peer table first, then layers, then chunks. -/
def State.tableFail (s : State) (n : Nat) : Option TableFail :=
  let a := tableBase s n
  let hb := s.hbmBytes a 64
  let h := s.readTable a
  let lo := a + layerOfs (h.nn * h.nd)
  let badLayer (i : Nat) : Bool :=
    !layerFieldsOk (s.hbmBytes (lo + 64 * i) 64) h.chunks.length || (match h.layers[i]? with | some l => !s.layerPlaced n h l | none => true)
  let badChunk (i : Nat) : Bool :=
    !chunkFieldsOk (s.hbmBytes (a + leAt hb 32 4 + 8 * i) 8) || (match h.chunks[i]? with | some c => !s.chunkPlaced n c | none => true)
  if !headerOk hb ∨ hbmSize < a + 64 ∨ h.peers.any (1024 ≤ ·) then some { chunk := false, index := 0 }
  else match (List.range h.layers.length).find? badLayer with
    | some i => some { chunk := false, index := i }
    | none => ((List.range h.chunks.length).find? badChunk).map fun i => { chunk := true, index := i }

/-- A table is refused: `EN` returns to 0, and HOIST_TABLE_INVALID names the item (R186). -/
def State.refuseTable (s : State) (n : Nat) (f : TableFail) : State :=
  ((s.setSlot n { s.slot n with checking := false, hoist := none }).setRf (jobBase n + 0x38) 0 1 0).raise
    0x0020 .warning (some (Fin.ofNat 8 n)) (genPayload 0 (b2n f.chunk) f.index 0 0)

/-- Where the layer table of a slot lies: header, peers and layers, then the chunk list. -/
def State.tableSpans (s : State) (n : Nat) : List (Nat × Nat) :=
  let a := tableBase s n
  let b := s.hbmBytes a 64
  [(a, layerOfs ((byteAt b 4 + 1) * (byteAt b 5 + 1)) + 64 * leAt b 8 4), (a + leAt b 32 4, 8 * leAt b 36 4)]

/-- The reads of a table: the sealed region that forbids one to the slot (10 R246), and an uncorrectable line (10 R250). -/
def State.spansSealed (s : State) (n : Nat) (xs : List (Nat × Nat)) : Option (Nat × Nat) :=
  xs.findSome? fun x => (s.sealedAgainst n x.1 x.2).map fun k => (k, x.1)
def State.spansUe (s : State) (xs : List (Nat × Nat)) : Option Nat := xs.findSome? fun x => s.firstUe x.1 x.2
def State.spansRead (s : State) (xs : List (Nat × Nat)) : State := xs.foldl (fun s x => s.hbmRead x.1 x.2) s

/-- End the check of a slot's table: accepted, or `EN` stays 0 and HOIST_TABLE_INVALID names the item (R186). -/
def State.endTableCheck (s : State) (n : Nat) : State :=
  let x := s.slot n
  match s.tableFail n with
  | none => (s.setSlot n { x with checking := false, hoist := some (s.readTable (tableBase s n)) }).setRf (jobBase n + 0x38) 0 1 1
  | some f => s.refuseTable n f

/-- A slot runs forward only (08 R206), and is a background slot (R207). -/
def State.fwdOnly (s : State) (n : Nat) : Bool := s.rfBit (jobBase n + 0x38) 1
def State.background (s : State) (n : Nat) : Bool := s.rfBit (jobBase n + 0x38) 2

/-! ### The collective table (14 R360) -/

def sluiceBase (s : State) (n : Nat) : Nat := s.reg (jobBase n) + 2 ^ 32 * s.reg (jobBase n + 4)

def Collective.parse (b : List Byte) : Collective :=
  { op := byteAt b 0 % 4, bf16 := bitOf b 0 3, hbm := bitOf b 0 4, layer := leAt b 1 3 % 2 ^ 17, dst := leAt b 8 6 }

/-- The collective breaks a condition of R360 on a layer, or on the Survey. -/
def State.collectiveMisplaced (s : State) (n : Nat) (h : HoistTable) (c : Collective) : Bool :=
  match h.layers[c.layer]? with
  | none => true
  | some l => l.frozen || (match (s.slot n).survey with
    | none => false
    | some v =>
      if c.hbm then !v.regions.any fun r => r.kind == 3 && r.base ≤ c.dst && c.dst + 64 * l.runs h.shard ≤ r.base + r.len
      else v.target == 2 || (match v.rules[l.rule]? with | some r => r.gBf16 | none => false))

/-- The entry breaks a condition of R360 on its own. -/
def State.collectiveBad (s : State) (n : Nat) (h : HoistTable) (b : List Byte) : Bool :=
  let c := Collective.parse b
  c.op == 3 || 2 ≤ bits (byteAt b 0) 4 2 || 64 ≤ byteAt b 0 || 2 ^ 17 ≤ leAt b 1 3 || !zeroAt b 4 4 || !zeroAt b 14 18 ||
  s.collectiveMisplaced n h c

/-- The valid entries, by collective ID. -/
def State.collectives (s : State) (n : Nat) : List (Nat × List Byte) :=
  ((List.range 256).map fun i => (i, s.hbmBytes (sluiceBase s n + 32 * i) 32)).filter fun e => bitOf e.2 0 2

/-- The first entry that fails the check: the 0th where the slot has no accepted layer table. -/
def State.sluiceFail (s : State) (n : Nat) : Option Nat :=
  match (s.slot n).hoist with
  | none => some 0
  | some h =>
    let es := s.collectives n
    (es.find? fun e => s.collectiveBad n h e.2 ||
      es.any fun f => f.1 < e.1 && (Collective.parse f.2).layer == (Collective.parse e.2).layer).map (·.1)

/-- A collective table is dropped. -/
def State.dropSluice (s : State) (n : Nat) : State := (s.setSlot n { s.slot n with sluice := [] }).setRf (jobBase n + 8) 0 1 0
/-- It is refused with SLUICE_TABLE_INVALID, which names the entry. -/
def State.refuseSluice (s : State) (n i : Nat) : State :=
  (s.dropSluice n).raise 0x0059 .warning (some (Fin.ofNat 8 n)) (genPayload 0 i 0 0 0)

/-- Setting `JOBCTL_SLUICE_CFG.EN`: the table is read and checked, and accepted or refused. A sealed region or an uncorrectable line in its
place ends the check (10 R246, R250). -/
def State.checkSluice (s : State) (n : Nat) : State :=
  let xs := [(sluiceBase s n, 8192)]
  match s.spansSealed n xs, s.spansUe xs with
  | some k, _ => (s.dropSluice n).sealStop n k.1 k.2
  | none, some l => (s.dropSluice n).hbmUe l 0
  | none, none =>
    let s1 := s.spansRead xs
    match s.sluiceFail n with
    | none => s1.setSlot n { s1.slot n with sluice := (s.collectives n).map fun e => (e.1, Collective.parse e.2) }
    | some i => s1.refuseSluice n i

/-- A Survey has been loaded into a slot: its accepted tables, checked before it, are held against it (10 R241). -/
def State.recheckTables (s : State) (n : Nat) : State :=
  match (s.slot n).hoist with
  | none => s
  | some h =>
    let fail : Option TableFail :=
      match (List.range h.layers.length).find? fun i => match h.layers[i]? with | some l => !s.layerPlaced n h l | none => false with
      | some i => some { chunk := false, index := i }
      | none => ((List.range h.chunks.length).find? fun i => match h.chunks[i]? with | some c => !s.chunkPlaced n c | none => false).map
          fun i => { chunk := true, index := i }
    match fail with
    | some f => s.refuseTable n f
    | none => match (s.slot n).sluice.find? fun e => s.collectiveMisplaced n h e.2 with
      | some e => s.refuseSluice n e.1
      | none => s

/-! ### Jobs by fabric job (14 R357) -/

/-- The slot that serves messages naming `fjob`: a loaded Survey that carries it, one that is not forward-only first. A slot
whose kill is in progress, and a STOPPED one, answers as absent (12 R297, 18 R441). -/
def State.jobSlot (s : State) (fjob : Nat) : Option (Fin 8) :=
  let on := (List.finRange 8).filter fun n => s.loaded n.val && !(s.slot n.val).killing && s.fjobOf n.val == fjob
  match on.find? fun n => !s.fwdOnly n.val with
  | some n => some n
  | none => on.head?

end Sys2Proof.Machine
end

