-- ==== Sys2Proof/Machine/FabOps.lean ====
section
/-! DEFINITION. What the rest of the device asks of the fabric: ports leaving DOWN, boot and reset, transit requests, receiver
channels and ACKs, job errors, the time parent, registers (13 R311, R312, R318, R322, R330 to R332; 14 R343, R352, R354, R357,
R358, R367; 15 R375, R378; 17 R425, R432, R433). -/
namespace Sys2Proof.Machine

/-- The fabric side runs: booted, and kept through device resets (14 R334, 17 R432). -/
def State.fabLive (s : State) : Bool := s.pwr.phase == .running

/-! ### Ports (13) -/

/-- Receive-buffer share of a channel, in flits (R331). -/
def State.vcShare (s : State) (p v : Nat) : Nat := 2 * s.rf (portBase p + 0xC) (8 * v) 8
/-- The shares fit the buffer of 512 flits (R318). -/
def State.sharesOk (s : State) (p : Nat) : Bool := (List.range 4).foldl (fun a v => a + s.vcShare p v) 0 ≤ 512

/-- A port with a mode leaves DOWN and trains; Flecel Direct shares that do not fit keep it DOWN (R313, R318, R320). -/
def State.startPort (s : State) (p : Nat) : State :=
  let x := s.port p
  if x.phase ≠ .down ∨ s.portMode p = 0 ∨ s.pairTaken p then s
  else if s.isFd p ∧ !s.sharesOk p then s.setPort p { x with modeErr := true, modeErrSet := s.mclk }
  else s.setPort p { x with phase := .training, since := s.clk.root, retrain := false }

/-- Ports with a mode, a pair counting as two (17 R422). -/
def portsUsed (modes : List Nat) : Nat := modes.foldl (fun a m => a + (if m = 0 then 0 else if m = 4 ∨ m = 5 then 2 else 1)) 0

/-- The air profile lets at most six ports hold a mode (17 R422). -/
def State.airFull (s : State) (p m : Nat) : Bool :=
  s.pwr.air && decide (m ≠ 0) && decide (6 < portsUsed (((List.range 12).map s.portMode).set p m))

/-- A mode that R312, or in the air profile 17 R422, refuses for a port. -/
def State.modeBad (s : State) (p m : Nat) : Bool :=
  s.airFull p m || 6 ≤ m || ((m == 4 || m == 5) && (p % 3 != 0 || s.portMode (p + 1) != 0)) || (p % 3 == 1 && m != 0 && s.pairTaken p)

/-- RWQ fields of a port are quiescent while it is DOWN, of a pair while both are (R312). -/
def State.portBusy (s : State) (p _off : Nat) : Bool :=
  (s.port p).phase != .down || (p % 3 == 0 && s.pairTaken (p + 1) && (s.port (p + 1)).phase != .down) ||
  (s.pairTaken p && (s.port (p - 1)).phase != .down)

/-- The word that `PORT_CTL` takes from a write to a port that is DOWN: a refused mode is left as it is (R312). -/
def State.portCtlWord (s : State) (p w : Nat) : Nat :=
  if s.modeBad p (bits w 0 3) then setBits w 0 3 (s.portMode p) else w

/-- `MODE_ERR` after a refused mode, then the port leaves DOWN if it has one (R312). -/
def State.portModeSet (s : State) (p w : Nat) : State :=
  let s1 := s.setReg (portBase p) (writeFields false (portFields 0) (s.reg (portBase p)) (s.portCtlWord p w))
  if s.modeBad p (bits w 0 3) then s1.setPort p { s1.port p with modeErr := true, modeErrSet := s.mclk } else s1.startPort p

/-! ### Power-on and boot (R312, R322; 14 R339, R367) -/

/-- Power-on reset: ports, tables, address and channels at their reset values; filter entry 0 holds the port's own address;
the power-on count rises. -/
def State.fabPowerOn (s : State) : State :=
  let inc := (s.ras.flash.incarn + 1) % 65536
  let s1 : State := { s with fab := { FabState.reset with incarn := inc }
                             ras := { s.ras with flash := { s.ras.flash with incarn := inc } } }
  (List.range 12).foldl (fun (s : State) p =>
    (s.setReg (portBase p + 0x40) (leAt (ownMac p) 0 4)).setReg (portBase p + 0x44) (leAt (ownMac p) 4 2 + 2 ^ 16)) s1

/-- The Headframe controller writes the port configuration and the fabric settings held in flash. -/
def State.fabBoot (s : State) : State :=
  let f := s.ras.flash
  let s1 := ((s.setRf 0xC000 0 1 (b2n f.mgrElig)).setRf 0xC000 2 10 (f.reqAddr.getD 0)).setRf 0xC000 12 1 (b2n f.reqAddr.isSome)
  f.portModes.zipIdx.foldl (fun (s : State) m =>
    if m.2 < 12 ∧ !s.portBusy m.2 0 then s.portModeSet m.2 (setBits (s.reg (portBase m.2)) 0 3 m.1) else s) s1

/-! ### Management messages, device reset, A4 (14 R341, 17 R425, R433) -/

/-- This device is the settled fabric manager. -/
def State.isMgr (s : State) : Bool := s.fab.settled && s.fab.mgr == some Config.unitId.toNat
/-- A message to the fabric manager. -/
def State.toMgr (s : State) (m : Mgmt) : State := s.emit (.fab (.mgmt s.fab.mgrAddr m))
/-- The fabric has a manager. -/
def State.fabManaged (s : State) : Bool := s.fab.settled && s.fab.mgr.isSome
def State.portsUp (s : State) : Bool := !(upPorts s).isEmpty

/-- A device reset: channel state goes, received job messages with it, and the manager is told; ports, address and tables are
kept (17 R432, R433). -/
def State.fabReset (s : State) : State :=
  let s1 : State := { s with fab := { s.fab with
    tx := [], rx := [], limiters := [], rxq := s.fab.rxq.filter fun r => !r.pkt.sequenced || s.fab.addr != some r.pkt.dst } }
  s1.toMgr (.resetDone Config.unitId.toNat s.fab.incarn)

/-- Ask the manager to route transit traffic through this device, or not to (17 R425). -/
def State.fabTransit (s : State) (allow : Bool) : State :=
  ({ s with fab := { s.fab with transit := allow } } : State).toMgr (.transit (s.fab.addr.getD 0) allow)

/-! ### Channels: the receiver (14 R352, R354) -/

def State.rxChan (s : State) (peer chan : Nat) : RxChan := tblGet (fun _ => RxChan.init) s.fab.rx (peer * 256 + chan)
def State.setRxChan (s : State) (peer chan : Nat) (c : RxChan) : State :=
  { s with fab := { s.fab with rx := tblSet (fun _ => RxChan.init) s.fab.rx (peer * 256 + chan) c } }

/-- A received packet is for this device. -/
def State.isMine (s : State) (k : Packet) : Bool := s.fab.addr == some k.dst
/-- Sequences of a channel that the received packets hold. -/
def State.heldSeqs (s : State) (peer chan : Nat) : List Nat :=
  (s.fab.rxq.filter fun r => r.pkt.sequenced && s.isMine r.pkt && r.pkt.src == peer && r.pkt.chan == chan).map (·.pkt.seq)

/-- Send an ACK of a channel now. -/
def State.sendAck (s : State) (peer chan : Nat) : State :=
  let c := s.rxChan peer chan
  let held := s.heldSeqs peer chan
  let map := (List.range 64).foldl (fun a i => a + b2n (held.contains ((c.want + 1 + i) % 2 ^ 24)) * 2 ^ i) 0
  (s.setRxChan peer chan { c with since := 0, first := none, ecn := false }).forward
    { s.packet .ack peer chan (leBytes 8 map) with ackSeq := (c.want + 2 ^ 24 - 1) % 2 ^ 24, ece := c.ecn }

/-- The oldest received packet of the kind that its channel may deliver: the next in its sequence (R354). -/
def State.nextRx (s : State) (p : Packet → Bool) : Option RxPacket :=
  s.fab.rxq.find? fun r => r.pkt.sequenced && s.isMine r.pkt && p r.pkt && r.pkt.seq == (s.rxChan r.pkt.src r.pkt.chan).want

/-- Take one packet out of the received ones. -/
def State.dropRx (s : State) (r : RxPacket) : State := { s with fab := { s.fab with rxq := s.fab.rxq.erase r } }

/-- Deliver a packet to its consumer: the channel moves on; the eighth packet since the last ACK is acknowledged at once. -/
def State.deliver (s : State) (r : RxPacket) : State :=
  let s1 := s.dropRx r
  let c := s1.rxChan r.pkt.src r.pkt.chan
  let c1 : RxChan := { c with want := (c.want + 1) % 2 ^ 24, since := c.since + 1
                              first := match c.first with | some t => some t | none => some s.clk.root }
  let s2 := s1.setRxChan r.pkt.src r.pkt.chan c1
  if 8 ≤ c1.since then s2.sendAck r.pkt.src r.pkt.chan else s2

/-- The fabric side hands packets to the jobs: in A0, no reset in progress (17 R424). -/
def State.jobsRun (s : State) : Bool := s.live && s.pwr.idle == 0

/-- Index within its node of a device of this node, by address. -/
def State.nodeIndex (s : State) (h : HoistTable) (peer : Option Nat) : Option Nat :=
  match peer with
  | none => some h.myDev
  | some a => if a = s.myAddr then some h.myDev else (List.range h.nd).find? fun j => h.peer h.myNode j == a

/-! ### Job errors over the fabric (14 R357, R358) -/

/-- Answer a packet with ERROR and a status; the payload names the refused packet's type and sequence. -/
def State.sendError (s : State) (k : Packet) (status : Nat) : State :=
  s.sendPacket { s.packet .error k.src k.chan (leBytes 4 k.ptype.code ++ leBytes 4 k.seq) with
    status := status, xid := k.xid, fjob := k.fjob, rslot := k.rslot }

/-- A non-zero status from a peer is a fault of this device's own job: REMOTE_ERROR. -/
def State.remoteError (s : State) (n : Fin 8) (peer status : Nat) : State :=
  s.jobFaultWith n 0x0058 (if status = 3 then 0x0B else stJobFault) (genPayload peer status 0 0 0)

/-! ### The time parent (15 R375, R378) -/

def State.syncEn (s : State) : Bool := s.rfBit 0x5018 0

/-- The parent that the routing tables name: its port and address. -/
def State.parentOf (s : State) : Option (Nat × Nat) :=
  match s.fab.mgrAddr with
  | none => none
  | some a =>
    let e := (tblGet (fun _ => (0 : BitVec 32)) s.fab.cur a).toNat
    let ports := setBitsOf (e % 4096)
    if !bitAt e 12 ∨ bitAt e 13 then none
    else match ports.find? s.isFd with
      | some p => (match (s.port p).neigh with | y :: _ => y.addr.map fun x => (p, x) | [] => none)
      | none => ports.head?.map fun p => (p, bits e 14 10)

/-- Choose the parent again: at every routing epoch, when the election settles, when a neighbour goes. The time root has none;
a LOCKED device without its parent runs on in HOLDOVER. -/
def State.chooseParent (s : State) : State :=
  if !s.syncEn then
    { s with clk := { s.clk with sync := .free, parentPort := none, parentAddr := 0, trim := 0, streak := 0 } }
  else if s.isMgr then
    { s with clk := { s.clk with sync := .root, parentPort := none, parentAddr := 0, trim := 0, streak := 0 } }
  else match s.parentOf with
    | none => { s with clk := { s.clk with
        sync := if s.clk.sync = .locked ∨ s.clk.sync = .holdover then .holdover else .free
        parentPort := none, parentAddr := 0, streak := 0 } }
    | some (p, a) =>
      if s.clk.parentPort = some p ∧ s.clk.parentAddr = a then s
      else
        let fresh (x : PortState) : PortState := { x with echo := none, sync := none, origin := none, delayReq := none }
        let open_ (q : Nat) : Bool := (s.port q).sync.isSome || (s.port q).echo.isSome
        let s1 := (s.bump 0x5128).bump 0x5118 (match s.clk.parentPort with | some q => b2n (open_ q) | none => 0)
        let ports := tblMap (fun _ => PortState.init) (fun _ x => fresh x) s.fab.ports
        { s1 with
          clk := { s.clk with sync := .acquiring, parentPort := some p, parentAddr := a, streak := 0, lastSample := s.clk.root }
          fab := { s.fab with ports := ports } }

/-- A write of `TALLY_CFG`: `SYNC_EN` 0 holds FREE, 1 takes part again (15 R384). -/
def State.syncHold (s : State) : State :=
  if s.syncEn then (if s.clk.sync = .free then s.chooseParent else s) else s.chooseParent

/-! ### Registers (14 R367, 13 R330, R332) -/

/-- Status of Sluice context c. -/
def State.ctxReg (s : State) (c : Nat) : Nat :=
  match s.sluice c with
  | some x => 1 + 2 * x.fjob + 2 ^ 13 * b2n x.barrier + 2 ^ 14 * x.id + 2 ^ 22 * x.slot
  | none => 0

def State.portStat (s : State) (p : Nat) : Nat :=
  let x := s.port p
  (if s.pairTaken p then 5 else x.phase.code) + 8 * b2n x.modeErr + 16 * b2n x.retryFail + 32 * b2n x.preempt + 256 * (x.lanes % 256)

/-- Read-only registers of the fabric blocks; the others as they are stored. -/
def State.fabReg (s : State) (off : Nat) : Nat :=
  if off = 0xC004 then
    s.fab.addr.getD 0 + 2 ^ 10 * b2n s.fab.addr.isSome + 2 ^ 11 * b2n s.isMgr + 2 ^ 12 * b2n s.fab.settled + 2 ^ 16 * s.fab.epoch
  else if off = 0xC008 then (if s.fab.settled then s.fab.mgr.getD 0 % 2 ^ 32 else 0)
  else if off = 0xC00C then (if s.fab.settled then s.fab.mgr.getD 0 / 2 ^ 32 else 0)
  else if 0xC400 ≤ off ∧ off < 0xC600 ∧ off % 8 = 0 then s.ctxReg ((off - 0xC400) / 8)
  else if 0xD000 ≤ off ∧ off < 0xE000 then (tblGet (fun _ => (0 : BitVec 32)) s.fab.cur ((off - 0xD000) / 4)).toNat
  else if 0xE000 ≤ off ∧ off < 0xF000 then (tblGet (fun _ => (0 : BitVec 32)) s.fab.prev ((off - 0xE000) / 4)).toNat
  else if 0x10000 ≤ off ∧ off < 0x1C000 then
    let p := (off - 0x10000) / 0x1000
    let o := off % 0x1000
    let x := s.port p
    if o = 0x004 then s.portStat p
    else if o = 0x020 then (match x.stamps with | t :: _ => t.ts.toNat % 2 ^ 32 | [] => 0)
    else if o = 0x024 then (match x.stamps with | t :: _ => t.ts.toNat / 2 ^ 32 | [] => 0)
    else if o = 0x028 then (match x.stamps with | t :: _ => t.seqId % 65536 + 2 ^ 16 * (t.msgType % 16) + 2 ^ 31 | [] => 0)
    else if o = 0x02C then x.stamps.length
    else s.reg off
  else s.reg off

/-- Reading `PTP_TXTS` + 0x8 pops the FIFO (13 R332). -/
def State.fabReadSide (s : State) (off : Nat) : State :=
  if 0x10000 ≤ off ∧ off < 0x1C000 ∧ off % 0x1000 = 0x028 then
    let p := (off - 0x10000) / 0x1000
    s.setPort p { s.port p with stamps := (s.port p).stamps.drop 1 }
  else s

/-- Some channel holds unacknowledged packets: `WIN_LOG2` is busy (14 R367). -/
def State.fabBusy (s : State) : Bool := s.fab.tx.any fun c => !c.2.kept.isEmpty

end Sys2Proof.Machine
end

