-- ==== Sys2Proof/Machine/Recur.lean ====
section
/-! DEFINITION. The update recurrence (09 R210 to R212): one parameter, in FP32, every named step rounded once. -/
namespace Sys2Proof.Machine

/-- +1 or −1; a zero gives +0, a NaN gives NaN. -/
def fSign (x : Word) : Word :=
  match rd x with
  | .nan => wr .nan
  | v => if v.isZero then fZero else if v.isNeg then fNeg fOne else fOne

/-- The update direction u that `USEL` selects. -/
def updateDir (r : Rule) (q : StepParam) (g1 m1 v1 : Word) : Word :=
  if r.usel = 0 then fDiv (fMul q.kappa1 m1) (fAdd (fSqrt (fMul q.kappa2 v1)) r.eps)
  else if r.usel = 1 then fSign m1
  else if r.usel = 2 then g1
  else fMul q.kappa1 m1

/-- A parameter's record values. -/
structure Rec where
  p : Word
  m : Word
  v : Word
  deriving DecidableEq, Repr

/-- The recurrence of R210 on one record with the factor g1 = γ·g. -/
def recur (r : Rule) (q : StepParam) (x : Rec) (g1 : Word) : Rec :=
  let hb := fMul r.beta2 (if r.hsel then fAbs g1 else fMul g1 g1)
  let m1 := fFma r.alpha1 x.m (fMul r.beta1 g1)
  let v1 := fFma r.alpha2 x.v hb
  let w := fFma r.lambda x.p (updateDir r q g1 m1 v1)
  { p := fFma (fNeg q.eta) w x.p, m := m1, v := v1 }

/-- The next record, none where g1 is not finite (R211). -/
def recurStep (r : Rule) (q : StepParam) (x : Rec) (g : Word) : Option Rec :=
  let g1 := fMul q.gamma g
  if fIsFinite g1 then some (recur r q x g1) else none

/-! ### Records in memory (Table 09-4, R212) -/

def Rec.parse (rec8 : Bool) (b : List Byte) : Rec :=
  if rec8 then { p := wordAt b 0, m := wr (readElem 2 (leAt b 4 2)), v := wr (readElem 2 (leAt b 6 2)) }
  else { p := wordAt b 0, m := wordAt b 4, v := wordAt b 8 }

/-- A record's bytes and, in 8-byte records, what the Canary counts of its two moments. `c` holds the rounding inputs. -/
def Rec.bytes (rec8 : Bool) (c : Rnd) (x : Rec) : List Byte × List Mark :=
  if rec8 then
    let m := writeElem 2 c (rd x.m)
    let v := writeElem 2 c (rd x.v)
    (leBytes 4 x.p.toNat ++ leBytes 2 m.1 ++ leBytes 2 v.1, [m.2, v.2])
  else (leBytes 4 x.p.toNat ++ leBytes 4 x.m.toNat ++ leBytes 4 x.v.toNat, [])

end Sys2Proof.Machine
end

