-- ==== Sys2Proof/Machine/Mill.lean ====
section
/-! DEFINITION. The Mills: arrival and application of gradient runs (09 R210 to R233; 08 R195, R196, R198; 01 R16, R19, R21). -/
namespace Sys2Proof.Machine

/-! ### Where a run goes (R219, R222) -/

/-- A run's layer with its table, rule and number, as far as they exist. -/
structure RunPlace where
  table : HoistTable
  layer : Layer
  rule : Rule
  deriving DecidableEq, Repr

def State.place (s : State) (r : Run) : Option RunPlace :=
  match s.layer r.slot r.layer with
  | some (h, l) => (s.ruleOf r.slot l).map fun u => { table := h, layer := l, rule := u }
  | none => none

/-- Granule of a run within its layer, its bit in the granule, its granule's address and its lines' address. -/
def RunPlace.gran (p : RunPlace) (r : Run) : Nat := r.run / runsPer p.rule.rec8
def RunPlace.bit (p : RunPlace) (r : Run) : Nat := r.run % runsPer p.rule.rec8
def RunPlace.base (p : RunPlace) (r : Run) : Nat := p.layer.granAddr (p.gran r)
def RunPlace.addr (p : RunPlace) (r : Run) : Nat := p.base r + 16 * recSize p.rule.rec8 * p.bit r
/-- `DONE` with every run of the granule applied. -/
def RunPlace.full (p : RunPlace) (r : Run) : Nat := 2 ^ p.layer.granRuns p.rule.rec8 p.table.shard (p.gran r) - 1

/-- The Mill a run is forwarded to: the one whose channel holds its granule; Mill 0 takes a run that names none (log entry 17). -/
def State.millOf (s : State) (r : Run) : Nat := match s.place r with | some p => chanOf (p.base r) | none => 0

def State.buf (s : State) (m : Nat) : List Run := tblGet (fun _ => []) s.flow.bufs m
def State.setBuf (s : State) (m : Nat) (rs : List Run) : State :=
  { s with flow := { s.flow with bufs := tblSet (fun _ => []) s.flow.bufs m rs } }

/-- A Mill's senders hold credit for a run: its buffer of 64 has room beside the runs on their way there (R195, R228). -/
def State.millRoom (s : State) (m : Nat) : Bool :=
  decide ((s.buf m).length + (s.flow.dispatch.filter fun r => s.millOf r == m).length < 64)

/-- No Mill begins a further run for a STOPPED slot: its runs in a buffer are discarded, so that no other slot waits behind
them (18 R439; log entry 17). -/
def State.dropStopped (s : State) (m : Nat) : State := s.setBuf m ((s.buf m).filter fun r => !(s.slot r.slot).stopped)

/-- MILL_RUN_ARRIVAL at Mill m: the oldest run on its way there enters the input buffer of 64 (R222, R228). -/
def onMillRunArrival (m : Fin 768) (s0 : State) : State :=
  let s := s0.dropStopped m.val
  match s.flow.dispatch.find? fun r => s.millOf r == m.val with
  | none => s
  | some r =>
    if !s.live ∨ 64 ≤ (s.buf m.val).length then s
    else
      let s1 : State := { s with flow := { s.flow with dispatch := s.flow.dispatch.erase r } }
      if (s.slot r.slot).stopped then s1 else s1.setBuf m.val (s.buf m.val ++ [r])

/-- The answer to `MILL_RUN_ARRIVAL`. -/
def execMillRunArrival (m : Fin 768) (s : State) : Answer := .next (onMillRunArrival m s)

/-! ### Rejection (R223, R226) -/

/-- MILL_RUN_INVALID and job stop. `item` is the run, or the granule of reason 6. -/
def State.runInvalid (s : State) (m slot layer item reason : Nat) : State :=
  s.jobFault (Fin.ofNat 8 slot) 0x0024 m reason layer item 0
/-- A run rejected counts besides (R223, R226). -/
def State.rejectRun (s : State) (m slot layer item reason : Nat) : State := (s.bumpMill m 0x18).runInvalid m slot layer item reason

/-- Why R223 rejects a run before its tail is read: reasons 1 to 4. -/
def State.runBad (s : State) (r : Run) : Option Nat :=
  match (s.slot r.slot).survey with
  | none => some 1
  | some v =>
    if v.nRule = 0 then some 1
    else match s.place r with
      | none => some 2
      | some p =>
        if p.layer.frozen then some 2
        else if p.layer.runs p.table.shard ≤ r.run then some 3
        else if r.bf16 ≠ p.rule.gBf16 then some 4
        else none

/-! ### Choosing a run (R195, R228; 01 R16) -/

/-- The run the Mill applies next: arrival order, a deferred run holding back the later ones of its granule; the Mill stalls
at a run whose parameters are absent. -/
def State.pickRun (s : State) : List Run → List Nat → Option Run
  | [], _ => none
  | r :: rs, held =>
    if (s.runBad r).isSome then some r
    else match s.place r with
      | none => some r
      | some p =>
        let g := p.base r
        if ((s.slot r.slot).held r.step).isNone then none
        else if held.contains g then s.pickRun rs held
        else if s.deferred r then s.pickRun rs (g :: held)
        else some r

/-! ### Applying a run (R210 to R212, R217, R225, R227) -/

/-- Gradient values of a run. -/
def Run.grads (r : Run) : List Word :=
  (List.range 16).map fun q =>
    if r.bf16 then wr (readElem 2 (leAt r.vals (2 * q) 2)) else wordAt r.vals (4 * q)

/-- What a run's application gives: the lines to write, marks of the moments, gradients applied, parameters skipped. -/
structure Applied where
  lines : List Byte
  marks : List Mark
  used : List Word
  skipped : Nat
  deriving DecidableEq, Repr

def Applied.add (a : Applied) (bs : List Byte) (ms : List Mark) (g : Option Word) : Applied :=
  { lines := a.lines ++ bs, marks := a.marks ++ ms
    used := match g with | some x => a.used ++ [x] | none => a.used
    skipped := match g with | some _ => a.skipped | none => a.skipped + 1 }

/-- The 16 records of a run after the recurrence. -/
def applyRun (p : RunPlace) (q : StepParam) (r : Run) (lines : List Byte) : Applied :=
  let z := recSize p.rule.rec8
  (List.range 16).foldl (fun (a : Applied) i =>
    let b := slice lines (z * i) z
    let g := r.grads.getD i 0
    let c := rndOf p.rule.mconv p.rule.mseed r.step r.layer ((16 * r.run + i) % 2 ^ 32)
    match recurStep p.rule q (Rec.parse p.rule.rec8 b) g with
    | some y => let w := Rec.bytes p.rule.rec8 c y
                a.add w.1 w.2 (some g)
    | none => a.add b [] none) { lines := [], marks := [], used := [], skipped := 0 }

/-- The sum of squares of a slot, step and Mill takes the gradients applied, before γ (R217). -/
def State.addSquares (s : State) (m : Nat) (r : Run) (gs : List Word) : State :=
  let x := s.slot r.slot
  let k := 768 * r.step + m
  let c := gs.foldl (fun c g => add64 c ((rd g).mul (rd g))) (tblGet (fun _ => 0) x.sums k)
  s.setSlot r.slot { x with sums := tblSet (fun _ => 0) x.sums k c }

/-- Parameters of a step have been used (R216). -/
def State.markApplied (s : State) (r : Run) : State :=
  let x := s.slot r.slot
  s.setSlot r.slot { x with params := x.params.map fun p => match p with
    | some q => if q.step = r.step then some { q with applied := true } else some q
    | none => none }

/-! ### Canary of a rule slot (R232) -/

/-- Device rule slot of a local index of a slot (R213). -/
def State.ruleSlot (s : State) (n i : Nat) : Nat :=
  ((s.flow.ruleOwn.find? fun e => e.2 == some (n, i)).map (·.1)).getD 0

/-- Counts of a granule enter its rule slot's window. -/
def State.ruleCanary (s : State) (n : Nat) (l : Layer) (u : Rule) (counts : List Nat) : State :=
  let k := s.ruleSlot n l.rule
  let c : Canary := tblGet (fun _ => Canary.zero) s.flow.ruleCanary k
  let x := s.canaryClose { c with tile := counts } u.canary 0 (Fin.ofNat 8 n) (0x10 + k)
  { x.1 with flow := { x.1.flow with ruleCanary := tblSet (fun _ => Canary.zero) x.1.flow.ruleCanary k x.2 } }

def marksOf (ms : List Mark) : List Nat := (Canary.zero.marks ms).tile
def State.granMarks (s : State) (a : Nat) : List Nat := tblGet (fun _ => [0, 0, 0, 0]) s.flow.granMarks a
def State.setGranMarks (s : State) (a : Nat) (c : List Nat) : State :=
  { s with flow := { s.flow with granMarks := tblSet (fun _ => [0, 0, 0, 0]) s.flow.granMarks a c } }

/-! ### Leases that an update ends (08 R195, R196) -/

/-- A holder's copy of a shard is revoked. -/
def State.revoke (s : State) (p : Retained → Bool) : State :=
  let f (r : Retained) : Retained := if p r then { r with fwd := .empty, trn := .empty, revoked := true } else r
  { s with flow := { s.flow with retained := s.flow.retained.map f } }

/-- The leases on the version a run replaces close; open ones have expired, which makes the update a forced one. -/
def State.endLeases (s : State) (m : Nat) (r : Run) (shard : Nat) : State :=
  let v := (r.step + 2 ^ 32 - 1) % 2 ^ 32
  let ls := s.flow.leases.filter fun l => l.on r.slot r.layer shard v
  let s1 := s.closeLease fun l => l.on r.slot r.layer shard v
  if ls.isEmpty ∨ s.fwdOnly r.slot then s1
  else
    let s2 := ls.foldl (fun (s : State) l =>
      if l.holder = s.myAddr then
        s.revoke fun x => s.fjobOf x.slot == s.fjobOf r.slot && x.layer == r.layer && x.shard == shard && x.version == v
      else s.sendLease l.holder (s.fjobOf r.slot) r.slot 1 r.layer shard v) s1
    (s2.bump (hoistBase (m / 192) r.slot + 0x30)).raise 0x0021 .info (some (Fin.ofNat 8 r.slot)) (genPayload m 0 r.layer shard 0)

/-! ### MILL_RUN_APPLY -/

/-- MILL_STATE_VERSION. Its three arguments hold five numbers: layer; `VERSION` and `PEND`; granule and n (log entry 17). -/
def State.stateVersion (s : State) (m gran : Nat) (r : Run) (t : Tail) : State :=
  s.jobFault (Fin.ofNat 8 r.slot) 0x0025 m 0 r.layer (t.version + 2 ^ 32 * t.pend) (gran + 2 ^ 32 * r.step)

/-- The tail with which a run begins, or what R225 does instead. -/
inductive TailCheck where
  | go (t : Tail)
  | reject (reason : Nat)
  | version

/-- The checks of R225 and R226 on a tail: `RECFMT`, the version, the step being applied, a run applied before. -/
def checkTail (rec8 : Bool) (b step : Nat) (t : Tail) : TailCheck :=
  if t.rec8 ≠ rec8 then .reject 6
  else if t.pend = t.version then
    if t.version = (step + 2 ^ 32 - 1) % 2 ^ 32 then .go { t with pend := step, done := 0 }
    else .version
  else if t.pend ≠ step then .version
  else if bitAt t.done b then .reject 5
  else .go t

/-- Write a run's lines whole, then its granule's tail: kept open, or written with the new version once all its runs are
applied (R225, R227). -/
def State.commitRun (s : State) (m : Nat) (p : RunPlace) (r : Run) (t : Tail) (a : Applied) : State :=
  let g := p.base r
  let s1 := (((s.hbmWrite (p.addr r) a.lines).bumpMill m 0x00).bumpMill m 0x10 a.skipped).addSquares m r a.used
  let s2 := s1.markApplied r
  let c := marksOf a.marks
  let s3 := s2.setGranMarks g ((List.range 4).map fun i => (s2.granMarks g).getD i 0 + c.getD i 0)
  let done := t.done ||| 2 ^ p.bit r
  let s4 :=
    if done = p.full r then
      let s5 := (s3.closeTail g { t with version := r.step, pend := r.step, done := 0 }).bumpMill m 0x08
      let s6 := if p.rule.rec8 then s5.ruleCanary r.slot p.layer p.rule (s5.granMarks g) else s5
      s6.setGranMarks g [0, 0, 0, 0]
    else s3.keepTail g { t with done := done }
  (s4.endLeases m r p.table.shard).progress r.slot

/-- Compute and commit a run whose tail lets it begin. -/
def State.computeRun (s : State) (m : Nat) (p : RunPlace) (r : Run) (t : Tail) (q : StepParam) (res : Residue) : State :=
  let n := 16 * recSize p.rule.rec8
  match s.firstUe (p.addr r) n with
  | some l => s.hbmUe l 1
  | none =>
    let s1 := s.hbmRead (p.addr r) n
    let a := applyRun p q r (s.hbmBytes (p.addr r) n)
    let end_ (s1 : State) : State :=
      if 0 < a.skipped ∧ p.rule.nfFault then
        s1.jobFault (Fin.ofNat 8 r.slot) 0x0023 m (s.ruleSlot r.slot p.layer.rule) r.layer r.run 0
      else s1.commitRun m p r t a
    match res with
    | .clean => end_ s1
    | .retried => end_ (s1.bumpMill m 0x38)
    | .fatal => (s1.bumpMill m 0x38).jobFault (Fin.ofNat 8 r.slot) 0x0026 m 0 r.layer r.run 0

/-- Apply one run that nothing defers. -/
def State.applyOne (s : State) (m : Nat) (r : Run) (res : Residue) : State :=
  match s.runBad r, s.place r with
  | some reason, _ => s.rejectRun m r.slot r.layer r.run reason
  | none, none => s
  | none, some p =>
    match ((s.slot r.slot).held r.step).bind fun h => h.params[p.layer.rule]? with
    | none => s
    | some q =>
      let g := p.base r
      match s.sealedAgainst r.slot g 4096 with
      | some k => s.sealStop r.slot k (p.addr r)
      | none =>
        let fresh := !s.tailOpen g
        match if fresh then s.firstUe (g + 4032) 64 else none with
        | some l => s.hbmUe l 1
        | none =>
          let s1 := if fresh then s.hbmRead (g + 4032) 64 else s
          match checkTail p.rule.rec8 (p.bit r) r.step (s1.tail g) with
          | .reject 6 => s1.rejectRun m r.slot r.layer (p.gran r) 6
          | .reject reason => s1.rejectRun m r.slot r.layer r.run reason
          | .version => s1.stateVersion m (p.gran r) r (s1.tail g)
          | .go t => s1.computeRun m p r t q res

/-- MILL_RUN_APPLY at Mill m: the next run is taken out of the buffer and applied. `res` is what its residue checks find, `err`
what the controllers find in the lines it reads. -/
def onMillRunApply (m : Fin 768) (res : Residue) (err : HbmErrors) (s0 : State) : State :=
  if !s0.live then s0
  else
    let s := s0.dropStopped m.val
    match s.pickRun (s.buf m.val) [] with
    | none => s
    | some r => ((s.setBuf m.val ((s.buf m.val).erase r)).foundErrors err).applyOne m.val r res

/-- The answer to `MILL_RUN_APPLY`. -/
def execMillRunApply (m : Fin 768) (res : Residue) (err : HbmErrors) (s : State) : Answer := .next (onMillRunApply m res err s)

end Sys2Proof.Machine
end

