-- ==== Sys2Proof/Machine/Elementary.lean ====
section
/-! DEFINITION. The vector functions of which the manual gives only an accuracy bound (03 R75, Table 03-6). A device's result is an open
value (`Config`), and where it lies outside the bound the nearest number to the exact result stands for it (log entry 23). -/
namespace Sys2Proof.Machine

/-! ### Exact results between two multiples of 2^−512 -/

/-- A number between two multiples of 2^−512. -/
abbrev Between := Int × Int

/-- A finite FP32 number as a multiple of 2^−512. -/
def fixedOf (w : Word) : Int :=
  match rd w with
  | .fin n a b e => let m : Int := (a * pow2 (e + 512) : Nat) / (b * pow2 (-(e + 512)) : Nat); if n then -m else m
  | _ => 0

/-- ln 2 and √(2 ÷ π), rounded down to multiples of 2^−512. -/
def ln2Fixed : Int :=
  9293584264128987901384440660653081117630633404975079641076009770578364573633075645167623918067512986930843040596952636663673675798576024949780480621393957
def geluFixed : Int :=
  10697882941511424397293500015364354887670230752785184888277991584920498876964013379298362876763972203892841639265813833772190366515915579397298803626285567

/-- e^r for 0 ≤ r ≤ 1, both multiples of 2^−256: 80 terms of its series. -/
def expSeries (r : Int) : Int :=
  ((List.range 80).foldl (fun (a : Int × Int) k => let t := a.2 * r / 2 ^ 256 / ((k : Int) + 1); (a.1 + t, t)) (2 ^ 256, 2 ^ 256)).1
/-- 2^n × t for a `t` known to 2^−240. -/
def expParts (n t : Int) : Between :=
  let f (x : Int) : Int := x * pow2 (256 + n) / pow2 (-(256 + n))
  (f (t - 2 ^ 16), f (t + 2 ^ 16) + 1)
/-- Beyond every FP32 number, and below half the least one. -/
def hugeFixed : Between := (2 ^ 712, 2 ^ 712)
def tinyFixed : Between := (0, 2 ^ 330)

def exp2Between (x : Int) : Between :=
  if 200 * 2 ^ 512 ≤ x then hugeFixed
  else if x ≤ -200 * 2 ^ 512 then tinyFixed
  else
    let a := x / 2 ^ 256
    expParts (a / 2 ^ 256) (expSeries (a % 2 ^ 256 * (ln2Fixed / 2 ^ 256) / 2 ^ 256))
def expBetween (x : Int) : Between :=
  if 200 * 2 ^ 512 ≤ x then hugeFixed
  else if x ≤ -200 * 2 ^ 512 then tinyFixed
  else
    let a := x / 2 ^ 256
    let l := ln2Fixed / 2 ^ 256
    expParts (a / l) (expSeries (a % l))
/-- log2 of a positive number: its exponent, and twice the series of artanh((m − 1) ÷ (m + 1)) over ln 2. -/
def log2Between (x : Int) : Between :=
  let e : Int := (Nat.log2 x.toNat : Int) - 512
  let p : Int := pow2 (512 + e)
  let z := (x - p) * 2 ^ 512 / (x + p)
  let s := (List.range 170).foldl (fun (a : Int × Int) k => (a.1 + a.2 / (2 * (k : Int) + 1), a.2 * z / 2 ^ 512 * z / 2 ^ 512)) ((0 : Int), z)
  let v := e * 2 ^ 512 + 2 * s.1 * 2 ^ 512 / ln2Fixed
  (v - 2 ^ 14, v + 2 ^ 14)
def recipBetween (x : Int) : Between := (2 ^ 1024 / x - 1, 2 ^ 1024 / x + 1)
def rsqrtBetween (x : Int) : Between :=
  let r : Int := isqrt ((2 ^ 1536 / x).toNat)
  (r, r + 1)
/-- 1 ÷ (1 + e^−y) = e^y ÷ (1 + e^y). -/
def sigmoidBetween (y : Int) : Between :=
  let e := expBetween y
  (e.1 * 2 ^ 512 / (2 ^ 512 + e.1), e.2 * 2 ^ 512 / (2 ^ 512 + e.2) + 1)
/-- (e^2x − 1) ÷ (e^2x + 1). -/
def tanhBetween (x : Int) : Between :=
  let e := expBetween (2 * x)
  ((e.1 - 2 ^ 512) * 2 ^ 512 / (e.1 + 2 ^ 512), (e.2 - 2 ^ 512) * 2 ^ 512 / (e.2 + 2 ^ 512) + 1)
/-- x × sigmoid(y) with |x| ≤ |y|: below −200 it is nearer 0 than half the least FP32 number. -/
def gated (x y : Int) : Between :=
  if y ≤ -200 * 2 ^ 512 then (-(2 ^ 330), 1) else
  let s := sigmoidBetween y
  let a := x * s.1
  let b := x * s.2
  (min a b / 2 ^ 512, max a b / 2 ^ 512 + 1)
def siluBetween (x : Int) : Between := gated x x
/-- ½ x (1 + tanh(√(2 ÷ π) (x + 0.044715 x³))) = x × sigmoid(2 √(2 ÷ π) (x + 0.044715 x³)). -/
def geluBetween (x : Int) : Between :=
  gated x (2 * geluFixed * (x + 44715 * (x * x * x) / (1000000 * 2 ^ 1024)) / 2 ^ 512)

/-! ### An open result within its bound -/

/-- The FP32 code lies within `ulps` units in the last place of the number; one that such a distance takes to 2^128 may round to an
infinity. -/
def within (ulps : Nat) (v : Between) (c : Word) : Bool :=
  let u : Int := pow2 (max (512 - 149) ((Nat.log2 (max v.1.natAbs v.2.natAbs) : Int) - 23))
  match rd c with
  | .nan => false
  | .inf neg => if neg then v.1 - ulps * u ≤ -(2 ^ 640) else 2 ^ 640 ≤ v.2 + ulps * u
  | .fin _ _ _ _ => v.1 - ulps * u ≤ fixedOf c && fixedOf c ≤ v.2 + ulps * u
/-- The open result where it keeps the bound, the nearest number otherwise. -/
def bounded (ulps : Nat) (v : Between) (c : Word) : Word :=
  if within ulps v c then c else wr (.fin (decide (v.1 < 0)) v.1.natAbs 1 (-512))
/-- A result that the manual does not state; a NaN written is canonical (R75). -/
def unstated (c : Word) : Word := wr (rd c)

/-- A function of finite numbers with its limits at the infinities; none where the limit is no number. -/
def openFn (ulps : Nat) (v : Int → Between) (neg pos : Option Val) (f : Word → Word) (x : Word) : Word :=
  match rd x with
  | .nan => wr .nan
  | .inf n => (match (if n then neg else pos) with | some y => wr y | none => unstated (f x))
  | .fin _ _ _ _ => bounded ulps (v (fixedOf x)) (f x)

def fRecip (x : Word) : Word :=
  if (rd x).isZero then fDiv fOne x else openFn 1 recipBetween (some (.zero true)) (some (.zero false)) Config.fRecip x
def fRsqrt (x : Word) : Word :=
  if (rd x).isZero ∨ (rd x).isNeg then unstated (Config.fRsqrt x) else openFn 1 rsqrtBetween none (some (.zero false)) Config.fRsqrt x
def fExp2 (x : Word) : Word := openFn 2 exp2Between (some (.zero false)) (some (.inf false)) Config.fExp2 x
def fLog2 (x : Word) : Word :=
  if x = 0 then wr (.inf true)
  else if (rd x).isZero ∨ (rd x).isNeg then unstated (Config.fLog2 x) else openFn 2 log2Between none (some (.inf false)) Config.fLog2 x
def fExp (x : Word) : Word := openFn 4 expBetween (some (.zero false)) (some (.inf false)) Config.fExp x
def fTanh (x : Word) : Word := openFn 4 tanhBetween (some (.ofInt (-1))) (some (.ofInt 1)) Config.fTanh x
def fSigmoid (x : Word) : Word := openFn 4 sigmoidBetween (some (.zero false)) (some (.ofInt 1)) Config.fSigmoid x
def fGelu (x : Word) : Word := openFn 4 geluBetween none (some (.inf false)) Config.fGelu x
def fSilu (x : Word) : Word := openFn 4 siluBetween none (some (.inf false)) Config.fSilu x

end Sys2Proof.Machine
end

