-- ==== Sys2Proof/Machine/Product.lean ====
section
/-! DEFINITION. Array arithmetic: operands, k-step rates, groups, accumulators, alternate modes (03 R54 to R62, R73, R74; 02
R41 to R48). -/
namespace Sys2Proof.Machine

/-! ### Operand classes and rates (R55 to R57) -/

def isIntFmt (f : Nat) : Bool := f == 9 || f == 10
def isClass4 (f : Nat) : Bool := f == 8 || f == 10
def isClass8 (f : Nat) : Bool := (4 ≤ f && f ≤ 7) || f == 9
def isClass16 (f : Nat) : Bool := f == 2 || f == 3

/-- The pairings of R56. -/
def pairOk (c r : Nat) : Bool :=
  let fl4 (a b : Nat) : Bool := a == 8 && isClass8 b && b != 9
  let in4 (a b : Nat) : Bool := a == 10 && b == 9
  (isIntFmt c == isIntFmt r) &&
  ((isClass4 c && isClass4 r) || (isClass8 c && isClass8 r) || (isClass16 c && isClass16 r) || (c == 0 && r == 0) ||
   fl4 c r || fl4 r c || in4 c r || in4 r c)

/-- Formats that the alternate modes take, both operands alike (R73). -/
def altOk (c r : Nat) : Bool := c == r && (c == 2 || c == 3 || c == 4 || c == 5 || c == 9)

/-- ACLK cycles of the active phase: Kc k-steps at the rate ρ of Table 03-2. -/
def kCycles (op c r : Nat) (fp32x : Bool) (kc : Nat) : Nat :=
  if op ≠ 0 then 2 * kc
  else if c = 0 then (if fp32x then 16 * kc else 4 * kc)
  else if isClass16 c then 2 * kc
  else if isClass4 c && isClass4 r then ceilDiv kc 2
  else kc

/-- Group length g (Table 03-3). -/
def groupLen (c sc sr : Nat) : Nat :=
  if c = 0 ∨ isClass16 c then 1
  else if sc = 0 ∧ sr = 0 then 32
  else min (if sc = 0 then 32 else blockLen sc) (if sr = 0 then 32 else blockLen sr)

/-! ### Scale tokens (02 R48) -/

structure ScaleTok where
  nblk : Nat
  scheme : Nat
  nso : Nat
  first : Nat
  bytes : List Byte
  deriving DecidableEq, Repr

def ScaleTok.parse (b : List Byte) : ScaleTok :=
  { nblk := leAt b 0 2, scheme := byteAt b 2 % 4, nso := byteAt b 3, first := leAt b 4 4, bytes := b }
/-- First-order code of a block. -/
def ScaleTok.s1 (t : ScaleTok) (blk : Nat) : Nat := byteAt t.bytes (8 + 4 * t.nso + blk)
/-- Group of a block, less the first group listed: block `c` of row `i` of a tile, `tb` blocks to a row of the tensor. Groups are 1,024
blocks row-major over the tensor (R41); where in its group the tile's first block lies is a free value (log entry 11). -/
def ScaleTok.group (t : ScaleTok) (tb i c tag : Nat) : Nat := (Config.firstBlock t.first tag % 1024 + i * tb + c) / 1024
/-- Second-order scale of a block's group, of those listed. -/
def ScaleTok.s2 (t : ScaleTok) (tb i c tag : Nat) : Word := wordAt t.bytes (8 + 4 * min (t.group tb i c tag) (t.nso - 1))
/-- Bytes of a scale token, padding apart. -/
def ScaleTok.size (t : ScaleTok) : Nat := 8 + 4 * t.nso + t.nblk

/-! ### Operands -/

/-- An operand of a firing: element format, scheme, and its elements and scales by row and k-step. -/
structure Operand where
  fmt : Nat
  scheme : Nat
  code : Nat → Nat → Nat
  scale : Nat → Nat → Nat × Word

/-- Rows of packed elements in a token (R26). -/
def rowCode (fmt kc : Nat) (bs : List Byte) (i k : Nat) : Nat :=
  packedElem fmt (slice bs (i * packedBytes (fmtBits fmt) kc) (packedBytes (fmtBits fmt) kc)) k

/-- An operand that a ring token holds, with its scale token; `tb` blocks to a row of its tensor. A scale token of the other scheme than
the port's makes every element NaN, as one of no scheme does (R48 speaks of the values that name none; DESIGN CHOICE, log entry 8). -/
def ringOperand (p : InPort) (kc tb : Nat) (bs : List Byte) (sc : Option (List Byte)) (tag : Nat) : Operand :=
  let t := ScaleTok.parse (sc.getD [])
  { fmt := p.ifmt, scheme := if p.ischeme = 0 then 0 else if t.scheme = p.ischeme then p.ischeme else 3
    code := rowCode p.ifmt kc bs
    scale := fun i k => let c := k / blockLen p.ischeme
                        (t.s1 (i * ceilDiv kc (blockLen p.ischeme) + c), t.s2 tb i c tag) }

/-- An operand read from a panel region along an axis, from row or column `r0` and k-step `k0`, of a panel of `rows` × `cols` (R71). Its
blocks run along the axis of its k-steps, row after row or column after column. -/
def panelOperand (p : InPort) (x : PanelRun) (axis rows cols r0 k0 : Nat) : Operand :=
  let at_ (i k : Nat) : Nat × Nat := if axis = 0 then (r0 + i, k0 + k) else (k0 + k, r0 + i)
  let bl := blockLen p.ischeme
  { fmt := p.ifmt, scheme := p.ischeme
    code := fun i k => rowCode p.ifmt cols x.bytes (at_ i k).1 (at_ i k).2
    scale := fun i k =>
      let q := at_ i k
      let blk := if axis = 0 then q.1 * ceilDiv cols bl + q.2 / bl else q.2 * ceilDiv rows bl + q.1 / bl
      x.scales.getD blk (0xFF, 0) }

/-- The exact value of an operand element (R43); a scale token of another scheme makes it NaN (R48). -/
def Operand.val (o : Operand) (i k : Nat) : Val :=
  if o.scheme = 3 then .nan
  else scaleElem o.scheme (readElem o.fmt (o.code i k)) (codeNeg o.fmt (o.code i k)) (o.scale i k).1 (o.scale i k).2
/-- An element of an unscaled integer operand. -/
def Operand.int (o : Operand) (i k : Nat) : Int := signed (fmtBits o.fmt) (o.code i k)
def Operand.isInt (o : Operand) : Bool := isIntFmt o.fmt && o.scheme == 0

/-! ### One cell (R58 to R61, R73, R74) -/

/-- k-steps of a firing in groups (R57). -/
def groupsOf (g kc : Nat) : List (List Nat) :=
  (List.range (ceilDiv kc g)).map fun q => (List.range (min g (kc - q * g))).map fun i => q * g + i

/-- An exact zero sum is +0 (R58). -/
def plusZero (v : Val) : Val := if v.isZero then .zero false else v

/-- FP32 operand rounded to F19 on entry (02 R25). -/
def toF19 (v : Val) : Val := readFloat f19 (writeFloat f19 rne v).1
/-- The two parts of R61. -/
def splitF19 (raw : Nat) : Val × Val :=
  let x := readFloat fp32 raw
  if x.isFinite then
    let hi := readFloat fp32 (raw / 2 ^ 13 * 2 ^ 13)
    (hi, toF19 (x.sub hi))
  else (x, .zero false)

/-- One k-step's exact product. -/
def stepProduct (c r : Operand) (fp32x : Bool) (i j k : Nat) : Val :=
  if c.fmt = 0 ∧ fp32x then
    let a := splitF19 (c.code i k)
    let b := splitF19 (r.code j k)
    (((a.1.mul b.1).add (a.1.mul b.2)).add (a.2.mul b.1)).add (a.2.mul b.2)
  else if c.fmt = 0 then (toF19 (readElem 0 (c.code i k))).mul (toF19 (readElem 0 (r.code j k)))
  else (c.val i k).mul (r.val j k)

/-- INT32 with saturation, and whether it saturated (R60). -/
def satInt (v : Int) : Word × Nat :=
  if v < -(2 ^ 31) then (BitVec.ofInt 32 (-(2 ^ 31)), 1) else if 2 ^ 31 - 1 < v then (BitVec.ofInt 32 (2 ^ 31 - 1), 1)
  else (BitVec.ofInt 32 v, 0)

/-- Minimum and maximum of R74: a NaN operand gives NaN, −0 counts as less than +0. -/
def valMin (x y : Val) : Val :=
  match x, y with
  | .nan, _ => .nan
  | _, .nan => .nan
  | x, y => if x.isZero && y.isZero then .zero (x.isNeg || y.isNeg) else if y.lt x then y else x
def valMax (x y : Val) : Val :=
  match x, y with
  | .nan, _ => .nan
  | _, .nan => .nan
  | x, y => if x.isZero && y.isZero then .zero (x.isNeg && y.isNeg) else if x.lt y then y else x

/-- One k-step of an alternate mode on an accumulator (Table 03-5): none is the first step with the start flag. -/
def altStep (op : Nat) (c r : Operand) (i j : Nat) (acc : Option Word) (k : Nat) : Word × Nat :=
  let a := c.val i k
  let b := r.val j k
  if op = 5 then
    satInt ((match acc with | some x => x.toInt | none => 0) + (if b.lt a then 1 else 0))
  else if c.isInt then
    let x := c.int i k
    let y := r.int j k
    let t := if op = 1 then (x - y) * (x - y) else if op = 2 then ((x - y).natAbs : Int) else x + y
    match acc with
    | none => satInt t
    | some o => if op = 3 then (BitVec.ofInt 32 (min o.toInt t), 0) else if op = 4 then (BitVec.ofInt 32 (max o.toInt t), 0)
      else satInt (o.toInt + t)
  else if op = 1 ∨ op = 2 then
    let d := a.sub b
    let t := plusZero (if op = 1 then d.mul d else d.abs)
    (match acc with | none => wr t | some o => wr ((rd o).add t), 0)
  else
    let t := rd (wr (a.add b))
    (match acc with | none => wr t | some o => wr (if op = 3 then valMin (rd o) t else valMax (rd o) t), 0)

/-- One cell over the k-steps of a firing: the accumulator after them and the saturations. `old` is none under the start
flag. -/
def cell (op : Nat) (fp32x : Bool) (c r : Operand) (kc i j : Nat) (old : Option Word) : Word × Nat :=
  if op ≠ 0 then
    let r := (List.range kc).foldl (fun (a : Option Word × Nat) k =>
      let x := altStep op c r i j a.1 k
      (some x.1, a.2 + x.2)) (old, 0)
    (r.1.getD 0, r.2)
  else
    let g := groupLen c.fmt c.scheme r.scheme
    let r := (groupsOf g kc).foldl (fun (a : Option Word × Nat) ks =>
      if c.isInt ∧ r.isInt then
        let x := satInt ((match a.1 with | some o => o.toInt | none => 0) + ks.foldl (fun t k => t + c.int i k * r.int j k) 0)
        (some x.1, a.2 + x.2)
      else
        let p := plusZero (ks.foldl (fun t k => t.add (stepProduct c r fp32x i j k)) (.zero false))
        (some (match a.1 with | some o => wr ((rd o).add p) | none => wr p), a.2)) (old, 0)
    (r.1.getD 0, r.2)

/-- The 256 cells of one array, row by row; row operand `r` is that of the array (R54). -/
def arrayTile (op : Nat) (fp32x : Bool) (c r : Operand) (kc : Nat) (old : Option (List Word)) : List Word × Nat :=
  let cells := (List.range 256).map fun n =>
    cell op fp32x c r kc (n / 16) (n % 16) (old.map fun o => o.getD n 0)
  (cells.map (·.1), cells.foldl (fun a x => a + x.2) 0)

/-- The accumulators of an entry are INT32 (R57). -/
def intAcc (op : Nat) (c r : Operand) : Bool := op == 5 || (c.isInt && r.isInt)

end Sys2Proof.Machine
end

