-- ==== Sys2Proof/Machine/Vector.lean ====
section
/-! DEFINITION. The vector pipeline: vector programs, row state, reductions, conversion of output tiles (03 R75 to R77; 02 R38
to R48, R50; 07 R168). -/
namespace Sys2Proof.Machine

/-! ### Row reductions (R76) -/

/-- Pairwise tree over a list, one FP32 rounding an add. -/
def pairSums : List Word → List Word
  | a :: b :: t => fAdd a b :: pairSums t
  | l => l
/-- Sum over 16 or 32 values, in four or five levels. -/
def treeSum (xs : List Word) : Word :=
  ((List.range (Nat.log2 (max 1 (xs.length - 1)) + 1)).foldl (fun l _ => pairSums l) xs).getD 0 fZero
def vMin (x y : Word) : Word := wr (valMin (rd x) (rd y))
def vMax (x y : Word) : Word := wr (valMax (rd x) (rd y))
def rowMax (xs : List Word) : Word := xs.foldl vMax (wr (.inf true))
def rowMin (xs : List Word) : Word := xs.foldl vMin (wr (.inf false))

/-! ### Row state (R77) -/

/-- (−∞, +0). -/
def rowStart : Word × Word := (0xFF800000, 0)
def State.row (s : State) (site i : Nat) : Word × Word := tblGet (fun _ => (0, 0)) s.flow.rows (512 * site + i)
def State.setRow (s : State) (site i : Nat) (v : Word × Word) : State :=
  { s with flow := { s.flow with rows := tblSet (fun _ => ((0 : Word), (0 : Word))) s.flow.rows (512 * site + i) v } }
/-- Running sum of an entry: the value it began with, and the tiles added by tag. -/
abbrev RowAdds := Word × List (Nat × Word)
def State.rowAdds (s : State) (site i : Nat) : RowAdds := tblGet (fun _ => (0, [])) s.flow.rowAdds (512 * site + i)
def State.setRowAdds (s : State) (site i : Nat) (v : RowAdds) : State :=
  { s with flow := { s.flow with rowAdds := tblSet (fun _ => ((0 : Word), ([] : List (Nat × Word)))) s.flow.rowAdds (512 * site + i) v } }
/-- Row-state entry that code `c` names in row `row` of a tile, within the context's partition: row after row from the code on. An index
beyond the partition reaches nothing: it reads 0 and a write to it is lost (R77, R80; DESIGN CHOICE, log entry 12). -/
def StRef.rowEntry (r : StRef) (c row : Nat) : Option Nat :=
  if c + row < 32 * r.part.row.count then some (32 * r.part.row.base + c + row) else none
def State.rowOf (s : State) (r : StRef) (c row : Nat) : Word × Word :=
  match r.rowEntry c row with | some i => s.row r.st.site i | none => (0, 0)
def State.putRow (s : State) (r : StRef) (c row : Nat) (v : Word × Word) (a : RowAdds) : State :=
  match r.rowEntry c row with | some i => (s.setRow r.st.site i v).setRowAdds r.st.site i a | none => s

/-- A tile's tree result joins the running sum: the sum is that of the tiles in the order of their tags, one rounding a tile (R76). -/
def joinAdds (a : RowAdds) (tag : Nat) (x : Word) : RowAdds :=
  (a.1, (a.2.takeWhile fun y => y.1 ≤ tag) ++ (tag, x) :: a.2.dropWhile fun y => y.1 ≤ tag)
def sumAdds (a : RowAdds) : Word := a.2.foldl (fun t y => fAdd t y.2) a.1

/-! ### Vector programs (07 R168) -/

/-- One line of values as a program runs over it: tag of its tile, lane registers, the incoming line, row-state entries by code with their
running sums, the lines converted so far with their tensors, the last line written. -/
structure VLine where
  tag : Nat
  regs : Tbl (List Word)
  tile : List Word
  rows : Tbl (Word × Word)
  adds : Tbl RowAdds
  conv : List (Nat × List Word)
  last : List Word
  deriving DecidableEq, Repr

def zeroLine : List Word := List.replicate 16 0

/-- A source operand: a lane register, a row-state value in every lane, the immediate in every lane, or the incoming tile. -/
def VLine.source (v : VLine) (op code : Nat) (imm : Word) : List Word :=
  if code < 0x10 then tblGet (fun _ => zeroLine) v.regs code
  else if 0x40 ≤ code ∧ code < 0x60 then
    let p := tblGet (fun _ => ((0 : Word), (0 : Word))) v.rows (code - 0x40)
    List.replicate v.tile.length (if Config.rowPick op then p.2 else p.1)
  else if code = 0x80 then List.replicate v.tile.length imm
  else if code = 0xC0 then v.tile
  else zeroLine

/-- Element-wise result of an operation: old destination, sources a and b. -/
def vElem (op : Nat) (d a b : Word) : Word :=
  if op = 0x01 then fAdd a b else if op = 0x02 then fSub a b else if op = 0x03 then fMul a b
  else if op = 0x04 then fFma a b d
  else if op = 0x05 then vMin a b else if op = 0x06 then vMax a b
  else if op = 0x07 then fAbs a else if op = 0x08 then fNeg a
  else if op = 0x09 then unstated (Config.vecCompare a b)
  else if op = 0x0A then unstated (if Config.vecSelect d a b then a else b)
  else if op = 0x0B then fMul a b
  else if op = 0x10 then fSqrt a else if op = 0x11 then fRecip a else if op = 0x12 then fRsqrt a
  else if op = 0x13 then fDiv a b
  else if op = 0x18 then fExp2 a
  else if op = 0x19 then fLog2 a
  else if op = 0x1A then fExp a else if op = 0x1B then fTanh a else if op = 0x1C then fSigmoid a
  else if op = 0x1D then fGelu a else if op = 0x1E then fSilu a
  else Config.vecOther op d a b

/-- The value a row reduction gives. -/
def vReduce (op : Nat) (a : List Word) : Word :=
  if op = 0x28 then treeSum a else if op = 0x29 then treeSum (a.map fun x => fMul x x)
  else if op = 0x2A then rowMax a else rowMin a

/-- The row-state entry of a code, with a new value; its second value is no running sum any more, or begins one. -/
def VLine.putRow (v : VLine) (c : Nat) (q : Word × Word) (a : RowAdds) : VLine :=
  { v with rows := tblSet (fun _ => ((0 : Word), (0 : Word))) v.rows c q, adds := tblSet (fun _ => ((0 : Word), ([] : List (Nat × Word)))) v.adds c a }
/-- Write a line to a lane register, or its first value to a row-state entry. -/
def VLine.put (v : VLine) (op code : Nat) (l : List Word) : VLine :=
  if code < 0x10 then { v with regs := tblSet (fun _ => zeroLine) v.regs code l, last := l }
  else if 0x40 ≤ code ∧ code < 0x60 then
    let p := tblGet (fun _ => ((0 : Word), (0 : Word))) v.rows (code - 0x40)
    let x := l.getD 0 0
    if Config.rowPick op then v.putRow (code - 0x40) (p.1, x) (x, [])
    else v.putRow (code - 0x40) (x, p.2) (tblGet (fun _ => (0, [])) v.adds (code - 0x40))
  else v

/-- One instruction on a line. A reduction into row state runs on: sums add to the entry's second value, in the order of their tiles' tags,
maxima and minima combine with the first, which a start flag sets to −∞ for a minimum too (R76, R77; which value a running minimum uses is
not said: DESIGN CHOICE, log entry 12). -/
def VLine.exec (v : VLine) (i : VInstr) : VLine :=
  if i.op = 0x20 then
    let x := v.source i.op i.a i.imm
    let v1 := v.put i.op i.d x
    { v1 with conv := v1.conv ++ [(i.b, x)], last := x }
  else if 0x28 ≤ i.op ∧ i.op ≤ 0x2B then
    let x := vReduce i.op (v.source i.op i.a i.imm)
    if 0x40 ≤ i.d ∧ i.d < 0x60 then
      let p := tblGet (fun _ => ((0 : Word), (0 : Word))) v.rows (i.d - 0x40)
      let a := tblGet (fun _ => ((0 : Word), ([] : List (Nat × Word)))) v.adds (i.d - 0x40)
      if i.op < 0x2A then let b := joinAdds a v.tag x; v.putRow (i.d - 0x40) (p.1, sumAdds b) b
      else v.putRow (i.d - 0x40) (if i.op = 0x2A then vMax p.1 x else vMin p.1 x, p.2) a
    else v.put i.op i.d (List.replicate v.tile.length x)
  else
    let a := v.source i.op i.a i.imm
    let b := v.source i.op i.b i.imm
    let d := v.source i.op i.d i.imm
    v.put i.op i.d ((List.range v.tile.length).map fun n => vElem i.op (d.getD n 0) (a.getD n 0) (b.getD n 0))

/-- Row-state codes that a program names. -/
def progRows (p : List VInstr) : List Nat :=
  ((p.map fun i => [i.d, i.a, i.b]).flatten.filter fun c => 0x40 ≤ c && c < 0x60).map (· - 0x40)

/-- Run a program over one line of row `row` of a tile; `start` sets the row's entries first (R77). -/
def State.runLine (s : State) (r : StRef) (p : List VInstr) (start : Bool) (tag row : Nat) (tile : List Word) : State × VLine :=
  let codes := (progRows p).dedup
  let rows : Tbl (Word × Word) := codes.foldl (fun t c => tblSet (fun _ => ((0 : Word), (0 : Word))) t c
    (if start then rowStart else s.rowOf r c row)) []
  let adds : Tbl RowAdds := codes.foldl (fun t c => tblSet (fun _ => ((0 : Word), ([] : List (Nat × Word)))) t c
    (match r.rowEntry c row with
     | some i => let a := s.rowAdds r.st.site i
                 if start then (0, []) else if sumAdds a = (s.row r.st.site i).2 then a else ((s.row r.st.site i).2, [])
     | none => (0, []))) []
  let v := p.foldl VLine.exec { tag := tag, regs := [], tile := tile, rows := rows, adds := adds, conv := [], last := tile }
  (codes.foldl (fun s c => s.putRow r c row (tblGet (fun _ => ((0 : Word), (0 : Word))) v.rows c)
    (tblGet (fun _ => ((0 : Word), ([] : List (Nat × Word)))) v.adds c)) s, v)

/-- Run a program over the lines of a tile, each with its row: each line's tensors, and the lines of a tensor no instruction converts.
`start` holds at the first line of each row. -/
def State.runLines (s : State) (r : StRef) (p : List VInstr) (start : Bool) (tag : Nat) (lines : List (Nat × List Word)) :
    State × List (List (Nat × List Word)) × List (List Word) :=
  let x := lines.foldl (fun (acc : (State × List (List (Nat × List Word)) × List (List Word)) × Option Nat) l =>
    let x := acc.1.1.runLine r p (start && acc.2 != some l.1) tag l.1 l.2
    ((x.1, acc.1.2.1 ++ [x.2.conv], acc.1.2.2 ++ [x.2.last]), some l.1)) ((s, [], []), none)
  x.1
/-- The lines of a tile's rows as the pipeline takes them: `n` values a cycle (R75, R76). -/
def linesOfRows (n : Nat) (rows : List (List Word)) : List (Nat × List Word) :=
  (rows.zipIdx.map fun x => (List.range (ceilDiv x.1.length n)).map fun i => (x.2, (x.1.drop (n * i)).take n)).flatten
/-- Rows put together again from lines. -/
def rowsOfLines (lines : List (Nat × List Word)) : List (List Word) :=
  ((lines.map (·.1)).dedup).map fun i => ((lines.filter fun l => l.1 == i).map (·.2)).flatten

/-- Lines of one tensor after a program. -/
def tensorLines (conv : List (List (Nat × List Word))) (last : List (List Word)) (t : Nat) : List (List Word) :=
  (conv.zip last).map fun x => match x.1.find? fun c => c.1 == t with | some c => c.2 | none => x.2

/-! ### Conversion of a tile (02 R38 to R46) -/

/-- A converted tile: packed bytes, first-order scale codes in block order, what the Canary counts. -/
structure Converted where
  bytes : List Byte
  scales : List Nat
  marks : List Mark
  deriving DecidableEq, Repr

/-- Blocks of a row. -/
def chunksOf (n : Nat) (l : List Val) : List (List Val) :=
  (List.range (ceilDiv l.length n)).map fun i => (l.drop (n * i)).take n

/-- Convert the rows of a tile under a descriptor; random inputs by row-major index (R37). -/
def convertRows (d : OutConv) (seed step tag : Nat) (rows : List (List Val)) : Converted :=
  (rows.foldl (fun (acc : Converted × Nat) row =>
    let blocks := if d.scheme = 0 then [row] else chunksOf (blockLen d.scheme) row
    let x := blocks.foldl (fun (a : List Nat × List Nat × List Mark × Nat) blk =>
      let amax := amaxOf blk
      let sc : BlockScale := if d.scheme = 1 then schemeAScale d.fmt amax
        else if d.scheme = 2 then schemeBScale d.fmt (BitVec.ofNat 32 d.s2) amax
        else { code := 0, divisor := .fin false 1 1 0, zeroed := false }
      let cs := blk.zipIdx.map fun e =>
        let c := rndOf d.conv seed step tag (a.2.2.2 + e.2)
        if d.scheme = 0 then writeElem d.fmt c e.1 else writeScaled d.fmt c sc e.1
      (a.1 ++ cs.map (·.1), a.2.1 ++ (if d.scheme = 0 then [] else [sc.code]), a.2.2.1 ++ cs.map (·.2), a.2.2.2 + blk.length))
      (([], [], [], acc.2) : List Nat × List Nat × List Mark × Nat)
    ({ bytes := acc.1.bytes ++ packElems d.fmt x.1, scales := acc.1.scales ++ x.2.1, marks := acc.1.marks ++ x.2.2.1 }, x.2.2.2))
    ({ bytes := [], scales := [], marks := [] }, 0)).1

/-- A scale token as a station writes it: the descriptor's s2 for every group from the first to the last that its tile's blocks touch
(R46, R48). -/
def scaleTokBytes (d : OutConv) (dev tag rows cols : Nat) (codes : List Nat) : List Byte :=
  let g := outGroups d dev tag rows cols
  let nso := if d.scheme = 2 then g.2 else 0
  let b := leBytes 2 codes.length ++ leBytes 1 d.scheme ++ leBytes 1 nso ++ leBytes 4 (if d.scheme = 2 then g.1 else 0) ++
    ((List.range nso).map fun _ => leBytes 4 d.s2).flatten ++ (codes.map (leBytes 1)).flatten
  b ++ zeroBytes (64 * ceilDiv b.length 64 - b.length)

/-- Value of an accumulator or lane word. -/
def wordVal (isInt : Bool) (w : Word) : Val := if isInt then .ofInt w.toInt else rd w

/-- RUN_STEP number that the conversions of a firing use (R37): that of its tokens; a firing that no START set off takes the step in
progress, or the last (log entry 13). -/
def State.convStep (s : State) (n : Nat) (step : Option Nat) : Nat :=
  match step with
  | some k => k
  | none => match s.stepOf n with | some k => k | none => (s.slot n).lastStep.getD 0

/-- A station's stochastic-rounding seed. -/
def Station.seed (st : Station) : Nat := match st.convs with | c :: _ => c.seed | [] => 0

/-- Add marks to the Canary of a tensor of a station (02 R50, R51). -/
def State.countMarks (s : State) (r : StRef) (t : Nat) (d : OutConv) (ms : List Mark) : State :=
  if d.fmt = 0 then s
  else
    let x := s.run r.dev
    let c := tblGet (fun _ => Canary.zero) x.canary t
    s.setRun r.dev { x with canary := tblSet (fun _ => Canary.zero) x.canary t (c.marks ms) }

/-- Write the output tokens of a firing to some of its ports from the rows of each tensor: a data token converted under the port's
descriptor, or on a scale stream its scale token. FP32 goes out as it is, a NaN as the canonical one (R28). -/
def State.outputRows (s : State) (r : StRef) (ports : List Nat) (tag count : Nat) (step : Option Nat) (isInt : Bool)
    (rowsOf : Nat → List (List Word)) : State :=
  let n := s.convStep r.slot step
  let counted := (ports.filterMap fun q => (r.st.outs[q]?).map (·.tensor)).dedup
  let conv (t : Nat) (otag : Nat) : Converted :=
    let d := r.st.convs.getD t { fmt := 0, conv := 0, scheme := 0, cen := false, wlog2 := 40, satThr := 0, ufzThr := 0, nanThr := 0, s2 := 0, seed := 0, trows := 0, tinner := 0 }
    convertRows d r.st.seed n otag ((rowsOf t).map fun l => l.map (wordVal isInt))
  let s1 := counted.foldl (fun (s : State) t =>
    match r.st.convs[t]? with
    | some d =>
      let otag := match ports.find? fun q => (match r.st.outs[q]? with | some o => o.tensor == t | none => false) with
        | some q => (match r.st.outs[q]? with | some o => o.tag tag count | none => tag)
        | none => tag
      s.countMarks r t d (conv t otag).marks
    | none => s) s
  ports.foldl (fun (s : State) q =>
    match r.st.outs[q]? with
    | none => s
    | some o =>
      let otag := o.tag tag count
      let d := r.st.conv o
      let kind := match r.dest q with | some x => x.2.2.kind | none => 0
      let c := conv o.tensor otag
      let rows := rowsOf o.tensor
      let cols := (rows.headD []).length
      let bs := if kind = 1 then scaleTokBytes d r.dev otag rows.length cols c.scales
        else if d.fmt = 0 then (rows.flatten.map fun w => leBytes 4 (if isInt then w else wr (rd w)).toNat).flatten
        else c.bytes
      s.output r q { tag := otag, pay := .data bs, step := step, cols := cols }) s1

/-- Rows of a tile from its drained lines, array by array (16 lines each): side by side for a row-wise drain, one after
another for a column-wise one (03 R66; log entry 12). -/
def arrangeLines (byCol : Bool) (lines : List (List Word)) : List (List Word) :=
  if byCol then lines
  else (List.range 16).map fun d => ((List.range (lines.length / 16)).map fun n => lines.getD (16 * n + d) []).flatten

end Sys2Proof.Machine
end

