-- ==== Sys2Proof/Machine/Sluice.lean ====
section
/-! DEFINITION. The Sluice: contexts, contributions, RED packets, combination, delivery (14 R357 to R365). -/
namespace Sys2Proof.Machine

/-! ### Sluice contexts (14 R359) -/

/-- Contexts in use of those that a slot's Survey reserved. -/
def State.ctxUsed (s : State) (n : Nat) : Nat :=
  (s.flow.sluices.filter fun e => match e.2 with | some x => x.slot == n && x.reserved | none => false).length
def State.ctxReserved (s : State) (n : Nat) : Nat := match (s.slot n).survey with | some v => v.nSluice | none => 0
/-- Contexts that no Survey reserves are in use by barriers. -/
def State.ctxOpen (s : State) : Nat := (s.flow.sluices.filter fun e => match e.2 with | some x => !x.reserved | none => false).length
/-- A barrier of the slot may take a context: an idle one of its reservation, or an unreserved one. -/
def State.ctxMay (s : State) (n : Nat) : Bool :=
  s.ctxUsed n < s.ctxReserved n || s.ctxOpen + (List.range 8).foldl (fun a k => a + s.ctxReserved k) 0 < 64
/-- The lowest free context. -/
def State.ctxFree (s : State) : Option Nat := (List.range 64).find? fun c => (s.sluice c).isNone

/-- The reduction's context, opened when it has none; none while the slot's reservation is in use (R359). -/
def State.redCtx (s : State) (n fjob id : Nat) : Option (Nat × SluiceCtx) :=
  match s.ctxOf n fjob false id with
  | some c => some c
  | none => if s.ctxUsed n < s.ctxReserved n then s.ctxFree.map fun c =>
      (c, { slot := n, fjob := fjob, barrier := false, id := id, reserved := true, slots := [], ready := [], delivered := [], arrived := [], npart := 0 })
    else none

/-- The router slice whose accumulator slots a context uses: the manual assigns none; contexts are dealt out in turn (log entry
18). -/
def ctxSlice (c : Nat) : Nat := c % 4
/-- Accumulator slots of a slice in use. -/
def State.slotsUsed (s : State) (slc : Nat) : Nat :=
  s.flow.sluices.foldl (fun a e => match e.2 with
    | some x => if ctxSlice e.1 = slc then a + x.slots.length + x.ready.length else a
    | none => a) 0

/-! ### Values and residues (R363, R364) -/

/-- Residue modulo 255 of an FP32 value's integer significand; 0 for a zero or non-finite value. -/
def residueOf (w : Word) : Nat :=
  let e := bits w.toNat 23 8
  let m := w.toNat % 2 ^ 23
  if e = 255 then 0 else (if e = 0 then m else 2 ^ 23 + m) % 255

/-- Zero and non-finite values are left out of the checks (R364). -/
def unchecked (w : Word) : Bool := w.toNat % 2 ^ 31 == 0 || bits w.toNat 23 8 == 255

/-- One combination (R363). -/
def redOp (op : Nat) (a b : Word) : Word := if op = 0 then fAdd a b else if op = 1 then vMax a b else vMin a b

/-- 16 values from bytes, BF16 widened exactly. -/
def widen16 (bf16 : Bool) (bs : List Byte) : List Word :=
  (List.range 16).map fun i => if bf16 then BitVec.ofNat 32 (leAt bs (2 * i) 2 * 65536) else wordAt bs (4 * i)

/-! ### RED payloads (Table 14-8) -/

structure RedHead where
  layer : Nat
  first : Nat
  nruns : Nat
  bf16 : Bool
  cnt : Nat
  step : Nat
  deriving DecidableEq, Repr

def RedHead.parse (b : List Byte) : RedHead :=
  { layer := leAt b 0 4, first := leAt b 4 4, nruns := byteAt b 8 % 128, bf16 := bitOf b 8 7, cnt := leAt b 10 2 % 2048, step := leAt b 12 4 }
/-- Bytes of one run's values. -/
def RedHead.size (x : RedHead) : Nat := if x.bf16 then 32 else 64
/-- The packet is one that Table 14-8 allows. -/
def redOk (b : List Byte) : Bool :=
  let x := RedHead.parse b
  x.layer < 2 ^ 17 && 1 ≤ x.nruns && x.nruns ≤ (if x.bf16 then 85 else 51) && byteAt b 9 == 0 && leAt b 10 2 < 2048 && 1 ≤ x.cnt &&
  x.cnt ≤ 1024 && b.length == 16 + x.nruns * (x.size + 16)
/-- Values of run i, and whether every value's residue is the one carried. -/
def redVals (b : List Byte) (i : Nat) : List Word :=
  let x := RedHead.parse b
  widen16 x.bf16 (slice b (16 + x.size * i) x.size)
def redResidues (b : List Byte) : Bool :=
  let x := RedHead.parse b
  (List.range x.nruns).all fun i => (redVals b i).zipIdx.all fun v => unchecked v.1 || residueOf v.1 == byteAt b (16 + x.size * x.nruns + 16 * i + v.2)

/-- A RED packet of one run (log entry 18: one run to a packet). -/
def State.sendRed (s : State) (dst fjob id layer run step cnt : Nat) (bf16 : Bool) (vals : List Byte) : State :=
  let b := leBytes 4 layer ++ leBytes 4 run ++ leBytes 1 (1 + 128 * b2n bf16) ++ zeroBytes 1 ++ leBytes 2 cnt ++ leBytes 4 step ++ vals ++
    (widen16 bf16 vals).map fun w => BitVec.ofNat 8 (residueOf w)
  s.sendPacket { s.packet .red dst (redChan id) b with xid := id, fjob := fjob }

/-! ### Combination (R363, R365) -/

/-- One run to combine: the shard it is for, its index there, step, contributions summed, values. -/
structure RedIn where
  shard : Nat
  run : Nat
  step : Nat
  cnt : Nat
  vals : List Word
  deriving DecidableEq, Repr

def RedSlot.is (x : RedSlot) (y : RedIn) : Bool := x.shard == y.shard && x.run == y.run && x.step == y.step
/-- Contributions that complete a run: ND at an aggregator, NN × ND at the owner. -/
def HoistTable.redNeed (h : HoistTable) (shard : Nat) : Nat := if shard = h.shard then h.nn * h.nd else h.nd
/-- Runs that this device's context completes in a step: its own shard's, and the partials of its index's other shards. -/
def HoistTable.redTotal (h : HoistTable) (l : Layer) : Nat :=
  (List.range h.nn).foldl (fun a k => a + l.runs (h.shardOf k h.myDev)) 0

/-- A run of the context is delivered; a step whose runs all are closes, and an idle context with it (R365). -/
def SluiceCtx.settle (x : SluiceCtx) (h : HoistTable) (l : Layer) (step : Nat) : Option SluiceCtx :=
  let n := tblGet (fun _ => 0) x.delivered step + 1
  let y := { x with delivered := tblSet (fun _ => 0) x.delivered step (if h.redTotal l ≤ n then 0 else n) }
  if y.slots.isEmpty && y.ready.isEmpty && y.delivered.isEmpty then none else some y

/-- Combine one run in context c. A count beyond the completion count is SLUICE_COUNT_ERROR; a complete partial goes to its
owner, a complete run of the device's own shard waits for delivery. -/
def State.redRun (s : State) (c : Nat) (id op layer : Nat) (h : HoistTable) (l : Layer) (y : RedIn) : State :=
  match s.sluice c with
  | none => s
  | some x =>
    let old := x.slots.find? fun z => z.is y
    let vals := match old with | some z => (z.vals.zip y.vals).map fun v => redOp op v.1 v.2 | none => y.vals
    let count := (match old with | some z => z.count | none => 0) + y.cnt
    let need := h.redNeed y.shard
    if need < count then s.jobFault (Fin.ofNat 8 x.slot) 0x005A c 0 layer y.run 0
    else
      let z : RedSlot := { shard := y.shard, run := y.run, step := y.step, vals := vals, count := count }
      let rest := x.slots.filter fun w => !w.is y
      if count < need then s.setSluice c (some { x with slots := rest ++ [z] })
      else if y.shard = h.shard then (s.setSluice c (some { x with slots := rest, ready := x.ready ++ [z] })).bumpFab 0x158
      else
        ((s.setSluice c (({ x with slots := rest } : SluiceCtx).settle h l y.step)).bumpFab 0x158).sendRed
          (h.peer (y.shard / h.nd) (y.shard % h.nd)) x.fjob id layer y.run y.step h.nd false (vals.map fun w => leBytes 4 w.toNat).flatten

/-- Runs that would open a slot have slots free. -/
def State.redRoom (s : State) (c : Nat × SluiceCtx) (ys : List RedIn) : Bool :=
  s.slotsUsed (ctxSlice c.1) + (ys.filter fun y => !c.2.slots.any fun z => z.is y).length ≤ 65536

/-! ### Mismatches (R364) -/

def State.misses (s : State) (src : Option Nat) (chan seq : Nat) : Nat :=
  match s.flow.retries.find? fun r => r.src == src && r.chan == chan && r.seq == seq with | some r => r.misses | none => 0
def State.setMisses (s : State) (src : Option Nat) (chan seq n : Nat) : State :=
  let rest := s.flow.retries.filter fun r => !(r.src == src && r.chan == chan && r.seq == seq)
  { s with flow := { s.flow with retries := if n = 0 then rest else { src := src, chan := chan, seq := seq, misses := n } :: rest } }

/-- SLUICE_RESIDUE, and its count. -/
def State.redMiss (s : State) (c sender seq : Nat) : State := (s.bumpFab 0x168).ev 0x005B .corrected c 0 sender seq 0
/-- SLUICE_RESIDUE_FATAL: the context stops the job. -/
def State.redFatal (s : State) (n c sender seq : Nat) : State := (s.redMiss c sender seq).jobFault (Fin.ofNat 8 n) 0x005C c 0 sender seq 0

/-! ### RED_RECEIVE -/

/-- The collective a RED packet belongs to, with its layer: entry, table, layer. -/
def State.redTarget (s : State) (n : Nat) (k : Packet) : Option (Collective × HoistTable × Layer) :=
  match (s.slot n).sluice.find? fun e => e.1 == k.xid with
  | none => none
  | some e => match s.layer n e.2.layer with
    | some (h, l) => if e.2.layer = (RedHead.parse k.payload).layer then some (e.2, h, l) else none
    | none => none

/-- The shard that a packet's runs are for. A partial from another node is for this device's own; within the node the packet
does not say which node's shard it carries (log entry 18). -/
def State.redShard (s : State) (h : HoistTable) (k : Packet) : Nat :=
  if (s.nodeIndex h (some k.src)).isSome then h.shardOf (Config.redNode k.payload % h.nn) h.myDev else h.shard

/-- The runs of a packet. -/
def State.redIns (s : State) (h : HoistTable) (k : Packet) : List RedIn :=
  let x := RedHead.parse k.payload
  (List.range x.nruns).map fun i => { shard := s.redShard h k, run := x.first + i, step := x.step, cnt := x.cnt, vals := redVals k.payload i }

/-- Take one RED packet: combined, refused, or discarded for a mismatch; none where it waits for a context or a slot, and
where it is its fourth mismatch. -/
def State.redTake (s : State) (fault : Bool) (r : RxPacket) : Option State :=
  let k := r.pkt
  match s.jobSlot k.fjob with
  | none => some ((s.deliver r).sendError k 1)
  | some n => match s.redTarget n.val k with
    | none => some ((s.deliver r).sendError k 4)
    | some (e, h, l) =>
      let ys := s.redIns h k
      if !redOk k.payload ∨ ys.any (fun y => l.runs y.shard ≤ y.run) then some ((s.deliver r).sendError k 4)
      else match s.redCtx n.val k.fjob k.xid with
        | none => none
        | some c =>
          if !s.redRoom c ys then none
          else
            let m := s.misses (some k.src) k.chan k.seq
            if fault ∨ !redResidues k.payload then
              (if m = 3 then none else some (((s.dropRx r).setMisses (some k.src) k.chan k.seq (m + 1)).redMiss c.1 k.src k.seq))
            else some (ys.foldl (fun s y => if (s.slot n.val).stopped then s else s.redRun c.1 k.xid e.op e.layer h l y)
              (((s.deliver r).setMisses (some k.src) k.chan k.seq 0).setSluice c.1 (some c.2)))

/-- RED packets that their channels may deliver, oldest first. -/
def State.redNext (s : State) : List RxPacket :=
  s.fab.rxq.filter fun r => r.pkt.sequenced && s.isMine r.pkt && r.pkt.ptype == .red && r.pkt.seq == (s.rxChan r.pkt.src r.pkt.chan).want

/-- RED_RECEIVE: the first RED packet that can be taken is. `fault`: the datapath check of its adds fails. -/
def onRedReceive (fault : Bool) (s : State) : State :=
  if !s.jobsRun then s else (s.redNext.findSome? (s.redTake fault)).getD s

/-- The answer to `RED_RECEIVE`. -/
def execRedReceive (fault : Bool) (s : State) : Answer := .next (onRedReceive fault s)

/-- A RED packet waits for an accumulator slot. -/
def State.redWaits (s : State) : Bool :=
  s.redNext.any fun r => match s.jobSlot r.pkt.fjob with
    | none => false
    | some n => match s.redTarget n.val r.pkt, s.ctxOf n.val r.pkt.fjob false r.pkt.xid with
      | some (_, h, _), some c => !s.redRoom c (s.redIns h r.pkt)
      | _, _ => false

/-! ### SLUICE_CONTRIBUTION (R361) -/

/-- A contribution as it goes out: collective and its ID, table, layer, the shard it is for, stamped step. -/
structure Contribution where
  id : Nat
  col : Collective
  table : HoistTable
  layer : Layer
  shard : Nat
  step : Nat
  deriving DecidableEq, Repr

/-- Runs of a layer. -/
def Layer.allRuns (l : Layer) : Nat := l.rows * l.cols / 16

/-- The collective of a run's layer, the shard its rows lie in, and the step of the stamp. -/
def State.contribution (s : State) (r : Run) : Option Contribution :=
  let x := s.slot r.slot
  match x.sluice.find? fun e => e.2.layer == r.layer, s.layer r.slot r.layer with
  | some (id, col), some (h, l) =>
    if l.allRuns ≤ r.run then none
    else some { id := id, col := col, table := h, layer := l, shard := l.shardOfRow (16 * r.run / l.cols)
                step := (x.firstStep.getD 0 + tblGet (fun _ => 0) x.sent id / l.allRuns) % 2 ^ 32 }
  | _, _ => none

/-- The contribution has left the input buffer and counts as sent. -/
def State.sentOne (s : State) (r : Run) (id : Nat) : State :=
  let s1 : State := { s with flow := { s.flow with contribs := s.flow.contribs.erase r } }
  let x := s1.slot r.slot
  s1.setSlot r.slot { x with sent := tblSet (fun _ => 0) x.sent id (tblGet (fun _ => 0) x.sent id + 1) }

/-- A contribution into a context of this device; none where it waits, and where it is the fourth mismatch. -/
def State.contribLocal (s : State) (fault : Bool) (r : Run) (k : Contribution) : Option State :=
  let f := s.fjobOf r.slot
  let y : RedIn := { shard := k.shard, run := k.layer.ownRun k.shard r.run, step := k.step, cnt := 1, vals := widen16 r.bf16 r.vals }
  match s.redCtx r.slot f k.id with
  | none => none
  | some c =>
    if !s.redRoom c [y] then none
    else
      let m := s.misses none r.slot 0
      if fault then (if m = 3 then none else some ((s.setMisses none r.slot 0 (m + 1)).redMiss c.1 s.myAddr 0))
      else some ((((s.sentOne r k.id).setMisses none r.slot 0 0).setSluice c.1 (some c.2)).redRun c.1 k.id k.col.op k.col.layer k.table k.layer y)

/-- One contribution: to the Mill dispatcher where the layer has no collective and its Mill holds credit (08 R195), into a context of this device, to the owner
in this node, or to the node's aggregator. -/
def State.contribOne (s : State) (fault : Bool) (r : Run) : Option State :=
  let s0 : State := { s with flow := { s.flow with contribs := s.flow.contribs.erase r } }
  if (s.slot r.slot).stopped then some s0
  else match s.contribution r with
    | none =>
      let run := match s.layer r.slot r.layer with | some (h, l) => if l.allRuns ≤ r.run then 2 ^ 32 - 1 else l.ownRun h.shard r.run | none => r.run
      let r1 : Run := { r with run := run }
      if s.millRoom (s.millOf r1) then some { s0 with flow := { s0.flow with dispatch := s0.flow.dispatch ++ [r1] } } else none
    | some k =>
      let h := k.table
      if k.shard % h.nd = h.myDev then s.contribLocal fault r k
      else some ((s.sentOne r k.id).sendRed (h.peer h.myNode (k.shard % h.nd)) (s.fjobOf r.slot) k.id r.layer (k.layer.ownRun k.shard r.run)
        k.step 1 r.bf16 r.vals)

/-- The oldest contribution of a slot waits: for a context, for an accumulator slot, or for its Mill's buffer. Its SINKs then hold no
credit (R359; log entry 18). -/
def State.sluiceFull (s : State) (n : Nat) : Bool :=
  match s.flow.contribs.find? fun r => r.slot == n with
  | none => false
  | some r => !(s.slot n).stopped && (s.contribOne false r).isNone

/-- The oldest contribution of each slot. -/
def State.contribHeads (s : State) : List Run := (List.range 8).filterMap fun n => s.flow.contribs.find? fun r => r.slot == n

/-- SLUICE_CONTRIBUTION: the first contribution that can proceed does; those of one slot keep their order. -/
def onSluiceContribution (fault : Bool) (s : State) : State :=
  if !s.live then s else (s.contribHeads.findSome? (s.contribOne fault)).getD s

/-- The answer to `SLUICE_CONTRIBUTION`. -/
def execSluiceContribution (fault : Bool) (s : State) : Answer := .next (onSluiceContribution fault s)

/-- SLUICE_RESIDUE_FATAL: the fourth mismatch of a received packet, or of a local contribution (`own`), stops the job; the
sender is answered with status 6. -/
def onSluiceResidueFatal (own : Bool) (s : State) : State :=
  if !s.live then s
  else if own then
    match s.contribHeads.find? fun r => s.misses none r.slot 0 == 3 with
    | none => s
    | some r =>
      let c := match s.contribution r with | some k => (match s.redCtx r.slot (s.fjobOf r.slot) k.id with | some c => c.1 | none => 0) | none => 0
      (({ s with flow := { s.flow with contribs := s.flow.contribs.erase r } } : State).setMisses none r.slot 0 0).redFatal r.slot c s.myAddr 0
  else
    match s.redNext.find? fun r => s.misses (some r.pkt.src) r.pkt.chan r.pkt.seq == 3 with
    | none => s
    | some r => match s.jobSlot r.pkt.fjob with
      | none => s
      | some n =>
        let k := r.pkt
        let c := match s.redCtx n.val k.fjob k.xid with | some c => c.1 | none => 0
        ((((s.deliver r).setMisses (some k.src) k.chan k.seq 0)).redFatal n.val c k.src k.seq).sendError k 6

/-- The answer to `SLUICE_RESIDUE_FATAL`. -/
def execSluiceResidueFatal (own : Bool) (s : State) : Answer := .next (onSluiceResidueFatal own s)

/-! ### RUN_DELIVERY (R365) -/

/-- RUN_DELIVERY from context c: its oldest complete run goes to the Mill dispatcher once its Mill's buffer has room, or to HBM. -/
def onRunDelivery (c : Fin 64) (s : State) : State :=
  match s.sluice c.val with
  | none => s
  | some x => match x.ready with
    | [] => s
    | z :: rest => match (s.slot x.slot).sluice.find? fun e => e.1 == x.id with
      | none => s
      | some e => match s.layer x.slot e.2.layer with
        | none => s
        | some (h, l) =>
          let bs := (z.vals.map fun w => leBytes 4 w.toNat).flatten
          let r : Run := { run := z.run, step := z.step, layer := e.2.layer, slot := x.slot, bf16 := false, vals := bs }
          let done (s : State) : State := s.setSluice c.val (({ x with ready := rest } : SluiceCtx).settle h l z.step)
          if !s.live ∨ (s.slot x.slot).stopped then s
          else if e.2.hbm then
            let a := e.2.dst + 64 * z.run
            match s.sealedAgainst x.slot a 64 with
            | some k => (done s).sealStop x.slot k a
            | none => ((done s).progress x.slot).hbmStore a bs
          else if !s.millRoom (s.millOf r) then s
          else
            let s1 := (done s).progress x.slot
            { s1 with flow := { s1.flow with dispatch := s1.flow.dispatch ++ [r] } }

/-- The answer to `RUN_DELIVERY`. -/
def execRunDelivery (c : Fin 64) (s : State) : Answer := .next (onRunDelivery c s)

end Sys2Proof.Machine
end

