-- ==== Sys2Proof/Machine/Clock.lean ====
section
/-! DEFINITION. Clock root, ACLK step, Tally and the tick (15 R369 to R374, R384; 17 R417). -/
namespace Sys2Proof.Machine

/-- The ACLK ceiling of the strapped profile (R371, 00 R2). -/
def State.ceiling (s : State) : Nat := if s.pwr.air then 2 else 0
/-- The step the host and the profile allow. -/
def State.baseStep (s : State) : Nat := max s.clk.hostStep s.ceiling
/-- The step of every request but the sag throttle. -/
def State.stepNoSag (s : State) : Nat :=
  if s.clk.regWarn || s.clk.tripThrottle then 3
  else min 3 (s.baseStep + max s.clk.thermSteps s.clk.powerSteps)
/-- The slowest of the requests (R371). -/
def State.wantedStep (s : State) : Nat := if s.clk.sagThrottle then 3 else s.stepNoSag

/-- Write a VDD_CORE set point over AVSBus (17 R415). -/
def State.writeVolt (s : State) (mv : Nat) : State :=
  ({ s with clk := { s.clk with setPoint := mv } } : State).emit (.avsVoltage mv)

/-- Once the requested step is in force and no rise is awaited, the lower set point is written; the sag throttle alone
leaves it where it is (17 R417). -/
def State.lowerVolt (s : State) : State :=
  if s.clk.step = s.clk.req ∧ s.clk.volt.isNone ∧ setPointOf s.stepNoSag < s.clk.setPoint
  then s.writeVolt (setPointOf s.stepNoSag) else s

/-- The controller's move after any change of the requests (17 R417): a slower step is requested at once and abandons a
rise awaited; a faster one first raises the set point, where it is not yet high enough. -/
def State.reviewClock (s : State) : State :=
  let r := s.wantedStep
  if s.clk.req < r then ({ s with clk := { s.clk with req := r, volt := none } } : State).lowerVolt
  else if r < s.clk.req then
    match s.clk.volt with
    | some w =>
      if setPointOf r ≤ s.clk.setPoint then { s with clk := { s.clk with volt := some { w with step := r } } }
      else ({ s with clk := { s.clk with volt := some { step := r, since := s.clk.root } } } : State).writeVolt (setPointOf r)
    | none =>
      if setPointOf r ≤ s.clk.setPoint then { s with clk := { s.clk with req := r } }
      else ({ s with clk := { s.clk with volt := some { step := r, since := s.clk.root } } } : State).writeVolt (setPointOf r)
  else ({ s with clk := { s.clk with volt := none } } : State).lowerVolt

/-! ### Idle states (17 R423) -/

/-- Exit latency of an idle state, µs (Table 17-5). -/
def exitUs (n : Nat) : Nat := if n = 0 then 0 else if n = 1 then 2 else if n = 2 then 40 else if n = 3 then 400 else 5000

/-- The deepest state that `WAKE_US` and the entry conditions permit (R423). -/
def State.permitted (s : State) : Nat :=
  let w := s.pwr.wakeUs
  let noSurvey := (List.range 8).all fun n => !s.loaded n && !(s.slot n).loading
  if 5000 ≤ w ∧ noSurvey then 4 else if 400 ≤ w then 3 else if 40 ≤ w then 2 else if 2 ≤ w then 1 else 0

/-- No descriptor in progress or unfetched, no engine holds work (R424); for A3 and A4, no pending write (10 R253). -/
def State.deviceIdle (s : State) : Bool :=
  s.cage.started.isEmpty && s.cage.waiting.isEmpty &&
  (List.range 32).all (fun k => !s.ringEn k || (s.ring k).head == (s.ring k).tail || (s.ring k).err) &&
  s.flowIdle && (List.range 8).all (fun n => !(s.slot n).killing) && (s.permitted < 3 || s.hbm.waiting.all fun h => h.write.isNone) &&
  s.sec.sealed.all (fun e => match e.2 with | some x => !x.releasing | none => true)

/-- A wake event (R424): it cancels an entry that waits for its epoch or began in this MCLK cycle, or starts the way back to A0. -/
def State.wake (s : State) (c : WakeCause) : State :=
  if s.pwr.a4Wait then
    (({ s with pwr := { s.pwr with a4Wait := false, wakeCause := c, idleSince := s.clk.root } } : State).bump 0x6120).fabTransit true
  else if s.pwr.idle = 0 ∨ s.pwr.waking.isSome then s
  else if s.pwr.enteredAt / 16 = s.clk.root / 16 then
    let s1 := ({ s with pwr := { s.pwr with idle := 0, wakeCause := c, idleSince := s.clk.root } } : State).bump 0x6120
    if s.pwr.idle = 4 then s1.fabTransit true else s1
  else { s with pwr := { s.pwr with waking := some c, wakeCause := c } }

/-! ### POWER_SET completes once its step and voltage stand (15 R372, 17 R417) -/

def State.powerResult (s : State) : List Byte := leBytes 1 s.clk.step ++ leBytes 1 s.permitted

/-- Complete every POWER_SET that waits, once the step of R371 is in force and no voltage is awaited. -/
def State.settlePower (s : State) : State :=
  if s.clk.step = s.wantedStep ∧ s.clk.req = s.clk.step ∧ s.clk.volt.isNone then
    s.cage.started.foldl (fun s d => match d.kind with
      | .powerSet _ => s.complete d 0 0 s.powerResult
      | _ => s) s
  else s

/-! ### Non-volatile writes (17 R430) -/

/-- Carry out a non-volatile write that starts (R430). The image region's write runs on until FW_WRITE_COMPLETE. -/
def State.startNv (s : State) (op : NvOp) : State :=
  match op with
  | .flashImage =>
    { s with pwr := { s.pwr with nvRunning := s.pwr.nvRunning ++ [.flashImage] }, ras := { s.ras with fwState := .writing } }
  | .flashUnitMap =>
    { s with ras := { s.ras with flash := { s.ras.flash with
      fenced := (s.ras.units.filter fun e => e.2 == .fenced || e.2 == .testing).map (·.1)
      routerOnly := (s.ras.units.filter fun e => e.2 == .routerOnly).map (·.1)
      gen := s.ras.gen } } }
  | .flashLog n =>
    match s.ras.log.find? fun e => e.seq == n with
    | some e => { s with ras := { s.ras with flash := { s.ras.flash with log := e :: s.ras.flash.log } } }
    | none => s
  | .counter svn =>
    let v := max s.sec.rollback svn
    ({ s with sec := { s.sec with rollback := v } } : State).ev 0x0098 .info 0 0 v 0 0

/-- Ask for a non-volatile write: it starts in this MCLK cycle when the gate has been open for 10 ms, and otherwise waits (R430). -/
def State.requestNv (s : State) (op : NvOp) : State :=
  { s with pwr := { s.pwr with nvWait := s.pwr.nvWait ++ [{ op := op, since := s.clk.root, starting := s.nvOpen }] } }

/-- An MCLK cycle has ended: the writes that it started are under way. -/
def State.nvTick (s : State) : State :=
  if s.clk.root % 16 = 0 then
    (s.pwr.nvWait.filter (·.starting)).foldl (fun (s : State) w => s.startNv w.op)
      { s with pwr := { s.pwr with nvWait := s.pwr.nvWait.filter (!·.starting) } }
  else s

/-! ### The commands -/

/-- ACLK_STEP_CHANGE: at an alignment boundary the dividers take the requested step; ACLK is held for 240 root cycles
(R372). -/
def onAclkStepChange (s : State) : State :=
  if s.clk.locked ∧ s.clk.root % 240 = 0 ∧ s.clk.req ≠ s.clk.step then
    ((({ s with clk := { s.clk with step := s.clk.req, aclkResume := s.clk.root + 240 } } : State).bump 0x5100).lowerVolt).settlePower
  else s

/-- The answer to `ACLK_STEP_CHANGE`. -/
def execAclkStepChange (s : State) : Answer := .next (onAclkStepChange s)

/-- VOLTAGE_TARGET_REACHED: AVSBus reports the target, or 200 µs have passed; the faster step is requested (17 R417). -/
def onVoltageTargetReached (reported : Bool) (s : State) : State :=
  match s.clk.volt with
  | some w =>
    if reported ∨ w.since + usRoot 200 ≤ s.clk.root
    then ({ s with clk := { s.clk with volt := none, req := w.step } } : State).settlePower else s
  | none => s

/-- The answer to `VOLTAGE_TARGET_REACHED`. -/
def execVoltageTargetReached (reported : Bool) (s : State) : Answer := .next (onVoltageTargetReached reported s)

/-! ### Tally -/

/-- Deadlines held as Tally values (R374): page requests and barriers here, leases in the Mills. -/
def State.moveDeadlines (s : State) (d : BitVec 64) : State :=
  { s with
    cxl := { s.cxl with pri := s.cxl.pri.map fun p => { p with deadline := p.deadline + d } }
    cage := { s.cage with started := s.cage.started.map fun x => match x.kind with
      | .barrier j w => { x with kind := .barrier { j with sent := j.sent.map (· + d) } w }
      | _ => x }
    flow := { s.flow with leases := s.flow.leases.map fun l => { l with expiry := l.expiry + d } } }

/-- A Tally step (R373, R374): TALLY_STEP names the amount and the value before. -/
def State.stepTally (s : State) (d : BitVec 64) : State :=
  let before := s.clk.tally
  let s1 : State := { s with clk := { s.clk with tally := before + d } }
  ((s1.moveDeadlines d).bump 0x5108).ev 0x0060 .info 0 0 d.toNat before.toNat 0

/-- TALLY_SET_HI: loads the 64-bit value as a step, only while SYNC is FREE (R384). -/
def State.tallySetHi (s : State) (hi : Nat) : State :=
  if s.clk.sync = .free then
    let v : BitVec 64 := BitVec.ofNat 64 (hi * 2 ^ 32 + s.reg 0x5010)
    s.stepTally (v - s.clk.tally)
  else s.busyWrite 0x5014

/-- What Tally adds in one XCLK cycle: 1, or 0 or 2 on the cycles slewing chooses (R373). -/
def State.tallyAdvance (s : State) : Nat :=
  if 0 < s.clk.trim then (if Config.slewChosen s.clk.root s.clk.trim then 2 else 1)
  else if s.clk.trim < 0 then (if Config.slewChosen s.clk.root s.clk.trim then 0 else 1)
  else 1

/-- ACLK rising edges in the next XCLK cycle: none while ACLK is held or gated (R372, 17 R423). -/
def State.aclkEdges (s : State) : Nat :=
  if s.clk.root < s.clk.aclkResume ∨ 0 < s.pwr.idle then 0
  else (s.clk.root + 8) / aclkDiv s.clk.step - s.clk.root / aclkDiv s.clk.step

/-- FCLK rising edges in the next XCLK cycle (R369). -/
def State.fclkEdges (s : State) : Nat := (s.clk.root + 8) / 5 - s.clk.root / 5

/-- FCLK cycles that counters of waits take in one XCLK cycle: a full replay buffer, a packet that waits for its channel's
window or for retention space, a RED packet that waits for an accumulator slot (13 R316; 14 R353, R363). -/
def State.fabTick (s : State) (c : Nat) : State :=
  let s1 := s.fab.ports.foldl (fun s e => if 1024 ≤ e.2.replay.length then s.bumpPort e.1 0x140 c else s) s
  let s2 := if s1.fab.tx.any fun e => !e.2.queue.isEmpty then s1.bumpFab 0x140 c else s1
  if s2.redWaits then s2.bumpFab 0x160 c else s2

/-- The bus controller of SMB_SCL and SMB_SDA takes the oldest held message in a cycle of its own choosing; SMB_ALERT# ends with the last
(19 R476). -/
def State.mctpTick (s : State) : State :=
  match s.sec.mctp with
  | [] => s
  | m :: rest =>
    if s.pwr.phase = .running ∧ Config.freeBool s.fresh then
      let s1 := ({ s.draw with sec := { s.sec with mctp := rest } } : State).emit (.mctp s.ras.flash.i3c m)
      if rest.isEmpty then s1.emit (.pin .smbAlert false) else s1
    else s.draw

/-- One XCLK cycle: what the block does while no command waits (log entry 2). A root without lock stands still (R370). -/
def State.tick (s : State) : State :=
  if s.clk.locked ∧ s.pwr.phase ≠ .held ∧ s.pwr.phase ≠ .lockLost then
    let n := s.aclkEdges
    let s1 : State := { s with clk := { s.clk with root := s.clk.root + 8, tally := s.clk.tally + BitVec.ofNat 64 s.tallyAdvance } }
    let s2 := (((s1.flowTick n).fabTick s.fclkEdges).mctpTick).nvTick
    if s2.deviceIdle then s2 else { s2 with pwr := { s2.pwr with idleSince := s2.clk.root } }
  else s

end Sys2Proof.Machine
end

