-- ==== Sys2Proof/Machine/Power.lean ====
section
/-! DEFINITION. Rails, sensors, sag, the non-volatile gate, thermal trips and idle entry (17). -/
namespace Sys2Proof.Machine

/-! ### Service state (18 R451) -/

/-- A FATAL event: the service state, and every loaded slot stops under R439. -/
def State.fatal (s : State) (code loc sub arg0 : Nat) : State :=
  let s1 := s.ev code .fatal loc sub arg0 0 0
  let s2 : State := { s1 with ras := { s1.ras with service := true } }
  (List.finRange 8).foldl (fun s n => s.stopSlot n code stJobFault) s2

/-! ### Non-volatile writes (R430) -/

/-- The first write that waits starts. -/
def startFirst : List NvWait → List NvWait
  | [] => []
  | w :: ws => if w.starting then w :: startFirst ws else { w with starting := true } :: ws

/-- NV_OPERATION_START (R430): the write starts, unless the gate closes in the same MCLK cycle. -/
def onNvOperationStart (s : State) : State :=
  if s.nvOpen then { s with pwr := { s.pwr with nvWait := startFirst s.pwr.nvWait } } else s

/-- The answer to `NV_OPERATION_START`. -/
def execNvOperationStart (s : State) : Answer := .next (onNvOperationStart s)

/-- NV_GATE_TIMEOUT: an operation whose gate has not stayed open 10 ms within 1 s fails without starting (R430). -/
def onNvGateTimeout (s : State) : State :=
  match s.pwr.nvWait with
  | w :: ws =>
    if w.since + msRoot 1000 ≤ s.clk.root ∧ !s.nvOpen then
      let s1 : State := { s with pwr := { s.pwr with nvWait := ws } }
      let s2 : State := match w.op with
        | .flashImage => { s1 with ras := { s1.ras with fwState := .refused } }
        | _ => s1
      (s2.bump 0x6148).ev 0x0084 .warning 0 w.op.code 0 0 0
    else s
  | [] => s

/-- The answer to `NV_GATE_TIMEOUT`. -/
def execNvGateTimeout (s : State) : Answer := .next (onNvGateTimeout s)

/-! ### Sag (R429) -/

/-- SAG_DETECT: one comparison of the two rails with their thresholds, 40 mV below the set point and 1.74 V. A crossing
closes the gate and requests /8; rails back above both thresholds open the gate. -/
def onSagDetect (coreMv ioMv : Nat) (s : State) : State :=
  if s.pwr.phase = .held then s
  else
    let core := decide (coreMv + 40 < s.clk.setPoint)
    let io := decide (ioMv < 1740)
    let was := s.pwr.coreLow || s.pwr.ioLow
    let s1 : State := { s with pwr := { s.pwr with coreMv := coreMv, ioMv := ioMv, coreLow := core, ioLow := io } }
    if core || io then
      let s2 : State := { s1 with pwr := { s1.pwr with
        sagSeen := true, sagSet := s1.mclk, railsBack := none, nvWait := s1.pwr.nvWait.map fun w => { w with starting := false } } }
      if s.clk.sagThrottle then s2
      else
        let s3 : State := { s2 with clk := { s2.clk with sagThrottle := true } }
        (((s3.bump 0x6140).ev 0x0083 .warning 0 (b2n core + 2 * b2n io) 0 0 0).reviewClock).wake .throttle
    else if was then { s1 with pwr := { s1.pwr with railsBack := some s.clk.root, gateOpen := s.clk.root } }
    else s1

/-- The answer to `SAG_DETECT`. -/
def execSagDetect (coreMv ioMv : Nat) (s : State) : Answer := .next (onSagDetect coreMv ioMv s)

/-- SAG_RELEASE: 100 µs after both rails came back (R429). -/
def onSagRelease (s : State) : State :=
  match s.pwr.railsBack with
  | some t =>
    if t + usRoot 100 ≤ s.clk.root ∧ s.clk.sagThrottle then
      ((({ s with clk := { s.clk with sagThrottle := false }, pwr := { s.pwr with railsBack := none } } : State).reviewClock).settlePower).wake .throttle
    else s
  | none => s

/-- The answer to `SAG_RELEASE`. -/
def execSagRelease (s : State) : Answer := .next (onSagRelease s)

/-! ### Temperature and input power (R426 to R428) -/

/-- The profile's cap, W (R421). -/
def State.capWatts (s : State) : Nat := if s.pwr.air then 1200 else 2400

def State.throttleEvent (s : State) (step : Nat) : State :=
  (s.ev 0x0081 .info 0 step s.pwr.tMax s.pwr.watts 0).wake .throttle

/-- One input of the throttle over one sample: steps held, time since the release level, and whether it moved. -/
def throttleInput (now base steps : Nat) (cool : Option Nat) (above below : Bool) : Nat × Option Nat × Bool :=
  if above then (if base + steps < 3 then (steps + 1, none, true) else (steps, none, false))
  else if below then
    match cool with
    | none => (steps, some now, false)
    | some t => if t + msRoot 10 ≤ now ∧ 0 < steps then (steps - 1, some now, true) else (steps, some t, false)
  else (steps, none, false)

/-- The first trip stage (R428): THERM_ALERT#, /8, and every loaded slot stops. -/
def State.trip (s : State) (hottest : Nat) : State :=
  let s1 : State := { s with
    pwr := { s.pwr with thermAlert := true, tripped := true, trippedSet := s.mclk, tripLimit := true }
    clk := { s.clk with tripThrottle := true } }
  let s2 := (s1.bump 0x6138).emit (.pin .thermAlert true)
  let held := (List.finRange 8).filter fun n => s.loaded n.val
  let s3 := if held.isEmpty then s2.ev 0x0082 .job 0 1 hottest 0 0
    else held.foldl (fun s n => s.jobFault n 0x0082 0 1 hottest 0 0) s2
  s3.reviewClock

/-- The temperatures and the watts of a sample, and the temperature input they ask for (R426, R427). -/
def State.sampleHeat (r : Sensors) (s : State) : State :=
  let s1 : State := { s with pwr := { s.pwr with
    tMax := r.junction, tHbm := r.stack, watts := r.watts, hotStacks := r.stacksOver85
    throttledStacks := (s.pwr.throttledStacks ||| r.stacksOver95) &&& ~~~r.stacksUnder90 } }
  let t := throttleInput s.clk.root s1.baseStep s1.clk.thermSteps s1.pwr.thermCool
    (s1.rf 0x6010 0 8 < r.junction) (r.junction + s1.rf 0x6010 8 4 < s1.rf 0x6010 0 8)
  let s2 : State := { s1 with clk := { s1.clk with thermSteps := t.1 }, pwr := { s1.pwr with thermCool := t.2.1 } }
  if t.2.2 then (s2.bump 0x6128).throttleEvent (min 3 (s2.baseStep + t.1)) else s2
/-- The power input that the watts of a sample ask for (R426). -/
def State.sampleWatts (r : Sensors) (s : State) : State :=
  let p := throttleInput s.clk.root s.baseStep s.clk.powerSteps s.pwr.powerCool
    (s.capWatts < r.watts) (100 * r.watts < 95 * s.capWatts)
  let s1 : State := { s with clk := { s.clk with powerSteps := p.1 }, pwr := { s.pwr with powerCool := p.2.1 } }
  if p.2.2 then (s1.bump 0x6130).throttleEvent (min 3 (s1.baseStep + p.1)) else s1
/-- A regulator warning that the sample no longer shows (R418). -/
def State.sampleRegulator (r : Sensors) (s : State) : State :=
  if s.clk.regWarn && !r.regWarning
  then ((({ s with clk := { s.clk with regWarn := false } } : State).bump 0x6128).throttleEvent s.baseStep) else s
/-- The first trip stage, and its end once every sensor is below 95 °C (R428, 19 R480). -/
def State.sampleTrip (r : Sensors) (s : State) : State :=
  let s1 := if (110 < r.junction ∨ 105 < r.stack) ∧ s.pwr.tripLimit = false then s.trip (max r.junction r.stack) else s
  if s1.pwr.tripLimit ∧ r.allUnder95 then
    ({ s1 with pwr := { s1.pwr with thermAlert := false, tripLimit := false }
               clk := { s1.clk with tripThrottle := false } } : State).emit (.pin .thermAlert false)
  else s1

/-- THERMAL_SAMPLE: the readings of one millisecond (R426 to R428, 10 R252). -/
def onThermalSample (r : Sensors) (s : State) : State :=
  if s.pwr.phase ≠ .running then s
  else ((((s.sampleHeat r).sampleWatts r).sampleRegulator r).sampleTrip r).reviewClock.settlePower

/-- The answer to `THERMAL_SAMPLE`. -/
def execThermalSample (r : Sensors) (s : State) : Answer := .next (onThermalSample r s)

/-- PMBUS_ALERT: the regulator's STATUS_WORD is read and CLEAR_FAULTS written; a warning of over-temperature or
over-current requests /8 until it clears (R418, 19 R477). -/
def onPmbusAlert (rail : Fin 8) (status : BitVec 16) (warning : Bool) (s : State) : State :=
  if s.pwr.phase ≠ .running then s
  else
    let s1 := (s.emit (.pmbus rail.val status.toNat)).ev 0x0080 .warning rail.val status.toNat 0 0 0
    if warning && !s.clk.regWarn then
      ((({ s1 with clk := { s1.clk with regWarn := true } } : State).bump 0x6128).throttleEvent 3).reviewClock
    else s1

/-- The answer to `PMBUS_ALERT`. -/
def execPmbusAlert (rail : Fin 8) (status : BitVec 16) (warning : Bool) (s : State) : Answer :=
  .next (onPmbusAlert rail status warning s)

/-! ### Idle entry (R423 to R425) -/

/-- Enter an idle state: its counter, and what it stops. -/
def State.enterIdle (s : State) (n : Nat) : State :=
  let s1 := s.flowSleep n
  ({ s1 with pwr := { s1.pwr with idle := n, waking := none, a4Wait := false, enteredAt := s.clk.root } } : State).bump (0x6100 + 8 * (n - 1))

/-- IDLE_ENTRY: after `IDLE_US` idle, the deepest permitted state; A4 first asks the manager to release transit (R425). -/
def onIdleEntry (s : State) : State :=
  if s.live ∧ s.deviceIdle ∧ s.pwr.idle = 0 ∧ !s.pwr.a4Wait ∧ 0 < s.permitted ∧
      s.pwr.idleSince + usRoot (s.reg 0x6000) ≤ s.clk.root then
    if s.permitted = 4 ∧ s.fabManaged ∧ s.portsUp then
      ({ s with pwr := { s.pwr with a4Wait := true } } : State).fabTransit false
    else s.enterIdle s.permitted
  else s

/-- The answer to `IDLE_ENTRY`. -/
def execIdleEntry (s : State) : Answer := .next (onIdleEntry s)

/-- A4_ENTRY: an epoch without transit through the device is committed and its previous table retired (R425). -/
def onA4Entry (s : State) : State :=
  if s.pwr.a4Wait ∧ s.deviceIdle ∧ s.permitted = 4 then s.enterIdle 4 else s

/-- The answer to `A4_ENTRY`. -/
def execA4Entry (s : State) : Answer := .next (onA4Entry s)

end Sys2Proof.Machine
end

