-- ==== Sys2Proof/Machine/Kill.lean ====
section
/-! DEFINITION. Kill and scrub of a job slot, and fences of sites (12 R297, R298; 18 R439, R447; 16 R405; 20 R495). -/
namespace Sys2Proof.Machine

/-- Status codes of completion records (12 Table 12-8). -/
def stSuccess : Nat := 0x00
def stPartial : Nat := 0x01
def stPreempted : Nat := 0x02
def stInvalidOpcode : Nat := 0x03
def stInvalidArgument : Nat := 0x04
def stNotPermitted : Nat := 0x05
def stSlotEmpty : Nat := 0x06
def stSlotBusy : Nat := 0x07
def stSurveyInvalid : Nat := 0x08
def stTileShape : Nat := 0x09
def stVersionMismatch : Nat := 0x0B
def stAddressInvalid : Nat := 0x0C
def stSealedAccess : Nat := 0x0D
def stHbmUncorrectable : Nat := 0x0E
def stHostAccess : Nat := 0x0F
def stFabricError : Nat := 0x10
def stTimeout : Nat := 0x11
def stBundleInvalid : Nat := 0x12
def stResourceExhausted : Nat := 0x13

/-- Result bytes of a COPY (12 Table 12-6): `BYTES`, cursor of element `e` under counts `c`, `FAULT_ADDR`. -/
def copyCounts (desc : List Byte) : List Nat :=
  [leAt desc 36 3 + 1, leAt desc 40 2 + 1, leAt desc 42 2 + 1, leAt desc 44 2 + 1]

/-- Indices IDX0 to IDX3 of the e-th element of a walk in row-major order (R292). -/
def cursorOf (desc : List Byte) (e : Nat) : List Nat :=
  let c := copyCounts desc
  let n0 := c.getD 0 1
  let n1 := c.getD 1 1
  let n2 := c.getD 2 1
  [e % n0, e / n0 % n1, e / (n0 * n1) % n2, e / (n0 * n1 * n2)]

def CopyJob.result (j : CopyJob) (faultAddr : Nat) : List Byte :=
  leBytes 8 j.bytes ++ ((cursorOf j.desc j.next).map (leBytes 4)).flatten ++ leBytes 8 faultAddr

/-- The result bytes a started descriptor reports when a kill or an unlock ends it (R293, R300). -/
def State.abortResult (s : State) (d : Started) : List Byte :=
  match d.kind with
  | .runStep n => s.stepResult d.slot n
  | .copy j => j.result 0
  | _ => []

/-- The station port that a notify token goes to, when R294 allows it. -/
def State.notifyPort (s : State) (n : Nat) (desc : List Byte) : Option (StRef × InPort) :=
  match s.station (leAt desc 96 2 % 8192) with
  | some r => match r.st.ins[byteAt desc 98 % 8]? with
    | some p => if r.slot = n ∧ p.tkind = 0 ∧ tagSlot (leAt desc 100 4) = n then some (r, p) else none
    | none => none
  | none => none

/-- What the end of a COPY that a kill stops also sends: its ERROR token and COPY_FAULT (R294). The slot's job ends with the kill. -/
def State.copyAborted (s : State) (d : Started) : State :=
  match d.kind with
  | .copy j =>
    if bitOf j.desc 34 0 then
      match s.notifyPort d.slot j.desc with
      | some (r, p) => (s.send r.slot none r.st.site p.ring { tag := leAt j.desc 100 4, pay := .error }).raise 0x0004 .job (some (Fin.ofNat 8 d.slot))
          (genPayload d.ring.val stPreempted d.index 0 0)
      | none => s
    else s
  | _ => s

/-- A kill ends a started descriptor. -/
def State.preempt (s : State) (d : Started) : State := (s.complete d stPreempted 0 (s.abortResult d)).copyAborted d

/-- Complete with PREEMPTED every started descriptor that names the slot, other than kills (R297 step 2). -/
def State.preemptSlot (s : State) (n : Nat) : State :=
  s.cage.started.foldl (fun s d =>
    if d.namesSlot && d.slot == n && (match d.kind with | .kill => false | _ => true) then s.preempt d else s) s

/-- The kind of order that a descriptor is (R302). -/
def StartedKind.order : StartedKind → OrdKind
  | .kill => .kill | .fence _ _ _ => .fence | .barrier _ _ => .fence | .powerSet _ => .power | _ => .ordinary

/-- Every order that reached the arbiter in the MCLK cycle of a reset loses to it, with no record (R302, R303). -/
def State.resetTies (s : State) : State :=
  s.cage.started.foldl (fun s d =>
    if d.arrived = s.mclk then s.orderLost (if d.kind.order = .power then 0x200 else if d.namesSlot then d.slot else 0x100 + d.ring.val) .reset 0 d.kind.order 0
    else s) s

/-- A FENCE or BARRIER that reached the arbiter in this MCLK cycle holds this slot (R302). -/
def State.fenceTie (s : State) : Option Nat :=
  s.cage.started.findSome? fun d =>
    if d.arrived = s.mclk then
      match d.kind with
      | .fence _ slots _ => (List.range 8).find? fun n => bitAt slots n
      | .barrier _ _ => some d.slot
      | _ => none
    else none

/-- A POWER_SET that would gate a slot's units, not yet in force, loses to a FENCE or BARRIER of the same MCLK cycle that holds the slot
(R302). -/
def State.powerTies (s : State) : State :=
  match s.fenceTie with
  | none => s
  | some n => s.cage.started.foldl (fun s d => match d.kind with
    | .powerSet _ => if d.arrived = s.mclk ∧ s.pwr.wakeUs ≠ 0
        then (s.orderLost n .fence 0 .power 0).complete d stPreempted 0 s.powerResult else s
    | _ => s) s

/-- Orders on a slot, from these rings, that reached the arbiter in the MCLK cycle of a kill of it by the master: they lose
(R302, R303). -/
def State.loseTies (s : State) (n : Nat) (tied : List (Fin 32)) (master : Nat) : State :=
  s.cage.started.foldl (fun s d =>
    if tied.contains d.ring && d.namesSlot && d.slot == n && (match d.kind with | .kill => false | _ => true)
    then (s.orderLost n .kill master d.kind.order 0).preempt d
    else s) s
/-- A kill of the slot that a descriptor asked for is in progress. -/
def State.hostKills (s : State) (n : Nat) : Bool :=
  s.cage.started.any fun d => d.slot == n && (match d.kind with | .kill => true | _ => false)

/-- The first cycle of a kill and its steps 1 and 2 (R297): owned resources are released, tails written back, the slot's
descriptors end with PREEMPTED. -/
def State.killStart (s : State) (n : Nat) : State :=
  let x := s.slot n
  if x.killing ∨ (x.survey.isNone ∧ !x.loading) then s
  else (((s.setSlot n { x with killing := true }).releaseSlot n).preemptSlot n)

/-- HBM bytes a kill zeroes: every region of the Survey not marked `SEALED` (R297 step 3). -/
def State.scrubBytes (s : State) (n : Nat) : Nat :=
  match (s.slot n).survey with
  | some v => (v.regions.filter fun r => !r.isSealed).foldl (fun a r => a + r.len) 0
  | none => 0

/-- Zero every region of a Survey not marked `SEALED`. -/
def State.scrubRegions (s : State) (v : Survey) : State :=
  (v.regions.filter fun r => !r.isSealed).foldl (fun s r => s.hbmZero r.base r.len) s

/-- Steps 3 and 4 of a kill (R297) and what R495 says the slot's registers read afterwards: the slot is empty. -/
def State.killFinish (s : State) (n : Nat) : State :=
  let s1 := match (s.slot n).survey with | some v => s.scrubRegions v | none => s
  let s2 := (s1.scrubSlot n).setSlot n Slot.empty
  let s3 := (s2.setRf (jobBase n + 0x38) 0 1 0).setRf (jobBase n + 0x08) 0 1 0
  { s3 with ctrs := tblSet (fun _ => 0) s3.ctrs (jobBase n + 0x28) 0 }

/-- Start the kill of every slot. -/
def State.killAll (s : State) : State := (List.range 8).foldl State.killStart s

/-! ### Sealed regions end (16 R405, 10 R247) -/

/-- Free a region whose pages the Mucker has zeroed: contents, key, member table and number go (R405). -/
def State.freeSealed (s : State) (r : Nat) : State :=
  match s.sealedAt r with
  | some x =>
    let s1 := s.hbmZero x.base x.len
    { s1 with sec := { s1.sec with sealed := tblSet (fun _ => none) s1.sec.sealed r none } }
  | none => s

/-- Begin the release of a region: until it is freed, host reads still return all-ones (10 R247). -/
def State.releaseSealed (s : State) (r : Nat) : State :=
  match s.sealedAt r with
  | some x => { s with sec := { s.sec with sealed := tblSet (fun _ => none) s.sec.sealed r (some { x with releasing := true }) } }
  | none => s

/-- Begin the release of every region with the property. -/
def State.releaseSealedWhere (s : State) (p : Sealed → Bool) : State :=
  { s with sec := { s.sec with sealed := s.sec.sealed.map fun e =>
      (e.1, match e.2 with | some x => if p x then some { x with releasing := true } else some x | none => none) } }

/-! ### Fences of sites (18 R446, R447) -/

/-- A fence takes effect: router stopped, each job that uses the site stopped with UNIT_FENCED, bitmap and, where the bitmap changes,
generation changed, map written to flash (20 R492). A RETURN or RESTORE of the site in the same MCLK cycle gives way: BUSY (R449). -/
def State.fenceSite (s : State) (k : Nat) (cause : FenceCause) : State :=
  let was := s.unit k
  let s1 : State := { s with ras := { s.ras with
    units := tblSet (fun _ => UnitState.inService) s.ras.units k .fenced
    testSince := tblSet (fun _ => 0) s.ras.testSince k 0
    fencedAt := tblSet (fun _ => 0) s.ras.fencedAt k s.mclk
    unitResult := if s.ras.movedAt = (k, s.mclk) then .busy else s.ras.unitResult
    gen := if was = .fenced ∨ was = .testing then s.ras.gen else (s.ras.gen + 1) % 2 ^ 32 } }
  let users := (List.finRange 8).filter fun n => match (s.slot n.val).survey with | some v => v.usesSite k && !(s.slot n.val).loading | none => false
  let s2 := if users.isEmpty then (s1.bump 0x7108).raise 0x0090 .unit none (genPayload k cause.code 0 0 0)
    else users.foldl (fun s n => s.raise 0x0090 .unit (some n) (genPayload k cause.code 0 0 0)) (s1.bump 0x7108)
  let s3 := users.foldl (fun s n => s.stopSlot n 0x0090 stJobFault) s2
  s3.requestNv .flashUnitMap

def dayRoot : Nat := msRoot 86400000

/-- A site had an SRAM_UE: a second one within 24 hours fences it when `AUTO_FENCE` is 1 (18 R446). -/
def State.sramSeen (s : State) (site : Nat) : State :=
  let h := tblGet (fun _ => CeHistory.none) s.ras.ceSites site
  let recent := h.ue.any fun t => s.clk.root < t + dayRoot
  let s1 : State := { s with ras := { s.ras with
    ceSites := tblSet (fun _ => CeHistory.none) s.ras.ceSites site { h with ue := s.clk.root :: h.ue } } }
  if recent ∧ s1.rfBit 0x7000 0 then s1.fenceSite site .sram else s1

/-- An uncorrectable SRAM error (18 R436): the owning job stops. -/
def State.sramUe (s : State) (n : Fin 8) (site : Nat) (st : SramStruct) (word : Nat) : State :=
  (s.jobFault n 0x0016 site st.code word 0 0).sramSeen site

end Sys2Proof.Machine
end

