-- ==== Sys2Proof/Machine/Cage.lean ====
section
/-! DEFINITION. The Cage: rings, doorbells, starts of descriptors, the simple commands, polls (12, 11 R266, R269). -/
namespace Sys2Proof.Machine

/-! ### Starting a descriptor (12 R284 to R290) -/

/-- What Table 12-2 and Table 12-3 say of a command: opcode, `SLOT` use, `ADMIN`, blocking, listed operand fields as
(first bit, width), whether it needs a loaded Survey, ring entries it takes. -/
structure CmdSpec where
  opcode : Nat
  usesSlot : Bool
  admin : Bool
  operands : List (Nat × Nat)
  needsSurvey : Bool
  entries : Nat
  deriving DecidableEq, Repr

/-- Bits of byte `b` that a list of fields covers. -/
def allowedByte (fields : List (Nat × Nat)) (b : Nat) : Nat :=
  (List.range 8).foldl (fun m i => if fields.any fun f => f.1 ≤ 8 * b + i && 8 * b + i < f.1 + f.2 then m + 2 ^ i else m) 0

/-- Every byte and bit the tables do not list is 0 (R288, R290). -/
def reservedZero (spec : CmdSpec) (bs : List Byte) : Bool :=
  byteAt bs 1 < 4 && byteAt bs 2 < 8 && zeroAt bs 3 5 &&
  (List.range (64 * spec.entries - 16)).all fun i =>
    byteAt bs (16 + i) &&& (255 - allowedByte spec.operands (16 + i)) == 0

/-- Descriptors started on ring k and not completed. -/
def State.onRing (s : State) (k : Nat) : List Started := s.cage.started.filter fun d => d.ring.val == k

/-- A started blocking command (Table 12-2). -/
def Started.blocks (d : Started) : Bool :=
  match d.kind with
  | .kill => true | .fence _ _ _ => true | .barrier _ _ => true | _ => false

/-- Records of the ring that the host has not consumed, by the head value last read, and descriptors on the way (R285). -/
def State.outstanding (s : State) (k : Nat) : Nat :=
  (s.onRing k).length + (s.ring k).unposted + ((s.ring k).cqTail + s.ringSize k - (s.ring k).cqHead % s.ringSize k) % s.ringSize k

/-- A record waits on the way or a descriptor is started: `ACTIVE` (R307). -/
def State.ringActive (s : State) (k : Nat) : Bool := !(s.onRing k).isEmpty || 0 < (s.ring k).unposted

/-- A blocking command of the ring waits for room in the record store. -/
def State.blockWaits (s : State) (k : Nat) : Bool :=
  s.cage.waiting.any fun c => c.ring.val == k && [0x02, 0x07, 0x08, 0x09].contains (byteAt c.header 0)

/-- Entries of the ring that the host has announced and the Cage has not fetched. -/
def State.unfetched (s : State) (k : Nat) : Nat :=
  ((s.ring k).tail + s.ringSize k - (s.ring k).head % s.ringSize k) % s.ringSize k

/-- The Cage may fetch at all: the device is up, in A0, attached with CXL, allowed to master the link and to hold its
doorbell lines (11 R261, R266, R269, R272, R277). -/
def State.cageRuns (s : State) : Bool :=
  s.live && s.cxl.up && s.busOn && s.cxl.cacheEn && s.pwr.idle == 0 && !s.cxl.cageStopped

/-- A FENCE in progress holds this ring, or this slot for a command that uses `SLOT` (R295). -/
def State.fenceHolds (s : State) (k : Nat) (usesSlot : Bool) (n : Nat) : Bool :=
  s.cage.started.any fun d => match d.kind with
    | .fence rings slots _ => bitAt rings k || (usesSlot && bitAt slots n)
    | _ => false

/-- The descriptor at the head of ring k may start (R284 to R287). -/
def State.ringReady (s : State) (k entries : Nat) (usesSlot : Bool) (n : Nat) : Bool :=
  s.cageRuns && s.ringEn k && !(s.ring k).err && entries ≤ s.unfetched k &&
  !(s.onRing k).any Started.blocks && !s.blockWaits k && s.outstanding k < s.ringSize k - 1 && !s.fenceHolds k usesSlot n

/-- The descriptor starts: `SQ_HEAD` advances, and it is listed in fetch order (R284). -/
def State.begin (s : State) (spec : CmdSpec) (d : Desc) (kind : StartedKind) : State × Started :=
  let k := d.ring.val
  let r := s.ring k
  let st : Started :=
    { serial := s.cage.serial, ring := d.ring, index := r.head, header := slice d.bytes 0 16,
      namesSlot := spec.usesSlot, arrived := s.mclk, kind := kind }
  let s1 := (s.setRing k { r with head := (r.head + spec.entries) % s.ringSize k }).bump 0xA100
  ({ s1 with cage := { s1.cage with serial := s1.cage.serial + 1, started := s1.cage.started ++ [st] }
             pwr := { s1.pwr with idleSince := s1.clk.root } }, st)

/-- Start the head descriptor of a ring as the given command (R289): not yet startable or another command, nothing
happens; otherwise the checks in order, then the command's own part. -/
def State.startCmd (s : State) (spec : CmdSpec) (d : Desc) (extra : Bool) (kind : StartedKind)
    (body : State → Started → State) : State :=
  let op := byteAt d.bytes 0
  let n := byteAt d.bytes 2 % 8
  let k := d.ring.val
  if op < 0x0F ∧ op ≠ spec.opcode then s
  else if !s.ringReady k (if op < 0x0F then spec.entries else 1) (decide (op < 0x0F) && spec.usesSlot) n then s
  else if op < 0x0F ∧ !extra then s
  else
    let b := s.begin (if op < 0x0F then spec else { spec with entries := 1, usesSlot := false }) d kind
    if 0x0F ≤ op then b.1.complete b.2 stInvalidOpcode 0 []
    else if spec.admin ∧ !s.ringAdmin k then b.1.complete b.2 stNotPermitted 0 []
    else if spec.usesSlot ∧ !bitAt (s.ringSlots k) n then b.1.complete b.2 stNotPermitted 0 []
    else if !reservedZero spec d.bytes then b.1.complete b.2 stInvalidArgument 0 []
    else if spec.needsSurvey ∧ !s.loaded n then b.1.complete b.2 stSlotEmpty 0 []
    else if spec.usesSlot ∧ (s.slot n).killing then b.1.complete b.2 stPreempted 0 []
    else body b.1 b.2

/-- NOP (R289). -/
def nopSpec : CmdSpec := { opcode := 0x00, usesSlot := false, admin := false, operands := [], needsSurvey := false, entries := 1 }
def onNop (d : Desc) (s : State) : State :=
  s.startCmd nopSpec d true .kill fun s st => s.complete st stSuccess 0 []

/-- The answer to `NOP`. -/
def execNop (d : Desc) (s : State) : Answer := .next (onNop d s)

/-! ### Kill and unload (R297, R298) -/

def killSpec : CmdSpec := { opcode := 0x09, usesSlot := true, admin := false, operands := [], needsSurvey := false, entries := 1 }
def unloadSpec : CmdSpec := { killSpec with opcode := 0x02 }

/-- A SURVEY_LOAD of the slot is in progress. -/
def State.loadQueued (s : State) (n : Nat) : Bool :=
  s.cage.started.any fun d => d.slot == n && (match d.kind with | .surveyLoad _ => true | _ => false)

/-- KILL_JOB: an empty slot completes at once, after the loads of it that are not yet checked (R297). A slot whose kill is already in progress completes with PREEMPTED by the
common checks (R289, R297). `tied` names rings whose orders on the slot reached the arbiter in the same MCLK cycle (R302). -/
def onKillJob (d : Desc) (tied : List (Fin 32)) (s : State) : State :=
  s.startCmd killSpec d true .kill fun s st =>
    let s := s.loseTies st.slot tied 0
    if (s.slot st.slot).survey.isNone ∧ !(s.slot st.slot).loading
    then (s.preemptSlot st.slot).complete st stSuccess 0 (leBytes 8 0) else s.killStart st.slot

/-- The answer to `KILL_JOB`. -/
def execKillJob (d : Desc) (tied : List (Fin 32)) (s : State) : Answer := .next (onKillJob d tied s)

/-- SURVEY_UNLOAD: SLOT_BUSY while a step or load is in progress, otherwise as KILL_JOB (R298); it too wins over the orders
`tied` with it (R302). -/
def onSurveyUnload (d : Desc) (tied : List (Fin 32)) (s : State) : State :=
  s.startCmd unloadSpec d true .kill fun s st =>
    let s := s.loseTies st.slot tied 0
    if s.running st.slot ∨ (s.slot st.slot).loading ∨ s.loadQueued st.slot then s.complete st stSlotBusy 0 []
    else if (s.slot st.slot).survey.isNone then s.complete st stSuccess 0 (leBytes 8 0) else s.killStart st.slot

/-- The answer to `SURVEY_UNLOAD`. -/
def execSurveyUnload (d : Desc) (tied : List (Fin 32)) (s : State) : Answer := .next (onSurveyUnload d tied s)

/-- Step 5 of a host loss: HOST_LOST is logged and `LINK_DOWN` counts (11 R277). -/
def State.hostLost (s : State) : State := (s.bump 0x9100).ev 0x0045 .warning 0 0 0 0 0
/-- Step 6: the device enters A2 and waits, while no host is attached (11 R277, 17 R423). -/
def State.lossIdle (s : State) : State := if !s.cxl.up ∧ s.pwr.idle < 2 then s.enterIdle 2 else s
/-- Steps 5 and 6, once no slot is killed any more. -/
def State.lossScrubbed (s : State) : State :=
  if s.cxl.hostLoss ∧ (List.range 8).all (fun k => !(s.slot k).killing) then
    (({ s with cxl := { s.cxl with hostLoss := false } } : State).hostLost).lossIdle
  else s

/-- KILL_COMPLETE: after the last scrub write the slot is empty; the kill's descriptor, if a descriptor asked for it,
completes with SUCCESS (R297). The last scrub of a host loss is followed by A2 (11 R277). -/
def onKillComplete (n : Fin 8) (s : State) : State :=
  if (s.slot n.val).killing then
    let bytes := s.scrubBytes n.val
    let s1 := s.killFinish n.val
    let s2 := s1.cage.started.foldl (fun s d => match d.kind with
      | .kill => if d.slot = n.val then s.complete d stSuccess 0 (leBytes 8 bytes) else s
      | _ => s) s1
    s2.lossScrubbed
  else s

/-- The answer to `KILL_COMPLETE`. -/
def execKillComplete (n : Fin 8) (s : State) : Answer := .next (onKillComplete n s)

/-! ### FENCE (R295, 15 R382) -/

def fenceSpec : CmdSpec :=
  { opcode := 0x07, usesSlot := false, admin := false, operands := [(128, 32), (160, 8)], needsSurvey := false, entries := 1 }

/-- FENCE: the earlier descriptors it waits for, by fetch-order number. A ring without `ADMIN` may name only itself and
the slots of its own mask. -/
def onFence (d : Desc) (s : State) : State :=
  let rings := leAt d.bytes 16 4
  let slots := leAt d.bytes 20 1
  let k := d.ring.val
  let waits := ((s.cage.started.filter fun x =>
    x.ring.val == k || bitAt rings x.ring.val || (x.namesSlot && bitAt slots x.slot)).map (·.serial)) ++
    ((s.cage.waiting.filter fun c => c.ring.val == k || bitAt rings c.ring.val || bitAt slots (byteAt c.header 2 % 8)).map (·.serial))
  s.startCmd fenceSpec d true (.fence rings slots waits) fun s st =>
    if !s.ringAdmin k ∧ ((rings ≠ 0 ∧ rings ≠ 2 ^ k) ∨ (List.range 8).any (fun n => bitAt slots n && !bitAt (s.ringSlots k) n))
    then s.complete st stNotPermitted 0 [] else s.powerTies

/-- The answer to `FENCE`. -/
def execFence (d : Desc) (s : State) : Answer := .next (onFence d s)

/-- Every descriptor of the list has completed (a command whose record waits for the store has not, 11 R266). -/
def State.allDone (s : State) (waits : List Nat) : Bool :=
  waits.all fun n => !(s.cage.started.any fun d => d.serial == n) && !(s.cage.waiting.any fun c => c.serial == n)

/-- FENCE_COMPLETE: completes when everything it waits for has completed and the streams of the named slots are empty
(R382). -/
def onFenceComplete (ring : Fin 32) (s : State) : State :=
  match (s.onRing ring.val).find? fun d => match d.kind with | .fence _ _ _ => true | _ => false with
  | some d => match d.kind with
    | .fence _ slots waits => if s.allDone waits ∧ s.streamsIdle slots then s.complete d stSuccess 0 [] else s
    | _ => s
  | none => s

/-- The answer to `FENCE_COMPLETE`. -/
def execFenceComplete (ring : Fin 32) (s : State) : Answer := .next (onFenceComplete ring s)

/-! ### Doorbells and head words (11 R269, 12 R283, R285, R287) -/

/-- The Cage stops a ring (R287). -/
def State.stopRing (s : State) (k : Nat) (c : RingCause) : State :=
  if (s.ring k).err then s
  else (s.setRing k { s.ring k with err := true }).ev 0x0003 .warning k c.code 0 0 0

/-- Act on the doorbell word of a ring (R283, R287). -/
def State.takeTail (s : State) (k : Nat) (line : List Byte) : State :=
  let t := leAt line (8 * s.ringDbWord k) 2
  if s.ringSize k ≤ t then s.stopRing k .tail else s.setRing k { s.ring k with tail := t }

/-- Rings whose doorbell lies in a line and that are enabled. -/
def State.ringsOf (s : State) (lineAddr : Nat) : List Nat :=
  (List.range 32).filter fun k => s.ringEn k && s.ringDbLine k == lineAddr

/-- DOORBELL_SNOOP: the line's rings wake the Cage, which re-reads the line; reads of ring memory that then fail stop
their ring (R269, R287). `line` is the 64 bytes re-read. -/
def onDoorbellSnoop (lineAddr : Nat) (line : List Byte) (faults : List (Fin 32 × RingCause)) (s : State) : State :=
  if s.live ∧ s.cxl.up ∧ s.cxl.mode ∧ s.cxl.cacheEn ∧ !s.cxl.cageStopped ∧ !(s.ringsOf lineAddr).isEmpty then
    let s1 := (s.bump 0x9110).wake .doorbell
    let s2 := (s.ringsOf lineAddr).foldl (fun s k => if (s.ring k).err then s else s.takeTail k line) s1
    faults.foldl (fun s f => if (s.ringsOf lineAddr).contains f.1.val then s.stopRing f.1.val f.2 else s) s2
  else s

/-- The answer to `DOORBELL_SNOOP`. -/
def execDoorbellSnoop (lineAddr : Nat) (line : List Byte) (faults : List (Fin 32 × RingCause)) (s : State) : Answer :=
  .next (onDoorbellSnoop lineAddr line faults s)

/-- The record limit holds ring k back by the head value last read (R285). -/
def State.limitHolds (s : State) (k : Nat) : Bool :=
  s.ringEn k && !(s.ring k).err && 0 < s.unfetched k && s.ringSize k - 1 ≤ s.outstanding k

/-- COMPLETION_HEAD_POLL (R285, R287). -/
def onCompletionHeadPoll (ring : Fin 32) (w : HostWord) (s : State) : State :=
  let k := ring.val
  if s.cageRuns ∧ s.limitHolds k then
    match w with
    | .ok v => s.setRing k { s.ring k with cqHead := v.toNat % 65536 % s.ringSize k }
    | .ioError => s.stopRing k .ioError
    | .pageFail => s.stopRing k .page
  else s

/-- The answer to `COMPLETION_HEAD_POLL`. -/
def execCompletionHeadPoll (ring : Fin 32) (w : HostWord) (s : State) : Answer := .next (onCompletionHeadPoll ring w s)

/-- The event ring stops on a CXL.io error; RING_ERROR reaches the log alone (R306). -/
def State.stopEvq (s : State) : State :=
  let s1 := s.setRf 0xA040 0 1 0
  ({ s1 with cage := { s1.cage with evErr := true, evErrSet := s1.mclk } } : State).ev 0x0003 .warning 32 2 0 0 0

/-- EVENT_RING_HEAD_POLL: while the event ring is full its head word is re-read; an error of this read, or of the write
of an event record, stops the ring (R306, 18 R443). -/
def onEventRingHeadPoll (w : HostWord) (s : State) : State :=
  if s.live ∧ s.evqEn ∧ s.busOn then
    match w with
    | .ok v => if s.evqFull then { s with cage := { s.cage with evHead := v.toNat % 65536 % s.evqSize } } else s
    | _ => s.stopEvq
  else s

/-- The answer to `EVENT_RING_HEAD_POLL`. -/
def execEventRingHeadPoll (w : HostWord) (s : State) : Answer := .next (onEventRingHeadPoll w s)

/-- Write of `RING_CTL` (R307): `line` is the doorbell line as the Cage then takes it. -/
def State.ringCtlWrite (s : State) (k w : Nat) (line : List Byte) : State :=
  let off := ringBase k
  let old := s.reg off
  let en := bitAt old 0
  let busy := en || s.ringActive k
  let refused := bitAt w 0 && !en && s.ringActive k
  let fs := ringFields 0
  let new := writeFields busy fs old w
  let s1 := s.setReg off (if refused then new - new % 2 else new)
  let s2 := if refused || (busy && changesRwq fs old w) then s1.busyWrite off else s1
  if bitAt w 0 && !en && !refused then
    let s3 := s2.setRing k { Ring.init with phase := true }
    if s3.cxl.cacheEn && s3.cxl.mode then s3.takeTail k line else s3
  else s2

/-- Write of `EVQ_EN` and its register (R306). -/
def State.evqWriteReg (s : State) (w : Nat) : State :=
  let old := s.reg 0xA040
  let fs := regFields 0xA040
  let s1 := s.setReg 0xA040 (writeFields (bitAt old 0) fs old w)
  let s2 := if bitAt old 0 && changesRwq fs old w then s1.busyWrite 0xA040 else s1
  if bitAt w 0 && !bitAt old 0 then
    { s2 with cage := { s2.cage with evTail := 0, evPhase := true, evHead := 0 } }
  else s2

/-! ### Bus Master Enable and Cache_Enable (11 R266, R269) -/

/-- Flush the held records in order, an event whose ring is no longer enabled being lost (12 R306); the records that waited for the store follow, then nothing is held. -/
def State.flushHeld (s : State) : State :=
  let held := s.cage.held
  let waiting := s.cage.waiting
  let s1 : State := { s with cage := { s.cage with held := [], waiting := [] } }
  let s2 := held.foldl (fun s h => match h with
    | .completion c => (s.unpost c.ring.val).postRecord c
    | .event e lost => if s.evqEn then s.evWrite e lost else s.evLose) s1
  waiting.foldl (fun s c => ((s.unpost c.ring.val).bump 0xA108).postRecord c) s2

/-- A change of the attachment: where device-originated requests may go out again, the held records do first (R266). -/
def State.withCxl (s : State) (c : CxlState) : State :=
  let s1 : State := { s with cxl := c }
  if s1.busOn && !s.busOn then s1.flushHeld else s1

/-- The effect of a change of Bus Master Enable (R266). -/
def State.setBusMaster (s : State) (b : Bool) : State := s.withCxl { s.cxl with busMaster := b }

/-- The effect of a write of Cache_Enable: the Cage takes the doorbell lines of its enabled rings, or gives them up.
`lines` are the lines as then read. -/
def State.setCacheEnable (s : State) (b : Bool) (lines : List (Nat × List Byte)) : State :=
  let s1 : State := { s with cxl := { s.cxl with cacheEn := b } }
  if b && !s.cxl.cacheEn && s.cxl.mode then
    lines.foldl (fun s l => (s.ringsOf l.1).foldl (fun s k => if (s.ring k).err then s else s.takeTail k l.2) s) s1
  else s1

end Sys2Proof.Machine
end

