-- ==== Sys2Proof/Machine/Ras.lean ====
section
/-! DEFINITION. Unit service, corrected errors, link failures and the firmware image (18, 16 R389, R390). -/
namespace Sys2Proof.Machine

/-! ### Unit service (R447 to R449) -/

def State.setUnit (s : State) (k : Nat) (u : UnitState) : State :=
  { s with ras := { s.ras with units := tblSet (fun _ => UnitState.inService) s.ras.units k u } }
def State.unitDone (s : State) (r : UnitResult) : State := { s with ras := { s.ras with unitResult := r } }
/-- A change of either bitmap: the generation counts one, and the map is written to flash (20 R492, R447). -/
def State.mapChanged (s : State) : State :=
  ({ s with ras := { s.ras with gen := (s.ras.gen + 1) % 2 ^ 32 } } : State).requestNv .flashUnitMap

/-- A loaded Survey has a station, partition or route leg on the site (R448). -/
def State.siteInUse (s : State) (k : Nat) : Bool :=
  (List.range 8).any fun n => match (s.slot n).survey with | some v => v.usesSite k | none => false

/-- A fence of the site has taken effect in this MCLK cycle (R449). -/
def State.justFenced (s : State) (k : Nat) : Bool := tblGet (fun _ => 0) s.ras.fencedAt k == s.mclk
/-- A RETURN or RESTORE is carried out. -/
def State.unitMoved (s : State) (k : Nat) : State :=
  { s with ras := { s.ras with unitResult := .done, movedAt := (k, s.mclk) } }

/-- Op RETURN (R448). -/
def State.unitReturn (s : State) (k : Nat) : State :=
  if s.justFenced k then s.unitDone .busy
  else if s.unit k ≠ .fenced then s.unitDone .refused
  else if s.siteInUse k then s.unitDone .busy
  else
    let s1 := (s.setUnit k .testing).unitMoved k
    { s1 with ras := { s1.ras with testSince := tblSet (fun _ => 0) s1.ras.testSince k s.clk.root } }

/-- Op RESTORE (R449). -/
def State.unitRestore (s : State) (k : Nat) : State :=
  if s.justFenced k then s.unitDone .busy
  else if s.unit k ≠ .routerOnly then s.unitDone .refused
  else
    let s1 := ((s.setUnit k .inService).unitMoved k).mapChanged
    s1.ev 0x0093 .info k 0 s1.ras.gen 0 0

/-- Writing 1 to `RAS_UNIT_CMD.GO` issues `OP` on `SITE` (R460). -/
def State.unitCmd (s : State) : State :=
  let k := s.rf 0x7008 0 13
  let op := s.rf 0x7008 13 2
  if op = 1 then (s.fenceSite k .host).unitDone .done
  else if op = 2 then s.unitReturn k
  else if op = 3 then s.unitRestore k
  else s.unitDone .none

/-- SITE_FENCE: a fence of another cause than the host's command (R447). -/
def onSiteFence (k : Fin 8192) (cause : FenceCause) (s : State) : State :=
  if s.live then s.fenceSite k.val cause else s

/-- The answer to `SITE_FENCE`. -/
def execSiteFence (k : Fin 8192) (cause : FenceCause) (s : State) : Answer := .next (onSiteFence k cause s)

/-- SELFTEST_COMPLETE: 4 ms after RETURN the site is zeroed and becomes ROUTER_ONLY, or stays FENCED (R448). -/
def onSelftestComplete (k : Fin 8192) (failing : Option (BitVec 16)) (s : State) : State :=
  if s.unit k.val = .testing ∧ tblGet (fun _ => 0) s.ras.testSince k.val + msRoot 4 ≤ s.clk.root then
    let s0 : State := { s with ras := { s.ras with testSince := tblSet (fun _ => 0) s.ras.testSince k.val 0 } }
    match failing with
    | none =>
      let s1 := (((s0.siteZero k.val).setUnit k.val .routerOnly)).mapChanged
      s1.ev 0x0092 .info k.val 0 s1.ras.gen 0 0
    | some t => (s0.setUnit k.val .fenced).ev 0x0091 .unit k.val t.toNat 0 0 0
  else s

/-- The answer to `SELFTEST_COMPLETE`. -/
def execSelftestComplete (k : Fin 8192) (failing : Option (BitVec 16)) (s : State) : Answer :=
  .next (onSelftestComplete k failing s)

/-! ### Corrected errors and link failures (R437, R446) -/

/-- The events of the crossings that a unit has not reported. -/
def State.reportCrossed (s : State) (unit : Nat) (xs : List (Nat × Nat)) : State :=
  xs.foldl (fun (s : State) x => s.ev 0x0096 .corrected unit x.1 x.2 0 0) s

/-- CE_THRESHOLD: the crossings of a multiple of `CE_EVT_THR` are reported; a site whose hourly count exceeds `CE_FENCE_THR` is fenced when
`AUTO_FENCE` is 1 (R446). `n` corrected errors come with it that no other command has found: they join the count, and the counter of their
structure. -/
def onCeThreshold (u : CeUnit) (n : Nat) (s : State) : State :=
  if !s.live then s
  else match u with
    | .site k st =>
      let s1 := (match st with
        | .scratch => s.bumpSite k.val 0x158 n
        | .accum => s.bumpSite k.val 0x148 n
        | _ => s).ceSite k.val st.code n
      let h := tblGet (fun _ => CeHistory.none) s1.ras.ceSites k.val
      let s2 : State := { s1 with ras := { s1.ras with ceSites := tblSet (fun _ => CeHistory.none) s1.ras.ceSites k.val { h with crossed := [] } } }
      let s3 := s2.reportCrossed k.val h.crossed
      if s.rfBit 0x7000 0 ∧ s.rf 0x7000 16 15 < (s.hourly h).length ∧ s.unit k.val ≠ .fenced then s3.fenceSite k.val .threshold else s3
    | .mill m =>
      let s1 := (s.bumpMem (chanBase m.val + 0x20) n).ceMill m.val n
      let h := tblGet (fun _ => CeHistory.none) s1.ras.ceMills m.val
      ({ s1 with ras := { s1.ras with ceMills := tblSet (fun _ => CeHistory.none) s1.ras.ceMills m.val { h with crossed := [] } } } : State).reportCrossed
        m.val h.crossed

/-- The answer to `CE_THRESHOLD`. -/
def execCeThreshold (u : CeUnit) (n : Nat) (s : State) : Answer := .next (onCeThreshold u n s)

/-- MESH_FLIT_CRC_ERROR: the flit and every later one are discarded and replayed; each replay counts (R437). `bridge` is
a bridge's number, otherwise the receiving site and the face; `again` says the same flit as before. -/
def onMeshFlitCrcError (bridge : Option (Fin 4)) (site : Fin 8192) (face : Dir) (again : Bool) (s : State) : State :=
  if !s.live then s
  else match bridge with
    | some b =>
      let n := if again then tblGet (fun _ => 0) s.ras.bridgeReplays b.val + 1 else 1
      ({ s with ras := { s.ras with bridgeReplays := tblSet (fun _ => 0) s.ras.bridgeReplays b.val n } } : State).bump 0x7118
    | none =>
      let key := 4 * site.val + face.code
      let n := if again then tblGet (fun _ => 0) s.ras.linkReplays key + 1 else 1
      ({ s with ras := { s.ras with linkReplays := tblSet (fun _ => 0) s.ras.linkReplays key n } } : State).bump 0x7110

/-- The answer to `MESH_FLIT_CRC_ERROR`. -/
def execMeshFlitCrcError (bridge : Option (Fin 4)) (site : Fin 8192) (face : Dir) (again : Bool) (s : State) : Answer :=
  .next (onMeshFlitCrcError bridge site face again s)

/-- MESH_LINK_FAIL: after 8 consecutive replays of one flit the receiving site is fenced (R437). -/
def onMeshLinkFail (site : Fin 8192) (face : Dir) (s : State) : State :=
  let key := 4 * site.val + face.code
  if s.live ∧ 8 ≤ tblGet (fun _ => 0) s.ras.linkReplays key then
    let s1 : State := { s with ras := { s.ras with linkReplays := tblSet (fun _ => 0) s.ras.linkReplays key 0 } }
    (s1.raise 0x0094 .unit none (genPayload site.val face.code 0 0 0)).fenceSite site.val .meshLink
  else s

/-- The answer to `MESH_LINK_FAIL`. -/
def execMeshLinkFail (site : Fin 8192) (face : Dir) (s : State) : Answer := .next (onMeshLinkFail site face s)

/-- BRIDGE_FAIL: a bridge that fails in the same way is fatal (R437, R451). -/
def onBridgeFail (b : Fin 4) (s : State) : State :=
  if s.live ∧ 8 ≤ tblGet (fun _ => 0) s.ras.bridgeReplays b.val then
    ({ s with ras := { s.ras with bridgeReplays := tblSet (fun _ => 0) s.ras.bridgeReplays b.val 0 } } : State).fatal 0x0095 b.val 0 0
  else s

/-- The answer to `BRIDGE_FAIL`. -/
def execBridgeFail (b : Fin 4) (s : State) : Answer := .next (onBridgeFail b s)

/-- HBM_CHANNEL_FAIL (R446, R451). -/
def onHbmChannelFail (m : Fin 768) (status : BitVec 16) (s : State) : State :=
  if s.live then s.fatal 0x0032 m.val status.toNat 0 else s

/-- The answer to `HBM_CHANNEL_FAIL`. -/
def execHbmChannelFail (m : Fin 768) (status : BitVec 16) (s : State) : Answer := .next (onHbmChannelFail m status s)

/-! ### Firmware images (R455 to R459; 16 R389, R390) -/

/-- The three checks of R389. -/
def State.imageOk (s : State) (img : List Byte) : Bool :=
  sm3 (Config.imageKey img) == Config.fwKeyDigest &&
  Config.sm2Verify (Config.imageKey img) (sm3 (Config.imageSigned img)) (Config.imageSig img) &&
  decide (s.sec.rollback ≤ Config.imageSvn img % 64)

/-- Measurement index 4: the strap and the port configuration read from flash (16 R394). -/
def State.meas4Of (s : State) : List Byte :=
  sm3 (leBytes 1 (b2n s.pwr.air) ++ (s.ras.flash.portModes.map (leBytes 1)).flatten)

/-- The image runs: measured, its SVN and version shown, the ports configured from flash (R390, 17 R420). -/
def State.runImage (s : State) (img : List Byte) (host : Bool) : State :=
  let s1 : State := { s with
    sec := { s.sec with meas2 := sm3 img, meas4 := s.meas4Of, bootSvn := Config.imageSvn img % 64, bootHost := host
                        fwVersion := Config.imageVersion img % 2 ^ 24 }
    pwr := { s.pwr with phase := .running, idleSince := s.clk.root } }
  s1.fabBoot

/-- The bytes of the image window that `FW_CTL.LEN` names (R456). -/
def State.imageWindow (s : State) (len : Nat) : List Byte :=
  (((List.range (ceilDiv len 4)).map fun i => leBytes 4 (s.reg (imageBase + 4 * i))).flatten).take len

/-- The check of a staged image, before anything is erased (R456): refused, or staged and asked to be written. -/
def State.stageImage (s : State) (img : List Byte) : State :=
  let svn := Config.imageSvn img % 64
  if s.ras.fwState = .writing ∨ s.ras.fwState = .checking then s
  else if s.imageOk img then
    (({ s with ras := { s.ras with fwSvn := svn, staged := img, fwState := .checking } } : State).ev 0x0097 .info 0 0 svn 0 0).requestNv .flashImage
  else
    ({ s with ras := { s.ras with fwSvn := svn, fwState := .refused } } : State).ev 0x0097 .warning 0 3 svn 0 0

/-- Writing 1 to `FW_CTL.STAGE` (R456); in recovery the ROM verifies the image and runs it from RAM (R459). -/
def State.fwStage (s : State) : State :=
  let img := s.imageWindow (min (s.rf 0x7080 0 25) (2 ^ 24))
  if s.pwr.phase = .recovery then
    (if s.imageOk img then
      ({ s with ras := { s.ras with fwSvn := Config.imageSvn img % 64, fwState := .idle } } : State).runImage img true
     else { s with ras := { s.ras with fwSvn := Config.imageSvn img % 64, fwState := .refused } })
  else s.stageImage img

/-- FW_WRITE_COMPLETE (R456). -/
def onFwWriteComplete (s : State) : State :=
  if s.pwr.nvRunning.contains .flashImage then
    ({ s with
      pwr := { s.pwr with nvRunning := s.pwr.nvRunning.filter (· != .flashImage) }
      ras := { s.ras with fwState := .written, flash := { s.ras.flash with image := s.ras.staged } } } : State).ev
        0x0097 .info 0 1 s.ras.fwSvn 0 0
  else s

/-- The answer to `FW_WRITE_COMPLETE`. -/
def execFwWriteComplete (s : State) : Answer := .next (onFwWriteComplete s)

/-- The Headframe controller holds an MCTP message, and asserts SMB_ALERT# while it does (19 R476). -/
def State.holdMctp (s : State) (m : MctpMsg) : State :=
  let s1 : State := { s with sec := { s.sec with mctp := s.sec.mctp ++ [m] } }
  if s.sec.mctp.isEmpty then s1.emit (.pin .smbAlert true) else s1

/-- PLDM_FW_UPDATE: an image delivered over MCTP is checked and staged in the same way (R456). The answer goes back over MCTP with
what became of the image. -/
def onPldmFwUpdate (img : List Byte) (s : State) : State :=
  if s.live then
    let s1 := s.stageImage img
    s1.holdMctp { type := 1, code := s1.ras.fwState.code, body := [] }
  else s

/-- The answer to `PLDM_FW_UPDATE`. -/
def execPldmFwUpdate (img : List Byte) (s : State) : Answer := .next (onPldmFwUpdate img s)

/-- Any sealed region is TEE-bound (16 R396). -/
def State.teeBound (s : State) : Bool :=
  s.sec.sealed.any fun e => match e.2 with | some x => x.teeBound | none => false

/-- Writing 1 to `FW_CTL.COMMIT`: the counter is burnt up to the running image's SVN (R458). -/
def State.fwCommit (s : State) : State :=
  if s.sec.rollback < s.sec.bootSvn then s.requestNv (.counter s.sec.bootSvn) else s

/-- Writing 1 to `FW_CTL.RECOVER` while the boot ROM runs (R459). -/
def State.fwRecover (s : State) : State :=
  if s.pwr.phase = .booting then { s with pwr := { s.pwr with phase := .recovery } } else s

end Sys2Proof.Machine
end

