-- ==== Sys2Proof/Machine/Cxl.lean ====
section
/-! DEFINITION. CXL attachment: locked items and the TDI, IDE, decoder, translation and page requests, MSI-X, link up and
host loss (11). -/
namespace Sys2Proof.Machine

/-! ### TDI (R272, 16 R395, R396) -/

/-- The TDI enters ERROR: TDI_ERROR names the item, device-originated requests stop, every slot is killed, TEE-bound regions are
released (R272, R396). -/
def State.tdiError (s : State) (item : Nat) : State :=
  if s.cxl.tdi = .error then s
  else
    let s1 := s.ev 0x0042 .warning 0 item 0 0 0
    ((({ s1 with cxl := { s1.cxl with tdi := .error } } : State).killAll).releaseSealedWhere fun x => x.teeBound)

/-- The TDI is CONFIG_LOCKED or RUN: a change of a locked item moves it to ERROR. -/
def State.tdiFrozen (s : State) : Bool := s.cxl.tdi == .locked || s.cxl.tdi == .run

/-- After a change of a locked item (R272). -/
def State.lockedChange (s s' : State) (item : Nat) : State := if s.tdiFrozen then s'.tdiError item else s'

/-- LOCK_INTERFACE (16 R395). -/
def onLockInterface (s : State) : State :=
  if !s.live ∨ !s.cxl.up ∨ s.sec.sessions.isEmpty then s
  else
    let st (i : Nat) : IdeState := (tblGet (fun _ => IdeKeys.none) s.cxl.ide i).state
    if s.cxl.tdi = .unlocked ∧ st 0 = .secure ∧ st 1 = .secure ∧ s.sec.dbg = .locked ∧
        (List.range 8).all (fun n => !s.loaded n) then
      ({ s with cxl := { s.cxl with tdi := .locked } } : State).emit (.tdisp true)
    else s.emit (.tdisp false)

/-- The answer to `LOCK_INTERFACE`. -/
def execLockInterface (s : State) : Answer := .next (onLockInterface s)

/-- START_INTERFACE (R272): CONFIG_LOCKED to RUN. -/
def onStartInterface (s : State) : State :=
  if !s.live ∨ !s.cxl.up ∨ s.sec.sessions.isEmpty then s
  else if s.cxl.tdi = .locked then ({ s with cxl := { s.cxl with tdi := .run } } : State).emit (.tdisp true)
  else s.emit (.tdisp false)

/-- The answer to `START_INTERFACE`. -/
def execStartInterface (s : State) : Answer := .next (onStartInterface s)

/-- STOP_INTERFACE (R272, 16 R396): every slot is killed and the TEE-bound regions are released first. -/
def onStopInterface (s : State) : State :=
  if !s.live ∨ !s.cxl.up ∨ s.sec.sessions.isEmpty then s
  else if s.cxl.tdi = .unlocked then s.emit (.tdisp true)
  else (({ s with cxl := { s.cxl with stopping := true } } : State).killAll).releaseSealedWhere fun x => x.teeBound

/-- The answer to `STOP_INTERFACE`. -/
def execStopInterface (s : State) : Answer := .next (onStopInterface s)

/-- Ranges of HBM outside every sealed region: first address, and the one after the last. -/
def State.unsealed (s : State) : List (Nat × Nat) :=
  (s.sec.sealed.filterMap (·.2)).foldl (fun gaps x =>
    (gaps.map fun g => [(g.1, min g.2 x.base), (max g.1 (x.base + x.len), g.2)]).flatten.filter fun g => g.1 < g.2) [(0, hbmSize)]
/-- Zero all HBM outside sealed regions (R272, R279). -/
def State.zeroUnsealed (s : State) : State := s.unsealed.foldl (fun s g => s.hbmZero g.1 (g.2 - g.1)) s

/-- STOP_INTERFACE_COMPLETE (R272): every slot killed and scrubbed, unsealed HBM zeroed, TEE-bound regions released. -/
def onStopInterfaceComplete (s : State) : State :=
  if s.cxl.stopping ∧ (List.range 8).all (fun n => !(s.slot n).killing) ∧
      s.sec.sealed.all (fun e => match e.2 with | some x => !x.releasing | none => true) then
    let s1 := s.zeroUnsealed
    (s1.withCxl { s1.cxl with stopping := false, tdi := .unlocked }).emit (.tdisp true)
  else s

/-- The answer to `STOP_INTERFACE_COMPLETE`. -/
def execStopInterfaceComplete (s : State) : Answer := .next (onStopInterfaceComplete s)

/-! ### IDE (R271) -/

def State.ideKeys (s : State) (st : IdeStream) : IdeKeys := tblGet (fun _ => IdeKeys.none) s.cxl.ide st.code
def State.setIde (s : State) (st : IdeStream) (k : IdeKeys) : State :=
  { s with cxl := { s.cxl with ide := tblSet (fun _ => IdeKeys.none) s.cxl.ide st.code k } }

/-- IDE_KM: keys are established, a key set is switched, a stream is stopped, inside a secured session (R271). Stopping a
stream changes the IDE stream settings, which are locked items (R272). -/
def onIdeKm (op : IdeKmOp) (s : State) : State :=
  if !s.live ∨ !s.cxl.up ∨ s.sec.sessions.isEmpty then s
  else match op with
    | .program st k => s.setIde st { s.ideKeys st with programmed := some k }
    | .start st k =>
      if (s.ideKeys st).programmed = some k then s.setIde st { state := .secure, keySet := k, programmed := none } else s
    | .stop st => s.lockedChange (s.setIde st IdeKeys.none) 3

/-- The answer to `IDE_KM`. -/
def execIdeKm (op : IdeKmOp) (s : State) : Answer := .next (onIdeKm op s)

/-- IDE_STREAM_RECEIVE (R271): a failed integrity check makes the stream Insecure; in RUN the TDI moves to ERROR. AER, or for
CXL.cachemem the CXL RAS capability, shows it (R259; log entry 24). -/
def onIdeStreamReceive (st : IdeStream) (good : Bool) (s : State) : State :=
  if !s.cxl.up ∨ (s.ideKeys st).state ≠ .secure ∨ good then s
  else
    let s0 : State := if st = .cachemem then { s with cxl := { s.cxl with rasUncor := s.cxl.rasUncor ||| 0x10000 } }
      else { s with cxl := { s.cxl with aer := s.cxl.aer ||| 0x10000000 } }
    let s1 := ((s0.setIde st { s.ideKeys st with state := .insecure }).bump 0x9138).ev 0x0041 .warning st.code 0 0 0 0
    if s.cxl.tdi = .run then s1.tdiError 3 else s1

/-- The answer to `IDE_STREAM_RECEIVE`. -/
def execIdeStreamReceive (st : IdeStream) (good : Bool) (s : State) : Answer := .next (onIdeStreamReceive st good s)

/-! ### Decoder and window (R267, R268) -/

/-- HDM_DECODER_COMMIT (R267). -/
def onHdmDecoderCommit (base size ways : Nat) (s : State) : State :=
  if !s.live ∨ !s.cxl.up ∨ !s.cxl.mode then s
  else
    let ok := size = s.winSize ∧ base % 2 ^ 28 = 0 ∧ ways = 1 ∧ s.winBase + s.winSize ≤ hbmSize
    let s1 : State := { s with cxl := { s.cxl with
      dec := { committed := decide ok, base := base, size := size, ways := ways, error := decide (¬ok) }
      winErr := decide (¬ok) } }
    s.lockedChange s1 2

/-- The answer to `HDM_DECODER_COMMIT`. -/
def execHdmDecoderCommit (base size ways : Nat) (s : State) : Answer := .next (onHdmDecoderCommit base size ways s)

/-! ### Translation and page requests (R273, R274) -/

/-- End a transfer that waits on a page (R274, 12 R287, R293): PARTIAL for a COPY, HOST_ACCESS_ERROR for another
command, the ring's stop for ring memory. -/
def State.endWaiter (s : State) (detail page : Nat) (w : Waiter) : State :=
  match w with
  | .ringMem k => s.stopRing k.val .page
  | .cmd n =>
    match s.cage.started.find? fun d => d.serial == n with
    | some d => match d.kind with
      | .copy j => s.setKind n (.copy { j with waiting := none, ended := some (stPartial, detail, 4096 * page) })
      | .bundleLoad j =>
        let s1 := if j.header.isEmpty then s else s.freeSealed j.region
        s1.complete d stHostAccess detail []
      | _ => s.complete d stHostAccess detail []
    | none => s

/-- A transfer's page is present: it goes on at its element (R274). -/
def State.resumeWaiter (s : State) (w : Waiter) : State :=
  match w with
  | .ringMem _ => s
  | .cmd n =>
    match s.cage.started.find? fun d => d.serial == n with
    | some d => match d.kind with
      | .copy j => s.setKind n (.copy { j with waiting := none })
      | .bundleLoad j => s.setKind n (.bundleLoad { j with waiting := none })
      | .sealExport j => s.setKind n (.sealExport { j with waiting := none })
      | .surveyLoad j => s.setKind n (.surveyLoad { j with waiting := false })
      | .stepParams j => s.setKind n (.stepParams { j with waiting := false })
      | _ => s
    | none => s

/-- The page requests the host allows (R274). -/
def State.priLimit (s : State) : Nat := min 512 s.cxl.priAlloc
/-- `PRI_TMO_LOG2` (R280). -/
def State.priUs (s : State) : Nat := 2 ^ s.rf 0x9010 0 5

/-- Issue a page request, or let the fault wait for an allocation (R274). -/
def State.issuePage (s : State) (pasid page : Nat) (w : Waiter) : State :=
  match s.cxl.pri.find? fun p => p.pasid == pasid && p.page == page with
  | some _ => { s with cxl := { s.cxl with pri := s.cxl.pri.map fun p =>
      if p.pasid = pasid ∧ p.page = page then { p with waiters := p.waiters ++ [w] } else p } }
  | none =>
    if s.cxl.pri.length < s.priLimit then
      (({ s with cxl := { s.cxl with pri := s.cxl.pri ++
          [{ pasid := pasid, page := page, deadline := s.deadline s.priUs, waiters := [w] }] } } : State).bump 0x9120).emit
        (.pageRequest pasid page)
    else { s with cxl := { s.cxl with priWait := s.cxl.priWait ++ [(pasid, page, w)] } }

/-- Why a page not present ends a transfer at once, as `DETAIL`: PRI Enable 0, or requests suppressed (R274). -/
def State.pageDenied (s : State) : Option Nat :=
  if !s.cxl.priEn then some 4 else if s.cxl.priSuppressed then some 2 else none

/-- A translation reports a page not present (R274). -/
def State.pageFault (s : State) (pasid page : Nat) (w : Waiter) : State :=
  match s.pageDenied with
  | some d => s.endWaiter d page w
  | none => s.issuePage pasid page w

/-- Faults that waited for an allocation are requested as allocations free. -/
def State.promotePages (s : State) : State :=
  s.cxl.priWait.foldl (fun s x => s.issuePage x.1 x.2.1 x.2.2) { s with cxl := { s.cxl with priWait := [] } }

/-- ATS_INVALIDATION (R273): a translation that completes in the same cycle is discarded and requested again. -/
def onAtsInvalidation (pasid page count : Nat) (s : State) : State :=
  if !s.live ∨ !s.cxl.up ∨ !s.cxl.atsEn then s
  else
    let hit (e : AtcEntry) : Bool := e.pasid == pasid && page ≤ e.page && e.page < page + count
    let s1 : State := { s with cxl := { s.cxl with
      atc := s.cxl.atc.filter fun e => !hit e
      invAt := s.mclk, invs := (pasid, page, count) :: (if s.cxl.invAt = s.mclk then s.cxl.invs else []) } }
    let s2 := (s1.bump 0x9118).emit (.invalidationDone pasid page)
    (s.cxl.atc.filter fun e => hit e && e.since == s.mclk).foldl (fun (s : State) e => s.emit (.translationRequest e.pasid e.page)) s2

/-- The answer to `ATS_INVALIDATION`. -/
def execAtsInvalidation (pasid page count : Nat) (s : State) : Answer := .next (onAtsInvalidation pasid page count s)

/-- TRANSLATION_COMPLETION (R273, R274). -/
def onTranslationCompletion (pasid page : Nat) (r : AtsResult) (w : Waiter) (s : State) : State :=
  if !s.live ∨ !s.cxl.up ∨ !s.cxl.atsEn ∨ !s.cxl.pasidEn then s
  else if s.cxl.invAt = s.mclk ∧ s.cxl.invs.any (fun x => x.1 == pasid && x.2.1 ≤ page && page < x.2.1 + x.2.2) then
    s.emit (.translationRequest pasid page)
  else match r with
    | .present a =>
      { s with cxl := { s.cxl with atc :=
        ({ pasid := pasid, page := page, addr := a, since := s.mclk } :: s.cxl.atc.filter fun e => !(e.pasid == pasid && e.page == page)).take 1024 } }
    | .notPresent => s.pageFault pasid page w

/-- The answer to `TRANSLATION_COMPLETION`. -/
def execTranslationCompletion (pasid page : Nat) (r : AtsResult) (w : Waiter) (s : State) : Answer :=
  .next (onTranslationCompletion pasid page r w s)

/-- Remove a page request. -/
def State.dropPage (s : State) (pasid page : Nat) : State :=
  { s with cxl := { s.cxl with pri := s.cxl.pri.filter fun p => !(p.pasid == pasid && p.page == page) } }

/-- PAGE_REQUEST_RESPONSE (R274). -/
def onPageRequestResponse (pasid page : Nat) (c : PriCode) (s : State) : State :=
  match s.cxl.pri.find? fun p => p.pasid == pasid && p.page == page with
  | none => s
  | some p => match c with
    | .success =>
      (p.waiters.foldl State.resumeWaiter ((s.dropPage pasid page).emit (.translationRequest pasid page))).promotePages
    | .invalid =>
      (p.waiters.foldl (fun s w => s.endWaiter 1 page w) ((s.dropPage pasid page).bump 0x9128)).promotePages
    | .failure =>
      let all := (s.cxl.pri.map fun q => q.waiters.map fun w => (q.page, w)).flatten ++ s.cxl.priWait.map fun x => (x.2.1, x.2.2)
      let s1 : State := { s with cxl := { s.cxl with pri := [], priWait := [], priSuppressed := true } }
      all.foldl (fun s x => s.endWaiter 2 x.1 x.2) (s1.ev 0x0043 .warning 0 0 (4096 * page) 0 0)

/-- The answer to `PAGE_REQUEST_RESPONSE`. -/
def execPageRequestResponse (pasid page : Nat) (c : PriCode) (s : State) : Answer := .next (onPageRequestResponse pasid page c s)

/-- PAGE_REQUEST_TIMEOUT: no response within 2^`PRI_TMO_LOG2` µs (R274). -/
def onPageRequestTimeout (pasid page : Nat) (s : State) : State :=
  match s.cxl.pri.find? fun p => p.pasid == pasid && p.page == page with
  | none => s
  | some p =>
    if s.passed p.deadline then
      let s1 := ((s.dropPage pasid page).bump 0x9130).ev 0x0044 .warning 0 0 (4096 * page) 0 0
      (p.waiters.foldl (fun s w => s.endWaiter 3 page w) s1).promotePages
    else s

/-- The answer to `PAGE_REQUEST_TIMEOUT`. -/
def execPageRequestTimeout (pasid page : Nat) (s : State) : Answer := .next (onPageRequestTimeout pasid page s)

/-- The effect of a write of PRI Enable: setting it after clearing allows page requests again (R274). -/
def State.setPri (s : State) (b : Bool) : State :=
  { s with cxl := { s.cxl with priEn := b, priSuppressed := s.cxl.priSuppressed && !(b && !s.cxl.priEn) } }

/-! ### MSI-X masks (R275) -/

/-- Send the one message of every vector that is pending and no longer masked; none goes out where the link carries CXL.io alone (R261). -/
def State.drainMsix (s : State) : State :=
  (List.range 64).foldl (fun s v =>
    if s.cxl.mode && s.cxl.msixPending.getLsbD v && !s.cxl.msixMasked.getLsbD v && !s.cxl.msixFnMask then
      ({ s with cxl := { s.cxl with msixPending := s.cxl.msixPending &&& ~~~(BitVec.ofNat 64 (2 ^ v)) } } : State).emit (.msix v)
    else s) s

def State.setMask (s : State) (v : Nat) (b : Bool) : State :=
  let m : BitVec 64 := BitVec.ofNat 64 (2 ^ v)
  ({ s with cxl := { s.cxl with msixMasked := if b then s.cxl.msixMasked ||| m else s.cxl.msixMasked &&& ~~~m } } : State).drainMsix

/-- MSIX_MASK_CLEAR: of one vector, or of the function (R275); the table is a locked item (R272). -/
def onMsixMaskClear (vec : Option (Fin 64)) (s : State) : State :=
  if !s.live ∨ !s.cxl.up then s
  else match vec with
    | some v => if s.cxl.msixMasked.getLsbD v.val then s.lockedChange (s.setMask v.val false) 5 else s
    | none => if s.cxl.msixFnMask then ({ s with cxl := { s.cxl with msixFnMask := false } } : State).drainMsix else s

/-- The answer to `MSIX_MASK_CLEAR`. -/
def execMsixMaskClear (vec : Option (Fin 64)) (s : State) : Answer := .next (onMsixMaskClear vec s)

/-! ### Configuration writes (R266, R269, R272, R274) -/

/-- The change one item makes, and the code of the locked item, none for items that are not locked. -/
def State.applyItem (s : State) (i : ConfigItem) : State × Option Nat :=
  match i with
  | .bars v => ({ s with cxl := { s.cxl with bars := v } }, some 1)
  | .memSpaceEnable b => ({ s with cxl := { s.cxl with memSpace := b } }, some 1)
  | .busMaster b => (s.setBusMaster b, some 1)
  | .priEnable b => (s.setPri b, some 4)
  | .window b z =>
    if s.cxl.dec.committed then (s.busyWrite 0x9008, none)
    else ((s.setReg 0x9008 (clampNat 0 9215 (b % 2 ^ 14))).setReg 0x900C (clampNat 1 9216 (z % 2 ^ 14)), some 2)
  | .decoderUncommit => ({ s with cxl := { s.cxl with dec := { s.cxl.dec with committed := false } } }, some 2)
  | .ideSettings v => ({ s with cxl := { s.cxl with ideSettings := v } }, some 3)
  | .atsEnable b => ({ s with cxl := { s.cxl with atsEn := b } }, some 4)
  | .pasidEnable b => ({ s with cxl := { s.cxl with pasidEn := b } }, some 4)
  | .msixMask v b => (s.setMask v.val b, some 5)
  | .msixFunctionMask b => (({ s with cxl := { s.cxl with msixFnMask := b } } : State).drainMsix, none)
  | .memEnable b => ({ s with cxl := { s.cxl with memEn := b } }, none)
  | .priAllocation n => ({ s with cxl := { s.cxl with priAlloc := n } }, none)
  | .msixEntry v a x => ({ s with cxl := { s.cxl with msixTable := tblSet (fun _ => (0, 0)) s.cxl.msixTable v.val (a % 2 ^ 64, x % 2 ^ 32) } }, some 5)
  | .powerState d3 => (s.withCxl { s.cxl with d3 := d3 }, none)
  | .aspmL1 b => ({ s with cxl := { s.cxl with aspmL1 := b } }, none)
  | .aerClear m => ({ s with cxl := { s.cxl with aer := s.cxl.aer &&& ~~~m } }, none)
  | .rasClear m => ({ s with cxl := { s.cxl with rasUncor := s.cxl.rasUncor &&& ~~~m } }, none)

/-- Configuration space answers (R276). -/
def State.configOpen (s : State) : Bool := s.cxl.up && (s.pwr.phase == .running || s.pwr.phase == .recovery) && s.pwr.resetting.isNone

/-- A configuration request that finds no configuration space yet is answered with Request Retry Status (R276). -/
def State.configDenied (s : State) : State := if s.cxl.up then s.emit .configRetry else s

/-- LOCKED_ITEM_CHANGE: a write of a configuration item. In CONFIG_UNLOCKED it takes effect; in CONFIG_LOCKED and RUN a
change of a locked item moves the TDI to ERROR (R272). -/
def onLockedItemChange (i : ConfigItem) (s : State) : State :=
  if !s.configOpen then s.configDenied
  else
    let r := s.applyItem i
    match r.2 with
    | some item => if r.1 = s then s else s.lockedChange r.1 item
    | none => r.1

/-- The answer to `LOCKED_ITEM_CHANGE`. -/
def execLockedItemChange (i : ConfigItem) (s : State) : Answer := .next (onLockedItemChange i s)

/-- BUS_MASTER_ENABLE_WRITE (R266). -/
def onBusMasterEnableWrite (b : Bool) (s : State) : State :=
  if !s.configOpen then s.configDenied
  else if s.cxl.busMaster = b then s else s.lockedChange (s.setBusMaster b) 1

/-- The answer to `BUS_MASTER_ENABLE_WRITE`. -/
def execBusMasterEnableWrite (b : Bool) (s : State) : Answer := .next (onBusMasterEnableWrite b s)

/-- PRI_ENABLE_WRITE (R274). -/
def onPriEnableWrite (b : Bool) (s : State) : State :=
  if !s.configOpen then s.configDenied
  else if s.cxl.priEn = b then s else s.lockedChange (s.setPri b) 4

/-- The answer to `PRI_ENABLE_WRITE`. -/
def execPriEnableWrite (b : Bool) (s : State) : Answer := .next (onPriEnableWrite b s)

/-- CACHE_ENABLE_WRITE (R269). -/
def onCacheEnableWrite (b : Bool) (lines : List (Nat × List Byte)) (s : State) : State :=
  if !s.configOpen then s.configDenied else s.setCacheEnable b lines

/-- The answer to `CACHE_ENABLE_WRITE`. -/
def execCacheEnableWrite (b : Bool) (lines : List (Nat × List Byte)) (s : State) : Answer := .next (onCacheEnableWrite b lines s)

/-! ### Link (R261, R277) -/

/-- LINK_DEGRADED names a width below ×16 or a rate below 128 GT/s (R261). -/
def State.linkDegraded (s : State) (l : LinkUp) : State :=
  if l.rate.val ≠ 2 ∨ l.width.val ≠ 2 then s.ev 0x0040 .warning 0 (l.width.val + 16 * l.rate.val) 0 0 0 else s

/-- CXL_LINK_UP (R261): CXL at 32 GT/s or above in 256-byte flit mode, otherwise PCIe with CXL.io alone. With a host attached
the scrub of a host loss is not followed by A2 (17 R423). A link that is up has retrained: its protocols stay as they were negotiated, but
no CXL runs below 32 GT/s. -/
def onCxlLinkUp (l : LinkUp) (s : State) : State :=
  if s.pwr.phase = .held ∨ s.pwr.phase = .lockLost then s
  else if s.cxl.up then
    ((s.withCxl { s.cxl with mode := s.cxl.mode && l.rate.val != 3, rate := l.rate.val, width := l.width.val }).bump 0x9108).linkDegraded l
  else
    let s1 := (s.withCxl { s.cxl with
      up := true, mode := l.cxl && l.rate.val != 3, rate := l.rate.val, width := l.width.val, everUp := true }).drainMsix
    let s2 := if s.cxl.everUp then s1.bump 0x9108 else s1
    let s3 := s2.linkDegraded l
    if s3.cxl.orphan then s3.wake .none else s3

/-- The answer to `CXL_LINK_UP`. -/
def execCxlLinkUp (l : LinkUp) (s : State) : Answer := .next (onCxlLinkUp l s)

/-- CXL_LINK_DOWN: the link leaves L0 other than through a reset, or the data link goes down (R277). Host loss stops the Cage, kills every
slot and gives up host bias; HOST_LOST and A2 follow the scrub. -/
def onCxlLinkDown (s : State) : State :=
  if !s.cxl.up ∨ s.pwr.resetting.isSome then s
  else
    let loss := (List.range 8).any (fun n => s.loaded n || (s.slot n).loading) || (List.range 32).any s.ringEn
    let s1 : State := { s with cxl := { s.cxl with up := false, mode := false, orphan := true } }
    if loss then
      let s2 : State := { s1 with
        cxl := { s1.cxl with hostLoss := true, cageStopped := true }
        cage := { s1.cage with held := [], waiting := [] } }
      let s3 := s2.killAll
      ({ s3 with hbm := { s3.hbm with hostBias := [] } } : State).lossScrubbed
    else s1.hostLost.lossIdle

/-- The answer to `CXL_LINK_DOWN`. -/
def execCxlLinkDown (s : State) : Answer := .next (onCxlLinkDown s)

end Sys2Proof.Machine
end

