-- ==== Sys2Proof/Machine/Security.lean ====
section
/-! DEFINITION. SPDM, measurements, debug unlock, weight bundles and sealed regions (16). SPDM response codes are PRESUMED
from the SPDM standard (log entry 7). -/
namespace Sys2Proof.Machine

/-! ### SPDM (R391 to R394) -/

/-- The SPDM responder answers: the Headframe controller has booted (19 R471), over DOE on the link or over MCTP (`m`; R391). -/
def State.spdmUp (s : State) (m : Bool) : Bool := s.live && (m || s.cxl.up)

/-- A response on the bus of its request: over DOE at once, over MCTP as a message that waits for the bus (19 R476). -/
def State.spdm (s : State) (m : Bool) (code : Nat) (body : List Byte) : State :=
  if m then s.holdMctp { type := 5, code := code, body := body } else s.emit (.spdm code body)

def spdmError : Nat := 0x7F

/-- GET_VERSION (R391). -/
def onGetVersion (m : Bool) (s : State) : State :=
  if s.spdmUp m then ({ s with sec := { s.sec with conn := .version } } : State).spdm m 0x04 (Config.spdmBody 0x84 [] 0)
  else s

/-- The answer to `GET_VERSION`. -/
def execGetVersion (s : State) (m : Bool := false) : Answer := .next (onGetVersion m s)

/-- GET_CAPABILITIES (R392): the capabilities of Table 16-2. -/
def onGetCapabilities (m : Bool) (s : State) : State :=
  if !s.spdmUp m then s
  else if s.sec.conn = .none ∨ s.sec.conn = .failed then s.spdm m spdmError []
  else ({ s with sec := { s.sec with conn := .capabilities } } : State).spdm m 0x61 (Config.spdmBody 0xE1 [] 0)

/-- The answer to `GET_CAPABILITIES`. -/
def execGetCapabilities (s : State) (m : Bool := false) : Answer := .next (onGetCapabilities m s)

/-- NEGOTIATE_ALGORITHMS (R391): an offer without the SM2, SM3, SM4 member of any one class gets ERROR. -/
def onNegotiateAlgorithms (m : Bool) (o : SpdmOffer) (s : State) : State :=
  if !s.spdmUp m then s
  else if s.sec.conn ≠ .capabilities then s.spdm m spdmError []
  else if o.asym && o.hash && o.measHash && o.dhe && o.aead && o.keySched then
    ({ s with sec := { s.sec with conn := .negotiated } } : State).spdm m 0x63 (Config.spdmBody 0xE3 [] 0)
  else ({ s with sec := { s.sec with conn := .failed } } : State).spdm m spdmError []

/-- The answer to `NEGOTIATE_ALGORITHMS`. -/
def execNegotiateAlgorithms (o : SpdmOffer) (s : State) (m : Bool := false) : Answer := .next (onNegotiateAlgorithms m o s)

def State.negotiated (s : State) : Bool := s.sec.conn == .negotiated

/-- GET_CERTIFICATE (R393): a portion of the chain of slot 0. Slots 1 to 7 are not supported (Table 16-2). -/
def onGetCertificate (m : Bool) (slot offset len : Nat) (s : State) : State :=
  if !s.spdmUp m then s
  else if !s.negotiated ∨ slot ≠ 0 then s.spdm m spdmError []
  else s.spdm m 0x02 ((Config.certChain.drop offset).take len)

/-- The answer to `GET_CERTIFICATE`. -/
def execGetCertificate (slot offset len : Nat) (s : State) (m : Bool := false) : Answer := .next (onGetCertificate m slot offset len s)

/-- The value of a measurement index, taken when the response is built (R394). -/
def State.measurement (s : State) (i : Nat) : List Byte :=
  if i = 1 then leBytes 4 Config.romVersion.toNat
  else if i = 2 then s.sec.meas2
  else if i = 3 then leBytes 1 s.sec.bootSvn ++ leBytes 1 s.sec.rollback
  else if i = 4 then s.sec.meas4
  else if i = 5 then leBytes 1 (b2n (s.sec.dbg == .unlocked)) ++ leBytes 4 s.sec.scope
  else if 16 ≤ i ∧ i < 24 then
    (match (s.slot (i - 16)).survey with | some v => slice v.digest 0 32 | none => zeroBytes 32)
  else if 32 ≤ i ∧ i < 48 then (match s.sealedAt (i - 32) with | some x => slice x.bsetId 0 32 | none => zeroBytes 32)
  else []

/-- The measurement indices of Table 16-3, in increasing order. -/
def measIndices : List Nat := [1, 2, 3, 4, 5] ++ (List.range 8).map (16 + ·) ++ (List.range 16).map (32 + ·)

/-- The TCB measurement summary hash and the all-measurements summary (R394). -/
def State.measSummary (s : State) (idx : List Nat) : List Byte := sm3 ((idx.map s.measurement).flatten)

/-- CHALLENGE (R393): signed with the identity key; the nonce comes from the generator (R388). -/
def onChallenge (m : Bool) (slot : Nat) (nonce : List Byte) (s : State) : State :=
  if !s.spdmUp m then s
  else if !s.negotiated ∨ slot ≠ 0 then s.spdm m spdmError []
  else
    let body := sm3 Config.certChain ++ s.drbg 32 ++ s.measSummary [1, 2, 3, 4, 5]
    (s.spdm m 0x03 (body ++ Config.sm2Sign (sm3 (nonce ++ body)) s.fresh)).draw

/-- The answer to `CHALLENGE`. -/
def execChallenge (slot : Nat) (nonce : List Byte) (s : State) (m : Bool := false) : Answer := .next (onChallenge m slot nonce s)

/-- GET_MEASUREMENTS (R394). -/
def onGetMeasurements (m : Bool) (q : MeasReq) (sign : Bool) (nonce : List Byte) (s : State) : State :=
  if !s.spdmUp m then s
  else if !s.negotiated then s.spdm m spdmError []
  else
    let blocks : List Byte := match q with
      | .count => leBytes 1 measIndices.length
      | .one i => leBytes 1 i ++ s.measurement i
      | .all => (measIndices.map fun i => leBytes 1 i ++ s.measurement i).flatten
    if sign then
      let body := blocks ++ s.drbg 32
      (s.spdm m 0x60 (body ++ Config.sm2Sign (sm3 (nonce ++ body)) s.fresh)).draw
    else s.spdm m 0x60 blocks

/-- The answer to `GET_MEASUREMENTS`. -/
def execGetMeasurements (q : MeasReq) (sign : Bool) (nonce : List Byte) (s : State) (m : Bool := false) : Answer :=
  .next (onGetMeasurements m q sign nonce s)

/-- KEY_EXCHANGE (R392): at most 4 secured sessions, over all transports. -/
def onKeyExchange (m : Bool) (s : State) : State :=
  if !s.spdmUp m then s
  else if !s.negotiated then s.spdm m spdmError []
  else if 4 ≤ s.sec.sessions.length then s.spdm m spdmError [0x0A]
  else
    let n := s.sec.sessionSerial
    (({ s with sec := { s.sec with sessions := s.sec.sessions ++ [{ id := n, keyGen := 0 }], sessionSerial := n + 1 } } : State).spdm m 0x64 (s.drbg 64)).draw

/-- The answer to `KEY_EXCHANGE`. -/
def execKeyExchange (s : State) (m : Bool := false) : Answer := .next (onKeyExchange m s)

/-- KEY_UPDATE (R392). -/
def onKeyUpdate (m : Bool) (id : Nat) (s : State) : State :=
  if s.spdmUp m && s.sec.sessions.any fun x => x.id == id then
    ({ s with sec := { s.sec with sessions := s.sec.sessions.map fun x =>
        if x.id = id then { x with keyGen := x.keyGen + 1 } else x } } : State).spdm m 0x69 []
  else s

/-- The answer to `KEY_UPDATE`. -/
def execKeyUpdate (id : Nat) (s : State) (m : Bool := false) : Answer := .next (onKeyUpdate m id s)

def State.closeSession (s : State) (id : Nat) : State :=
  { s with sec := { s.sec with sessions := s.sec.sessions.filter fun x => x.id != id } }

/-- END_SESSION (R392). -/
def onEndSession (m : Bool) (id : Nat) (s : State) : State :=
  if s.spdmUp m && s.sec.sessions.any fun x => x.id == id then (s.closeSession id).spdm m 0x6C [] else s

/-- The answer to `END_SESSION`. -/
def execEndSession (id : Nat) (s : State) (m : Bool := false) : Answer := .next (onEndSession m id s)

/-- HEARTBEAT_TIMEOUT (R392). -/
def onHeartbeatTimeout (id : Nat) (s : State) : State := s.closeSession id

/-- The answer to `HEARTBEAT_TIMEOUT`. -/
def execHeartbeatTimeout (id : Nat) (s : State) : Answer := .next (onHeartbeatTimeout id s)

/-- CDAT_READ on DOE instance 1 (11 R263). -/
def onCdatRead (s : State) : State :=
  if s.live ∧ s.cxl.up then s.emit (.doe (Config.cdatBytes s.winBase s.winSize)) else s

/-- The answer to `CDAT_READ`. -/
def execCdatRead (s : State) : Answer := .next (onCdatRead s)

/-! ### Debug unlock (R407 to R411, R413) -/

/-- Byte `b` of `DBG_TOKEN` (R413). -/
def State.token (s : State) : List Byte := ((List.range 64).map fun i => leBytes 4 (s.reg (0x8100 + 4 * i))).flatten

/-- Writing 1 to `DBG_CTL.CHAL_NEW` (R408). -/
def State.chalNew (s : State) : State := ({ s with sec := { s.sec with chal := some (s.drbg 32) } } : State).draw

/-- The `RESULT` of a SUBMIT (Table 16-10): the first failing check in the order 2 to 7, or 1. -/
def State.tokenResult (s : State) : Nat :=
  let t := s.token
  let sc := leAt t 4 4
  if leAt t 0 4 ≠ 0x4B4F5444 ∨ 4 ≤ sc ∨ !zeroAt t 176 80 then 2
  else if leAt t 8 8 ≠ Config.unitId.toNat then 3
  else if s.sec.chal ≠ some (slice t 16 32) then 4
  else if sm3 (slice t 48 64) ≠ Config.dbgKeyDigest then 5
  else if !Config.sm2Verify (slice t 48 64) (sm3 (slice t 0 112)) (slice t 112 64) then 6
  else if s.tdiFrozen then 7 else 1

/-- Stop a bundle engine job with PREEMPTED; the region of a load is released (R401, R410). -/
def State.stopBundles (s : State) : State :=
  s.cage.started.foldl (fun s d => match d.kind with
    | .bundleLoad j => (if j.header.isEmpty then s else s.releaseSealed j.region).complete d stPreempted 0 []
    | .sealExport _ => s.complete d stPreempted 0 []
    | _ => s) s

/-- Writing 1 to `DBG_CTL.SUBMIT` (R409 to R411). -/
def State.dbgSubmit (s : State) : State :=
  if s.sec.dbg = .unlocked then { s with sec := { s.sec with dbgResult := 1, chal := none } }
  else
    let r := s.tokenResult
    let s1 : State := { s with sec := { s.sec with dbgResult := r, chal := none } }
    if r = 1 then
      let s2 : State := { s1 with sec := { s1.sec with dbg := .scrubbing, scopeWait := leAt s.token 4 4 % 4 } }
      ((s2.killAll).stopBundles).releaseSealedWhere fun _ => true
    else s1.ev 0x0070 .warning 0 r 0 0 0

/-- Writes to `DBG_CTL`: ignored with CFG_BUSY_WRITE while VERIFYING or SCRUBBING (R413, 00 R7). -/
def State.dbgCtlWrite (s : State) (w : Nat) : State :=
  if s.sec.dbg = .verifying ∨ s.sec.dbg = .scrubbing then s.busyWrite 0x8040
  else
    let s1 := if bitAt w 0 then s.chalNew else s
    if bitAt w 1 then s1.dbgSubmit else s1

/-- DEBUG_UNLOCK_SCRUB_DONE (R410): every slot killed and scrubbed, every sealed region released; sessions end, index 5 is
set, and the token's scope opens. -/
def onDebugUnlockScrubDone (s : State) : State :=
  if s.sec.dbg = .scrubbing ∧ (List.range 8).all (fun n => !(s.slot n).killing) then
    let s1 := (s.sec.sealed.map (·.1)).foldl State.freeSealed s
    ({ s1 with sec := { s1.sec with sessions := [], dbg := .unlocked, scope := s.sec.scopeWait } } : State).ev
      0x0071 .info 0 s.sec.scopeWait 0 0 0
  else s

/-- The answer to `DEBUG_UNLOCK_SCRUB_DONE`. -/
def execDebugUnlockScrubDone (s : State) : Answer := .next (onDebugUnlockScrubDone s)

/-! ### Host memory by commands (11 R273, R274) -/

/-- What reading `n` bytes of host memory meets first: a page not present, or a completion error. -/
inductive HostRead where
  | ok (bs : List Byte)
  | absent (page : Nat)
  | error
  deriving DecidableEq, Repr

/-- Read host memory; without a PASID the access is untranslated and a failure is a completion error (R273). -/
def HostView.range (v : HostView) (translated : Bool) (a : Nat) : Nat → HostRead
  | 0 => .ok []
  | n + 1 =>
    match v.read a with
    | .ok b => (match v.range translated (a + 1) n with | .ok bs => .ok (b :: bs) | r => r)
    | .absent => if translated then .absent (a / 4096) else .error
    | .ioError => .error

/-- A command's host access meets a page not present: it waits on the page request, or ends at once (R274). -/
def State.waitPage (s : State) (d : Started) (page : Nat) (kind : StartedKind) : State :=
  (s.setKind d.serial kind).pageFault (s.ringPasid d.ring.val) page (.cmd d.serial)

/-! ### Bundles (R397 to R401) -/

/-- Start of the ciphertext: PO (R397). -/
def bundlePo (nmemb : Nat) : Nat := 4096 * ceilDiv (320 + 224 * nmemb) 4096

/-- The unit IDs of a member table. -/
def memberUids (table : List Byte) (n : Nat) : List Nat := (List.range n).map fun i => leAt table (224 * i) 8
/-- The entry of a unit ID. -/
def memberOf (table : List Byte) (n uid : Nat) : Option (List Byte) :=
  ((List.range n).find? fun i => leAt table (224 * i) 8 == uid).map fun i => slice table (224 * i) 224

def rising : List Nat → Bool
  | a :: b :: t => a < b && rising (b :: t)
  | _ => true

/-- The checks of Table 16-6 except the tag, in order; 0 when all pass. `h` is bytes 0 to PO − 1 of the bundle. -/
def bundleCheck (h : List Byte) (len : Nat) (tag : List Byte) : Nat :=
  let kind := leAt h 5 1
  let nm := leAt h 6 2
  let pl := leAt h 8 8
  let table := slice h 256 (224 * nm)
  let signer := slice h (256 + 224 * nm) 64
  let fmt := leAt h 0 4 = 0x4C444E42 ∧ leAt h 4 1 = 1 ∧ (kind = 1 ∨ kind = 2) ∧ 1 ≤ nm ∧ nm ≤ 1024 ∧
    pl % 4096 = 0 ∧ 4096 ≤ pl ∧ zeroAt h 28 4 ∧ zeroAt h 232 24 ∧ rising (memberUids table nm) ∧
    (List.range nm).all (fun i => zeroAt table (224 * i + 8) 8 && zeroAt table (224 * i + 193) 31) ∧
    len = bundlePo nm + pl + 16 ∧
    (kind = 2 ∨ (leAt h 192 8 = 0 ∧ zeroAt h 200 32 ∧ zeroAt signer 0 64))
  if ¬fmt then 1
  else if sm3 (slice h 64 64 ++ table) ≠ slice h 32 32 then 2
  else if !Config.sm2Verify (slice h 64 64) (slice h 32 32) (slice h 128 64) then 3
  else match memberOf table nm Config.unitId.toNat with
    | none => 4
    | some e =>
      if (Config.sm2Unwrap (slice e 80 113)).isNone then 5
      else if kind = 2 then
        (match memberOf table nm (leAt h 192 8) with
         | none => 6
         | some m => if Config.sm2Verify (slice m 16 64) (sm3 (slice h 0 256 ++ tag)) signer then 0 else 6)
      else 0

def bundleLoadSpec : CmdSpec :=
  { opcode := 0x0C, usesSlot := false, admin := true, operands := [(128, 64), (192, 64), (256, 48), (320, 8)]
    needsSurvey := false, entries := 1 }

/-- The lowest free region number (10 R246). -/
def State.freeRegion (s : State) : Option Nat := (List.range 16).find? fun r => (s.sealedAt r).isNone

/-- The extent of one side of a COPY: its lowest address and its length, from the lowest to the highest byte the walk
touches (12 R292). -/
def copySpan (desc : List Byte) (dst : Bool) : Int × Nat :=
  let base := leAt desc (if dst then 24 else 16) 8
  let c := copyCounts desc
  let so := if dst then 64 else 48
  let fmt := bits (byteAt desc 32) (if dst then 4 else 0) 4
  let stride (i : Nat) : Int := signed 32 (leAt desc (so + 4 * i) 4)
  let span (i : Nat) : Int := stride i * ((c.getD (i + 1) 1 : Nat) - 1 : Int)
  let low : Int := min 0 (span 0) + min 0 (span 1) + min 0 (span 2)
  let high : Int := max 0 (span 0) + max 0 (span 1) + max 0 (span 2)
  (base + low, (high - low).toNat + packedBytes (fmtBits fmt) (c.getD 0 1))

/-- The extent of a side whose lowest address is not negative. -/
def copySide (desc : List Byte) (dst : Bool) : Nat × Nat := ((copySpan desc dst).1.toNat, (copySpan desc dst).2)

/-- A started COPY has a device-side extent that overlaps a range (R401). -/
def State.copyOver (s : State) (a n : Nat) : Bool :=
  s.cage.started.any fun d => match d.kind with
    | .copy j =>
      (bits (byteAt j.desc 33) 4 2 == 1 && (let e := copySide j.desc false; overlaps a n e.1 e.2)) ||
      (bits (byteAt j.desc 33) 6 2 == 1 && (let e := copySide j.desc true; overlaps a n e.1 e.2))
    | _ => false

/-- Checks 1 to 3 of R400 once the header can be read: operands, header and member table, creation. -/
def State.bundleCheckStart (s : State) (d : Started) (tee : Bool) (desc : List Byte) (view : HostView) : State :=
  let src := leAt desc 16 8
  let len := leAt desc 24 8
  let dst := leAt desc 32 6
  let tr := s.ringPasidEn d.ring.val
  match view.range tr src 256 with
  | .absent p => s.waitPage d p (.bundleLoad { header := [], tee := tee, region := 0, desc := desc, waiting := some (s.ringPasid d.ring.val, p) })
  | .error => s.complete d stHostAccess 0 []
  | .ok h0 =>
    let nm := leAt h0 6 2
    let pl := leAt h0 8 8
    let size := 4096 * ceilDiv pl 4096
    if hbmSize < dst + size then s.complete d stAddressInvalid 0 []
    else if (List.range 8).any (fun n => match (s.slot n).survey with
          | some v => v.regions.any fun r => overlaps dst size r.base r.len | none => false) ∨
        s.hbm.hostBias.any (fun p => overlaps dst size (p * 2 ^ 21) (2 ^ 21)) ∨ s.sec.dbg ≠ .locked then
      s.complete d stNotPermitted 0 []
    else match s.freeRegion with
      | none => s.complete d stResourceExhausted 0 []
      | some r =>
        if (s.sealedIn dst size).isSome then s.complete d stResourceExhausted 0 []
        else match view.range tr src (min (bundlePo nm) 233472) with
          | .absent p => s.waitPage d p (.bundleLoad { header := [], tee := tee, region := 0, desc := desc, waiting := some (s.ringPasid d.ring.val, p) })
          | .error => s.complete d stHostAccess 0 []
          | .ok h => match (if leAt h 5 1 = 2 then view.range tr (src + bundlePo nm + pl) 16 else .ok []) with
          | .absent p => s.waitPage d p (.bundleLoad { header := [], tee := tee, region := 0, desc := desc, waiting := some (s.ringPasid d.ring.val, p) })
          | .error => s.complete d stHostAccess 0 []
          | .ok tag =>
            let c := bundleCheck h len tag
            if c ≠ 0 then s.complete d stBundleInvalid c []
            else
              let k := match memberOf (slice h 256 (224 * nm)) nm Config.unitId.toNat with
                | some e => (Config.sm2Unwrap (slice e 80 113)).getD [] | none => []
              let x : Sealed :=
                { slots := BitVec.ofNat 8 (leAt desc 40 1), basePg := dst / 4096, limitPg := dst / 4096 + ceilDiv pl 4096
                  kBind := k, bsetId := slice h 32 32, owner := slice h 64 128, members := slice h 256 (224 * nm)
                  teeBound := tee, releasing := false }
              let s1 : State := { s with sec := { s.sec with sealed := tblSet (fun _ => none) s.sec.sealed r (some x) } }
              s1.setKind d.serial (.bundleLoad { header := slice h 0 256, tee := tee, region := r, desc := desc, waiting := none })

/-- BUNDLE_LOAD (R400, R401, R411, 18 R451). `view` is host memory at `SRC`. -/
def onBundleLoad (d : Desc) (view : HostView) (s : State) : State :=
  let dst := leAt d.bytes 32 6
  let pl := match view.range true (leAt d.bytes 16 8 + 8) 8 with | .ok b => leAt b 0 8 | _ => 0
  s.startCmd bundleLoadSpec d (!s.copyOver dst (4096 * ceilDiv pl 4096))
    (.bundleLoad { header := [], tee := s.cxl.tdi == .run, region := 0, desc := d.bytes, waiting := none }) fun s st =>
      if s.ras.service then (s.orderLost 0x200 .limit 2 .ordinary 0).complete st stPreempted 0 []
      else if dst % 4096 ≠ 0 then s.complete st stInvalidArgument 0 []
      else s.bundleCheckStart st (s.cxl.tdi == .run) d.bytes view

/-- The answer to `BUNDLE_LOAD`. -/
def execBundleLoad (d : Desc) (view : HostView) (s : State) : Answer := .next (onBundleLoad d view s)

/-- The oldest job of the bundle engine (R401). -/
def State.engineJob (s : State) : Option Started :=
  s.cage.started.find? fun d => match d.kind with | .bundleLoad _ => true | .sealExport _ => true | _ => false

/-- K_ckpt of a salt (R387). -/
def ckptKey (k salt : List Byte) : List Byte := sm2Kdf (k ++ ascii "SE9624-CKPT" ++ salt) 16

/-- Steps 4 and 5 of R400: the payload and the tag. A region released meanwhile (R396) ends the load with PREEMPTED (log entry 24). -/
def State.bundleFinish (s : State) (d : Started) (j : BundleJob) (view : HostView) : State :=
  let nm := leAt j.header 6 2
  let pl := leAt j.header 8 8
  match s.sealedAt j.region with
  | none => s.complete d stPreempted 0 []
  | some x =>
    if x.releasing then s.complete d stPreempted 0 []
    else match view.range (s.ringPasidEn d.ring.val) (leAt j.desc 16 8 + bundlePo nm) (pl + 16) with
    | .absent p => s.waitPage d p (.bundleLoad { j with waiting := some (s.ringPasid d.ring.val, p) })
    | .error => (s.freeSealed j.region).complete d stHostAccess 0 []
    | .ok data =>
      let key := if leAt j.header 5 1 = 2 then ckptKey x.kBind (slice j.header 200 32) else x.kBind
      let iv := slice j.header 16 12
      let ct := data.take pl
      if Config.gcmTag key iv j.header ct = data.drop pl then
        ((s.hbmWrite x.base (slice (Config.gcmDecrypt key iv j.header ct) 0 pl)).complete d stSuccess 0 (leBytes 1 j.region))
      else (s.freeSealed j.region).complete d stBundleInvalid 7 []

/-- BUNDLE_LOAD_COMPLETE: the engine finishes its oldest load; a load that waited for its header is checked first. -/
def onBundleLoadComplete (view : HostView) (s : State) : State :=
  match s.engineJob with
  | some d => match d.kind with
    | .bundleLoad j =>
      if !s.live ∨ j.waiting.isSome ∨ !s.busOn then s
      else if j.header.isEmpty then s.bundleCheckStart d j.tee j.desc view
      else s.bundleFinish d j view
    | _ => s
  | none => s

/-- The answer to `BUNDLE_LOAD_COMPLETE`. -/
def execBundleLoadComplete (view : HostView) (s : State) : Answer := .next (onBundleLoadComplete view s)

/-! ### SEAL_RELEASE and SEAL_EXPORT (R405, R406) -/

def sealReleaseSpec : CmdSpec :=
  { opcode := 0x0D, usesSlot := false, admin := true, operands := [(128, 4)], needsSurvey := false, entries := 1 }
def sealExportSpec : CmdSpec :=
  { opcode := 0x0E, usesSlot := false, admin := true, operands := [(128, 4), (192, 64), (256, 64)]
    needsSurvey := false, entries := 1 }

/-- A SEAL_EXPORT of the region is in progress. -/
def State.exporting (s : State) (r : Nat) : Bool :=
  s.cage.started.any fun d => match d.kind with | .sealExport j => j.region == r | _ => false

/-- A loaded Survey has a region marked `SEALED` inside the sealed region (R405). -/
def State.sealUsed (s : State) (x : Sealed) : Bool :=
  (List.range 8).any fun n => match (s.slot n).survey with
    | some v => v.regions.any fun r => r.isSealed && overlaps x.base x.len r.base r.len | none => false

/-- SEAL_RELEASE (R405). -/
def onSealRelease (d : Desc) (s : State) : State :=
  let r := leAt d.bytes 16 1 % 16
  s.startCmd sealReleaseSpec d (!s.exporting r) (.sealRelease r) fun s st =>
    match s.sealedAt r with
    | none => s.complete st stInvalidArgument 0 []
    | some x => if s.sealUsed x then s.complete st stNotPermitted 0 [] else s.releaseSealed r

/-- The answer to `SEAL_RELEASE`. -/
def execSealRelease (d : Desc) (s : State) : Answer := .next (onSealRelease d s)

/-- SEAL_RELEASE_COMPLETE: the Mucker has zeroed a released region; it is freed, and a SEAL_RELEASE of it completes. -/
def onSealReleaseComplete (r : Fin 16) (s : State) : State :=
  match s.sealedAt r.val with
  | some x =>
    if x.releasing then
      (s.cage.started.foldl (fun s d => match d.kind with
        | .sealRelease k => if k = r.val then s.complete d stSuccess 0 [] else s
        | _ => s) (s.freeSealed r.val))
    else s
  | none => s

/-- The answer to `SEAL_RELEASE_COMPLETE`. -/
def execSealReleaseComplete (r : Fin 16) (s : State) : Answer := .next (onSealReleaseComplete r s)

/-- Length of the checkpoint bundle of a region (R397, R406). -/
def Sealed.bundleLen (x : Sealed) : Nat := bundlePo (x.members.length / 224) + x.len + 16

/-- A RUN_STEP of any slot in the region's set is in progress (R406). -/
def State.setRunning (s : State) (x : Sealed) : Bool :=
  (List.range 8).any fun n => x.slots.getLsbD n && s.running n

/-- SEAL_EXPORT (R406). -/
def onSealExport (d : Desc) (s : State) : State :=
  let r := leAt d.bytes 16 1 % 16
  let busy := match s.sealedAt r with | some x => s.setRunning x | none => false
  s.startCmd sealExportSpec d (!busy) (.sealExport { header := [], region := r, desc := d.bytes, waiting := none }) fun s st =>
    match s.sealedAt r with
    | none => s.complete st stInvalidArgument 0 []
    | some x => if leAt d.bytes 32 8 < x.bundleLen then s.complete st stInvalidArgument 0 [] else s

/-- The answer to `SEAL_EXPORT`. -/
def execSealExport (d : Desc) (s : State) : Answer := .next (onSealExport d s)

/-- The checkpoint bundle of a region, with IV and salt drawn fresh (R399, R406). -/
def State.checkpoint (s : State) (x : Sealed) : List Byte :=
  let nm := x.members.length / 224
  let salt := s.drbg 32
  let iv := (List.range 12).map fun i => Config.drbgByte s.fresh (32 + i)
  let header := leBytes 4 0x4C444E42 ++ leBytes 1 1 ++ leBytes 1 2 ++ leBytes 2 nm ++ leBytes 8 x.len ++ iv ++ zeroBytes 4 ++
    slice x.bsetId 0 32 ++ slice x.owner 0 128 ++ leBytes 8 Config.unitId.toNat ++ salt ++ zeroBytes 24
  let key := ckptKey x.kBind salt
  let ct := Config.gcmEncrypt key iv header (s.hbmBytes x.base x.len)
  let tag := Config.gcmTag key iv header ct
  let pre := header ++ x.members ++ Config.sm2Sign (sm3 (header ++ tag)) s.fresh
  slice pre 0 (bundlePo nm) ++ ct ++ tag

/-- SEAL_EXPORT_COMPLETE: the engine writes its oldest export (R406). An uncorrectable line ends it with
HBM_UNCORRECTABLE, a failed host write with HOST_ACCESS_ERROR. -/
def onSealExportComplete (view : HostView) (s : State) : State :=
  match s.engineJob with
  | some d => match d.kind with
    | .sealExport j =>
      if !s.live ∨ j.waiting.isSome ∨ !s.busOn then s
      else match s.sealedAt j.region with
        | none => s.complete d stPreempted 0 []
        | some x =>
          match s.firstUe x.base x.len with
          | some l => (s.hbmUe l 0).complete d stHbmUncorrectable 0 (leBytes 8 0)
          | none =>
            let tr := s.ringPasidEn d.ring.val
            let dst := leAt j.desc 24 8
            match view.range tr dst x.bundleLen with
            | .absent p => s.waitPage d p (.sealExport { j with waiting := some (s.ringPasid d.ring.val, p) })
            | .error => s.complete d stHostAccess 0 (leBytes 8 0)
            | .ok _ =>
              let s1 := (s.hbmRead x.base x.len).emit
                (.hostWrite (if tr then some (s.ringPasid d.ring.val) else none) dst (s.checkpoint x))
              (s1.complete d stSuccess 0 (leBytes 8 x.bundleLen)).draw
    | _ => s
  | none => s

/-- The answer to `SEAL_EXPORT_COMPLETE`. -/
def execSealExportComplete (view : HostView) (s : State) : Answer := .next (onSealExportComplete view s)

end Sys2Proof.Machine
end

