-- ==== Sys2Proof/Machine/Walk.lean ====
section
/-! DEFINITION. Address-generator walks: positions of a tile, padding, bounds, coalescing, corner turn, bank accesses (04 R84 to
R99, R102, R103; 05 R138; 06 R153). -/
namespace Sys2Proof.Machine

/-! ### Positions of a tile (R92 to R94, R99) -/

/-- Re-arm key of a slot's template. -/
def streamKey (slot tmpl : Nat) : Nat := 65536 * slot + tmpl
def State.stream (s : State) (slot tmpl : Nat) : StreamRun := tblGet (fun _ => StreamRun.init) s.flow.streams (streamKey slot tmpl)
def State.setStream (s : State) (slot tmpl : Nat) (x : StreamRun) : State :=
  { s with flow := { s.flow with streams := tblSet (fun _ => StreamRun.init) s.flow.streams (streamKey slot tmpl) x } }

/-- The re-arm values in force, as they stood when the stream took their entry (R138). -/
def State.rearmOf (s : State) (r : StRef) (e : Entry) : Option Rearm := (s.stream r.slot e.tmpl).cur
/-- The walk has passed its last position: the stream takes the next entry of its list, wrapping after the last, a replacement of it that
waits before the entry itself (R138). -/
def State.takeRearm (s : State) (r : StRef) (e : Entry) : State :=
  let x := s.stream r.slot e.tmpl
  match r.tmpl e with
  | some t =>
    if t.rearmN = 0 then s
    else
      let i := match x.at_ with | some i => (i + 1) % t.rearmN | none => 0
      s.setStream r.slot e.tmpl { x with
        at_ := some i, due := x.due - 1
        cur := match x.rearms.find? fun p => p.1 == i with | some p => some p.2 | none => r.survey.rearms[t.rearm + i]? }
  | none => s

/-- Where a position lies: padding, or a byte offset with the first bit in it. -/
inductive Spot where
  | pad
  | elem (off : Int) (bit : Nat)
  deriving DecidableEq, Repr

/-- A tile of a walk: its runs of positions in stream order, and an offset at which a run's origin breaks R93. -/
structure WalkTile where
  runs : List (List Spot)
  bad : Option Int
  /-- Pointer-list entry read, by window offset. -/
  list : Option Int
  deriving DecidableEq, Repr

/-- Indices of a box of positions, first dimension innermost. -/
def boxIndices : List (Nat × Nat) → List (List Nat)
  | [] => [[]]
  | d :: ds => ((boxIndices ds).map fun rest => (List.range (d.2 - d.1)).map fun i => (d.1 + i) :: rest).flatten

/-- Runs of a box: rows along dimension 0, or with the corner turn the columns of each 16 × 16 block. -/
def boxRuns (cturn : Bool) : List (Nat × Nat) → List (List (List Nat))
  | [] => [[[]]]
  | d :: ds =>
    if cturn then match ds with
      | e :: es => ((boxIndices es).map fun rest => (List.range (d.2 - d.1)).map fun i =>
          (List.range (e.2 - e.1)).map fun j => (d.1 + i) :: (e.1 + j) :: rest).flatten
      | [] => [(List.range (d.2 - d.1)).map fun i => [d.1 + i]]
    else (boxIndices ds).map fun rest => (List.range (d.2 - d.1)).map fun i => (d.1 + i) :: rest

/-- Bits of an element width code (Table 04-2). -/
def ewBits (ew : Nat) : Nat := [4, 6, 8, 16, 32].getD ew 32
/-- A format of that width, for packing. -/
def ewFmt (ew : Nat) : Nat := [8, 6, 4, 2, 0].getD ew 0

/-- The list position of a firing: the B loops' step, or a tag field less `PBASE` (06 R153); none is beyond the list. -/
def listPos (e : Entry) (d : AgDesc) (tag step : Nat) : Option Nat :=
  if e.pbind = 0 then some (e.index .b step)
  else
    let f := if e.pbind = 1 then tagSeq tag else tagSub tag
    if f < e.pbase ∨ d.plen ≤ f - e.pbase then none else some (f - e.pbase)

/-- Window register of a station's generator, and its contents. -/
def State.winByte (s : State) (site w : Nat) (off : Int) : Byte :=
  s.scratchByte site (4096 * s.winFirst site w + off.toNat)
def State.winLe (s : State) (site w : Nat) (off : Int) (n : Nat) : Nat :=
  leAt ((List.range n).map fun i => s.winByte site w (off + i)) 0 n

/-- The positions of a memory-unit tile. -/
def State.walkTile (s : State) (r : StRef) (e : Entry) (d : AgDesc) (i : Issue) : WalkTile :=
  let site := r.st.site
  let re := s.rearmOf r e
  let base : Int := match re with | some x => x.base % 2 ^ 21 | none => d.base
  let lims := match re with | some x => x.lims | none => d.lims
  let idx := loopIndices e.loops i.step
  let ofDim (k : Nat) : Option Nat := (List.range e.loops.length).find? fun p =>
    (match e.loops[p]? with | some l => l.1 != .b | none => false) && e.walkDim d p == some k
  let box := (List.range d.ndim).map fun k =>
    match ofDim k with
    | some p =>
      let t := r.extent e p
      let lo := min (d.counts.getD k 1) (idx.getD p 0 * t)
      (lo, min (d.counts.getD k 1) (lo + t))
    | none => (0, d.counts.getD k 1)
  let effective (k : Nat) : Option Nat :=
    let own := if lims.getD k 0xFFFF = 0xFFFF then none else some (lims.getD k 0xFFFF)
    let len := match ofDim k with
      | some p => (i.limits.getD p none).map fun l => (box.getD k (0, 0)).1 + l
      | none => none
    match own, len with | some a, some b => some (min a b) | some a, none => some a | none, b => b
  let entryOff : Option Int := if d.ptr then (listPos e d i.tag i.step).map fun p => (d.plist + 4 * p : Nat) else none
  let entry : Option Nat := if d.ptr then entryOff.map fun o => s.winLe site d.win o 4 else some 0
  let ptrPad := match entry with | some x => d.ptr && bitAt x 31 | none => true
  let ptrAdd : Int := match entry with | some x => if d.ptr then x % 2 ^ 21 else 0 | none => 0
  let pad (q : List Nat) : Bool := ptrPad || q.zipIdx.any fun x => match effective x.2 with | some l => l ≤ x.1 | none => false
  let strides (q : List Nat) : Int := (q.zipIdx.foldl (fun (a : Int) x =>
    if x.2 = 0 ∧ d.ew ≤ 1 then a else a + x.1 * d.strides.getD x.2 0) 0)
  let spot (q : List Nat) : Spot :=
    if pad q then .pad
    else
      let o := base + strides q + ptrAdd
      let j := q.getD 0 0
      if d.ew = 0 then .elem (o + (j / 2 : Nat)) (4 * (j % 2))
      else if d.ew = 1 then .elem (o + (3 * (j / 4) + 6 * (j % 4) / 8 : Nat)) (6 * (j % 4) % 8)
      else .elem o 0
  let idxRuns := boxRuns d.cturn box
  { runs := idxRuns.map fun l => l.map spot
    bad := if d.ew ≠ 1 then none else idxRuns.findSome? fun l => match l with
      | q :: _ => if !pad q ∧ (base + strides q + ptrAdd) % 3 ≠ 0 then some (base + strides q + ptrAdd) else none
      | [] => none
    list := entryOff }

/-- Every position is padding: the tile is skipped (R96). -/
def WalkTile.empty (w : WalkTile) : Bool := w.runs.all fun l => l.all fun x => x == .pad

/-- The first `n` accesses of a tile; its later positions are left alone. -/
def WalkTile.take (w : WalkTile) (n : Nat) : WalkTile :=
  { w with runs := (w.runs.foldl (fun (a : List (List Spot) × Nat) l =>
      let x := l.foldl (fun (b : List Spot × Nat) y => match y with
        | .pad => (b.1 ++ [.pad], b.2)
        | .elem o k => (b.1 ++ [if b.2 < n then .elem o k else .pad], b.2 + 1)) (([], a.2) : List Spot × Nat)
      (a.1 ++ [x.1], x.2)) (([], 0) : List (List Spot) × Nat)).1 }
/-- Rows of a corner-turned tile: position j of each of a block's 16 columns (R99); the runs of any other tile. -/
def WalkTile.rows (w : WalkTile) (cturn : Bool) : List (List Spot) :=
  if cturn then ((List.range (ceilDiv w.runs.length 16)).map fun k =>
    let cols := (w.runs.drop (16 * k)).take 16
    (List.range 16).map fun j => cols.filterMap fun (c : List Spot) => (c.drop j).head?).flatten
  else w.runs

/-- Accesses of a tile in order: first byte offset and bytes. -/
def WalkTile.accesses (w : WalkTile) (ew : Nat) : List (Int × Nat) :=
  w.runs.flatten.filterMap fun x => match x with | .pad => none | .elem o b => some (o, (b + ewBits ew + 7) / 8)

/-! ### Bounds (R89) -/

/-- The HBM region a template walks, with its record. -/
def StRef.region (r : StRef) (t : Tmpl) : Option (Nat × Region) :=
  t.region.bind fun i => (r.survey.regions[i]?).map fun x => (i, x)

/-- An access of a window lies inside it and outside its enabled spill regions. A window whose `LIMIT_PG` the host has set above 512 ends
with the scratchpad, and one whose `LIMIT_PG` is not above `BASE_PG` holds nothing: R109 gives the range and no effect of a write outside it
(DESIGN CHOICE, log entry 14). -/
def State.winOk (s : State) (site w : Nat) (off : Int) (n : Nat) : Bool :=
  0 ≤ off && off.toNat + n ≤ s.winBytes site w && 4096 * s.winFirst site w + off.toNat + n ≤ 2 ^ 21 && s.winEn site w &&
  (List.range 16).all fun q =>
    !s.rfBit (spillBase site q) 0 || s.rf (spillBase site q) 1 3 != w ||
    off.toNat + n ≤ 64 * s.rf (spillBase site q + 4) 0 15 || 64 * (s.rf (spillBase site q + 4) 0 15 + s.spillSize site q) ≤ off.toNat

/-- The list entry of a tile can be read: it lies inside the window, outside its spill regions (R94). -/
def State.listFault (s : State) (r : StRef) (d : AgDesc) (w : WalkTile) : Option (Nat × Int) :=
  match w.list with | some o => if s.winOk r.st.site d.win o 4 then none else some (d.win, o) | none => none
/-- The first access of a tile out of bounds: what is named in place of the window, the offset, and the accesses before it. -/
def State.walkFault (s : State) (r : StRef) (t : Tmpl) (d : AgDesc) (w : WalkTile) : Option ((Nat × Int) × Nat) :=
  let site := r.st.site
  match s.listFault r d w with
  | some f => some (f, 0)
  | none => match r.region t with
    | some g =>
      let off (o : Int) : Int := t.off + o
      (match w.bad with
       | some o => some ((0x100 + g.1, off o), 0)
       | none => (w.accesses d.ew).zipIdx.findSome? fun a =>
          if 0 ≤ off a.1.1 ∧ (off a.1.1).toNat + a.1.2 ≤ g.2.len then none else some ((0x100 + g.1, off a.1.1), a.2))
    | none => match w.bad with
      | some o => some ((d.win, o), 0)
      | none => (w.accesses d.ew).zipIdx.findSome? fun a =>
          if s.winOk site d.win a.1.1 a.1.2 then none else some ((d.win, a.1.1), a.2)

/-- MU_BOUND_FAULT (R89): event, count, job stop. -/
def State.boundFault (s : State) (r : StRef) (f : Nat × Int) : State :=
  (s.bumpSite r.st.site 0x168).jobFault ⟨r.slot % 8, Nat.mod_lt _ (by decide)⟩ 0x0011 r.st.site f.1 (unsigned 64 f.2) 0 0

/-- The first access of a walk into HBM that a sealed region closes to the slot: region and address (10 R246). -/
def State.walkSealed (s : State) (r : StRef) (t : Tmpl) (d : AgDesc) (w : WalkTile) : Option (Nat × Nat) :=
  match r.region t with
  | some g => (w.accesses d.ew).findSome? fun a =>
      let x := g.2.base + ((t.off : Int) + a.1).toNat
      (s.sealedAgainst r.slot x a.2).map fun k => (k, x)
  | none => none

/-! ### Banks (R84, R87, R102, R103) -/

/-- Scratchpad line of a window offset. -/
def State.winLine (s : State) (site w : Nat) (off : Int) : Nat := (4096 * s.winFirst site w + off.toNat) / 64

/-- Banks that a tile's accesses and list read touch. -/
def State.tileBanks (s : State) (r : StRef) (t : Tmpl) (d : AgDesc) (w : WalkTile) : List Nat :=
  let own := if t.region.isSome then [] else
    ((w.accesses d.ew).map fun a => [lineBank (s.winLine r.st.site d.win a.1), lineBank (s.winLine r.st.site d.win (a.1 + a.2 - 1))]).flatten
  (own ++ (match w.list with | some o => [lineBank (s.winLine r.st.site d.win o)] | none => [])).dedup

/-! ### Coalescing and writes (R86, R97, R98) -/

def coalKey (r : StRef) : Nat := 2 * r.st.site + r.st.ctx
def State.coalOf (s : State) (r : StRef) : CoalRun := tblGet (fun _ => CoalRun.empty) s.flow.coal (coalKey r)
def State.setCoal (s : State) (r : StRef) (c : CoalRun) : State :=
  { s with flow := { s.flow with coal := tblSet (fun _ => CoalRun.empty) s.flow.coal (coalKey r) c } }

/-- What a read of an uncorrectable word does: the job stops, or only the event is logged (04 R85). `word` is a key of
`scratchUe`. -/
def State.spadUe (s : State) (word : Nat) : State :=
  let site := word / 2 ^ 18
  let off := word % 2 ^ 18 * 8
  match (List.range 8).find? fun w => s.winEn site w && decide (4096 * s.winFirst site w ≤ off) && decide (off < 4096 * s.winLimit site w) with
  | some w => s.sramUe (((List.finRange 8).find? fun n => s.winOf n.val site w).getD 0) site .scratch (off / 8)
  | none => (s.raise 0x0016 .job none (genPayload site 0 (off / 8) 0 0)).sramSeen site

/-- One write access to a bank: bytes by scratchpad offset. A read-modify-write costs an extra read; where it finds a word
uncorrectable, that word is not written (R86). -/
def State.bankWrite (s : State) (site : Nat) (bs : List (Nat × Byte)) : State :=
  let key (a : Nat) : Nat := site * 2 ^ 18 + a / 8
  let words := (bs.map fun b => key b.1).dedup
  let whole := words.filter fun k => (List.range 8).all fun i => bs.any fun b => key b.1 == k && b.1 % 8 == i
  let bad := words.filter fun k => s.flow.scratchUe.contains k && !whole.contains k
  let ok := bs.filter fun b => !bad.contains (key b.1)
  let s1 := ok.foldl (fun s b => s.setScratchByte site b.1 b.2) s
  let s2 : State := { s1 with flow := { s1.flow with scratchUe := s1.flow.scratchUe.filter fun k => !whole.contains k } }
  let s3 := if ok.isEmpty then s2 else s2.bumpSite site 0x108
  let s4 := if whole.length < words.length then (s3.bumpSite site 0x110).bumpSite site 0x100 else s3
  match bad with
  | [] => s4
  | k :: _ => s4.spadUe k

/-- Write out the held line of a generator. -/
def State.flushCoal (s : State) (r : StRef) : State :=
  match (s.coalOf r).line with
  | some l => (s.bankWrite r.st.site l.2).setCoal r { s.coalOf r with line := none }
  | none => s

/-- Bytes of one line join the held line, which is written first where it is another. -/
def State.gatherLine (s : State) (r : StRef) (line : Nat) (bs : List (Nat × Byte)) : State :=
  let c := s.coalOf r
  match c.line with
  | some l =>
    if l.1 = line then
      let rest := l.2.filter fun b => !bs.any fun x => x.1 == b.1
      s.setCoal r { c with line := some (line, rest ++ bs) }
    else (s.flushCoal r).setCoal r { c with line := some (line, bs), since := s.clk.root }
  | none => s.setCoal r { c with line := some (line, bs), since := s.clk.root }
/-- The lines of a list of bytes, in order, with the bytes of each. -/
def byLine (bs : List (Nat × Byte)) : List (Nat × List (Nat × Byte)) :=
  ((bs.map fun b => b.1 / 64).dedup).map fun l => (l, bs.filter fun b => b.1 / 64 == l)

/-- One write access of a walk, line by line: merged into the held line, or performed. It is a hit where all of it joins a line that was
held (R97). -/
def State.walkWrite (s : State) (r : StRef) (d : AgDesc) (bs : List (Nat × Byte)) : State :=
  if !d.coal then (byLine bs).foldl (fun s l => s.bankWrite r.st.site l.2) s
  else
    let hit := match (s.coalOf r).line with | some l => bs.all fun b => b.1 / 64 == l.1 | none => false
    let s1 := (byLine bs).foldl (fun s l => s.gatherLine r l.1 l.2) s
    if hit then s1.bumpSite r.st.site 0x118 else s1

/-- One read access of a walk to its lines: served from held lines of the 16 (R97), or a bank read for each other line. -/
def State.walkRead (s : State) (r : StRef) (d : AgDesc) (lines : List Nat) : State :=
  let c := s.coalOf r
  let miss := if d.coal then lines.filter fun l => !c.reads.contains l else lines
  let s1 := if miss.isEmpty then s.bumpSite r.st.site 0x118 else s.bumpSite r.st.site 0x100 miss.length
  if d.coal ∧ !miss.isEmpty then s1.setCoal r { c with reads := (miss ++ c.reads).take 16 } else s1

/-- 64-bit scratchpad words of an access, as keys of `scratchUe`. -/
def spadWords (site off n : Nat) : List Nat :=
  (List.range ((off + n - 1) / 8 - off / 8 + 1)).map fun i => site * 2 ^ 18 + off / 8 + i

/-- Element code at a byte offset and bit. -/
def codeOf (bs : List Byte) (bit ew : Nat) : Nat := bits (leAt bs 0 5) bit (ewBits ew)

/-! ### Reading and writing a tile -/

/-- The bytes of a read tile: padding positions give the window's padding register (R96). -/
def State.readTile (s : State) (r : StRef) (t : Tmpl) (d : AgDesc) (w : WalkTile) : List Byte :=
  let site := r.st.site
  let padVal := s.reg (winBase_ site d.win + 0x10 + 4 * d.padSel) % 2 ^ ewBits d.ew
  let n (b : Nat) : Nat := (b + ewBits d.ew + 7) / 8
  (w.runs.map fun l => packElems (ewFmt d.ew) (l.map fun x => match x with
    | .pad => padVal
    | .elem o b =>
      let bs := match r.region t with
        | some g => s.hbmBytes (g.2.base + ((t.off : Int) + o).toNat) (n b)
        | none => (List.range (n b)).map fun i => s.winByte site d.win (o + i)
      codeOf bs b d.ew)).flatten

/-- Accounting of a read tile: HBM lines, or bank reads and corner turns. -/
def State.countRead (s : State) (r : StRef) (t : Tmpl) (d : AgDesc) (w : WalkTile) : State :=
  let s0 := match w.list with | some _ => s.bumpSite r.st.site 0x100 | none => s
  let s1 := match r.region t with
    | some g => (((w.accesses d.ew).map fun a => linesOf (g.2.base + ((t.off : Int) + a.1).toNat) a.2).flatten.dedup).foldl
        (fun s l => s.touchLine false l) s0
    | none =>
      let lines (o : Int) (n : Nat) : List Nat := [s.winLine r.st.site d.win o, s.winLine r.st.site d.win (o + n - 1)].dedup
      if d.cturn then
        -- a block's row is read at once (R99)
        (w.rows true).foldl (fun s row =>
          let ls := (row.filterMap fun x => match x with
            | .pad => none | .elem o b => some (lines o ((b + ewBits d.ew + 7) / 8))).flatten.dedup
          ls.foldl (fun s l => s.walkRead r d [l]) s) s0
      else (w.accesses d.ew).foldl (fun s a => s.walkRead r d (lines a.1 a.2)) s0
  if d.cturn then s1.bumpSite r.st.site 0x120 (ceilDiv w.runs.length 16) else s1

/-- The list entry of a tile lies in an uncorrectable word (R85, R94). -/
def State.listUe (s : State) (r : StRef) (d : AgDesc) (w : WalkTile) : Option Nat :=
  match w.list with
  | some o => (spadWords r.st.site (4096 * s.winFirst r.st.site d.win + o.toNat) 4).find? fun k => s.flow.scratchUe.contains k
  | none => none
/-- Uncorrectable words of scratchpad that a tile reads, and HBM lines. -/
def State.tileUe (s : State) (r : StRef) (t : Tmpl) (d : AgDesc) (w : WalkTile) : Option Nat :=
  match s.listUe r d w with
  | some k => some k
  | none => match r.region t with
  | some _ => none
  | none => (((w.accesses d.ew).map fun a => spadWords r.st.site (4096 * s.winFirst r.st.site d.win + a.1.toNat) a.2).flatten).find?
      fun k => s.flow.scratchUe.contains k
def State.tileHbmUe (s : State) (r : StRef) (t : Tmpl) (d : AgDesc) (w : WalkTile) : Option Nat :=
  match r.region t with
  | some g => (((w.accesses d.ew).map fun a => linesOf (g.2.base + ((t.off : Int) + a.1).toNat) a.2).flatten).find? fun l => s.hbm.ue.contains l
  | none => none

/-- Write the codes of a tile at its positions in an HBM region. A line that the tile covers in part and that is
uncorrectable is not written (10 R250). -/
def State.writeHbmTile (s : State) (t : Tmpl) (d : AgDesc) (w : WalkTile) (bs : List Byte) (base : Nat) : State :=
  let at_ (o : Int) : Nat := base + ((t.off : Int) + o).toNat
  let acc := (w.accesses d.ew).map fun a => (at_ a.1, a.2)
  let lines := ((acc.map fun a => linesOf a.1 a.2).flatten).dedup
  let whole (l : Nat) : Bool := (List.range 64).all fun i => acc.any fun a => decide (a.1 ≤ 64 * l + i) && decide (64 * l + i < a.1 + a.2)
  let bad := lines.filter fun l => s.hbm.ue.contains l && !whole l
  let good := lines.filter fun l => !bad.contains l
  let rowBytes (l : List Spot) : Nat := packedBytes (ewBits d.ew) l.length
  let s1 := (w.runs.foldl (fun (x : State × Nat) l =>
    let row := slice bs x.2 (rowBytes l)
    (l.zipIdx.foldl (fun (s : State) y => match y.1 with
      | .pad => s
      | .elem o b =>
        let n := (b + ewBits d.ew + 7) / 8
        if (linesOf (at_ o) n).any bad.contains then s
        else s.putBytes (at_ o) (leBytes n (setBits (leAt (s.hbmBytes (at_ o) n) 0 n) b (ewBits d.ew) (packedElem (ewFmt d.ew) row y.2)))) x.1,
     x.2 + rowBytes l)) (s, 0)).1
  let s2 := good.foldl (fun s l => s.touchLine true l) s1
  let s3 : State := { s2 with hbm := { s2.hbm with ue := s2.hbm.ue.filter fun l => !good.contains l } }
  match bad with
  | [] => s3
  | l :: _ => s3.hbmUe l 0

/-- Codes of a tile's positions, run by run, from the bytes of its token. -/
def WalkTile.codes (w : WalkTile) (ew : Nat) (bs : List Byte) : List (List (Spot × Nat)) :=
  (w.runs.foldl (fun (x : List (List (Spot × Nat)) × Nat) l =>
    let row := slice bs x.2 (packedBytes (ewBits ew) l.length)
    (x.1 ++ [l.zipIdx.map fun y => (y.1, packedElem (ewFmt ew) row y.2)], x.2 + packedBytes (ewBits ew) l.length))
    (([], 0) : List (List (Spot × Nat)) × Nat)).1
/-- Bytes that one element puts into a byte map: the bits beside it keep what the map, a held line or the scratchpad holds. -/
def State.elemBytes (s : State) (r : StRef) (d : AgDesc) (m : List (Nat × Byte)) (o : Int) (b code : Nat) : List (Nat × Byte) :=
  let n := (b + ewBits d.ew + 7) / 8
  let a := 4096 * s.winFirst r.st.site d.win + o.toNat
  let held := m ++ (match (s.coalOf r).line with | some h => h.2 | none => [])
  let cur (i : Nat) : Nat := match held.find? fun h => h.1 == a + i with | some h => h.2.toNat | none => (s.scratchByte r.st.site (a + i)).toNat
  let old := (List.range n).foldr (fun i v => cur i + 256 * v) 0
  (leBytes n (setBits old b (ewBits d.ew) code)).zipIdx.map fun z => (a + z.2, z.1)
/-- Write the codes of a tile at its positions in the window, element by element, or under the corner turn row by row of its blocks;
padding positions are discarded (R96, R99). -/
def State.writeSpadTile (s : State) (r : StRef) (d : AgDesc) (w : WalkTile) (bs : List Byte) : State :=
  let cs := w.codes d.ew bs
  if d.cturn then
    (List.range (ceilDiv cs.length 16)).foldl (fun (s : State) k =>
      let cols := (cs.drop (16 * k)).take 16
      (List.range 16).foldl (fun (s : State) j =>
        let m := (cols.filterMap fun (c : List (Spot × Nat)) => (c.drop j).head?).foldl (fun (m : List (Nat × Byte)) y => match y.1 with
          | .pad => m
          | .elem o b => let new := s.elemBytes r d m o b y.2
                         (m.filter fun x => !new.any fun z => z.1 == x.1) ++ new) []
        if m.isEmpty then s else s.walkWrite r d m) s) s
  else cs.flatten.foldl (fun (s : State) y => match y.1 with
    | .pad => s
    | .elem o b => s.walkWrite r d (s.elemBytes r d [] o b y.2)) s

/-- Write a tile; a corner turn moves it in blocks of 16 runs (R99). -/
def State.writeTile (s : State) (r : StRef) (t : Tmpl) (d : AgDesc) (w : WalkTile) (bs : List Byte) : State :=
  let s1 := match r.region t with
    | some g => s.writeHbmTile t d w bs g.2.base
    | none => s.writeSpadTile r d w bs
  if d.cturn then s1.bumpSite r.st.site 0x120 (ceilDiv w.runs.length 16) else s1

end Sys2Proof.Machine
end

