-- ==== Sys2Proof/Machine/Fire.lean ====
section
/-! DEFINITION. Issue of tiles and firing of stations (05 R116 to R119, R126 to R132; 03 R54, R65, R79; 06 R147 to R161; 08
R204, R205). -/
namespace Sys2Proof.Machine

/-! ### A nest goes on (05 R121, R138) -/

/-- A walk has passed its last position: its stream re-arms at that tile's boundary, at once where the tile was skipped (R138). -/
def State.walkDone (s : State) (r : StRef) (e : Entry) : State :=
  match r.tmpl e with
  | some t =>
    if t.rearmN = 0 then s
    else if (s.run r.dev).tiles = 0 then s.takeRearm r e
    else let x := s.stream r.slot e.tmpl
         s.setStream r.slot e.tmpl { x with due := x.due + 1 }
  | none => s
/-- The nest goes on by one step, fired or skipped. -/
def State.advance (s : State) (r : StRef) (entry : Nat) (e : Entry) (tag : Nat) (step : Option Nat) : State :=
  let x := s.run r.dev
  let k := nestKey entry tag
  let n := s.stepAt r entry tag + 1
  let s1 := s.setRun r.dev { x with
    steps := tblSet (fun _ => 0) x.steps k n
    counts := tblSet (fun _ => ((none, 0) : Option Nat × Nat)) x.counts k (step, s.countOf r entry tag step + 1)
    issue := none, wake := [] }
  if r.st.walks ∧ n % max 1 e.steps = 0 then s1.walkDone r e else s1

/-- Payload bytes of the LEN token that a nest runs under; none binds nothing. -/
def State.lens (s : State) (r : StRef) (e : Entry) (tag : Nat) : List Byte :=
  match s.lenTok r e tag with
  | some x => (match x.2.tok.pay with | .data bs => bs | _ => List.replicate 16 0xFF)
  | none => List.replicate 16 0xFF

/-- Tiles of loop `i` that a length leaves. -/
def StRef.effTrip (r : StRef) (e : Entry) (lens : List Byte) (i : Nat) : Nat :=
  match e.loops[i]? with
  | none => 1
  | some l => match (if e.lenMask = 0 then none else lengthOf e lens i) with
    | some n => min l.2 (ceilDiv n (r.extent e i))
    | none => l.2

/-- Queries of a firing tile end here: last query index of a FUSED block (06 R157). -/
def Entry.lastQuery (e : Entry) (step : Nat) : Int := (16 * e.nArr * (e.index .n step + 1) : Nat) - 1
/-- `CAUSAL` leaves out a key tile for a query block. -/
def Entry.causalSkip (e : Entry) (kind kv step : Nat) : Bool :=
  kind == 2 && e.causal && decide (e.lastQuery step + e.causalOfs < (16 * kv : Nat))

/-- First and last firing of an output tile's reduction (R148, R58, R132). -/
def Entry.isStart (e : Entry) (step : Nat) : Bool := e.index .k step == 0
def StRef.isLast (r : StRef) (e : Entry) (lens : List Byte) (step : Nat) : Bool :=
  let idx := loopIndices e.loops step
  ((List.range e.loops.length).all fun i => match e.loops[i]? with
    | some l => l.1 != .k || idx.getD i 0 + 1 == r.effTrip e lens i
    | none => true) || e.causalSkip r.st.kind (e.index .k step + 1) step

/-! ### Skipped tiles (R132, R133; 06 R153, R157; 04 R96) -/

/-- Output ports whose consumer takes no LEN stream: outside the length domain. -/
def StRef.leaving (r : StRef) (e : Entry) : List Nat :=
  (e.outPorts r.st).filter fun q => match (r.st.outs[q]?).bind r.survey.routeOf with
    | some t => (match r.survey.stations[t.dstn]? with | some c => !c.ins.any (·.tkind == 3) | none => false)
    | none => false

/-- Key of an output tile under reduction. -/
def reduceKey (entry : Nat) (e : Entry) (tag step : Nat) : Nat := nestKey entry tag * 2 ^ 40 + e.outIndex step

/-- The entry reduces over several firings, or is a REDUCE station's. Stationary tiles are no such reduction: they finish by their
accumulation port (08 R204). -/
def StRef.reduces (r : StRef) (e : Entry) : Bool :=
  !r.st.walks && e.pe == 0 && (r.st.kind == 4 || e.loops.any fun l => l.1 == .k && 1 < l.2)
/-- Some firing of the step's output tile has contributed to it. -/
def State.contributed (s : State) (r : StRef) (entry : Nat) (e : Entry) (tag step : Nat) : Bool :=
  (s.run r.dev).reduced.contains (reduceKey entry e tag step)
def State.contribute (s : State) (r : StRef) (entry : Nat) (e : Entry) (tag step : Nat) : State :=
  let x := s.run r.dev
  if r.reduces e ∧ !s.contributed r entry e tag step then s.setRun r.dev { x with reduced := reduceKey entry e tag step :: x.reduced } else s

/-- End of a reduction of which every tile was skipped: NULL to the stations outside the domain (R133). -/
def State.endReduction (s : State) (r : StRef) (entry : Nat) (e : Entry) (tag step : Nat) (run : Option Nat) : State :=
  if !e.blockEnd step || !r.reduces e then s
  else
    let x := s.run r.dev
    let s1 := s.setRun r.dev { x with reduced := x.reduced.filter (· != reduceKey entry e tag step) }
    if s.contributed r entry e tag step then s1
    else (r.leaving e).foldl (fun s q => match r.st.outs[q]? with
      | some o => s.output r q { tag := o.tag tag (s.countOf r entry tag run % 256), pay := .null, step := run }
      | none => s) s1

/-- The accumulation port of an entry with stationary tiles (08 R204). -/
def Entry.accPort (e : Entry) (st : Station) : Option (Nat × InPort) := (e.ports st).find? fun p => 1 < p.2.uses && !p.2.mSeq
/-- The firing finishes the stationary tiles: it releases the accumulation port's token, or there is no such port (R204,
R205). -/
def Entry.finishes (e : Entry) (st : Station) (f : Firing) : Bool :=
  match e.accPort st with
  | some p => (match f.toks.find? fun t => t.1 == p.1 with | some t => p.2.uses ≤ t.2.used + 1 | none => false)
  | none => true

/-- A skipped tile counts as a use of its LEN token and of the held tokens that serve several firings: ports with `USES` above 1 (log entry
10). Only firings count on an accumulation port (R204), and a FUSED block's query token goes with the block's last step (06 R160). -/
def State.useShared (s : State) (r : StRef) (e : Entry) (tag : Nat) (last : Bool) : State :=
  (e.ports r.st).foldl (fun s p =>
    let query := decide (r.st.kind = 2) && p.2.role == 3
    if query && !last || !query && p.2.tkind != 3 && p.2.uses ≤ 1 || decide (0 < e.pe) && (e.accPort r.st).map (·.1) == some p.1 then s
    else match (s.portToks r p.1).find? fun h => if query then h.tok.tag == tag else ({ p.2 with mSub := false } : InPort).agrees h.tok.tag tag with
      | some h => if query then s.releaseTok r p.2 h.order else s.useTok r p.2 h.order
      | none => s) s

/-- Skip the tile at the head of a nest. -/
def State.skipTile (s : State) (r : StRef) (entry : Nat) (e : Entry) (tag : Nat) (run : Option Nat) : State :=
  let step := s.nestStep r entry e tag
  let s1 := (s.bumpCtx r.st.site r.st.ctx 0x58).endReduction r entry e tag step run
  (s1.useShared r e tag (e.blockEnd step)).advance r entry e tag run

/-- A length above its dimension's extent counts once for its LEN token (R132). -/
def State.countClamp (s : State) (r : StRef) (entry : Nat) (e : Entry) (h : Option Held) : State :=
  match h with
  | some y =>
    let x := s.run r.dev
    let n := match y.tok.pay with | .data bs => r.overLong e bs | _ => 0
    if n = 0 ∨ x.clamped.contains (4 * y.order + entry) then s
    else (s.setRun r.dev { x with clamped := (4 * y.order + entry) :: x.clamped }).bumpCtx r.st.site r.st.ctx 0x60 n
  | none => s

/-- Nests whose next tile is to be skipped, without an operand of its own, each with its tag, RUN_STEP and LEN token: under an indexed LEN
token, or a FUSED block under `CAUSAL`. A FUSED block leaves its key tiles out while its query token is held, but a block beyond the
queries' length has none. -/
def State.skippable (s : State) (r : StRef) : Option (Nat × Entry × Nat × Option Nat × Option Held) :=
  r.st.ents.zipIdx.findSome? fun x =>
    let e := x.1
    let lead (t : Nat) : Option Held := (s.portToks r e.lead).find? fun h => tagSi h.tok.tag == tagSi t && s.leadFits r x.2 e h
    let byLen := if e.lenMask = 0 then none
      else ((e.ports r.st).find? fun p => p.2.tkind == 3).bind fun p =>
        (s.portToks r p.1).findSome? fun h => match h.tok.pay with
          | .data bs =>
            let step := s.nestStep r x.2 e h.tok.tag
            let cut := ((r.clips e bs step).zip e.loops).filter fun c => c.1.isNone
            if cut.isEmpty then none
            else if r.st.kind = 2 ∧ cut.all fun c => c.2.1 == .k then
              (lead h.tok.tag).map fun q => (x.2, e, q.tok.tag, q.tok.step, some h)
            else some (x.2, e, h.tok.tag, h.tok.step, some h)
          | _ => none
    match byLen with
    | some y => some y
    | none =>
      if r.st.kind = 2 ∧ e.causal then
        (s.portToks r e.lead).findSome? fun h =>
          let t := s.nestStep r x.2 e h.tok.tag
          if e.causalSkip 2 (e.index .k t) t && s.leadFits r x.2 e h then some (x.2, e, h.tok.tag, h.tok.step, none) else none
      else none

/-! ### Legality at issue (06 R151, R152) -/

/-- The parts of a FUSED entry's vector program: before the softmax step, between it and the conversion of P, the tensor of
that conversion, and what follows, which runs on the output lines. -/
def fusedProg (p : List VInstr) : List VInstr × List VInstr × Nat × List VInstr :=
  let pre := p.takeWhile fun x => x.op != 0x30
  let rest := (p.dropWhile fun x => x.op != 0x30).drop 1
  let mid := rest.takeWhile fun x => x.op != 0x20
  let tail := rest.dropWhile fun x => x.op != 0x20
  (pre, mid, (match tail with | x :: _ => x.b | [] => 0), tail.drop 1)

/-- Port whose tiles an operand role names: a consumed port, or for a column operand the port that fills the panel (07
R498). -/
def StRef.colPort (r : StRef) (e : Entry) : Option (InPort) :=
  match e.role r.st 1 with
  | p :: _ => some p.2
  | [] => r.panelPort e
def StRef.rolePort (r : StRef) (e : Entry) (role : Nat) : Option (Nat × InPort) := (e.role r.st role).head?

/-- A FUSED entry's P: the descriptor under which its program's first convert instruction after the softmax step converts (06 R156). -/
def StRef.pConv (r : StRef) (e : Entry) : OutConv :=
  r.st.conv { seqSel := 0, iterSel := 0, subSel := 0, tensor := (fusedProg (r.survey.entryProg e)).2.2.1, seqK := 0, iterK := 0, subK := 0, route := 0 }

/-- Active phases of one firing in ACLK cycles: of its product, and of a FUSED entry's second product, whose row operand has P's format. -/
def StRef.phases (r : StRef) (e : Entry) : Nat × Nat :=
  if r.st.kind = 2 then
    match r.rolePort e 4, r.rolePort e 3, r.rolePort e 5 with
    | some k, some q, some v => (kCycles e.op k.2.ifmt q.2.ifmt e.fp32x e.kc, r.dv e / 16 * kCycles 0 v.2.ifmt (r.pConv e).fmt false 16)
    | _, _, _ => (0, 0)
  else match r.colPort e, r.rolePort e 2 with
    | some c, some w => (kCycles e.op c.ifmt w.2.ifmt e.fp32x e.kc, 0)
    | _, _ => (0, 0)
def StRef.cycles (r : StRef) (e : Entry) : Nat := (r.phases e).1

/-- The descriptor that produces a port's tiles (07 R498). -/
def StRef.producer (r : StRef) (p : Nat) : Option OutConv :=
  (r.survey.routes.zipIdx.find? fun t => t.1.dstn == r.idx && t.1.dport == p).bind fun t =>
    r.survey.stations.findSome? fun st =>
      (st.outs.find? fun o => o.route == t.2).map fun o => st.conv o
/-- Blocks in a row of the tensor whose tiles reach a port (02 R41). -/
def StRef.rowBlocks (r : StRef) (p : Nat × InPort) (cols : Nat) : Nat :=
  let bl := blockLen p.2.ischeme
  max (match r.producer p.1 with | some c => ceilDiv c.tinner bl | none => 0) (ceilDiv cols bl)

/-- Term 4 at issue: scale tokens within their limits, no block split by a walk's origin or rows or by a tile that the firing writes. -/
def State.term4 (s : State) (r : StRef) (e : Entry) (f : Firing) : Bool :=
  let tokOk := (e.ports r.st).all fun p =>
    if p.2.tkind = 1 then
      (match f.pay p.1 with
       | some (.data bs) => let t := ScaleTok.parse bs; t.nblk ≤ 1024 && t.nso ≤ 64
       | _ => true)
    else true
  let outOk := (e.outPorts r.st).all fun q => match r.st.outs[q]? with
    | some o =>
      let c := r.st.conv o
      let sh := if r.st.kind = 7 then (match r.desc e with | some d => (d.elems e / max 1 (d.row e), d.row e) | none => (0, 0))
        else r.outShape e f q
      let base := match r.desc e, s.rearmOf r e with | some _, some x => x.base | some d, none => d.base | none, _ => 0
      let ew := match r.desc e with | some d => ewBits d.ew | none => 8
      outTileOk c r.dev (o.tag f.tag 0) sh.1 sh.2 && (!r.st.walks || c.scheme == 0 || base * 8 % (ew * blockLen c.scheme) == 0 ||
        (c.tinner != 0 && base * 8 / ew % c.tinner == 0))
    | none => true
  tokOk && (r.st.kind == 9 || outOk)
/-- Term 7 at issue (R79). -/
def State.term7 (s : State) (r : StRef) (e : Entry) : Bool :=
  !(r.st.ctx == 1 && (r.st.kind == 1 || r.st.kind == 2)) || decide (r.cycles e ≤ s.rf (siteBase r.st.site) 1 11)

/-- A firing takes its tokens (R119), and its panel's fill completion, which serves the `USES` of the port that fills the region (03 R72); a
FUSED entry's Q token stays until its block's last step, and its K and V tokens serve one firing (06 R160). -/
def State.consume (s : State) (r : StRef) (e : Entry) (f : Firing) (last : Bool) : State :=
  let s1 := f.toks.foldl (fun s t => match r.st.ins[t.1]? with
    | some p =>
      if r.st.kind = 2 ∧ p.role = 3 then (if last then s.releaseTok r p t.2.order else s)
      else if r.st.kind = 2 ∧ (p.role = 4 ∨ p.role = 5) then s.releaseTok r p t.2.order
      else s.useTok r p t.2.order
    | none => s) s
  if e.fromPanel r.st then
    let x := s1.panel r.st.site r.st.ctx e.panel
    let uses := match r.panelPort e with | some p => p.uses | none => 1
    s1.setPanel r.st.site r.st.ctx e.panel { x with used := x.used + 1, ready := decide (x.used + 1 < uses) }
  else s1

/-- The matched firing of an issued tile. -/
def State.issued (s : State) (r : StRef) (i : Issue) : Option Firing :=
  (s.firings r).find? fun f => f.entry == i.entry && f.tag == i.tag

/-- The walk tile of an issue, of a walking station. -/
def State.issueTile (s : State) (r : StRef) (e : Entry) (i : Issue) : Option WalkTile :=
  if r.st.walks then (r.desc e).map fun d => s.walkTile r e d i else none

/-- Bank of the pointer-list entry of a tile, where it has one that can be read. -/
def State.listBank (s : State) (r : StRef) (d : AgDesc) (w : WalkTile) : List Nat :=
  match w.list with
  | some o => if (s.listFault r d w).isSome then [] else [lineBank (s.winLine r.st.site d.win o)]
  | none => []
/-- Accesses of a station's generator to banks; where one sleeps the generator waits for it (04 R103). -/
def State.generatorBanks (s : State) (r : StRef) (bs : List Nat) : State × Bool :=
  let x := s.accessBanks r.st.site bs
  if x.2 then x else (x.1.setRun r.dev { x.1.run r.dev with wake := bs }, false)
/-- The list entry of a tile is refused by its window or uncorrectable: the tile is issued, and its firing reports that. -/
def State.listBad (s : State) (r : StRef) (d : AgDesc) (w : WalkTile) : Bool := (s.listFault r d w).isSome || (s.listUe r d w).isSome

/-- A tile of padding alone is skipped (R96), once its list entry has been read (04 R94). -/
def State.skipEmpty (s : State) (r : StRef) (e : Entry) (f : Firing) (d : AgDesc) (w : WalkTile) : State :=
  let x := s.generatorBanks r (s.listBank r d w)
  if !x.2 then x.1
  else
    let s1 := if w.list.isSome then x.1.bumpSite r.st.site 0x100 else x.1
    ((s1.consume r e f true).bumpCtx r.st.site r.st.ctx 0x58).advance r f.entry e f.tag f.step

/-- The tile that a firing would issue. -/
def State.issueOf (s : State) (r : StRef) (e : Entry) (f : Firing) : Issue :=
  let step := s.nestStep r f.entry e f.tag
  let limits := if e.lenMask = 0 then List.replicate 4 none else (r.clip e (s.lens r e f.tag) step).getD (List.replicate 4 none)
  { entry := f.entry, step := step, limits := limits, tag := f.tag, count := s.countOf r f.entry f.tag f.step }

/-- TILE_ISSUE of a station: a tile that its length, its causal bound or its padding leaves out is skipped; otherwise the
ready firing whose last operand was matched earliest is issued, after terms 4 and 7 (R118, R131, R132, R151, R152). A generator that still
holds a tile issues none. -/
def onTileIssue (dev : Fin 8192) (s : State) : State :=
  match s.station dev.val with
  | none => s
  | some r =>
    if (s.run r.dev).issue.isSome ∨ !s.live ∨ s.tileOpen r ∨ ((s.slot r.slot).stopped ∧ r.st.kind = 6) then s
    else match s.skippable r with
      | some x => (s.countClamp r x.1 x.2.1 x.2.2.2.2).skipTile r x.1 x.2.1 x.2.2.1 x.2.2.2.1
      | none => match firstFiring (s.firings r) with
        | none => s
        | some f => match r.st.ents[f.entry]? with
          | none => s
          | some e =>
            let i := s.issueOf r e f
            let s1 := s.countClamp r f.entry e ((s.lenTok r e f.tag).map (·.2))
            let pad := match r.desc e, s1.issueTile r e i with
              | some d, some w => if w.empty && !s1.listBad r d w then some (d, w) else none
              | _, _ => none
            match pad with
            | some x => s1.skipEmpty r e f x.1 x.2
            | none =>
              if !s1.term4 r e f ∨ !s1.term7 r e then
                let term := if !s1.term4 r e f then 4 else 7
                let s2 := (s1.outputAll r e f.tag (i.count % 256) .error f.step).consume r e f (e.blockEnd i.step)
                (s2.advance r f.entry e f.tag f.step).jobFaultWith ⟨r.slot % 8, Nat.mod_lt _ (by decide)⟩ 0x0015 0x09
                  (genPayload r.dev (f.entry + 16 * term) f.tag 0 0)
              else s1.setRun r.dev { s1.run r.dev with issue := some i }

/-- The answer to `TILE_ISSUE`. -/
def execTileIssue (dev : Fin 8192) (s : State) : Answer := .next (onTileIssue dev s)

/-! ### Accumulator tiles -/

/-- Accumulator tiles that the entries before `entry` hold (06 R148, R161). -/
def StRef.accBase (r : StRef) (entry : Nat) : Nat :=
  r.part.acc.base + (r.st.ents.take entry).foldl (fun a e => a + e.resident (r.st.kind == 2) (r.dv e / 16)) 0
/-- Accumulator tile of a step: a stationary tile, an open one, or the first of an open query block's. -/
def StRef.accTile (r : StRef) (entry : Nat) (e : Entry) (step : Nat) : Nat :=
  r.accBase entry + (if 0 < e.pe then e.outIndex step % e.pe
    else openIndex e.loops (loopIndices e.loops step) * (if r.st.kind = 2 then r.dv e / 16 else 1))

def accKey (site a tile : Nat) : Nat := ((site * 4 + a) * 64 + tile) * 256
def State.accRead (s : State) (site a tile : Nat) : List Word :=
  (List.range 256).map fun n => tblGet (fun _ => (0 : Word)) s.flow.acc (accKey site a tile + n)
def State.accWrite (s : State) (site a tile : Nat) (vs : List Word) : State :=
  { s with flow := { s.flow with acc := vs.zipIdx.foldl (fun t v => tblSet (fun _ => (0 : Word)) t (accKey site a tile + v.2) v.1) s.flow.acc } }
/-- Values of successive tiles go to accumulator memory. -/
def State.accStore (s : State) (site a tile : Nat) (vs : List Word) : State :=
  (List.range (vs.length / 256)).foldl (fun s u => s.accWrite site a (tile + u) ((vs.drop (256 * u)).take 256)) s

/-- Tiles of a TileWork: 1, or Dv ÷ 16 of a query block. -/
def TileWork.tiles (w : TileWork) : Nat := max 1 (w.vals.length / 256)
/-- The work is an unfinished tile of a station. -/
def TileWork.isOpen (w : TileWork) (dev tile : Nat) : Bool :=
  w.station == dev && w.tile == tile && (match w.dest with | .acc _ => true | _ => false)
def ArrayRun.set (x : ArrayRun) (b : Bool) : AccSet := if b then x.b else x.a
def ArrayRun.putSet (x : ArrayRun) (b : Bool) (y : AccSet) : ArrayRun := if b then { x with b := y } else { x with a := y }

/-- Values of an open tile: in the cells of a set, waiting for a swap, or in accumulator memory. `n` values. -/
def State.openVals (s : State) (r : StRef) (a tile n : Nat) : List Word :=
  let x := s.arr r.st.site a
  match [x.next.map (·.1), x.cur.work, (x.set (!x.active)).work].filterMap (fun w => w.filter fun y => y.isOpen r.dev tile) with
  | w :: _ => w.vals
  | [] => ((List.range (ceilDiv n 256)).map fun u => s.accRead r.st.site a (tile + u)).flatten

/-- The array's cells hold the open tile that the next firing of a PRODUCT entry continues (06 R149). A FUSED entry's score tile uses the
array between two steps of a block, so that its tiles always go through accumulator memory. -/
def ArrayRun.keeps (x : ArrayRun) (r : StRef) (w : TileWork) : Bool :=
  r.st.kind == 1 && !w.fresh && x.next.isNone && (match x.cur.work with | some o => o.isOpen w.station w.tile | none => false)
/-- Give an array its next tile: kept in the cells, else waiting for the swap of R65. `cyc` is the active phase. Where the target set is
idle, the load of a continued tile begins at once, behind a drain that still runs (R64). -/
def State.giveArray (s : State) (r : StRef) (a cyc : Nat) (w : TileWork) : State :=
  let x := s.arr r.st.site a
  let d := aclkDiv s.clk.step
  let y := x.set (!x.active)
  let s1 := if x.keeps r w then
      s.setArr r.st.site a (x.putSet x.active { x.cur with work := some { w with done := s.clk.root + (cyc + 3) * d } })
    else
      let x1 := if w.fresh || y.work.isSome then x
        else x.putSet (!x.active) { y with busy := max (if s.clk.root < y.busy then y.busy + d else 0) (s.clk.root + 16 * w.tiles * d) }
      s.setArr r.st.site a { x1 with next := some ({ w with done := cyc }, s.clk.root) }
  s1.bumpSite r.st.site (0x100 + 8 * a) cyc
/-- Cycles in which the arrays run k-steps of the fill context: once for a firing, whichever arrays its mask names (R83). -/
def State.countFill (s : State) (r : StRef) (cyc : Nat) : State := if r.st.ctx = 1 then s.bumpSite r.st.site 0x130 cyc else s

/-! ### Vector lanes (03 R67) -/

/-- When a tile that comes at `t` finds a free lane: two pass at once. -/
def laneStart (busy : List Nat) (t : Nat) : Nat :=
  let z := busy.foldl (fun (a : Nat × Nat) x => if a.1 < x then (x, a.1) else if a.2 < x then (a.1, x) else a) (0, 0)
  if busy.length < 2 then t else max t z.2
/-- A tile passes the vector pipeline of a site from `t` on, for `n` root cycles. -/
def State.takeLane (s : State) (site t n : Nat) : State :=
  let busy := s.busyLanes site
  { s with flow := { s.flow with lanes := tblSet (fun _ => []) s.flow.lanes site (busy ++ [laneStart busy t + n]) } }

/-! ### Products (03, 06) -/

/-- Scale token bytes of a DATA port's tile. -/
def Firing.scale (f : Firing) (p : InPort) : Option (List Byte) := if p.ischeme = 0 then none else some (f.bytes p.sport)

/-- Rows of the n-th array of a mask. -/
def Operand.ofArray (o : Operand) (n : Nat) : Operand :=
  { o with code := fun j k => o.code (16 * n + j) k, scale := fun j k => o.scale (16 * n + j) k }

/-- Operands of a PRODUCT firing: column, and row operand of the n-th array of the mask. -/
def State.productOps (s : State) (r : StRef) (e : Entry) (f : Firing) (step : Nat) : Option (Operand × (Nat → Operand)) :=
  let col : Option Operand := match e.role r.st 1 with
    | p :: _ => some (ringOperand p.2 e.kc (r.rowBlocks p e.kc) (f.bytes p.1) (f.scale p.2) f.tag)
    | [] => (r.panelPort e).map fun p =>
        let sh := (r.st.panelShape e.panel).getD (0, 0)
        panelOperand p (s.panel r.st.site r.st.ctx e.panel) e.axis sh.1 sh.2 (16 * e.index .m step) (e.kc * e.index .k step)
  match col, r.rolePort e 2 with
  | some c, some p => some (c, (ringOperand p.2 e.kc (r.rowBlocks p e.kc) (f.bytes p.1) (f.scale p.2) f.tag).ofArray)
  | _, _ => none

/-- Where the tile of a firing goes. -/
def StRef.destOf (r : StRef) (e : Entry) (f : Firing) (i : Issue) (last : Bool) : DrainTo :=
  let tile := r.accTile i.entry e i.step
  if 0 < e.pe then (if e.finishes r.st f then .flush i.entry tile else .acc tile)
  else if last then .outs i.entry else .acc tile

/-- The step's tile begins with this firing: no earlier one has contributed (R58, R130). -/
def State.freshTile (s : State) (r : StRef) (e : Entry) (f : Firing) (i : Issue) : Bool :=
  if 0 < e.pe then !(s.run r.dev).started.contains (r.accTile i.entry e i.step)
  else e.isStart i.step || !s.contributed r i.entry e f.tag i.step

/-- A PRODUCT firing: every active array multiplies its rows by the shared column operand. With no array in the mask it takes its tokens and
does no work (R54 says 1 to 4 arrays, and names no code for 0: DESIGN CHOICE, log entry 11). -/
def State.fireProduct (s : State) (r : StRef) (e : Entry) (f : Firing) (i : Issue) : State :=
  match s.productOps r e f i.step with
  | none => s
  | some ops =>
    let tile := r.accTile i.entry e i.step
    let run := s.run r.dev
    let fresh := s.freshTile r e f i
    let s1 := s.setRun r.dev { run with started := if 0 < e.pe && fresh then tile :: run.started else run.started }
    let s2 := e.arrays.zipIdx.foldl (fun (s : State) a =>
      let row := ops.2 a.2
      let old := if fresh then none else some (s.openVals r a.1 tile 256)
      let v := arrayTile e.op e.fp32x ops.1 row e.kc old
      (s.giveArray r a.1 (r.cycles e)
        { station := r.dev, firing := run.firings, tag := f.tag, tile := tile, vals := v.1, done := 0, count := i.count % 256
          dest := r.destOf e f i (r.isLast e (s.lens r e f.tag) i.step)
          isInt := intAcc e.op ops.1 row, fresh := fresh, step := f.step
          panel := if e.fromPanel r.st then some e.panel else none }).bumpSite r.st.site 0x140 v.2) s1
    (s2.countFill r (r.cycles e)).contribute r i.entry e f.tag i.step

/-! ### Fused products (06 R155 to R161) -/

/-- LOG2E as the nearest FP32 number (03 R77 names the constant, not its bits; PRESUMED, log entry 12). -/
def log2e : Word := 0x3FB8AA3B
def exp2w (x : Word) : Word := vElem 0x18 0 x 0

/-- One row of the online softmax: probabilities, factor c, new state (03 R77, 06 R158). -/
def softmaxRow (st : Word × Word) (scores : List Word) : List Word × Word × (Word × Word) :=
  let m := vMax st.1 (rowMax scores)
  if rd m = .inf true then (scores.map fun _ => 0, fOne, (m, st.2))
  else
    let c := exp2w (fMul (fSub st.1 m) log2e)
    let p := scores.map fun x => exp2w (fMul (fSub x m) log2e)
    (p, c, (m, fFma st.2 c (treeSum p)))

/-- First row of a FUSED step's open query block, among the rows of its row state. -/
def Entry.blockRow (e : Entry) (step : Nat) : Nat := 16 * e.nArr * openIndex e.loops (loopIndices e.loops step)

/-- The rows of a finished block: each of a query's values times 1 ÷ l, and +0 where l = +0 (06 R158, R161). `l` by query. -/
def normalised (l : Nat → Word) (vals : List Word) : List Word :=
  vals.zipIdx.map fun x => if (rd (l (x.2 % 16))).isZero then 0 else fMul x.1 (fRecip (l (x.2 % 16)))

/-- A score tile's words as the vector pipeline takes them: FP32 as they are, an INT32 score by its value (how INT32 enters the FP32 pipeline
is not said: DESIGN CHOICE, log entry 12). -/
def pipelineWords (isInt : Bool) (l : List Word) : List Word := if isInt then l.map fun x => wr (.ofInt x.toInt) else l

/-- One kv step of a FUSED firing on one array: scores, softmax, P, and O += P·V over the Dv ÷ 16 tiles; row state and the
marks of P's conversion with it. The entry's operation is that of the score product; the second product multiplies and adds, its row operand
being probabilities (07 R167 gives the entry one OP; DESIGN CHOICE, log entry 12). -/
def State.fusedArray (s : State) (r : StRef) (e : Entry) (f : Firing) (i : Issue) (a n : Nat) (start last : Bool) :
    State × List Word :=
  match r.rolePort e 3, r.rolePort e 4, r.rolePort e 5 with
  | some qp, some kp, some vp =>
    let dv := r.dv e
    let q := (ringOperand qp.2 e.kc (r.rowBlocks qp e.kc) (f.bytes qp.1) (f.scale qp.2) f.tag).ofArray n
    let k := ringOperand kp.2 e.kc (r.rowBlocks kp e.kc) (f.bytes kp.1) (f.scale kp.2) f.tag
    let v := ringOperand vp.2 dv (r.rowBlocks vp dv) (f.bytes vp.1) (f.scale vp.2) f.tag
    let kv := e.index .k i.step
    let kLimit := ((e.loops.zip i.limits).find? fun l => l.1.1 == .k).bind (·.2)
    let sTile := arrayTile e.op e.fp32x k q e.kc none
    let scores := pipelineWords (intAcc e.op k q) sTile.1
    let prog := fusedProg (r.survey.entryProg e)
    let pd := r.pConv e
    let step := s.convStep r.slot f.step
    let row (j : Nat) : Nat := e.blockRow i.step + 16 * n + j
    let rows := (List.range 16).foldl (fun (acc : State × List (List Nat × Word × Word) × List Mark) j =>
      let query : Int := (16 * e.nArr * e.index .n i.step + 16 * n + j : Nat)
      let line := (List.range 16).map fun t => scores.getD (16 * t + j) 0
      let pre := acc.1.runLine r prog.1 start f.tag (row j) line
      let masked := pre.2.last.zipIdx.map fun x =>
        if (match kLimit with | some l => decide (l ≤ x.2) | none => false) ||
           (e.causal && decide (query + e.causalOfs < (16 * kv + x.2 : Nat))) then (0xFF800000 : Word) else x.1
      let y := softmaxRow (if start then rowStart else acc.1.rowOf r 0 (row j)) masked
      let s1 := pre.1.putRow r 0 (row j) y.2.2 (y.2.2.2, [])
      let mid := (s1.runLine r prog.2.1 false f.tag (row j) y.1).2.last
      let cs := mid.zipIdx.map fun x => writeElem pd.fmt (rndOf pd.conv r.st.seed step f.tag (256 * n + 16 * j + x.2)) (rd x.1)
      (s1, acc.2.1 ++ [(cs.map (·.1), y.2.1, y.2.2.2)], acc.2.2 ++ cs.map (·.2))) (s, [], [])
    let p : Operand := { fmt := pd.fmt, scheme := 0, code := fun j t => ((rows.2.1.getD j ([], 0, 0)).1).getD t 0, scale := fun _ _ => (0, 0) }
    let old := if start then [] else rows.1.openVals r a (r.accTile i.entry e i.step) (16 * dv)
    let vals := ((List.range (dv / 16)).map fun u =>
      let col : Operand := { v with code := fun c t => v.code t (16 * u + c), scale := fun c t => v.scale t (16 * u + c) }
      let before := if start then none else some ((List.range 256).map fun x =>
        fMul (old.getD (256 * u + x) 0) ((rows.2.1.getD (x % 16) ([], 0, 0)).2.1))
      (arrayTile 0 e.fp32x col p 16 before).1).flatten
    let out := if last then normalised (fun j => (rows.2.1.getD j ([], 0, 0)).2.2) vals else vals
    ((rows.1.countMarks r prog.2.2.1 pd rows.2.2).bumpSite r.st.site 0x140 sTile.2, out)
  | _, _, _ => (s, [])

/-- A tile boundary of the station is to come: the tile's Canary counts wait for it (02 R51). -/
def State.openBoundary (s : State) (r : StRef) (step : Option Nat) : State :=
  let x := s.run r.dev
  let marks := x.canary.filterMap fun c => if c.2.tile.getD 3 0 = 0 then none else some (c.1, c.2.tile)
  s.setRun r.dev { x with tiles := x.tiles + 1, marks := x.marks ++ [(step, marks)]
                          canary := x.canary.map fun c => (c.1, { c.2 with tile := [0, 0, 0, 0] }) }

/-- A FUSED firing. Its scores pass the vector pipeline, and the P block it writes is a tile of its own (R156). -/
def State.fireFused (s : State) (r : StRef) (e : Entry) (f : Firing) (i : Issue) : State :=
  let last := r.isLast e (s.lens r e f.tag) i.step
  let start := s.freshTile r e f i
  let run := s.run r.dev
  let ph := r.phases e
  let d := aclkDiv s.clk.step
  let s1 := e.arrays.zipIdx.foldl (fun (s : State) a =>
    let x := s.fusedArray r e f i a.1 a.2 start last
    (x.1.giveArray r a.1 (ph.1 + ph.2)
      { station := r.dev, firing := run.firings, tag := f.tag, tile := r.accTile i.entry e i.step, vals := x.2
        dest := r.destOf e f i last, done := 0, count := i.count % 256, isInt := false, fresh := start, step := f.step
        panel := none }).takeLane r.st.site (s.clk.root + (ph.1 + 3) * d) (16 * d)) s
  ((s1.countFill r (ph.1 + ph.2)).openBoundary r f.step).contribute r i.entry e f.tag i.step

/-! ### Vector, reduce, update and select firings -/

/-- Rows of a ring tile as FP32 values (02 R26, R48); a token without rows is one row. -/
def tileRows (p : InPort) (cols rowBlocks : Nat) (bs : List Byte) (sc : Option (List Byte)) (tag : Nat) : List (List Word) :=
  let t := ScaleTok.parse (sc.getD [])
  let n := tileElems p.ifmt cols bs.length
  let c := if cols = 0 then n else cols
  let bl := blockLen p.ischeme
  (List.range (n / max 1 c)).map fun i => (List.range c).map fun k =>
    let code := rowCode p.ifmt c bs i k
    if p.ischeme = 0 then wr (readElem p.ifmt code)
    else if t.scheme ≠ p.ischeme then wr .nan
    else wr (scaleElem p.ischeme (readElem p.ifmt code) (codeNeg p.ifmt code) (t.s1 (i * ceilDiv c bl + k / bl)) (t.s2 rowBlocks i (k / bl) tag))

/-- DATA ports of an entry with their rows; a NULL operand is absent (R130). -/
def StRef.dataOf (r : StRef) (e : Entry) (f : Firing) : List (List (List Word)) :=
  (e.ports r.st).filterMap fun p => if p.2.tkind ≠ 0 then none
    else match f.pay p.1 with
      | some (.data bs) =>
        let c := if f.cols p.1 = 0 then tileElems p.2.ifmt 0 bs.length else f.cols p.1
        some (tileRows p.2 (f.cols p.1) (r.rowBlocks p c) bs (f.scale p.2) f.tag)
      | _ => none

/-- Rows of a tensor after a program over the lines of a tile. -/
def rowsOut (lines : List (Nat × List Word)) (x : State × List (List (Nat × List Word)) × List (List Word)) (t : Nat) : List (List Word) :=
  rowsOfLines ((lines.map (·.1)).zip (tensorLines x.2.1 x.2.2 t))

/-- Run a program over the rows of a tile, 32 values a cycle, and write the outputs. -/
def State.vectorOut (s : State) (r : StRef) (e : Entry) (f : Firing) (i : Issue) (prog : List VInstr) (start : Bool) (rows : List (List Word)) :
    State :=
  let lines := linesOfRows 32 rows
  let x := s.runLines r prog start f.tag lines
  let d := aclkDiv s.clk.step
  let s1 := x.1.outputRows r (e.outPorts r.st) f.tag (i.count % 256) f.step false (rowsOut lines x)
  ((s1.takeLane r.st.site s.clk.root (lines.length * d)).takeLane r.st.site s.clk.root (lines.length * d)).openBoundary r f.step

/-- Element-wise combination of operands in port order (R112, R167). -/
def combine (op : Nat) : List (List Word) → List Word
  | [] => []
  | a :: rest => rest.foldl (fun x y => (List.range (max x.length y.length)).map fun n =>
      let u := x.getD n 0
      let v := y.getD n 0
      if op = 0 then fAdd u v else if op = 1 then vMax u v else vMin u v) a
/-- Values cut into rows of the shape of a tile. -/
def likeRows : List (List Word) → List Word → List (List Word)
  | [], _ => []
  | a :: as, l => l.take a.length :: likeRows as (l.drop a.length)

/-- A SELECT's operand ports, A first: those that carry neither PRED nor LEN, nor another operand's scales. The lower-numbered is A (which is
A is not said: DESIGN CHOICE, log entry 10). -/
def Entry.choices (e : Entry) (st : Station) : List (Nat × InPort) :=
  (e.ports st).filter fun p => p.2.tkind != 2 && p.2.tkind != 3 && !e.scales st p.1
/-- A SELECT firing forwards A under predicate 1 and B under 0 (R129). -/
def State.fireSelect (s : State) (r : StRef) (e : Entry) (f : Firing) (i : Issue) (pred : Bool) : State :=
  match (e.choices r.st)[if pred then 0 else 1]? with
  | some p => (match f.pay p.1 with
    | some y => (s.outputAll r e f.tag (i.count % 256) y f.step (f.cols p.1)).openBoundary r f.step
    | none => s)
  | none => s

/-- The coefficients of an UPDATE station, from its vector program's immediates: the manual says that they come from there,
not which is which (09 R235; log entry 11). -/
def updateRule (imms : List Word) : Rule :=
  let sel := Config.updateSel imms
  { rec8 := false, usel := sel % 4, hsel := bitAt sel 2, gBf16 := false, nfFault := false, mconv := 0
    alpha1 := Config.updateCoef imms 0, beta1 := Config.updateCoef imms 1, alpha2 := Config.updateCoef imms 2
    beta2 := Config.updateCoef imms 3, eps := Config.updateCoef imms 4, lambda := Config.updateCoef imms 5, mseed := 0
    canary := OutConv.parse [] }

/-- The records of a tile after an UPDATE firing: DATA ports in order are records, gradients and the step's four factors. A
parameter whose g1 is not finite keeps its record (09 R211, R235). -/
def updateTile (r : Rule) (recs grads par : List Word) : List Word :=
  let q : StepParam := { eta := par.getD 0 0, kappa1 := par.getD 1 0, kappa2 := par.getD 2 0, gamma := par.getD 3 0 }
  ((List.range (recs.length / 3)).map fun i =>
    let x : Rec := { p := recs.getD (3 * i) 0, m := recs.getD (3 * i + 1) 0, v := recs.getD (3 * i + 2) 0 }
    let y := (recurStep r q x (grads.getD i 0)).getD x
    [y.p, y.m, y.v]).flatten

/-- An UPDATE firing of a compatibility Survey (09 R235). -/
def State.fireUpdate (s : State) (r : StRef) (e : Entry) (f : Firing) (i : Issue) : State :=
  let ds := r.dataOf e f
  let rule := updateRule ((r.survey.entryProg e).map (·.imm))
  let out := updateTile rule (ds.getD 0 []).flatten (ds.getD 1 []).flatten (ds.getD 2 []).flatten
  let d := aclkDiv s.clk.step
  let s1 := s.outputRows r (e.outPorts r.st) f.tag (i.count % 256) f.step false fun _ => likeRows (ds.getD 0 []) out
  ((s1.takeLane r.st.site s.clk.root (ceilDiv out.length 32 * d)).takeLane r.st.site s.clk.root (ceilDiv out.length 32 * d)).openBoundary r f.step

/-! ### Memory-unit firings (04, 05 R112) -/

/-- A SOURCE or GATHER firing: the tile's bytes go to every output port; an uncorrectable word or line stops the job instead. -/
def State.fireRead (s : State) (r : StRef) (e : Entry) (f : Firing) (i : Issue) (t : Tmpl) (d : AgDesc) (w : WalkTile) : State :=
  let s1 := s.countRead r t d w
  match s.tileUe r t d w, s.tileHbmUe r t d w with
  | some k, _ => (s1.spadUe k).outputAll r e f.tag (i.count % 256) .error f.step
  | none, some l => (s1.hbmUe l 0).outputAll r e f.tag (i.count % 256) .error f.step
  | none, none => (s1.outputAll r e f.tag (i.count % 256) (.data (s.readTile r t d w)) f.step (d.row e)).openBoundary r f.step

/-- Runs of 16 values that a SINK hands to a Sluice context or a Mill dispatcher (09 R222, 14 R361): the walk's position
gives the element, the layer is a free value; the step is that of the firing's tokens. -/
def State.sinkRuns (s : State) (r : StRef) (e : Entry) (f : Firing) (d : AgDesc) (w : WalkTile) (bs : List Byte) (bf16 toMill : Bool) : List Run :=
  let size := if bf16 then 2 else 4
  let layer := Config.sinkLayer e.tmpl f.tag
  let own (k : Nat) : Nat := if toMill then (match s.layer r.slot layer with | some x => x.2.ownRun x.1.shard k | none => k) else k
  ((w.runs.flatten.zipIdx.filter fun x => x.2 % 16 == 0).filterMap fun x => match x.1 with
    | .elem o _ => some ({ run := own (o.toNat * 8 / ewBits d.ew / 16), step := s.convStep r.slot f.step, layer := layer, slot := r.slot, bf16 := bf16
                           vals := slice bs (size * x.2) (16 * size) } : Run)
    | .pad => none)

/-- The DATA tile of a SINK firing. -/
def Firing.sinkTile (f : Firing) (r : StRef) (e : Entry) : Option (Nat × InPort) := (e.ports r.st).find? fun p => p.2.tkind == 0
/-- The runs of a SINK firing that go to the Mills. -/
def State.millRuns (s : State) (r : StRef) (e : Entry) (f : Firing) (t : Tmpl) (d : AgDesc) (w : WalkTile) : List Run :=
  match f.sinkTile r e with
  | some p => if r.st.kind = 7 ∧ t.sinkTo = 2 then s.sinkRuns r e f d w (f.bytes p.1) (decide (p.2.ifmt = 2)) true else []
  | none => []

/-- Write a SINK's tile, or hand it on; whether a line or word that the tile covers in part was uncorrectable (10 R250, 04 R86). -/
def State.sinkTile (s : State) (r : StRef) (e : Entry) (f : Firing) (t : Tmpl) (d : AgDesc) (w : WalkTile) (p : Nat × InPort) : State × Bool :=
  let bs := f.bytes p.1
  if t.sinkTo = 0 then
    let s1 := s.writeTile r t d w bs
    (s1, !(s.slot r.slot).stopped && (s1.slot r.slot).stopped)
  else
    let rs := s.sinkRuns r e f d w bs (decide (p.2.ifmt = 2)) (decide (t.sinkTo = 2))
    if t.sinkTo = 1 then ({ s with flow := { s.flow with contribs := s.flow.contribs ++ rs } }, false)
    else ({ s with flow := { s.flow with dispatch := s.flow.dispatch ++ rs } }, false)

/-- A SINK firing: the tile is written, or handed on; its tokens wait for the tile's completion (04 R98, 08 R202). -/
def State.fireSink (s : State) (r : StRef) (e : Entry) (f : Firing) (i : Issue) (t : Tmpl) (d : AgDesc) (w : WalkTile) : State :=
  match f.sinkTile r e with
  | none => s
  | some p =>
    let x := s.sinkTile r e f t d w p
    let pay : Payload := if x.2 then .error else .data (f.bytes p.1)
    let waiting := (e.outPorts r.st).filterMap fun q => (r.st.outs[q]?).map fun o =>
      (q, ({ tag := o.tag f.tag (i.count % 256), pay := pay, step := f.step, cols := f.cols p.1 } : Token))
    let s1 := x.1.openBoundary r f.step
    s1.setRun r.dev { s1.run r.dev with waiting := (s1.run r.dev).waiting ++ waiting }

/-- Bytes a tile's write needs. -/
def WalkTile.size (w : WalkTile) (ew : Nat) : Nat := w.runs.foldl (fun a l => a + packedBytes (ewBits ew) l.length) 0

/-- The staging chunks that a GATHER walk's tile reads, each with the byte up to which it reads (08 R192). -/
def State.stagedReads (s : State) (r : StRef) (t : Tmpl) (d : AgDesc) (w : WalkTile) : List (Nat × Nat) :=
  if r.st.kind ≠ 8 ∨ d.ptr ∨ t.region.isSome then []
  else match (s.slot r.slot).hoist with
    | none => []
    | some h => h.chunks.zipIdx.filterMap fun c =>
      if c.1.site ≠ r.st.site ∨ c.1.win ≠ d.win then none
      else
        let lo : Int := ((4096 * c.1.page : Nat) : Int)
        let n := (w.accesses d.ew).foldl (fun n a =>
          if a.1 < lo + (4096 * c.1.pages : Nat) ∧ lo < a.1 + a.2 then max n (min (a.1 + a.2 - lo).toNat (4096 * c.1.pages)) else n) 0
        if n = 0 then none else some (c.2, n)
/-- The tile reads staging data that the Hoist has not written yet. -/
def State.unstaged (s : State) (r : StRef) (t : Tmpl) (d : AgDesc) (w : WalkTile) : Bool :=
  (s.stagedReads r t d w).any fun c => !s.flow.chunks.any fun y => y.slot == r.slot && y.chunk == c.1 && (y.closed || c.2 ≤ y.filled)
/-- The tile's token is the last that a chunk's data give: the chunk may be freed (08 R192). -/
def State.noteStaged (s : State) (r : StRef) (t : Tmpl) (d : AgDesc) (w : WalkTile) : State :=
  let rs := s.stagedReads r t d w
  { s with flow := { s.flow with chunks := s.flow.chunks.map fun y =>
      if y.slot == r.slot && y.closed && rs.any (fun c => c.1 == y.chunk && y.filled ≤ c.2) then { y with read := true } else y } }

/-- ERROR to every output port of a walk's firing. -/
def State.walkError (s : State) (r : StRef) (e : Entry) (f : Firing) (i : Issue) : State := s.outputAll r e f.tag (i.count % 256) .error f.step

/-- The accesses of a tile within bounds (R89): all of them, or those before the first that breaks a bound, which is refused. -/
def State.walkPart (s : State) (r : StRef) (t : Tmpl) (d : AgDesc) (w : WalkTile) : WalkTile × Option (Nat × Int) :=
  if r.st.kind = 7 ∧ t.sinkTo ≠ 0 then (w, none)
  else match s.walkFault r t d w with
    | some x => (w.take x.2, some x.1)
    | none => (w, none)

/-- A tile whose banks are awake: the accesses up to the first out of bounds are performed, and that one raises MU_BOUND_FAULT. -/
def State.walkGo (s : State) (r : StRef) (e : Entry) (f : Firing) (i : Issue) (t : Tmpl) (d : AgDesc) (w : WalkTile × Option (Nat × Int)) : State :=
  match w.2 with
  | none => if r.st.kind = 7 then s.fireSink r e f i t d w.1 else (s.fireRead r e f i t d w.1).noteStaged r t d w.1
  | some x =>
    if r.st.kind = 7 then
      (match f.sinkTile r e with
       | some p => ((s.sinkTile r e f t d w.1 p).1.boundFault r x).walkError r e f i
       | none => (s.boundFault r x).walkError r e f i)
    else match s.tileUe r t d w.1, s.tileHbmUe r t d w.1 with
      | none, none => ((s.countRead r t d w.1).boundFault r x).walkError r e f i
      | _, _ => s.fireRead r e f i t d w.1

/-- A memory-unit firing: list entry, seals, staging, banks, then the tile with its bounds. None when a bank must wake first, or staging data
or a Mill's buffer is awaited. A descriptor's `DIR` is not looked at: the station's kind says whether it reads or writes (no load check
compares them; DESIGN CHOICE, log entry 10). -/
def State.fireWalk (s : State) (r : StRef) (e : Entry) (f : Firing) (i : Issue) : Option State × State :=
  match r.tmpl e, r.desc e with
  | some t, some d =>
    let w := s.walkTile r e d i
    match s.listFault r d w with
    | some x => (some ((s.boundFault r x).walkError r e f i), s)
    | none =>
      let b := s.generatorBanks r (s.listBank r d w)
      if !b.2 then (none, b.1)
      else match s.listUe r d w with
      | some k => (some (((b.1.bumpSite r.st.site 0x100).spadUe k).walkError r e f i), s)
      | none =>
        let v := s.walkPart r t d w
        match s.walkSealed r t d v.1 with
        | some x => (some ((s.sealStop r.slot x.1 x.2).walkError r e f i), s)
        | none =>
          if s.unstaged r t d v.1 then (none, s)
          else if (r.st.kind == 7 && t.sinkTo == 1 && s.sluiceFull r.slot) || (s.millRuns r e f t d v.1).any fun x => !s.millRoom (s.millOf x) then
            (none, s.setRun r.dev { s.run r.dev with starved := true })
          else
            let c := if r.st.kind = 7 ∧ t.sinkTo ≠ 0 then b else b.1.generatorBanks r (s.tileBanks r t d v.1)
            if !c.2 then (none, c.1.setRun r.dev { c.1.run r.dev with starved := false }) else (some (c.1.walkGo r e f i t d v), s)
  | _, _ => (some (s.walkError r e f i), s)

/-! ### STATION_FIRE -/

/-- A SINK's tile has not the length of its walk's tile (R115). -/
def State.sinkSize (s : State) (r : StRef) (e : Entry) (f : Firing) (i : Issue) : Bool :=
  match s.issueTile r e i, r.desc e, f.sinkTile r e with
  | some w, some d, some p => (match f.pay p.1 with | some (.data bs) => r.st.kind == 7 && bs.length != w.size d.ew | _ => false)
  | _, _, _ => false

/-- Every undrained stationary tile of an entry goes from the cells to accumulator memory; its set is free after the drain. -/
def State.settle (s : State) (r : StRef) (lo n : Nat) : State :=
  [(0, false), (0, true), (1, false), (1, true), (2, false), (2, true), (3, false), (3, true)].foldl (fun (s : State) k =>
    let x := s.arr r.st.site k.1
    match (x.set k.2).work with
    | some w =>
      if w.station = r.dev ∧ lo ≤ w.tile ∧ w.tile < lo + n then
        (s.accStore r.st.site k.1 w.tile w.vals).setArr r.st.site k.1 (x.putSet k.2
          { work := none, busy := max (x.set k.2).busy s.clk.root + 16 * aclkDiv s.clk.step, laneWait := 0 })
      else s
    | none => s) s

/-- The 16 lines of an array's tile along the drain axis (R66). -/
def drainLines (byCol : Bool) (vals : List Word) : List (List Word) :=
  (List.range 16).map fun d => (List.range 16).map fun j => vals.getD (if byCol then 16 * j + d else 16 * d + j) 0

/-- Every stationary tile of an entry goes to the output ports as raw FP32, then starts afresh (08 R204). -/
def State.flushStationary (s0 : State) (r : StRef) (entry : Nat) (e : Entry) (tag : Nat) (step : Option Nat) : State :=
  let base := r.accBase entry
  let s := s0.settle r base e.pe
  let run := s.run r.dev
  let s1 := (List.range e.pe).foldl (fun (s : State) u =>
    (e.outPorts r.st).foldl (fun (s : State) q => match r.st.outs[q]? with
      | none => s
      | some o =>
        let axis := r.byCol entry q
        let rows := arrangeLines axis ((e.arrays.map fun a => drainLines axis (s.accRead r.st.site a (base + u))).flatten)
        s.output r q (if run.started.contains (base + u) then
          { tag := o.tag tag u, pay := .data (rows.flatten.map fun w => leBytes 4 w.toNat).flatten, step := step, cols := (rows.headD []).length }
          else { tag := o.tag tag u, pay := .null, step := step })) s) s
  (s1.setRun r.dev { s1.run r.dev with started := run.started.filter fun t => !(base ≤ t && t < base + e.pe) }).openBoundary r step

/-- After a firing or null firing: tokens, step, numbering, progress. -/
def State.fired (s : State) (r : StRef) (e : Entry) (f : Firing) (i : Issue) (ctr : Nat) : State :=
  let s1 := s.draw.setRun r.dev { s.draw.run r.dev with firings := (s.run r.dev).firings + 1, starved := false }
  let s2 := (s1.consume r e f (e.blockEnd i.step)).endReduction r i.entry e f.tag i.step f.step
  ((s2.advance r i.entry e f.tag f.step).bumpCtx r.st.site r.st.ctx ctr).progress r.slot

/-- The errors are there when the tile is read. -/
def State.plantErrors (s : State) (r : StRef) (x : FireErrors) : State :=
  let ws := (x.spad.map fun w => r.st.site * 2 ^ 18 + w % 2 ^ 18).filter fun w => !s.flow.scratchUe.contains w
  let s1 := ((s.foundErrors x.hbm).bumpSite r.st.site 0x158 x.ce).ceSite r.st.site SramStruct.scratch.code x.ce
  { s1 with flow := { s1.flow with scratchUe := s1.flow.scratchUe ++ ws } }

/-- An uncorrectable row-state entry stops the job (18 R436). -/
def State.rowUe (s : State) (r : StRef) (x : FireErrors) : State :=
  match x.row with
  | some w => s.sramUe ⟨r.slot % 8, Nat.mod_lt _ (by decide)⟩ r.st.site .row w
  | none => s
/-- Accumulator memory read by a firing that continues or finishes tiles: corrected errors count, an uncorrectable word stops the job
(R69). -/
def State.accErrors (s : State) (r : StRef) (read : Bool) (x : FireErrors) : State :=
  if !read then s
  else
    let s1 := (s.bumpSite r.st.site 0x148 x.accCe).ceSite r.st.site SramStruct.accum.code x.accCe
    match x.acc with
    | some w => s1.sramUe ⟨r.slot % 8, Nat.mod_lt _ (by decide)⟩ r.st.site .accum w
    | none => s1

/-- A program without its reductions into row state: it delivers what the row state holds. -/
def withoutReductions (p : List VInstr) : List VInstr := p.filter fun x => !(decide (0x28 ≤ x.op ∧ x.op ≤ 0x2B) && decide (0x40 ≤ x.d ∧ x.d < 0x60))

/-- The last firing of a reduction is null: what the others have contributed goes out (R130). A tile leaves the arrays; a running value
leaves row state through the entry's program over a row of +0, its reductions left out (how it is delivered is not said: DESIGN CHOICE, log
entry 10). -/
def State.deliverNull (s : State) (r : StRef) (e : Entry) (f : Firing) (i : Issue) : State :=
  let tile := r.accTile i.entry e i.step
  if r.st.kind = 3 then s.vectorOut r e f i (withoutReductions (r.survey.entryProg e)) false [List.replicate 32 0]
  else
    let n := if r.st.kind = 2 then 16 * r.dv e else 256
    let isInt := r.st.kind == 1 && (match s.productOps r e f i.step with | some o => intAcc e.op o.1 (o.2 0) | none => false)
    e.arrays.zipIdx.foldl (fun (s : State) a =>
      let vs := s.openVals r a.1 tile n
      let vals := if r.st.kind = 2 then normalised (fun j => (s.rowOf r 0 (e.blockRow i.step + 16 * a.2 + j)).2) vs else vs
      s.giveArray r a.1 0 { station := r.dev, firing := (s.run r.dev).firings, tag := f.tag, tile := tile, vals := vals, done := 0
                            count := i.count % 256, dest := .outs i.entry, isInt := isInt, fresh := false, step := f.step, panel := none }) s

/-- A null firing (R127, R128) writes NULL to every output port. In an accumulation across firings it is skipped, and only the one that ends
the accumulation writes: what the others have contributed, or NULL (R130; DEDUCED, log entry 10). -/
def State.fireNull (s : State) (r : StRef) (e : Entry) (f : Firing) (i : Issue) : State :=
  let count := i.count % 256
  if 0 < e.pe then (if e.finishes r.st f then s.flushStationary r i.entry e f.tag f.step else s)
  else if (r.st.kind = 1 ∨ r.st.kind = 2 ∨ r.st.kind = 3) ∧ r.reduces e = true then
    if !r.isLast e (s.lens r e f.tag) i.step then (if r.st.kind = 3 then s.outputAll r e f.tag count .null f.step else s)
    else if s.contributed r i.entry e f.tag i.step then s.deliverNull r e f i
    else (s.outputAll r e f.tag count .null f.step).contribute r i.entry e f.tag i.step
  else s.outputAll r e f.tag count .null f.step

/-- STATION_FIRE of a station whose tile has been issued (R116, R118, R127 to R130). Its panel, arrays, vector pipeline, generator and
outputs must be free, and a fill context yields to the primary (03 R79). A firing with an ERROR token does no work and counts in `NULL_FIRE`,
as the null firing does that it resembles (R116 names no counter: DESIGN CHOICE, log entry 10). -/
def onStationFire (dev : Fin 8192) (errs : FireErrors) (s : State) : State :=
  match s.station dev.val with
  | none => s
  | some r => match (s.run r.dev).issue with
    | none => s
    | some i => match r.st.ents[i.entry]?, s.issued r i with
      | some e, some f =>
        if !s.live ∨ !s.outputsFree r e f ∨ s.fillHeld r ∨ s.unitBusy r then s
        else if r.errorIn e f || s.sinkSize r e f i then
          ((s.outputAll r e f.tag (i.count % 256) .error f.step).contribute r i.entry e f.tag i.step).fired r e f i 0x08
        else if s.nullFiring r e f then
          ((s.fireNull r e f i).fired r e f i 0x08).accErrors r (decide (0 < e.pe) && e.finishes r.st f) errs
        else if r.st.walks then
          let x := (s.plantErrors r errs).fireWalk r e f i
          (match x.1 with
           | some s1 => s1.fired r e f i 0x00
           | none => (s.fireWalk r e f i).2)
        else if r.st.kind = 1 then ((s.fireProduct r e f i).fired r e f i 0x00).accErrors r (!s.freshTile r e f i) errs
        else if r.st.kind = 2 then (((s.fireFused r e f i).fired r e f i 0x00).rowUe r errs).accErrors r (!s.freshTile r e f i) errs
        else if r.st.kind = 3 then
          (((s.vectorOut r e f i (r.survey.entryProg e) (s.freshTile r e f i) ((r.dataOf e f).headD [])).contribute r i.entry e f.tag i.step).fired
            r e f i 0x00).rowUe r errs
        else if r.st.kind = 4 then
          (match r.dataOf e f with
           | [] => (s.outputAll r e f.tag (i.count % 256) .null f.step).fired r e f i 0x00
           | ds => ((s.vectorOut r e f i (r.survey.entryProg e) (s.freshTile r e f i)
               (likeRows (ds.headD []) (combine e.op (ds.map List.flatten)))).contribute r i.entry e f.tag i.step).fired r e f i 0x00)
        else if r.st.kind = 5 then (s.fireUpdate r e f i).fired r e f i 0x00
        else (s.fireSelect r e f i (s.predOf r e f)).fired r e f i 0x00
      | _, _ => s

/-- The answer to `STATION_FIRE`. -/
def execStationFire (dev : Fin 8192) (errs : FireErrors) (s : State) : Answer := .next (onStationFire dev errs s)

end Sys2Proof.Machine
end

