-- ==== Sys2Proof/Machine/SurveyCheck.lean ====
section
/-! DEFINITION. The load-time checks of a Survey image, code by code (07 R162 to R177, R183, R498, Table 07-8; 06 R150 to R156;
02 R25, R33, R41, R50; 04 R89 to R100; 05 R117 to R134). -/
namespace Sys2Proof.Machine

/-- What a failed load reports (07 R175, 12 R300): code, section, item, firing entry, term. -/
structure LoadFail where
  code : Nat
  sect : Nat
  item : Nat
  entry : Nat
  term : Nat
  deriving DecidableEq, Repr

/-- The load that is checked: device, slot, image, and the Survey read from it. -/
structure Load where
  s : State
  n : Nat
  img : List Byte
  v : Survey

def loadFail (code sect item : Nat) : LoadFail := { code := code, sect := sect, item := item, entry := 0, term := 0 }

/-- Items of a section that break a condition. -/
def badItems {α : Type} (code sect : Nat) (l : List α) (p : Nat → α → Bool) : List LoadFail :=
  l.zipIdx.filterMap fun x => if p x.2 x.1 then some (loadFail code sect x.2) else none

/-- Stations that break a condition of their own, or with the first entry that breaks one. -/
def badStations (code : Nat) (v : Survey) (p : Nat → Station → Bool) (q : Nat → Station → Entry → Bool) : List LoadFail :=
  v.stations.zipIdx.filterMap fun x =>
    if p x.2 x.1 then some (loadFail code 0 x.2)
    else (x.1.ents.findIdx? (q x.2 x.1)).map fun e => { loadFail code 0 x.2 with entry := e }
/-- Firing entries that break a condition. -/
def badEntries (code : Nat) (v : Survey) (q : Nat → Station → Entry → Bool) : List LoadFail :=
  badStations code v (fun _ _ => false) q

/-! ### Codes 0x01 and 0x02 -/

def Load.check01 (l : Load) : List LoadFail :=
  if leAt l.img 0 4 = 0x59565253 ∧ byteAt l.img 4 = 2 ∧ byteAt l.img 5 = 0 ∧ (byteAt l.img 6 = 1 ∨ byteAt l.img 6 = 2) then []
  else [loadFail 1 0 0]

/-- `DIGEST` is the SM3 of the image with its own bytes zero (Table 07-1). -/
def Load.check02 (l : Load) : List LoadFail :=
  if sm3 (l.img.take 16 ++ zeroBytes 32 ++ l.img.drop 48) = slice l.img 16 32 then [] else [loadFail 2 0 0]

/-! ### Code 0x03: layout and indices -/

/-- R162 and R163 for one directory entry. Two sections that overlap are found at the later of them. -/
def sectionOk (img : List Byte) (e : Nat) : Bool :=
  let c := sectCount img e
  let o := sectOffset img e
  c == 0 || (sectEsize img e == sectionSize e && o % 64 == 0 && 256 ≤ o && o + c * sectionSize e ≤ img.length &&
    (List.range e).all fun f => sectCount img f == 0 ||
      !overlaps o (c * sectionSize e) (sectOffset img f) (sectCount img f * sectionSize f))

/-- The header's counts are in range: nothing else is read while they are not. -/
def Load.headOk (l : Load) : Bool :=
  l.img.length % 64 == 0 && 1 ≤ imgStations l.img && imgStations l.img ≤ 8192 && l.v.nSluice ≤ 64 && l.v.nRule ≤ 16
/-- The directory entry of a section is sound. -/
def Load.sectionFine (l : Load) (e : Nat) : Bool := sectionOk l.img e && (e != 0 || sectCount l.img e == imgStations l.img)
/-- The directory. -/
def Load.check03a (l : Load) : List LoadFail :=
  (List.range 10).filterMap fun e => if l.sectionFine e then none else some (loadFail 3 e 0)

/-- The program at an index ends within 256 instructions and inside its section, and the softmax step stands in FUSED entries
only (R168); a convert instruction names a descriptor of the station. -/
def programOk (v : Survey) (st : Station) (i : Nat) : Bool :=
  i < v.prog.length && ((v.prog.drop i).take 256).any (·.op == 0) &&
  (v.program i).all fun x => (x.op != 0x30 || st.kind == 2) && (x.op != 0x20 || decide (x.b < st.convs.length))

def siteRef (w : Nat) : Bool := w == 0xFFFF || w < 8192

/-- Sites at which a template's ring lies: those of the routes that name it. -/
def Survey.ringSites (v : Survey) (t : Nat) : List Nat := ((v.routes.filter fun r => r.tmpl == t).map (·.dst)).dedup

/-- The indices that Table 07-8 lists under code 0x03, and the count of section 8. Nothing is read of a section whose directory entry is broken,
and no index is held against one. -/
def Load.check03b (l : Load) : List LoadFail :=
  let v := l.v
  let ok := l.sectionFine
  let under (k : Nat) (xs : List LoadFail) : List LoadFail := if ok k then xs else []
  under 0 (badStations 3 v
    (fun _ st =>
      (ok 1 && match v.parts[st.part]? with | some p => p.site != st.site || p.ctx != st.ctx | none => true) ||
      st.outs.any fun o => (ok 3 && decide (v.routes.length ≤ o.route)) || decide (st.convs.length ≤ o.tensor))
    (fun _ st e =>
      2 ^ st.ins.length ≤ e.inMask || 2 ^ st.outs.length ≤ e.outMask ||
      (match e.prog with | some i => ok 9 && !programOk v st i | none => false) || (st.walks && ok 6 && v.tmpls.length ≤ e.tmpl))) ++
  under 2 (badItems 3 2 v.tags fun _ t => ok 1 && v.parts.length ≤ t.part) ++
  under 3 (badItems 3 3 v.routes fun _ r =>
    (ok 6 && v.tmpls.length ≤ r.tmpl) || (r.wp1 == 0xFFFF && r.wp2 != 0xFFFF) || !siteRef r.wp1 || !siteRef r.wp2 ||
    (ok 0 && match v.stations[r.dstn]? with | some st => st.ins.length ≤ r.dport | none => true)) ++
  under 4 (badItems 3 4 v.mus fun _ m => ok 1 && !v.parts.any fun p => p.site == m.site && p.ctx == m.ctx) ++
  under 6 (badItems 3 6 v.tmpls fun i t =>
    (match t.region with | some r => ok 5 && v.regions.length ≤ r | none => false) ||
    (0 < t.rearmN && ok 7 && v.rearms.length < t.rearm + t.rearmN) ||
    (t.spillEn && ok 3 && (v.ringSites i).any fun k => isCu k && (neighbour k t.spillDir).isNone)) ++
  under 8 (if sectCount l.img 8 = imgRules l.img then [] else [loadFail 3 8 0])

/-- Code 0x03 in section and item order (R175). -/
def Load.check03 (l : Load) : List LoadFail :=
  if !l.headOk then [loadFail 3 0 0]
  else ((l.check03a ++ l.check03b).foldl (fun (m : Option LoadFail) f => match m with
    | some g => if f.sect < g.sect ∨ (f.sect = g.sect ∧ f.item < g.item) then some f else m
    | none => some f) none).toList

/-! ### Code 0x04: reserved fields and codes -/

def inPortMask (i : Nat) : Nat := [0x7F, 0x1F, 0xFF, 0xFF, 0x07, 0x3F, 0x7F, 0x07].getD i 0
def outPortMask (i : Nat) : Nat := [0xFF, 0x7F, 0xFF, 0x3F, 0xFF, 0x00, 0xFF, 0xFF].getD i 0
def entryMask (i : Nat) : Nat :=
  if i = 1 then 0xF7 else if 4 ≤ i ∧ i < 8 then 0x03 else if i = 19 then 0x03 else if i = 25 then 0x01
  else if i = 26 ∨ i = 27 then 0 else 0xFF
def convMask (i : Nat) : Nat := if i = 1 then 0x07 else if i = 2 then 0x3F else if i = 3 ∨ i = 14 ∨ i = 15 then 0 else 0xFF
def stationMask (b : List Byte) (i : Nat) : Nat :=
  if i < 8 then [0x1F, 0x7F, 0x07, 0x00, 0xFF, 0x1F, 0xFF, 0xFF].getD i 0
  else if i < 40 then (if (i - 8) / 8 < Station.nout b then outPortMask ((i - 8) % 8) else 0)
  else if i < 64 then 0
  else if i < 128 then (if (i - 64) / 8 < Station.nin b then inPortMask ((i - 64) % 8) else 0)
  else if i < 256 then 0xFF
  else if (i - 256) / 32 < Station.nten b then convMask ((i - 256) % 32) else 0
/-- The first of a station's four entry places with a non-zero reserved bit; places beyond the count are reserved whole. -/
def reservedEntry (b : List Byte) : Option Nat :=
  (List.range 4).find? fun n => (List.range 32).any fun j =>
    (byteAt b (128 + 32 * n + j)) &&& (255 - (if n < Station.nent b then entryMask j else 0)) != 0
/-- Window, address-generator and spill masks belong to memory units only (R169). -/
def partMask (b : List Byte) (i : Nat) : Nat :=
  let mu := !isCu (leAt b 0 2 % 8192)
  if i = 1 then 0x1F else if i = 2 then 0x01 else if i = 3 then 0
  else if i < 14 then 0xFF else if i < 18 ∧ mu then (if i = 15 then 0x0F else 0xFF) else 0
def routeMask (i : Nat) : Nat := if i = 1 ∨ i = 3 ∨ i = 9 then 0x1F else if i = 10 then 0x07 else if i = 11 ∨ 14 ≤ i then 0 else 0xFF
def muMask (i : Nat) : Nat :=
  if i < 64 then [0xFF, 0x1F, 0x01].getD i 0
  else if i < 320 then
    (let j := (i - 64) % 32
     if j = 0 then 0x0F else if j = 4 then 0xFF else if j = 5 then 0x01 else if j = 8 then 0xFF else if j = 9 then 0x03
     else if 16 ≤ j then 0xFF else 0)
  else [0x0F, 0, 0, 0, 0xFF, 0x7F, 0xFF, 0xFF, 0xFF, 0xFF].getD ((i - 320) % 16) 0
def regionMask (i : Nat) : Nat := if i < 17 then 0xFF else if i = 17 then 0x01 else 0
def tmplMask (i : Nat) : Nat :=
  if i < 64 then
    (if i = 0 then 0x7F else if i = 1 then 0x1F else if i = 2 then 0x07 else if i = 3 then 0 else if i = 6 ∨ i = 50 then 0x1F
     else if i = 7 ∨ i = 51 ∨ 54 ≤ i then 0 else 0xFF)
  else if i < 70 then [0x3F, 0x07, 0xFF, 0xFF, 0x7F, 0x03].getD (i - 64) 0
  else if i < 72 then 0 else if i < 77 then 0xFF else if i = 80 ∨ i = 81 ∨ (84 ≤ i ∧ i < 92) then 0xFF else 0
def ruleMask (i : Nat) : Nat :=
  if i = 0 then 0x3F else if i = 1 then 0x0F else if i = 2 ∨ i = 3 then 0 else if i < 32 then 0xFF else convMask (i - 32)
def headerMask (i : Nat) : Nat :=
  if i = 7 then 0 else if i = 49 then 0x0F else if i = 50 then 0x7F else if i = 51 then 0x1F else if i = 53 then 0x3F
  else if 54 ≤ i ∧ i < 56 then 0 else if 60 ≤ i ∧ i < 64 then 0 else if 224 ≤ i then 0 else 0xFF

/-- Bits of a record that its mask leaves out are all zero. -/
def maskedZero (mask : Nat → Nat) (b : List Byte) : Bool := b.zipIdx.all fun x => x.1.toNat &&& (255 - mask x.2) == 0

/-- A field of a conversion descriptor holds a reserved code (R24, R33, Table 02-8); `CONV` of a station that forwards codes
unchanged is ignored (R50). -/
def OutConv.reserved (c : OutConv) (forwards : Bool) : Bool :=
  10 < c.fmt || c.scheme == 3 || (!forwards && (c.conv % 4 == 3 || 8 ≤ c.conv))
def Station.reservedKind (k : Nat) : Bool := k == 0 || 9 < k
/-- `OP` codes that R167 lists. -/
def opListed (kind op : Nat) : Bool :=
  if kind = 1 ∨ kind = 2 then op ≤ 5 else if kind = 4 then op ≤ 2 else op == 0

def Load.check04 (l : Load) : List LoadFail :=
  let v := l.v
  let raw (e : Nat) (p : List Byte → Bool) : List LoadFail := badItems 4 e (sectRecords l.img e) (fun _ b => p b)
  let st := badStations 4 v
    (fun i x => !(match (sectRecords l.img 0)[i]? with | some b => maskedZero (stationMask b) b | none => true) ||
      Station.reservedKind x.kind || x.convs.any (OutConv.reserved · (x.kind == 6 || x.kind == 8)) ||
      x.ins.any (fun p => 4 < p.tkind || 10 < p.ifmt || p.ischeme == 3 || p.role == 7) ||
      x.outs.any fun o => o.iterSel == 3 || o.subSel == 3)
    (fun _ x e => 2 < e.pbind || !opListed x.kind e.op)
  let rsv := (sectRecords l.img 0).zipIdx.filterMap fun b => (reservedEntry b.1).map fun e => { loadFail 4 0 b.2 with entry := e }
  let least := (st ++ rsv).foldl (fun (a : Option LoadFail) f => match a with
    | some g => if f.item < g.item ∨ (f.item = g.item ∧ f.entry < g.entry) then some f else a
    | none => some f) none
  (if maskedZero headerMask (l.img.take 256) then [] else [loadFail 4 0 0]) ++ least.toList ++
  raw 1 (fun b => !maskedZero (partMask b) b) ++
  raw 2 (fun b => !maskedZero (fun i => if i = 2 then 0x0F else 0xFF) b) ++
  raw 3 (fun b => !maskedZero routeMask b) ++ raw 4 (fun b => !maskedZero muMask b) ++
  raw 5 (fun b => !maskedZero regionMask b || 5 < (Region.parse b).kind) ++
  raw 6 (fun b => let t := Tmpl.parse b
    !maskedZero tmplMask b || 4 < t.kind || t.sinkTo == 3 || (match t.desc with | some d => 4 < d.ew | none => false)) ++
  raw 7 (fun b => !maskedZero (fun i => if i < 14 then 0xFF else 0) b) ++
  raw 8 (fun b => let r := Rule.parse b
    !maskedZero ruleMask b || r.canary.reserved false || r.mconv % 4 == 3 || 8 ≤ r.mconv)

/-! ### Codes 0x05 to 0x07: slot, stations, resources -/

def Load.check05 (l : Load) : List LoadFail := if (l.s.slot l.n).survey.isSome then [loadFail 5 0 0] else []

/-- Runs of station indices in use. -/
def State.stationRuns (s : State) : List (Nat × Nat) :=
  s.slots.filterMap fun e => e.2.survey.map fun v => (e.2.base, v.stations.length)
/-- The lowest-starting free run of `n` indices (R178): it starts at 0 or just after a run in use. -/
def State.freeRun (s : State) (n : Nat) : Option Nat :=
  let runs := s.stationRuns
  let starts := 0 :: runs.map fun r => r.1 + r.2
  (starts.filter fun a => a + n ≤ 8192 && runs.all fun r => !overlaps a n r.1 r.2).foldl
    (fun a b => match a with | some x => some (min x b) | none => some b) none

def Load.check06 (l : Load) : List LoadFail := if (l.s.freeRun l.v.stations.length).isNone then [loadFail 6 0 0] else []

/-- Free device rule slots, lowest first (09 R213). -/
def State.freeRules (s : State) : List Nat := (List.range 16).filter fun k => (tblGet (fun _ => none) s.flow.ruleOwn k).isNone
/-- Reduction contexts that loaded Surveys have reserved, and those that barriers hold beyond a reservation (14 R359). -/
def State.sluiceUsed (s : State) : Nat :=
  (List.range 8).foldl (fun a n =>
    let held := (s.flow.sluices.filter fun e => match e.2 with | some x => x.slot == n | none => false).length
    a + max held (match (s.slot n).survey with | some v => v.nSluice | none => 0)) 0

/-- The placement conditions of R172 for one region (R403, 10 R247). -/
def Load.regionPlaced (l : Load) (r : Region) : Bool :=
  r.base % 4096 == 0 && 0 < r.len && r.len % 4096 == 0 && r.base + r.len ≤ hbmSize &&
  (List.range 8).all (fun k => k == l.n || (match (l.s.slot k).survey with
    | some v => v.regions.all fun x => !overlaps r.base r.len x.base x.len | none => true)) &&
  (!r.isSealed ||
    (l.s.sec.sealed.any (fun e => match e.2 with
      | some x => x.slots.getLsbD l.n && !x.releasing && x.base ≤ r.base && r.base + r.len ≤ x.base + x.len | none => false) &&
     l.v.regions.all fun x => x.isSealed || !overlaps r.base r.len x.base x.len))

def Load.check07 (l : Load) : List LoadFail :=
  (if l.s.sluiceUsed + l.v.nSluice ≤ 64 ∧ l.v.nRule ≤ l.s.freeRules.length then [] else [loadFail 7 0 0]) ++
  badItems 7 5 l.v.regions fun _ r => !l.regionPlaced r

/-! ### Codes 0x08 to 0x0A: sites -/

def Load.check08 (l : Load) : List LoadFail :=
  badStations 8 l.v (fun _ st => if isCu st.site then Station.isMuKind st.kind else !(Station.isMuKind st.kind || st.kind == 9))
    (fun _ _ _ => false) ++
  badItems 8 4 l.v.mus fun _ m => isCu m.site

/-- A site takes stations and memory: neither fenced, nor in self-test, nor router-only. -/
def State.siteServes (s : State) (k : Nat) : Bool := s.unit k == .inService
/-- A site passes mesh traffic (R176). -/
def State.sitePasses (s : State) (k : Nat) : Bool := s.unit k == .inService || s.unit k == .routerOnly

def Load.check09 (l : Load) : List LoadFail :=
  let out (k : Nat) : Bool := !l.s.siteServes k
  badStations 9 l.v (fun _ st => out st.site) (fun _ _ _ => false) ++ badItems 9 1 l.v.parts (fun _ p => out p.site) ++
  badItems 9 4 l.v.mus (fun _ m => out m.site) ++
  badItems 9 6 l.v.tmpls fun i t => (l.v.ringSites i).any fun k => out k || (t.spillEn && out (t.spillSite k))

def Load.check0A (l : Load) : List LoadFail := badItems 10 3 l.v.routes fun _ r => r.sites.any fun k => !l.s.sitePasses k

/-! ### Codes 0x0B and 0x0C: contexts and partitions -/

/-- The Survey of a slot that is not being killed: what a killed slot held is waited for, not refused (R180). -/
def Slot.kept (x : Slot) : Option Survey := if x.killing then none else x.survey
/-- A context of a site that a resident Survey holds. -/
def State.ctxTaken (s : State) (site ctx : Nat) : Bool :=
  s.slots.any fun e => match e.2.kept with
    | some v => v.stations.any (fun x => x.site == site && x.ctx == ctx) || v.parts.any fun p => p.site == site && p.ctx == ctx
    | none => false

/-- Two stations in one context (05 R112); both contexts of a unit in one Survey, a context placed twice, or a context already
resident (03 R78, 04 R91). Of two records in conflict the later is at fault. -/
def Load.check0B (l : Load) : List LoadFail :=
  badStations 11 l.v (fun i st => (l.v.stations.take i).any fun x => x.site == st.site && x.ctx == st.ctx) (fun _ _ _ => false) ++
  badItems 11 1 l.v.parts fun i p => l.s.ctxTaken p.site p.ctx || (l.v.parts.take i).any fun x => x.site == p.site

/-- Partitions of the other contexts of a site, resident or in the image. -/
def Load.otherParts (l : Load) (i : Nat) (p : Part) : List Part :=
  (l.v.parts.zipIdx.filter fun x => x.2 != i && x.1.site == p.site).map (·.1) ++
  (l.s.slots.map fun e => match e.2.kept with | some v => v.parts.filter fun q => q.site == p.site | none => []).flatten

def shareOk (total : Nat) (a : Share) (others : List Share) : Bool :=
  a.base + a.count ≤ total && others.all fun b => !overlaps a.base a.count b.base b.count

/-- The shares of a partition against the totals of Table 03-7 and the other context's (03 R80, 04 R91, 05 R122). -/
def Load.partFits (l : Load) (i : Nat) (p : Part) : Bool :=
  let os := l.otherParts i p
  shareOk 32 p.mtch (os.map (·.mtch)) &&
  (if isCu p.site then shareOk 64 p.acc (os.map (·.acc)) && shareOk 16 p.panel (os.map (·.panel)) &&
      shareOk 64 p.ring (os.map (·.ring)) && shareOk 16 p.row (os.map (·.row))
   else os.all fun q => p.winMask &&& q.winMask == 0 && p.agMask &&& q.agMask == 0 && p.spillMask &&& q.spillMask == 0)

/-- The partition an MU record fills. -/
def Survey.muPart (v : Survey) (m : MuRegion) : Option Part := v.parts.find? fun p => p.site == m.site && p.ctx == m.ctx

/-- Enabled windows of a record that its partition owns, and enabled spill regions with their place in the scratchpad, in
lines. -/
def MuRegion.ownWins (m : MuRegion) (p : Part) : List (Nat × WinImage) :=
  (m.wins.zipIdx.filter fun x => x.1.en && bitAt p.winMask x.2).map fun x => (x.2, x.1)
def MuRegion.ownSpills (m : MuRegion) (p : Part) : List (Nat × SpillImage × Option WinImage) :=
  (m.spills.zipIdx.filter fun x => x.1.en && bitAt p.spillMask x.2).map fun x =>
    (x.2, x.1, (m.wins[x.1.win]?).bind fun w => if w.en && bitAt p.winMask x.1.win then some w else none)

/-- First line and lines of an enabled spill region that a site's registers hold. -/
def State.spillAt (s : State) (site q : Nat) : Nat × Nat :=
  (64 * s.winFirst site (s.rf (spillBase site q) 1 3) + s.rf (spillBase site q + 4) 0 15, s.spillSize site q)

/-- A record's windows and spill regions (04 R89, R90, R100; R171). -/
def Load.muOk (l : Load) (m : MuRegion) : Bool :=
  match l.v.muPart m with
  | none => m.wins.all fun w => !w.en || decide (w.basePg < w.limitPg && w.limitPg ≤ 512)
  | some p =>
    let wins := m.ownWins p
    let spills := m.ownSpills p
    m.wins.all (fun w => !w.en || decide (w.basePg < w.limitPg && w.limitPg ≤ 512)) &&
    wins.all (fun w =>
      (List.range 8).all (fun k => !(l.s.winEn m.site k && !l.s.winOf l.n m.site k) ||
        !overlaps w.2.basePg (w.2.limitPg - w.2.basePg) (l.s.winFirst m.site k) (l.s.winLimit m.site k - l.s.winFirst m.site k)) &&
      wins.all fun x => x.2.slot == w.2.slot || !overlaps w.2.basePg (w.2.limitPg - w.2.basePg) x.2.basePg (x.2.limitPg - x.2.basePg)) &&
    spills.all fun q => match q.2.2 with
      | none => false
      | some w =>
        q.2.1.baseLn + q.2.1.size ≤ 64 * (w.limitPg - w.basePg) &&
        (let a := 64 * w.basePg + q.2.1.baseLn
         spills.all (fun x => x.1 == q.1 || (match x.2.2 with
           | some y => !overlaps a q.2.1.size (64 * y.basePg + x.2.1.baseLn) x.2.1.size | none => true)) &&
         (List.range 16).all fun k => bitAt p.spillMask k || !l.s.rfBit (spillBase m.site k) 0 ||
           !overlaps a q.2.1.size (l.s.spillAt m.site k).1 (l.s.spillAt m.site k).2)

/-- Pages of a panel region: its packed panel and its scales, rounded up to whole pages (03 R70). -/
def Station.panelPages (st : Station) (p : InPort) : Nat :=
  match st.panelShape p.preg with
  | some sh =>
    let bl := blockLen p.ischeme
    let blocks := if p.ischeme = 0 then 0 else if p.pbax = 0 then sh.1 * ceilDiv sh.2 bl else sh.2 * ceilDiv sh.1 bl
    ceilDiv (sh.1 * packedBytes (fmtBits p.ifmt) sh.2 + blocks + (if p.ischeme = 2 then 4 * ceilDiv blocks 1024 else 0)) 4096
  | none => 0
/-- The panel regions of a station have rows and columns in multiples of 16, and lie in its partition's pages (03 R70, R80; the table names no
code for R70's: log entry 14). -/
def Survey.panelsFit (v : Survey) (st : Station) : Bool :=
  let ps := st.ins.filter fun p => p.role == 6
  ps.all (fun p => match st.panelShape p.preg with | some sh => sh.1 % 16 == 0 && sh.2 % 16 == 0 | none => true) &&
  (match v.parts[st.part]? with | some q => decide (ps.foldl (fun a p => a + st.panelPages p) 0 ≤ q.panel.count) | none => true)

def Load.check0C (l : Load) : List LoadFail :=
  badStations 12 l.v (fun _ st => st.kind == 1 && !l.v.panelsFit st) (fun _ _ _ => false) ++
  badItems 12 1 l.v.parts (fun i p => !l.partFits i p) ++ badItems 12 4 l.v.mus fun _ m => !l.muOk m

/-! ### Codes 0x0D and 0x0E: tags -/

/-- Place of the reserved count of a class in a partition. -/
def Survey.resvAt (v : Survey) (part cls : Nat) : Option (Nat × TagRes) :=
  (v.tags.zipIdx.find? fun t => t.1.part == part && t.1.cls == cls).map fun t => (t.2, t.1)
/-- Entries that R123 and R124 ask for a class that a port of the station uses. -/
def Station.classNeed (st : Station) (c : Nat) : Nat :=
  max 1 ((st.ents.foldl (fun a e => max a ((e.ports st).filter fun p => p.2.cls == c).length) 0) +
    (st.ins.filter fun p => p.cls == c && 1 < p.uses).length)
def Station.classes (st : Station) : List Nat := (List.range 16).filter fun c => st.ins.any fun p => p.cls == c

/-- A class without a reserved count is the station's fault; a count that is out of range, named twice, too low for a station, or
with which the partition's counts exceed it, is the count's (R123, R124, R170). -/
def Load.check0D (l : Load) : List LoadFail :=
  let v := l.v
  badStations 13 v (fun _ st => st.classes.any fun c => (v.resvAt st.part c).isNone) (fun _ _ _ => false) ++
  badItems 13 2 v.tags fun i t =>
    t.resv == 0 || 64 < t.resv || (v.tags.take i).any (fun x => x.part == t.part && x.cls == t.cls) ||
    (match v.parts[t.part]? with
     | some p => 16 * p.mtch.count < ((v.tags.take (i + 1)).filter fun x => x.part == t.part).foldl (fun a x => a + x.resv) 0
     | none => false) ||
    v.stations.any fun st => st.part == t.part && st.classes.any fun c =>
      (match v.resvAt t.part c with | some r => r.1 == i && t.resv < st.classNeed c | none => false)

def Load.check0E (l : Load) : List LoadFail :=
  badStations 14 l.v
    (fun _ st => st.ins.any (fun p => p.uses == 0) ||
      st.outs.any fun o => (o.seqSel == 1 && 95 < o.seqK) || (o.iterSel == 1 && (o.iterK == 0 || 255 < o.iterK)))
    (fun _ st e => !bitAt e.inMask e.lead ||
      (match st.ins[e.lead]? with | some p => !(p.mSeq && p.mIter && p.mSub) | none => true))

/-! ### Codes 0x0F and 0x10: conversions and scales -/

/-- The conversion descriptor behind a port's tiles (R498). -/
def Survey.producer (v : Survey) (idx port : Nat) : Option OutConv :=
  (v.routes.zipIdx.find? fun t => t.1.dstn == idx && t.1.dport == port).bind fun t =>
    v.stations.findSome? fun st => (st.outs.find? fun o => o.route == t.2).map fun o => st.conv o
/-- The station behind a port, and its output port. -/
def Survey.source (v : Survey) (idx port : Nat) : List (Nat × Station × Nat) :=
  ((v.routes.zipIdx.filter fun t => t.1.dstn == idx && t.1.dport == port).map fun t =>
    (v.stations.zipIdx.map fun st => (st.1.outs.zipIdx.filter fun o => o.1.route == t.2).map fun o => (st.2, st.1, o.2)).flatten).flatten

/-- An entry's formats, with schemes: its consumed operands and the panel region it reads. -/
def Station.operandFmts (st : Station) (e : Entry) : List (Nat × Nat) :=
  (((e.ports st).filter fun p => [1, 2, 3, 4, 5].contains p.2.role).map fun p => (p.2.ifmt, p.2.ischeme)) ++
  (if e.fromPanel st then (match st.ins.find? fun p => p.role == 6 && p.preg == e.panel with | some p => [(p.ifmt, p.ischeme)] | none => [])
   else [])

/-- A descriptor's own conditions (R25, R33, R50); `CONV` of a SOURCE or GATHER station is ignored. -/
def OutConv.convBad (c : OutConv) (forwards : Bool) : Bool :=
  c.fmt == 1 || (!forwards && bitAt c.conv 2 && !fmtHasInf c.fmt) || c.wlog2 < 12 || 40 < c.wlog2 ||
  (c.scheme == 2 && !(bits c.s2 31 1 == 0 && 0 < bits c.s2 23 8 && bits c.s2 23 8 < 255)) ||
  (c.scheme != 0 && (c.trows == 0 || c.tinner == 0)) || (c.scheme == 0 && (c.trows != 0 || c.tinner != 0))

/-- The conversion of P in a FUSED entry: the first convert after the softmax step (06 R156). -/
def Survey.pConv (v : Survey) (st : Station) (e : Entry) : Option OutConv :=
  (((v.entryProg e).dropWhile fun x => x.op != 0x30).find? fun x => x.op == 0x20).bind fun x => st.convs[x.b]?

def Load.check0F (l : Load) : List LoadFail :=
  let v := l.v
  badStations 15 v
    (fun i st => st.convs.any (fun c => c.convBad (st.kind == 6 || st.kind == 8)) ||
      st.ins.zipIdx.any fun p =>
        let ps := v.source i p.2
        if p.1.tkind ≠ 0 then false
        else if ps.isEmpty then p.1.ifmt != 0 || p.1.ischeme != 0
        else ps.any fun x => match x.2.1.outs[x.2.2]? with
          | some o => let c := x.2.1.conv o
                      c.fmt != p.1.ifmt || c.scheme != p.1.ischeme
          | none => false)
    (fun i st e =>
      ((st.kind == 1 || st.kind == 2) && e.op != 0 && (let fs := st.operandFmts e
        fs.any (fun x => x.2 != 0 || !altOk x.1 x.1) || fs.any fun x => fs.any fun y => x.1 != y.1)) ||
      (st.kind == 2 && (e.kc % 16 != 0 || v.dv i st e % 16 != 0 || (match v.pConv st e with
        | some c => c.scheme != 0 || !(2 ≤ c.fmt && c.fmt ≤ 5) | none => true)))) ++
  badItems 15 8 v.rules fun _ r => r.canary.wlog2 < 12 || 40 < r.canary.wlog2 || (!r.rec8 && r.mconv != 0)

/-- The scheme fits the tensor's block count (R41). -/
def OutConv.schemeBad (c : OutConv) : Bool :=
  let blocks := c.trows * ceilDiv c.tinner 32
  c.scheme != 0 && (c.fmt ≤ 1 || (c.scheme == 1 && 65536 < blocks) || (c.scheme == 2 && blocks ≤ 65536))

def Load.check10 (l : Load) : List LoadFail :=
  badStations 16 l.v
    (fun _ st => st.convs.any OutConv.schemeBad ||
      st.ins.any fun p => p.tkind == 0 && p.ischeme != 0 && (match st.ins[p.sport]? with | some q => q.tkind != 1 | none => true))
    (fun _ st e => e.fromPanel st && (match st.ins.find? fun p => p.role == 6 && p.preg == e.panel with
      | some p => p.ischeme != 0 && p.pbax != e.axis | none => false))

/-! ### Code 0x11: walks, rings, routes -/

/-- Entries that walk a template: station and entry. -/
def Survey.walkers (v : Survey) (t : Nat) : List (Station × Entry) :=
  ((v.stations.filter Station.walks).map fun st => (st.ents.filter fun e => e.tmpl == t).map fun e => (st, e)).flatten

/-- R92 and R99 for a descriptor. -/
def AgDesc.bad (d : AgDesc) : Bool :=
  d.ndim == 0 || (if d.ptr then 4 else 5) < d.ndim ||
  (2 ≤ d.ew && d.strides.any fun x => x % (ewBits d.ew / 8 : Nat) != 0) ||
  (d.cturn && !(d.counts.getD 0 0 == 16 && d.counts.getD 1 0 == 16 && 2 ≤ d.ndim && d.ew != 1))

/-- Lowest and highest byte of the strided part of a walk from an origin, relative to its region (10 R241). -/
def AgDesc.reach (d : AgDesc) (base : Nat) (lims : List Nat) : Option (Int × Int) :=
  let n (k : Nat) : Nat := let c := d.counts.getD k 1
    if lims.getD k 0xFFFF = 0xFFFF then c else min c (lims.getD k 0xFFFF)
  if (List.range d.ndim).any fun k => n k == 0 then none
  else
    let step (k : Nat) : Int := if k = 0 ∧ d.ew ≤ 1 then 0 else d.strides.getD k 0
    let run : Nat := if d.ew ≤ 1 then packedBytes (ewBits d.ew) (n 0) else ewBits d.ew / 8
    some ((List.range d.ndim).foldl (fun (a : Int × Int) k =>
      let e := step k * ((n k : Nat) - 1 : Int)
      (a.1 + min 0 e, a.2 + max 0 e)) ((base : Int), (base : Int) + (run : Nat)))

/-- A walk into HBM stays in its region, in every re-arm entry (10 R241). -/
def Survey.walkInside (v : Survey) (t : Tmpl) (d : AgDesc) : Bool :=
  match t.region.bind fun r => v.regions[r]? with
  | none => true
  | some g =>
    let ok (base : Nat) (lims : List Nat) : Bool := match d.reach base lims with
      | some x => 0 ≤ (t.off : Int) + x.1 && (t.off : Int) + x.2 ≤ g.len
      | none => true
    if t.rearmN = 0 then ok d.base d.lims
    else ok d.base d.lims && (List.range t.rearmN).all fun i => match v.rearms[t.rearm + i]? with
      | some x => ok (x.base % 2 ^ 21) x.lims
      | none => true

/-- Ring KiB of a context: its armed rings, and the P ring of a FUSED station (05 R134, 06 R156). -/
def Survey.ringKiB (v : Survey) (idx : Nat) (st : Station) : Nat :=
  ((List.range st.ins.length).filterMap (v.tmplAt idx)).foldl (fun a t => a + ceilDiv (t.2.slots * t.2.lines * 64) 1024) 0 +
  (if st.kind = 2 then (st.ents.foldl (fun a e => max a (match v.pConv st e with
    | some c => ceilDiv (3 * (e.nArr * 256 * fmtBits c.fmt / 8)) 1024 | none => 0)) 0) else 0)

/-- Each ring of a memory-unit context fits one of its enabled windows, and all of them together their sum (05 R134). The image names no place
for a ring, and a context whose image enables no window of its own leaves the windows to the host's register writes (04 R109): such rings
pass (DESIGN CHOICE, log entry 14). -/
def Survey.ringsInWindows (v : Survey) (idx : Nat) (st : Station) : Bool :=
  let rings := ((List.range st.ins.length).filterMap (v.tmplAt idx)).map fun t => t.2.slots * t.2.lines * 64
  match v.parts[st.part]?, v.mus.find? fun m => m.site == st.site && m.ctx == st.ctx with
  | some p, some m =>
    let sizes := (m.ownWins p).map fun w => 4096 * (w.2.limitPg - w.2.basePg)
    sizes.isEmpty ||
      rings.all (fun n => sizes.any fun k => decide (n ≤ k)) && decide (rings.foldl (· + ·) 0 ≤ sizes.foldl (· + ·) 0)
  | _, _ => true

def Load.check11 (l : Load) : List LoadFail :=
  let v := l.v
  badStations 17 v (fun i st => if isCu st.site then (match v.parts[st.part]? with | some p => p.ring.count < v.ringKiB i st | none => false)
      else !v.ringsInWindows i st)
    (fun _ _ _ => false) ++
  badItems 17 3 v.routes (fun _ r =>
    (match v.stations[r.dstn]? with | some st => r.dst != st.site | none => false) ||
    (match (v.stations[r.dstn]?).bind fun st => st.ins[r.dport]?, v.tmpls[r.tmpl]? with
     | some p, some t => p.ring != t.ring || p.tkind != t.kind
     | _, _ => false)) ++
  badItems 17 6 v.tmpls (fun i t =>
    let ws := v.walkers i
    t.slots < 3 || 16 < t.slots || 64 < t.rearmN ||
    (match t.desc with
     | none => !ws.isEmpty
     | some d => !ws.isEmpty && d.bad) ||
    (t.sinkTo != 0 && ws.any fun w => w.1.kind != 7) ||
    (v.ringSites i).any fun k => (List.range i).any fun j => (match v.tmpls[j]? with
      | some u => u.ring == t.ring && (v.ringSites j).contains k | none => false))

/-! ### Code 0x12: tile shapes (06 R150 to R156) -/

def Tmpl.slotBytes (t : Tmpl) : Nat := 64 * t.lines

/-- Rows of `cols` elements hold whole blocks, or a whole row of a tensor of `tinner` (02 R42). -/
def edgeOk (scheme cols tinner : Nat) : Bool := scheme == 0 || cols % blockLen scheme == 0 || (tinner != 0 && decide (tinner ≤ cols))
/-- Groups that a tile's blocks span at least, wherever in its tensor it lies: `tb` blocks to a row of the tensor. -/
def groupsLeast (rows tb cb : Nat) : Nat := ceilDiv ((rows - 1) * tb + cb) 1024
/-- Term 4 for a tile of a scaled tensor: no block is split, and its scale token stays within its limits (R42, R48). -/
def tileBlocksOk (scheme rows cols tinner tb : Nat) : Bool :=
  let cb := ceilDiv cols (blockLen scheme)
  scheme == 0 || (edgeOk scheme cols tinner && decide (rows * cb ≤ 1024) && (scheme != 2 || decide (groupsLeast rows tb cb ≤ 64)))
/-- Bytes of the scale token of a tile of that shape, padded (R48). -/
def scaleTokenSize (scheme rows tb cb : Nat) : Nat := 64 * ceilDiv (8 + (if scheme = 2 then 4 * groupsLeast rows tb cb else 0) + rows * cb) 64

/-- A port's tile of `rows` × `cols` meets term 4. -/
def StRef.inBlocksOk (r : StRef) (p : Nat × InPort) (rows cols : Nat) : Bool :=
  tileBlocksOk p.2.ischeme rows cols (match r.producer p.1 with | some c => c.tinner | none => 0) (r.rowBlocks p cols)

/-- The tile that an entry of fixed shape writes to a port: rows and columns; none where its operands give the shape. -/
def StRef.fixedShape (r : StRef) (i : Nat) (e : Entry) (q : Nat) : Option (Nat × Nat) :=
  if r.st.kind = 7 then (r.desc e).map fun d => (d.elems e / max 1 (d.row e), d.row e)
  else if r.st.kind = 1 ∨ r.st.kind = 2 ∨ r.st.kind = 6 ∨ r.st.kind = 8 then some (r.outShape e { entry := i, tag := 0, toks := [], last := 0 } q)
  else none
/-- What an entry writes meets term 4, with the first `BASE` of a walk on a block boundary (R42, R151). -/
def StRef.outBlocksOk (r : StRef) (i : Nat) (e : Entry) : Bool :=
  (e.outPorts r.st).all fun q => match r.st.outs[q]?, r.fixedShape i e q with
    | some o, some sh =>
      let c := r.st.conv o
      let bl := blockLen c.scheme
      tileBlocksOk c.scheme sh.1 sh.2 c.tinner (max (ceilDiv c.tinner bl) (ceilDiv sh.2 bl)) &&
      (c.scheme == 0 || (match r.desc e with
        | some d => !r.st.walks || d.base * 8 % (ewBits d.ew * bl) == 0 || (c.tinner != 0 && d.base * 8 / ewBits d.ew % c.tinner == 0)
        | none => true))
    | _, _ => true
/-- Term 6: payload of an output token, of the DATA or the SCALE kind, against the slots of its ring. -/
def StRef.outFits (r : StRef) (i : Nat) (e : Entry) : Bool :=
  (e.outPorts r.st).all fun q => match r.st.outs[q]?, r.dest q, r.fixedShape i e q with
    | some o, some d, some sh =>
      let c := r.st.conv o
      let bl := blockLen c.scheme
      (if d.2.2.kind = 1 then scaleTokenSize c.scheme sh.1 (max (ceilDiv c.tinner bl) (ceilDiv sh.2 bl)) (ceilDiv sh.2 bl)
       else if 0 < e.pe then 1024 * e.nArr
       else if r.st.kind = 1 then e.nArr * 16 * packedBytes (fmtBits c.fmt) 16
       else if r.st.walks then sh.1 * (match r.desc e with | some w => packedBytes (ewBits w.ew) sh.2 | none => 0)
       else sh.1 * packedBytes (fmtBits c.fmt) sh.2) ≤ 64 * d.2.2.lines
    | _, _, _ => true

/-- The terms of Table 06-1 that entry `i` fails. `r` stands for the station as it would be placed. -/
def Load.terms (l : Load) (r : StRef) (i : Nat) (e : Entry) : List Nat :=
  let v := l.v
  let st := r.st
  let a := e.nArr
  let fused := st.kind == 2
  let slotOf (p : Nat) : Option Nat := (v.tmplAt r.idx p).map fun t => t.2.slotBytes
  let fits (n : Nat) (p : Nat) : Bool := match slotOf p with | some b => n ≤ b | none => true
  let rb (n f : Nat) : Nat := packedBytes (fmtBits f) n
  let one (k : Nat) : Option (Nat × InPort) := match e.role st k with | [x] => some x | _ => none
  let panel := if e.fromPanel st then st.ins.zipIdx.find? (fun p => p.1.role == 6 && p.1.preg == e.panel) else none
  let complete := if fused then (one 3).isSome && (one 4).isSome && (one 5).isSome
    else (one 2).isSome && ((one 1).isSome || panel.isSome)
  let t6 := r.outFits i e
  if st.kind ≠ 1 ∧ ¬fused then
    (if r.outBlocksOk i e then [] else [4]) ++
    (if st.kind = 3 ∧ (v.entryProg e).any (fun x => [x.d, x.a, x.b].any fun o => 0x40 ≤ o && o < 0x60) ∧
        32 * r.part.row.count < 16 * a * e.openBlocks then [5] else []) ++
    (if t6 then [] else [6])
  else if !complete then [8]
  else
    let dv := r.dv e
    let cells := st.ents.foldl (fun n x => n + x.resident fused (r.dv x / 16)) 0
    let cf := if fused then (one 4).map (·.2.ifmt) else match one 1 with | some p => some p.2.ifmt | none => panel.map (·.1.ifmt)
    let rf := if fused then (one 3).map (·.2.ifmt) else (one 2).map (·.2.ifmt)
    let t1 : Bool := cells ≤ min 64 r.part.acc.count
    let t2 : Bool := if fused then
        (match one 4 with | some k => fits (16 * rb e.kc k.2.ifmt) k.1 | none => true) &&
        (match one 5 with | some x => fits (16 * rb dv x.2.ifmt) x.1 | none => true)
      else match one 1 with
        | some c => fits (16 * rb e.kc c.2.ifmt) c.1
        | none => match st.panelShape e.panel with
          | some sh => e.kc * e.trip .k ≤ (if e.axis = 0 then sh.2 else sh.1)
          | none => true
    let rowPort := if fused then one 3 else one 2
    let t3 : Bool := match rowPort with | some x => fits (16 * a * rb e.kc x.2.ifmt) x.1 | none => true
    let t4 : Bool := (match rowPort with | some x => r.inBlocksOk x (16 * a) e.kc | none => true) &&
      (if fused then
        (match one 4 with | some k => r.inBlocksOk k 16 e.kc | none => true) &&
        (match one 5 with | some x => r.inBlocksOk x 16 dv | none => true)
       else match one 1 with
        | some c => r.inBlocksOk c 16 e.kc
        | none => match panel with
          | some p => edgeOk p.1.ischeme e.kc (match r.producer p.2 with | some c => c.tinner | none => 0)
          | none => true) && r.outBlocksOk i e
    let t5 : Bool := !fused || 16 * a * e.openBlocks ≤ 32 * r.part.row.count
    let t7 : Bool := st.ctx == 0 || r.cycles e ≤ l.s.rf (siteBase st.site) 1 11
    let t8 : Bool := 1 ≤ e.kc && (match cf, rf with
      | some c, some w => pairOk c w && (!fused || (match v.pConv st e, one 5 with | some p, some x => pairOk x.2.ifmt p.fmt | _, _ => true))
      | _, _ => false)
    ([t1, t2, t3, t4, t5, t6, t7, t8].zipIdx.filter fun t => !t.1).map (·.2 + 1)

/-- List lengths of the pointer-list walks that feed an entry's operands (06 R154). -/
def Survey.feedPlens (v : Survey) (idx : Nat) (st : Station) (e : Entry) : List Nat :=
  (((e.ports st).filter fun p => [1, 2, 3, 4, 5].contains p.2.role).map fun p =>
    ((v.source idx p.1).map fun x => x.2.1.ents.filterMap fun y =>
      if x.2.1.walks ∧ bitAt y.outMask x.2.2 then (match (v.tmpls[y.tmpl]?).bind (·.desc) with
        | some d => if d.ptr ∧ y.pbind = 0 then some d.plen else none
        | none => none) else none).flatten).flatten

def Load.check12 (l : Load) : List LoadFail :=
  let v := l.v
  (v.stations.zipIdx.map fun x =>
    let r : StRef := { slot := l.n, survey := v, idx := x.2, st := x.1, dev := 0 }
    x.1.ents.zipIdx.filterMap fun e =>
      let ts := l.terms r e.2 e.1
      let plens := v.feedPlens x.2 x.1 e.1
      let nine := (x.1.kind == 1 || x.1.kind == 2) && e.1.loops.any (fun p => p.1 == .b && 1 < p.2) && plens.any fun a => plens.any fun b => a != b
      match ts with
      | t :: _ => some ({ code := 0x12, sect := 0, item := x.2, entry := e.2, term := t } : LoadFail)
      | [] => if nine then some { code := 0x12, sect := 0, item := x.2, entry := e.2, term := 9 } else none).flatten

/-! ### Codes 0x13 to 0x15 -/

/-- A walk leaves its region (10 R241), or does what the region's class does not allow (01 R23, R172): a SINK writes INPUT, or in a native
image STATE; a station reads OUTPUT. -/
def Load.check13 (l : Load) : List LoadFail :=
  let v := l.v
  badEntries 19 v fun _ st e => st.walks && (match v.tmpls[e.tmpl]? with
    | none => false
    | some t => (match t.region.bind fun r => v.regions[r]?, t.desc with
      | some g, some d => !v.walkInside t d || (if st.kind = 7 then t.sinkTo == 0 && (g.kind == 4 || (g.kind == 0 && v.target != 2)) else g.kind == 5)
      | _, _ => false))

/-- The entry's LENs bind a loop that its output tiles run through. -/
def Station.bounds (st : Station) (e : Entry) : Bool :=
  (List.range 4).any fun n => bitAt e.lenMask n &&
    (match e.loops[bits e.lenBind (2 * n) 2]? with | some p => st.walks || p.1 != .k | none => false)
/-- LEN streams behind the LEN port of an entry: station, and the entries that write the stream, each of whose output ports carries one token
to one consumer. -/
def Survey.lenSources (v : Survey) (idx : Nat) (st : Station) (e : Entry) : List (Nat × List Nat) :=
  (((e.ports st).filter fun p => p.2.tkind == 3).map fun p => (v.source idx p.1).map fun x =>
    (x.1, (List.range x.2.1.ents.length).filter fun i => match x.2.1.ents[i]? with | some y => bitAt y.outMask x.2.2 | none => false)).flatten
def Entry.takesLen (e : Entry) (st : Station) : Bool := (e.ports st).any fun p => p.2.tkind == 3

/-- Every consumer of a length-bound stream takes the same LEN stream (05 R133). -/
def Load.check14 (l : Load) : List LoadFail :=
  let v := l.v
  badStations 20 v (fun _ _ => false) fun idx st e =>
    (e.ports st).any fun p => p.2.tkind != 3 && (v.source idx p.1).any fun x =>
      x.2.1.ents.any fun y => bitAt y.outMask x.2.2 && y.takesLen x.2.1 && x.2.1.bounds y &&
        (!e.takesLen st || v.lenSources x.1 x.2.1 y != v.lenSources idx st e)

/-- UPDATE stations, rules, Mill deliveries and writes of STATE by the kind of image (R183). -/
def Load.check15 (l : Load) : List LoadFail :=
  let v := l.v
  let compat := v.target == 2
  (if compat && v.nRule != 0 then [loadFail 21 0 0] else []) ++
  badStations 21 v (fun _ st => st.kind == 5 && !compat) (fun _ st e => st.kind == 7 && !compat && (match v.tmpls[e.tmpl]? with
    | none => false
    | some t => t.sinkTo == 0 && (match t.region.bind fun r => v.regions[r]? with | some g => g.kind == 0 | none => false))) ++
  badItems 21 6 v.tmpls fun i t => compat && t.sinkTo == 2 && !(v.walkers i).isEmpty

/-! ### All of them -/

/-- The first failure, in increasing code, section and item order (R175). -/
def Load.firstFail (l : Load) : Option LoadFail :=
  [Load.check01, Load.check02, Load.check03, Load.check04, Load.check05, Load.check06, Load.check07,
   Load.check08, Load.check09, Load.check0A, Load.check0B, Load.check0C, Load.check0D, Load.check0E, Load.check0F,
   Load.check10, Load.check11, Load.check12, Load.check13, Load.check14, Load.check15].findSome? fun c => (c l).head?

end Sys2Proof.Machine
end

