-- ==== Sys2Proof/Machine/SurveyLoad.lean ====
section
/-! DEFINITION. SURVEY_LOAD: the image is fetched and checked, then written to the sites after their scrub (07 R175 to R181; 04
R90; 05 R134, R141; 08 R209; 09 R213; 12 R290; 18 R451). -/
namespace Sys2Proof.Machine

def surveyLoadSpec : CmdSpec :=
  { opcode := 0x01, usesSlot := true, admin := false, operands := [(128, 64), (192, 64)], needsSurvey := false, entries := 1 }

/-- Result bytes of a load that fails (12 Table 12-6). -/
def LoadFail.result (f : LoadFail) : List Byte :=
  leBytes 1 f.code ++ leBytes 1 f.sect ++ leBytes 1 f.entry ++ leBytes 1 f.term ++ leBytes 4 f.item
def LoadFail.status (f : LoadFail) : Nat := if f.code = 0x12 then stTileShape else stSurveyInvalid

/-- The slot takes a Survey whose checks have passed: station indices and rule slots are given (07 R178, 09 R213). Until the
load completes no register of a site is written. -/
def State.takeSurvey (s : State) (n : Nat) (v : Survey) : State :=
  let mine := s.freeRules.take v.nRule
  let s1 := s.setSlot n { Slot.empty with
    survey := some v, base := (s.freeRun v.stations.length).getD 0, loading := true, rules := mine
    hoist := (s.slot n).hoist, checking := (s.slot n).checking, sluice := (s.slot n).sluice }
  { s1 with flow := { s1.flow with
    ruleOwn := mine.zipIdx.foldl (fun t k => tblSet (fun _ => none) t k.1 (some (n, k.2))) s1.flow.ruleOwn
    ruleCanary := mine.foldl (fun t k => tblSet (fun _ => Canary.zero) t k Canary.zero) s1.flow.ruleCanary } }

/-- Fetch the image and run the checks (R175). -/
def State.checkLoad (s : State) (d : Started) (desc : List Byte) (view : HostView) : State :=
  let len := leAt desc 24 8
  match view.range (s.ringPasidEn d.ring.val) (leAt desc 16 8) len with
  | .absent p => s.waitPage d p (.surveyLoad { desc := desc, waiting := true, checked := false })
  | .error => s.complete d stHostAccess 0 []
  | .ok img =>
    if leAt img 8 8 ≠ len then s.complete d stInvalidArgument 0 []
    else
      let v := Survey.parse img
      match ({ s := s, n := d.slot, img := img, v := v } : Load).firstFail with
      | some f => s.complete d f.status 0 f.result
      | none => (s.takeSurvey d.slot v).setKind d.serial (.surveyLoad { desc := desc, waiting := false, checked := true })

/-- Loads in progress, in fetch order (R179). -/
def State.loads (s : State) : List (Started × LoadJob) :=
  s.cage.started.filterMap fun d => match d.kind with | .surveyLoad j => some (d, j) | _ => none

/-- SURVEY_LOAD: it starts, and is checked at once unless an earlier load is in progress (R179). `view` is host memory. -/
def onSurveyLoad (d : Desc) (view : HostView) (s : State) : State :=
  let first := s.loads.isEmpty
  s.startCmd surveyLoadSpec d true (.surveyLoad { desc := d.bytes, waiting := false, checked := false }) fun s st =>
    let len := leAt d.bytes 24 8
    if s.ras.service then (s.orderLost st.slot .limit 2 .ordinary 0).complete st stPreempted 0 []
    else if leAt d.bytes 16 8 % 64 ≠ 0 ∨ len < 256 ∨ 2 ^ 28 < len then s.complete st stInvalidArgument 0 []
    else if first then s.checkLoad st d.bytes view else s

/-- The answer to `SURVEY_LOAD`. -/
def execSurveyLoad (d : Desc) (view : HostView) (s : State) : Answer := .next (onSurveyLoad d view s)

/-! ### Writing the placement -/

/-- Write one window or spill image (04 Tables 04-10, 04-11; 07 R171). -/
def State.writeWindow (s : State) (site w : Nat) (x : WinImage) : State :=
  let b := winBase_ site w
  let s1 := ((s.setReg b (b2n x.en + 2 * x.slot)).setReg (b + 4) x.basePg).setReg (b + 8) x.limitPg
  x.pads.zipIdx.foldl (fun s p => s.setReg (b + 0x10 + 4 * p.2) p.1) s1
def State.writeSpillReg (s : State) (site q : Nat) (x : SpillImage) : State :=
  let b := spillBase site q
  ((s.setReg b (b2n x.en + 2 * x.win)).setReg (b + 4) (x.baseLn + 65536 * (x.size - 1))).setReg (b + 8) (min x.limit x.size)

/-- An MU record writes the windows and descriptors that its partition owns (R171). -/
def State.writeMu (s : State) (v : Survey) (m : MuRegion) : State :=
  match v.muPart m with
  | none => s
  | some p =>
    let s1 := m.wins.zipIdx.foldl (fun s w => if bitAt p.winMask w.2 then s.writeWindow m.site w.2 w.1 else s) s
    m.spills.zipIdx.foldl (fun s q => if bitAt p.spillMask q.2 then s.writeSpillReg m.site q.2 q.1 else s) s1

/-- Arm the ring at the end of a route: every slot is a credit of its producers (05 R134). -/
def State.armRing (s : State) (n : Nat) (v : Survey) (r : Route) : State :=
  match v.stations[r.dstn]?, v.tmpls[r.tmpl]? with
  | some st, some t =>
    if (s.rng st.site t.ring).isSome then s
    else s.setRng st.site t.ring (some
      { slot := n, ctx := st.ctx, station := (s.slot n).base + r.dstn, port := r.dport, tmpl := r.tmpl, toks := [], tail := 0
        credits := t.slots, freed := 0, spill := [] })
  | _, _ => s

/-- Counters that a load clears: those of each context it places, and the Hoists' for the slot (05 R141, 08 R209). -/
def State.clearForLoad (s : State) (n : Nat) (v : Survey) : State :=
  let s1 := v.stations.foldl (fun (s : State) st =>
    s.clearCtrs (siteBase st.site + 0x400 + 0x100 * st.ctx) (siteBase st.site + 0x470 + 0x100 * st.ctx)) s
  (List.range 4).foldl (fun (s : State) l => s.clearCtrs (hoistBase l n) (hoistBase l n + 0x40)) s1

/-- The placement is written and the Survey is resident. -/
def State.placeSurvey (s : State) (n : Nat) (v : Survey) : State :=
  let s1 := v.mus.foldl (fun s m => s.writeMu v m) (s.clearForLoad n v)
  let s2 := v.routes.foldl (fun s r => s.armRing n v r) s1
  let s3 : State := { s2 with flow := { s2.flow with streams := tblClear (65536 * n) (65536 * (n + 1)) s2.flow.streams } }
  s3.setSlot n { s3.slot n with loading := false, progress := s3.clk.tally }

/-- Two partitions of a site share ring memory, matching-store entries, accumulator tiles, panel pages or row state, or a context. -/
def Part.meets (p q : Part) : Bool :=
  p.site == q.site && (p.ctx == q.ctx || [(p.mtch, q.mtch), (p.acc, q.acc), (p.panel, q.panel), (p.ring, q.ring), (p.row, q.row)].any fun x =>
    overlaps x.1.base x.1.count x.2.base x.2.count)
/-- A page that an enabled window of the load covers is dirty, or parts that it will use await the Mucker, of a context that a kill has let go
(R180). -/
def State.loadWaits (s : State) (v : Survey) : Bool :=
  v.mus.any (fun m => match v.muPart m with
    | some p => (m.ownWins p).any fun w => (List.range (w.2.limitPg - w.2.basePg)).any fun i => s.pageDirty m.site (w.2.basePg + i)
    | none => false) ||
  v.parts.any fun p => s.slots.any fun e => e.2.killing && (match e.2.survey with
    | some w => w.parts.any fun q => s.flow.cuDirty.contains (q.site, q.ctx) && p.meets q
    | none => false)

/-- The load is undone: nothing it was given stays (R180). -/
def State.dropLoad (s : State) (n : Nat) : State :=
  let x := s.slot n
  let s1 := s.setSlot n { Slot.empty with hoist := x.hoist, checking := x.checking, sluice := x.sluice }
  { s1 with flow := { s1.flow with ruleOwn := s1.flow.ruleOwn.filter fun e => match e.2 with | some w => w.1 != n | none => true } }

/-- SURVEY_LOAD_COMPLETE: the oldest load is checked if it has not been, and otherwise completes once its scrub is done; a
site fenced meanwhile fails it with code 0x09 (R180). -/
def onSurveyLoadComplete (view : HostView) (s : State) : State :=
  match s.loads with
  | [] => s
  | (d, j) :: _ =>
    if !s.live ∨ j.waiting then s
    else if !j.checked then (if s.busOn ∧ s.cxl.up then s.checkLoad d j.desc view else s)
    else match (s.slot d.slot).survey with
      | none => s
      | some v =>
        let l : Load := { s := s, n := d.slot, img := [], v := v }
        let lost : Option LoadFail := match l.check09 with
          | f :: _ => some f
          | [] => (match l.check0A with | f :: _ => some { f with code := 9 } | [] => none)
        if s.loadWaits v then s
        else match lost with
          | some f => (s.dropLoad d.slot).complete d stSurveyInvalid 0 f.result
          | none =>
            let base := (s.slot d.slot).base
            ((s.placeSurvey d.slot v).recheckTables d.slot).complete d stSuccess 0 (zeroBytes 8 ++ leBytes 2 base)

/-- The answer to `SURVEY_LOAD_COMPLETE`. -/
def execSurveyLoadComplete (view : HostView) (s : State) : Answer := .next (onSurveyLoadComplete view s)

end Sys2Proof.Machine
end

