-- ==== Sys2Proof/Machine/Steps.lean ====
section
/-! DEFINITION. The commands of a training step: RUN_STEP and its completion, SET_STEP_PARAMS, REARM_STREAM (01 R14 to R21; 05
R138; 08 R186; 09 R215, R216; 12 R284; 16 R406; 17 R428; 18 R439, R451). -/
namespace Sys2Proof.Machine

def runStepSpec : CmdSpec :=
  { opcode := 0x03, usesSlot := true, admin := false, operands := [(128, 32)], needsSurvey := true, entries := 1 }
def stepParamsSpec : CmdSpec :=
  { opcode := 0x04, usesSlot := true, admin := false, operands := [(128, 32), (192, 64)], needsSurvey := true, entries := 1 }
def rearmSpec : CmdSpec :=
  { opcode := 0x05, usesSlot := true, admin := false, operands := [(128, 16), (144, 6), (160, 32), (192, 80)]
    needsSurvey := true, entries := 1 }

/-! ### RUN_STEP -/

/-- RUN_STEPs of a slot in progress, oldest first. -/
def State.stepsOf (s : State) (n : Nat) : List (Started × Nat) :=
  s.cage.started.filterMap fun d => if d.slot = n then (match d.kind with | .runStep k => some (d, k) | _ => none) else none

/-- A SEAL_EXPORT of a region that the slot may use is in progress (16 R406). -/
def State.exportHolds (s : State) (n : Nat) : Bool :=
  s.cage.started.any fun d => match d.kind with
    | .sealExport j => (match s.sealedAt j.region with | some x => x.slots.getLsbD n | none => false)
    | _ => false

/-- A RUN_STEP may start: the table check is done, no export holds the slot, at most one other is in progress (08 R186, 12
R284). -/
def State.stepFree (s : State) (n : Nat) : Bool :=
  !(s.slot n).checking && !s.exportHolds n && decide ((s.stepsOf n).length < 2)

/-- START tokens to every START port of the slot's stations (05 Table 05-3). -/
def State.sendStarts (s : State) (n step : Nat) : State :=
  (s.stationsOf n).foldl (fun s r => r.st.ins.foldl (fun s p =>
    if p.tkind = 4 then s.send n none r.st.site p.ring { tag := mkTag n 0 0 0, pay := .data (leBytes 4 step), step := some step } else s) s) s

/-- The step number a RUN_STEP must name: any after a load, else the previous plus one (R14, R15). -/
def Slot.nextStep (x : Slot) (step : Nat) : Bool :=
  match x.lastStep with | none => true | some k => step == (k + 1) % 2 ^ 32

/-- The slot's Survey has a GATHER station fed by Hoist staging and no accepted layer table (08 R186). -/
def State.lacksTable (s : State) (n : Nat) : Bool :=
  match (s.slot n).survey with
  | some v => v.stations.any v.hoistFed && !s.rfBit (jobBase n + 0x38) 0
  | none => false

/-- RUN_STEP: a limit refuses it, a STOPPED slot refuses it, the step number and the layer table are checked; then the START
tokens go out (R14, R439, R451, 17 R428). -/
def onRunStep (d : Desc) (s : State) : State :=
  let step := leAt d.bytes 16 4
  s.startCmd runStepSpec d (s.stepFree (byteAt d.bytes 2 % 8)) (.runStep step) fun s st =>
    let n := st.slot
    let x := s.slot n
    let res := s.stepResult n step
    if s.ras.service ∨ s.pwr.tripLimit then (s.orderLost n .limit 2 .ordinary 0).complete st stPreempted 0 res
    else if x.stopped then s.complete st stJobFault 0 res
    else if !x.nextStep step ∨ s.lacksTable n then s.complete st stInvalidArgument 0 res
    else
      let y := { x with lastStep := some step, firstStep := match x.firstStep with | some k => some k | none => some step }
      (s.setSlot n y).sendStarts n step

/-- The answer to `RUN_STEP`. -/
def execRunStep (d : Desc) (s : State) : Answer := .next (onRunStep d s)

/-- RUN_STEPs of a slot in progress that follow the oldest. -/
def State.laterSteps (s : State) (n : Nat) : List Nat := ((s.stepsOf n).drop 1).map (·.2)

/-- Every station of the slot has fired its last tile for the oldest step: but for later steps' work, nothing is on its way and no firing is
matched (R20; log entry 13). -/
def State.stationsDone (s : State) (n : Nat) : Bool :=
  let later := s.laterSteps n
  !s.slotOwes n later && (s.stationsOf n).all fun r => (s.firings r).all (fun f => ofSteps later f.step) &&
    r.st.ins.all fun p => match s.rng r.st.site p.ring with
      | some g => g.spill.all fun k => ofSteps later k.tok.step
      | none => true

/-- Every update the step owes is written (R20): none for a forward-only slot or a Survey without rules. -/
def State.updatesDone (s : State) (n step : Nat) : Bool :=
  s.rfBit (jobBase n + 0x38) 1 || (match (s.slot n).survey with | some v => v.nRule == 0 | none => true) ||
  s.shardsDone n step == s.shardsOwned n

/-- The reductions of the step are closed (R20). -/
def State.sluicesDone (s : State) (n step : Nat) : Bool :=
  !s.flow.sluices.any fun e => match e.2 with
    | some x => x.slot == n && !x.barrier && ((x.slots ++ x.ready).any (·.step == step) || x.delivered.any (·.1 == step))
    | none => false

/-- A step ends: its parameters are retired, its sums and its revoked marks go (09 R216, 08 R196). -/
def State.retireStep (s : State) (n step : Nat) : State :=
  let x := s.slot n
  let s1 := s.setSlot n { x.retire step with sums := tblClear (768 * step) (768 * step + 768) x.sums
                                             fetched := x.fetched.filter (·.1 != step) }
  { s1 with flow := { s1.flow with
    retained := s1.flow.retained.filter fun r => !(r.slot == n && r.revoked && (r.version + 1) % 2 ^ 32 == step) } }

/-- RUN_STEP_COMPLETE of a slot: the oldest RUN_STEP completes once the step is done, or once the tails are written back
after a stop (R20, R21, R439). -/
def onRunStepComplete (n : Fin 8) (s : State) : State :=
  match s.stepsOf n.val with
  | [] => s
  | (d, step) :: _ =>
    let x := s.slot n.val
    if x.stopped then
      let s1 := s.flushTails n.val
      (s1.complete d x.firstStatus 0 (s1.stepResult n.val step)).retireStep n.val step
    else if s.stationsDone n.val ∧ s.updatesDone n.val step ∧ s.sluicesDone n.val step then
      (s.complete d stSuccess 0 (s.stepResult n.val step)).retireStep n.val step
    else s

/-- The answer to `RUN_STEP_COMPLETE`. -/
def execRunStepComplete (n : Fin 8) (s : State) : Answer := .next (onRunStepComplete n s)

/-! ### SET_STEP_PARAMS (09 R215, R216) -/

def StepParam.parse (b : List Byte) : StepParam :=
  { eta := wordAt b 0, kappa1 := wordAt b 4, kappa2 := wordAt b 8, gamma := wordAt b 12 }
/-- Finite values; η not negative; κ1, κ2 and γ above zero. -/
def StepParam.ok (p : StepParam) : Bool :=
  let pos (w : Word) : Bool := fIsFinite w && !(rd w).isNeg && !(rd w).isZero
  fIsFinite p.eta && (!(rd p.eta).isNeg || (rd p.eta).isZero) && pos p.kappa1 && pos p.kappa2 && pos p.gamma

/-- Put the parameters of a step into the first free place, or over those of the same step. -/
def putParams : List (Option StepHeld) → StepHeld → List (Option StepHeld)
  | [], _ => []
  | none :: t, p => some p :: t
  | some q :: t, p => some q :: putParams t p

/-- The block is read and its values are taken by every Mill. -/
def State.takeParams (s : State) (d : Started) (desc : List Byte) (view : HostView) : State :=
  let n := d.slot
  let x := s.slot n
  let step := leAt desc 16 4
  let rules := match x.survey with | some v => v.nRule | none => 0
  match view.range (s.ringPasidEn d.ring.val) (leAt desc 24 8) (16 * rules) with
  | .absent p => s.waitPage d p (.stepParams { desc := desc, waiting := true, checked := false })
  | .error => s.complete d stHostAccess 0 []
  | .ok bs =>
    let ps := (List.range rules).map fun i => StepParam.parse (slice bs (16 * i) 16)
    if !ps.all StepParam.ok then s.complete d stInvalidArgument 0 []
    else match x.held step with
      | some h =>
        if h.applied then s.complete d stInvalidArgument 0 []
        else (s.setSlot n { x with params := x.params.map fun q => match q with
          | some y => if y.step = step then some { y with params := ps } else some y
          | none => none }).complete d stSuccess 0 []
      | none =>
        if x.params.all Option.isSome then s
        else (s.setSlot n { x with params := putParams x.params { step := step, params := ps, applied := false } }).complete d stSuccess 0 []

/-- Other steps for which a started SET_STEP_PARAMS of the slot still reads its block: each will take a place. -/
def State.paramsOwed (s : State) (n step : Nat) : List Nat :=
  ((s.cage.started.filterMap fun d => match d.kind with
    | .stepParams j => if d.slot = n then some (leAt j.desc 16 4) else none
    | _ => none).filter fun k => k != step && ((s.slot n).held k).isNone).dedup

/-- A SET_STEP_PARAMS for a third step stays unfetched (01 R16). -/
def State.paramsFree (s : State) (n step : Nat) : Bool :=
  let x := s.slot n
  x.stopped || (x.held step).isSome || decide ((s.paramsOwed n step).length < (x.params.filter Option.isNone).length)

/-- SET_STEP_PARAMS. A descriptor of the ring whose page has come in is read again; otherwise the head descriptor starts. -/
def onSetStepParams (d : Desc) (view : HostView) (s : State) : State :=
  match s.cage.started.find? fun x => x.ring == d.ring && (match x.kind with | .stepParams j => !j.waiting | _ => false) with
  | some x => if s.busOn ∧ s.live then (match x.kind with | .stepParams j => s.takeParams x j.desc view | _ => s) else s
  | none =>
    s.startCmd stepParamsSpec d (s.paramsFree (byteAt d.bytes 2 % 8) (leAt d.bytes 16 4))
      (.stepParams { desc := d.bytes, waiting := false, checked := false }) fun s st =>
        if (s.slot st.slot).stopped then s.complete st stJobFault 0 []
        else if leAt d.bytes 24 8 % 16 ≠ 0 then s.complete st stInvalidArgument 0 []
        else s.takeParams st d.bytes view

/-- The answer to `SET_STEP_PARAMS`. -/
def execSetStepParams (d : Desc) (view : HostView) (s : State) : Answer := .next (onSetStepParams d view s)

/-! ### REARM_STREAM (05 R138) -/

/-- REARM_STREAM: the stream holds the replacement until the entry's next use. -/
def onRearmStream (d : Desc) (s : State) : State :=
  let t := leAt d.bytes 16 2
  let e := byteAt d.bytes 18 % 64
  s.startCmd rearmSpec d true .kill fun s st =>
    match ((s.slot st.slot).survey).bind fun v => v.tmpls[t]? with
    | none => s.complete st stInvalidArgument 0 []
    | some m =>
      if m.rearmN ≤ e then s.complete st stInvalidArgument 0 []
      else
        let x := s.stream st.slot t
        let r : Rearm := { base := leAt d.bytes 20 4, lims := (List.range 5).map fun i => leAt d.bytes (24 + 2 * i) 2 }
        (s.setStream st.slot t { x with rearms := (e, r) :: x.rearms.filter fun y => y.1 != e }).complete st stSuccess 0 []

/-- The answer to `REARM_STREAM`. -/
def execRearmStream (d : Desc) (s : State) : Answer := .next (onRearmStream d s)

end Sys2Proof.Machine
end

