-- ==== Sys2Proof/Machine/Copy.lean ====
section
/-! DEFINITION. COPY: its checks, its walk run by run, its pauses and endings, its notify token (12 R291 to R294; 10 R241, R246,
R250; 11 R266, R273, R274). -/
namespace Sys2Proof.Machine

/-! ### The descriptor (Table 12-4) -/

/-- Operand fields that the table lists; `NOTIFY_EN` decides whether a loaded Survey is needed (Table 12-8). -/
def copySpec (desc : List Byte) : CmdSpec :=
  { opcode := 0x06, usesSlot := true, admin := false, needsSurvey := bitOf desc 34 0, entries := 2
    operands := [(128, 64), (192, 64), (256, 8), (264, 10), (288, 24), (320, 48), (384, 96), (512, 96), (608, 32), (640, 128),
      (768, 13), (784, 3), (800, 32), (832, 21)] }

def copyFmt (desc : List Byte) (dst : Bool) : Nat := bits (byteAt desc 32) (if dst then 4 else 0) 4
/-- The side is device memory. -/
def copyDev (desc : List Byte) (dst : Bool) : Bool := bits (byteAt desc 33) (if dst then 6 else 4) 2 == 1
def copyStride (desc : List Byte) (dst : Bool) (i : Nat) : Int := signed 32 (leAt desc ((if dst then 64 else 48) + 4 * i) 4)
def copyTotal (desc : List Byte) : Nat := (copyCounts desc).foldl (· * ·) 1
/-- Packing unit of the walk (R293). -/
def copyUnit (desc : List Byte) : Nat := max (packUnit (copyFmt desc false)) (packUnit (copyFmt desc true))
/-- The element at which the walk begins: 0, or the one `CURSOR` names. -/
def copyStart (desc : List Byte) : Nat :=
  if bitOf desc 34 1 then
    let c := copyCounts desc
    leAt desc 80 4 + c.getD 0 1 * (leAt desc 84 4 + c.getD 1 1 * (leAt desc 88 4 + c.getD 2 1 * leAt desc 92 4))
  else 0

/-- Byte address of element `e` of the walk on a side (R292); `e` begins a byte or group. -/
def copyAddr (desc : List Byte) (dst : Bool) (e : Nat) : Nat :=
  let i := cursorOf desc e
  let base := leAt desc (if dst then 24 else 16) 8
  (((base : Int) + copyStride desc dst 0 * (i.getD 1 0 : Nat) + copyStride desc dst 1 * (i.getD 2 0 : Nat) +
    copyStride desc dst 2 * (i.getD 3 0 : Nat) + (fmtBits (copyFmt desc dst) * i.getD 0 0 / 8 : Nat)) % (2 ^ 64 : Nat)).toNat

/-- The host side's accesses are translated, and under which PASID (11 R273). -/
def State.copyTranslated (s : State) (d : Started) (desc : List Byte) : Bool := bitOf desc 106 4 || s.ringPasidEn d.ring.val
def State.copyPasid (s : State) (d : Started) (desc : List Byte) : Nat :=
  if bitOf desc 106 4 then leAt desc 104 4 % 2 ^ 20 else s.ringPasid d.ring.val

/-! ### Checks at start (R292, R294) -/

/-- A side whose runs are of a 6-bit format has every stride in use a multiple of 3. -/
def copyStrides (desc : List Byte) (dst : Bool) : Bool :=
  fmtBits (copyFmt desc dst) != 6 ||
  (List.range 3).all fun i => (copyCounts desc).getD (i + 1) 1 == 1 || copyStride desc dst i % 3 == 0

/-- The cases of INVALID_ARGUMENT. -/
def State.copyBad (s : State) (n : Nat) (desc : List Byte) : Bool :=
  let sp (i : Nat) := bits (byteAt desc 33) i 2
  let f (dst : Bool) := copyFmt desc dst
  let a := copySpan desc false
  let b := copySpan desc true
  let c := copyCounts desc
  2 ≤ sp 4 || 2 ≤ sp 6 || (sp 4 == 0 && sp 6 == 0) || !fmtOk (f false) || !fmtOk (f true) ||
  !convOk (f true) (bits (byteAt desc 33) 0 4) || !copyStrides desc false || !copyStrides desc true ||
  (copyDev desc false && copyDev desc true && decide (a.1 < b.1 + b.2) && decide (b.1 < a.1 + a.2)) ||
  (bitOf desc 34 1 && (leAt desc 80 4 % copyUnit desc != 0 ||
    (List.range 4).any fun i => c.getD i 1 ≤ leAt desc (80 + 4 * i) 4)) ||
  (bitOf desc 34 0 && (s.notifyPort n desc).isNone)

/-- Device-side extents. -/
def copyExtents (desc : List Byte) : List (Int × Nat) :=
  ([false, true].filter (copyDev desc)).map (copySpan desc)

/-- Sealed regions that a side's extent touches, and whether the whole extent lies in sealed regions. -/
def State.sealedSide (s : State) (desc : List Byte) (dst : Bool) : List Sealed × Bool :=
  if copyDev desc dst then
    let e := copySide desc dst
    let xs := s.sec.sealed.filterMap fun r => match r.2 with
      | some x => if overlaps e.1 e.2 x.base x.len then some x else none
      | none => none
    (xs, decide (xs.foldl (fun a x => a + (min (e.1 + e.2) (x.base + x.len) - max e.1 x.base)) 0 = e.2))
  else ([], false)
/-- A destination in a sealed region whose source is not in one that the slot may use, or a source whose data would leave one (R246, R292): a
destination that lies outside in part counts as outside, and a source that does, as not in the region. -/
def State.copySealed (s : State) (n : Nat) (desc : List Byte) : Bool :=
  let a := s.sealedSide desc false
  let b := s.sealedSide desc true
  (!a.1.isEmpty && !b.2) || (!b.1.isEmpty && !(a.2 && a.1.all fun x => x.slots.getLsbD n))

/-- The status of the first check that fails. -/
def State.copyCheck (s : State) (n : Nat) (desc : List Byte) : Option Nat :=
  if s.copyBad n desc then some stInvalidArgument
  else if (copyExtents desc).any (fun e => e.1 < 0 || (hbmSize : Int) < e.1 + e.2) then some stAddressInvalid
  else if (List.range 8).any (fun k => k != n && (match (s.slot k).survey with
      | some v => !(s.slot k).loading && v.regions.any fun r => (copyExtents desc).any fun e => overlaps e.1.toNat e.2 r.base r.len
      | none => false)) then some stNotPermitted
  else if s.copySealed n desc then some stSealedAccess
  else none

/-! ### Moving (R292, R293) -/

/-- What a transfer meets: a page not present, a completion error, an uncorrectable line. -/
inductive CopyStop where
  | page (p : Nat)
  | host
  | ue (line : Nat)
  deriving DecidableEq, Repr

/-- Bytes that elements `e` to `e + n − 1` of one run take on a side. -/
def copyLen (desc : List Byte) (dst : Bool) (n : Nat) : Nat := packedBytes (fmtBits (copyFmt desc dst)) n

/-- Lines of the destination that this COPY writes whole: the part of the run from its first element on. -/
def copyWhole (desc : List Byte) (e : Nat) : List Nat :=
  let n0 := (copyCounts desc).getD 0 1
  let first := max (copyStart desc) (e - e % n0)
  wholeLines (copyAddr desc true first) (copyLen desc true (n0 - first % n0))

/-- What stops a packing unit of `n` elements at `e`. -/
def State.unitStop (s : State) (desc : List Byte) (view : HostView) (tr : Bool) (e n : Nat) : Option CopyStop :=
  let side (dst : Bool) : Option CopyStop :=
    let a := copyAddr desc dst e
    let len := copyLen desc dst n
    if copyDev desc dst then
      ((linesOf a len).find? fun l => s.hbm.ue.contains l && !(dst && (copyWhole desc e).contains l)).map .ue
    else match view.range tr a len with
      | .ok _ => none
      | .absent p => some (.page p)
      | .error => some .host
  match side false with | some x => some x | none => side true

/-- Elements of the run from `e` that can move, and what stops the rest. -/
def State.runPrefix (s : State) (desc : List Byte) (view : HostView) (tr : Bool) (e : Nat) : Nat × Option CopyStop :=
  let n0 := (copyCounts desc).getD 0 1
  let left := n0 - e % n0
  let u := copyUnit desc
  match (List.range (ceilDiv left u)).findSome? fun i =>
      (s.unitStop desc view tr (e + u * i) (min u (left - u * i))).map fun x => (u * i, x) with
  | some x => (x.1, some x.2)
  | none => (left, none)

/-- Convert the code of element `e` and say whether `COPY_SAT` counts it (R292). -/
def copyElem (desc : List Byte) (e raw : Nat) : Nat × Bool :=
  let sf := copyFmt desc false
  let df := copyFmt desc true
  if sf = df then (raw, false)
  else
    let w := writeElem df (rndOf (bits (byteAt desc 33) 0 4) (leAt desc 76 4) 0 0 (e % 2 ^ 32)) (readElem sf raw)
    let hasNan : Bool := match fmtOf df with | .float f => f.nan.isSome | _ => false
    (w.1, w.2 == .sat || (w.2 == .nan && !hasNan))

/-- Move `n` elements of one run from `e`. -/
def State.moveRun (s : State) (d : Started) (desc : List Byte) (view : HostView) (e n : Nat) : State :=
  if n = 0 then s
  else
    let tr := s.copyTranslated d desc
    let sa := copyAddr desc false e
    let sn := copyLen desc false n
    let src := if copyDev desc false then s.hbmBytes sa sn
      else match view.range tr sa sn with | .ok bs => bs | _ => []
    let out := (List.range n).map fun i => copyElem desc (e + i) (packedElem (copyFmt desc false) src i)
    let bytes := packElems (copyFmt desc true) (out.map (·.1))
    let s1 := if copyDev desc false then s.hbmRead sa sn else s
    let da := copyAddr desc true e
    let s2 := if copyDev desc true then
        (let s2 := s1.hbmWrite da bytes
         let done := (copyWhole desc e).filter fun l => 64 * l + 64 ≤ da + bytes.length
         { s2 with hbm := { s2.hbm with ue := s2.hbm.ue.filter fun l => !done.contains l } })
      else s1.emit (.hostWrite (if tr then some (s.copyPasid d desc) else none) da bytes)
    (s2.bump 0xA118 bytes.length).bump 0xA128 (out.filter (·.2)).length

/-- Move runs until the walk ends or something stops it. -/
def State.copyMove : Nat → State → Started → CopyJob → HostView → State
  | 0, s, d, j, _ => s.setKind d.serial (.copy j)
  | fuel + 1, s, d, j, view =>
    if copyTotal j.desc ≤ j.next then s.setKind d.serial (.copy j)
    else
      let tr := s.copyTranslated d j.desc
      let p := s.runPrefix j.desc view tr j.next
      let s1 := s.moveRun d j.desc view j.next p.1
      let j1 : CopyJob := { j with next := j.next + p.1, bytes := j.bytes + (if p.1 = 0 then 0 else copyLen j.desc true p.1) }
      match p.2 with
      | none => s1.copyMove fuel d j1 view
      | some (.ue l) => (s1.hbmUe l 3).setKind d.serial (.copy { j1 with ended := some (stHbmUncorrectable, 0, 0) })
      | some .host => s1.setKind d.serial (.copy { j1 with ended := some (stHostAccess, 0, 0) })
      | some (.page q) =>
        let pasid := s.copyPasid d j.desc
        let s2 := s1.setKind d.serial (.copy { j1 with waiting := some (pasid, q) })
        (if s.pageDenied.isNone then s2.bump 0xA120 else s2).pageFault pasid q (.cmd d.serial)

/-- Runs that a walk can still have: the fuel of `copyMove`. -/
def copyRuns (desc : List Byte) : Nat := copyTotal desc / (copyCounts desc).getD 0 1 + 1

/-! ### Endings (R293, R294) -/

/-- Complete a COPY: the record, then the notify token; an ERROR token fences the job and raises COPY_FAULT. -/
def State.copyEnd (s : State) (d : Started) (desc : List Byte) (status detail : Nat) (result : List Byte) : State :=
  let s1 := s.complete d status detail result
  match (if bitOf desc 34 0 then s.notifyPort d.slot desc else none) with
  | none => s1
  | some (r, p) =>
    if status = stSuccess then
      s1.send r.slot none r.st.site p.ring { tag := leAt desc 100 4, pay := .data (slice result 0 8) }
    else
      (s1.send r.slot none r.st.site p.ring { tag := leAt desc 100 4, pay := .error }).jobFault
        (Fin.ofNat 8 d.slot) 0x0004 d.ring.val status d.index 0 0

/-- COPY: the checks, then as much of the walk as host memory allows. `view` is host memory as the accesses meet it; `ue` are
lines that the controllers newly find uncorrectable (10 R248). -/
def onCopy (d : Desc) (view : HostView) (err : HbmErrors) (s : State) : State :=
  let j : CopyJob := { desc := d.bytes, next := copyStart d.bytes, bytes := 0, waiting := none, ended := none }
  s.startCmd (copySpec d.bytes) d true (.copy j) fun s st =>
    match s.copyCheck st.slot d.bytes with
    | some status => s.copyEnd st d.bytes status 0 []
    | none => (s.foundErrors err).copyMove (copyRuns d.bytes) st j view

/-- The answer to `COPY`. -/
def execCopy (d : Desc) (view : HostView) (err : HbmErrors) (s : State) : Answer := .next (onCopy d view err s)

/-- COPY_COMPLETE: the COPY that started at entry `index` of a ring goes on where a pause left it, and completes when its walk
has ended (R293). Bus Master Enable at 0 pauses it (R266). -/
def onCopyComplete (ring : Fin 32) (index : Nat) (view : HostView) (err : HbmErrors) (s : State) : State :=
  match s.cage.started.find? fun d => d.ring == ring && d.index == index && (match d.kind with | .copy _ => true | _ => false) with
  | none => s
  | some d => match d.kind with
    | .copy j =>
      if !s.live ∨ !s.busOn ∨ j.waiting.isSome then s
      else match j.ended with
        | some (status, detail, a) => s.copyEnd d j.desc status detail (j.result a)
        | none =>
          if copyTotal j.desc ≤ j.next then s.copyEnd d j.desc stSuccess 0 (j.result 0)
          else (s.foundErrors err).copyMove (copyRuns j.desc) d j view
    | _ => s

/-- The answer to `COPY_COMPLETE`. -/
def execCopyComplete (ring : Fin 32) (index : Nat) (view : HostView) (err : HbmErrors) (s : State) : Answer :=
  .next (onCopyComplete ring index view err s)

end Sys2Proof.Machine
end

