-- ==== Sys2Proof/Machine/Barrier.lean ====
section
/-! DEFINITION. BARRIER and the messages of its tree (12 R296; 14 R357, R359, R366; 18 R439). -/
namespace Sys2Proof.Machine

/-- The barrier's context, opened when it has none; none while no context is free for it. -/
def State.barCtx (s : State) (n fjob bid npart : Nat) : Option (Nat × SluiceCtx) :=
  match s.ctxOf n fjob true bid with
  | some c => some c
  | none => if s.ctxMay n then s.ctxFree.map fun c =>
      (c, { slot := n, fjob := fjob, barrier := true, id := bid, reserved := decide (s.ctxUsed n < s.ctxReserved n), slots := [], ready := [], delivered := [], arrived := []
            npart := npart })
    else none

/-! ### The tree (R366) -/

/-- The barrier is released here: down the tree, then the local BARRIER completes with SUCCESS. -/
def State.barRelease (s : State) (n fjob bid : Nat) : State :=
  let s1 := match (s.slot n).hoist with
    | some h => h.down.foldl (fun (s : State) d => s.sendBar d fjob bid 1 0 0) s
    | none => s
  match s1.ctxOf n fjob true bid with
  | some c => ((s1.setSluice c.1 none).bumpFab 0x170).endBarriers n (fun j => j.fjob == fjob && j.bid == bid) 0 []
  | none => s1

/-- A contribution of `count` devices naming `npart` is counted in the context; a node device or root that sees a wrong `NPART`
aborts, a full node sends one ARRIVE to the root, the full tree is released. A leaf's own contribution goes to its node's
device 0. -/
def State.barCount (s : State) (n fjob bid : Nat) (h : HoistTable) (c : Nat × SluiceCtx) (src count npart : Nat) : State :=
  let x := { c.2 with arrived := c.2.arrived ++ [(src, count)] }
  let s1 := s.setSluice c.1 (some x)
  let seen := x.arrived.foldl (fun a y => a + y.2) 0
  let all := h.nn * h.nd
  if h.myDev ≠ 0 then s1.sendBar (h.peer h.myNode 0) fjob bid 0 1 npart
  else if npart ≠ all then s1.abortBarrier n fjob bid none
  else if h.myNode ≠ 0 then (if seen = h.nd then s1.sendBar (h.peer 0 0) fjob bid 0 h.nd npart else s1)
  else if seen = all then s1.barRelease n fjob bid
  else s1

/-! ### BARRIER (12 R296) -/

def barrierSpec : CmdSpec :=
  { opcode := 0x08, usesSlot := true, admin := false, operands := [(128, 8), (144, 10), (160, 5)], needsSurvey := true, entries := 1 }

/-- The descriptor's own contribution, once the earlier descriptors of its ring have completed and a context is free. -/
def State.barContribute (s : State) (d : Started) (j : BarrierJob) (waits : List Nat) : State :=
  match (s.slot d.slot).hoist with
  | none => s.complete d stInvalidArgument 0 []
  | some h =>
    if !s.allDone waits then s
    else match s.barCtx d.slot j.fjob j.bid j.npart with
      | none => s
      | some c =>
        let s1 := s.setKind d.serial (.barrier { j with sent := some (s.deadline (2 ^ j.tmoLog2)) } waits)
        s1.barCount d.slot j.fjob j.bid h c (h.peer h.myNode h.myDev) 1 j.npart

/-- BARRIER. A BARRIER of the ring that still waits contributes when it can; otherwise the head descriptor starts. -/
def onBarrier (d : Desc) (s : State) : State :=
  let n := byteAt d.bytes 2 % 8
  let waits := (s.onRing d.ring.val).map (·.serial) ++ ((s.cage.waiting.filter fun c => c.ring == d.ring).map (·.serial))
  let j : BarrierJob :=
    { fjob := s.fjobOf n, bid := byteAt d.bytes 16, npart := leAt d.bytes 18 2 + 1, tmoLog2 := byteAt d.bytes 20, sent := none }
  match (s.onRing d.ring.val).findSome? fun x => match x.kind with
      | .barrier k w => if k.sent.isNone then some (x, k, w) else none
      | _ => none with
  | some x => if s.live then s.barContribute x.1 x.2.1 x.2.2 else s
  | none =>
    s.startCmd barrierSpec d true (.barrier j waits) fun s st =>
      if byteAt d.bytes 20 < 10 ∨ (s.slot st.slot).hoist.isNone then s.complete st stInvalidArgument 0 []
      else if (s.slot st.slot).stopped then s.abortBarrier st.slot j.fjob j.bid none
      else s.powerTies.barContribute st j waits

/-- The answer to `BARRIER`. -/
def execBarrier (d : Desc) (s : State) : Answer := .next (onBarrier d s)

/-- BARRIER_TIMEOUT: 2^`TMO_LOG2` µs after the contribution the BARRIER of a ring completes with TIMEOUT and the contributions
that its context has seen. -/
def onBarrierTimeout (ring : Fin 32) (s : State) : State :=
  match (s.onRing ring.val).findSome? fun x => match x.kind with | .barrier k _ => k.sent.map fun t => (x, k, t) | _ => none with
  | none => s
  | some (d, j, t) =>
    if !s.passed t then s
    else match s.ctxOf d.slot j.fjob true j.bid with
      | some c => (s.setSluice c.1 none).complete d stTimeout 0 (leBytes 2 (c.2.arrived.foldl (fun a y => a + y.2) 0))
      | none => s.complete d stTimeout 0 (leBytes 2 0)

/-- The answer to `BARRIER_TIMEOUT`. -/
def execBarrierTimeout (ring : Fin 32) (s : State) : Answer := .next (onBarrierTimeout ring s)

/-! ### Messages (14 R366) -/

def Packet.isBar (k : Packet) (kind : Nat) : Bool := k.ptype == .bar && byteAt k.payload 0 == kind

/-- BAR_ARRIVE: the next ARRIVE of its channel is counted; it waits while no context is free. -/
def onBarArrive (s : State) : State :=
  match s.nextRx fun k => k.isBar 0 with
  | none => s
  | some r =>
    let k := r.pkt
    if !s.jobsRun then s
    else match s.jobSlot k.fjob with
      | none => (s.deliver r).sendError k 1
      | some n => match (s.slot n.val).hoist with
        | none => (s.deliver r).sendError k 4
        | some h =>
          match s.barCtx n.val k.fjob k.xid (leAt k.payload 4 2) with
            | none => s
            | some c => (s.deliver r).barCount n.val k.fjob k.xid h c k.src (leAt k.payload 2 2) (leAt k.payload 4 2)

/-- The answer to `BAR_ARRIVE`. -/
def execBarArrive (s : State) : Answer := .next (onBarArrive s)

/-- BAR_RELEASE: passed down the tree; the local BARRIER completes with SUCCESS. -/
def onBarRelease (s : State) : State :=
  match s.nextRx fun k => k.isBar 1 with
  | none => s
  | some r =>
    if !s.jobsRun then s
    else match s.jobSlot r.pkt.fjob with
      | none => s.deliver r
      | some n => (s.deliver r).barRelease n.val r.pkt.fjob r.pkt.xid

/-- The answer to `BAR_RELEASE`. -/
def execBarRelease (s : State) : Answer := .next (onBarRelease s)

/-- BAR_ABORT: passed on; the local BARRIER completes with FABRIC_ERROR. -/
def onBarAbort (s : State) : State :=
  match s.nextRx fun k => k.isBar 2 with
  | none => s
  | some r =>
    if !s.jobsRun then s
    else match s.jobSlot r.pkt.fjob with
      | none => s.deliver r
      | some n => (s.deliver r).abortBarrier n.val r.pkt.fjob r.pkt.xid (some r.pkt.src)

/-- The answer to `BAR_ABORT`. -/
def execBarAbort (s : State) : Answer := .next (onBarAbort s)

end Sys2Proof.Machine
end

