-- ==== Sys2Proof/Machine/Hoist.lean ====
section
/-! DEFINITION. The Hoists: gathers as requester, holder and owner, staging, retained copies, leases (08 R184 to R207; 09 R226,
R229 to R232; 14 R357, R358; 01 R17, R18). -/
namespace Sys2Proof.Machine

/-! ### Sizes (R190 to R192) -/

/-- Scale bytes and bytes of one row of n elements of a copy: packed elements, then first-order scales (log entry 17). -/
def Layer.scaleBytes (l : Layer) (n : Nat) : Nat := if l.scheme = 0 then 0 else ceilDiv n (blockLen l.scheme)
def Layer.lineBytes (l : Layer) (n : Nat) : Nat := packedBytes (fmtBits l.sfmt) n + l.scaleBytes n
/-- Blocks of the first `n` rows of W in an order. -/
def Layer.blocksTo (l : Layer) (trn : Bool) (n : Nat) : Nat :=
  if trn then l.cols * ceilDiv n (blockLen l.scheme) else n * ceilDiv l.cols (blockLen l.scheme)
/-- Second-order scales that go with rows of W: those of the groups of 1,024 blocks that begin among them (02 R41). -/
def Layer.groups (l : Layer) (trn : Bool) (row rows : Nat) : Nat :=
  if l.scheme = 2 then ceilDiv (l.blocksTo trn (row + rows)) 1024 - ceilDiv (l.blocksTo trn row) 1024 else 0
/-- Bytes of elements and first-order scales of rows of W in an order, and with the second-order scales behind them. -/
def Layer.bodyBytes (l : Layer) (trn : Bool) (rows : Nat) : Nat :=
  if trn then l.cols * l.lineBytes rows else rows * l.lineBytes l.cols
def Layer.pieceBytes (l : Layer) (trn : Bool) (row rows : Nat) : Nat := l.bodyBytes trn rows + 4 * l.groups trn row rows
/-- Orders that travel: a block-scaled layer sends both quantisations (R191). -/
def Layer.orders (l : Layer) : List Bool := if l.scheme = 0 then [false] else [false, true]
/-- The order whose service completes a request for both. -/
def Layer.lastOrder (l : Layer) : Bool := l.scheme != 0
/-- Shards that hold rows. -/
def HoistTable.liveShards (h : HoistTable) (l : Layer) : List Nat := (List.range h.shards).filter fun k => 0 < l.rowsIn k

/-- A copy as it is staged: the shard that each run of its bytes comes from, in the order of the copy; a shard's bytes follow one another in both
orders. The second-order scales stand behind the rows. The corner turn of an unscaled layer gives the transposed copy whole (R191). -/
def HoistTable.segments (h : HoistTable) (l : Layer) (trn : Bool) : List (Nat × Nat) :=
  let ks := h.liveShards l
  if trn ∧ l.scheme = 0 then [(0, l.bodyBytes true l.rows)]
  else
    let part (f : Nat → Nat) : List (Nat × Nat) := ks.map fun k => (k, f k)
    let body := if trn then ((List.range l.cols).map fun _ =>
        part (fun k => packedBytes (fmtBits l.sfmt) (l.rowsIn k)) ++ part fun k => l.scaleBytes (l.rowsIn k)).flatten
      else part fun k => l.bodyBytes false (l.rowsIn k)
    (body ++ part fun k => 4 * l.groups trn (l.row0 k) (l.rowsIn k)).filter fun x => 0 < x.2
def HoistTable.copySize (h : HoistTable) (l : Layer) (trn : Bool) : Nat := (h.segments l trn).foldl (fun a x => a + x.2) 0
/-- The shard that byte `pos` of a copy comes from, and how many bytes from there on. -/
def segAt : List (Nat × Nat) → Nat → Option (Nat × Nat)
  | [], _ => none
  | x :: xs, pos => if pos < x.2 then some (x.1, x.2 - pos) else segAt xs (pos - x.2)

/-! ### Where a copy's bytes go (R184, R192) -/

/-- First chunk and chunk count of a copy. -/
def Layer.chunkRange (l : Layer) (trn : Bool) : Nat × Nat := if trn then (l.trnStg, l.trnN) else (l.fwdStg, l.fwdN)
/-- The chunks of a copy, in list order. -/
def HoistTable.chunksOf (h : HoistTable) (l : Layer) (trn : Bool) : List Chunk :=
  (List.range (l.chunkRange trn).2).filterMap fun i => h.chunks[(l.chunkRange trn).1 + i]?
/-- The Level of the chunk that byte `pos` of a lap through the list falls in, and the bytes left in that chunk. -/
def chunkAt : List Chunk → Nat → Option (Nat × Nat)
  | [], _ => none
  | c :: cs, pos => if pos < 4096 * c.pages then some (siteLevel c.site, 4096 * c.pages - pos) else chunkAt cs (pos - 4096 * c.pages)
/-- Level whose Hoist handles byte `pos` of a copy, and the bytes from there on that the same chunk takes; the list wraps (R192). -/
def HoistTable.levelAt (h : HoistTable) (l : Layer) (trn : Bool) (pos : Nat) : Nat × Nat :=
  let cs := h.chunksOf l trn
  let lap := cs.foldl (fun a c => a + 4096 * c.pages) 0
  (chunkAt cs (pos % max 1 lap)).getD (0, 2 ^ 48)
/-- `n` bytes from `pos`, by Level. -/
def HoistTable.spread (h : HoistTable) (l : Layer) (trn : Bool) : Nat → Nat → Nat → List (Nat × Nat)
  | 0, _, _ => []
  | fuel + 1, pos, n =>
    if n = 0 then []
    else
      let x := h.levelAt l trn pos
      let k := max 1 (min n x.2)
      (x.1, k) :: h.spread l trn fuel (pos + k) (n - k)
/-- `n` bytes of a shard's part of a copy, from its byte `at_` on, by the Level of the chunk that each fills. -/
def HoistTable.levels (h : HoistTable) (l : Layer) (trn : Bool) (shard at_ n : Nat) : List (Nat × Nat) :=
  ((h.segments l trn).foldl (fun (a : Nat × Nat × List (Nat × Nat)) x =>
    if x.1 ≠ shard then (a.1 + x.2, a.2.1, a.2.2)
    else
      let lo := max at_ a.2.1
      let hi := min (at_ + n) (a.2.1 + x.2)
      (a.1 + x.2, a.2.1 + x.2, a.2.2 ++ h.spread l trn (hi - lo) (a.1 + (lo - a.2.1)) (hi - lo))) (0, 0, [])).2.2
/-- The first of them: the Hoist that handles a request for the shard. -/
def HoistTable.levelOf (h : HoistTable) (l : Layer) (trn : Bool) (shard : Nat) : Nat :=
  match h.levels l trn shard 0 1 with | x :: _ => x.1 | [] => 0
/-- Count bytes of a shard at their Hoists. -/
def State.countLevels (s : State) (slot ctr : Nat) (xs : List (Nat × Nat)) : State :=
  xs.foldl (fun (s : State) x => s.bump (hoistBase x.1 slot + ctr) x.2) s

/-! ### The HOIST_OVF region (R189, R192) -/

def OvfData.len (d : OvfData) : Nat := d.lines.foldl (fun a x => a + x.len) 0 + d.rest.length
/-- Lines and bytes that a slot holds: retained pieces, and data that has not gone into chunks. -/
def State.ovfHeld (s : State) (n : Nat) : List OvfData :=
  ((s.flow.retained.filter fun r => r.slot == n).map fun r => [r.fwd, r.trn]).flatten ++
  (s.flow.pieces.filter fun p => p.copy.slot == n).map (·.data)
def State.ovfUsed (s : State) (n : Nat) : Nat := (s.ovfHeld n).foldl (fun a d => a + 64 * d.lines.length + d.rest.length) 0
/-- The bytes of held data. -/
def State.ovfBytes (s : State) (d : OvfData) : List Byte :=
  (d.lines.map fun x => s.hbmBytes (64 * x.line + x.ofs) x.len).flatten ++ d.rest
/-- Held data without its first `n` bytes: a line is free once all its bytes have gone. -/
def OvfData.drop (d : OvfData) : Nat → OvfData := fun n =>
  let x := d.lines.foldl (fun (a : Nat × List OvfLine) y =>
    if y.len ≤ a.1 then (a.1 - y.len, a.2) else (0, a.2 ++ [{ y with ofs := y.ofs + a.1, len := y.len - a.1 }])) (n, [])
  { lines := x.2, rest := d.rest.drop x.1 }
/-- Lines that the first `n` bytes of held data lie in. -/
def OvfData.firstLines (d : OvfData) (n : Nat) : List Nat :=
  (d.lines.foldl (fun (a : Nat × List Nat) y => if a.1 = 0 then a else (a.1 - y.len, a.2 ++ [y.line])) (n, [])).2
/-- What forbids the Hoist to read lines: a sealed region (10 R246), an uncorrectable line (10 R250). -/
def State.ovfStop (s : State) (n : Nat) (ls : List Nat) : Option State :=
  match ls.findSome? fun x => (s.sealedAgainst n (64 * x) 64).map fun k => (k, 64 * x) with
  | some k => some (s.sealStop n k.1 k.2)
  | none => (ls.find? fun x => s.hbm.ue.contains x).map fun x => s.hbmUe x 2
/-- Put what has found no room into free lines of the region, each written whole; the place is the Hoist's (log entry 17). -/
def State.ovfPut (s : State) (n : Nat) (d : OvfData) (also : List OvfData) : State × OvfData :=
  match (s.slot n).hoist with
  | none => (s, d)
  | some h =>
    let used := ((s.ovfHeld n ++ also).map fun x => x.lines.map (·.line)).flatten
    let need := ceilDiv d.rest.length 64
    let free := (((List.range (min (h.ovfLen / 64) (used.length + need))).map (h.ovfBase / 64 + ·)).filter fun x => !used.contains x).take need
    match if free.isEmpty then none else s.sealedAgainst n (64 * free.headD 0) (64 * free.length) with
    | some k => (s.sealStop n k (64 * free.headD 0), d)
    | none =>
      let put (x : Nat × Nat) : List Byte := slice d.rest (64 * x.2) (min 64 (d.rest.length - 64 * x.2))
      (free.zipIdx.foldl (fun s x => s.hbmWrite (64 * x.1) (put x ++ zeroBytes (64 - (put x).length))) s,
       { lines := d.lines ++ free.zipIdx.map fun x => { line := x.1, ofs := 0, len := (put x).length }, rest := d.rest.drop (64 * free.length) })

/-! ### Messages (14 R358) -/

def GatherKind.code : GatherKind → Nat | .forward => 0 | .regather => 1 | .holder => 2
def GatherKind.ofCode (n : Nat) : GatherKind := if n = 0 then .forward else if n = 1 then .regather else .holder

/-- GATHER_REQ payload: what R358 names, and whether a forward-only slot asks, and a background one. The manual gives no bytes (log
entry 9). -/
def GatherReq.payload (q : GatherReq) (bg : Bool) : List Byte :=
  leBytes 4 q.layer ++ leBytes 1 (b2n q.transposed) ++ leBytes 1 q.kind.code ++
  leBytes 1 (b2n q.fwdOnly + 2 * b2n q.latest + 4 * b2n bg) ++
  zeroBytes 1 ++ leBytes 4 q.version ++ leBytes 4 q.row ++ leBytes 4 q.rows ++ leBytes 2 q.num ++ zeroBytes 2

/-- The read that a received GATHER_REQ asks of a slot. -/
def Packet.gatherRead (k : Packet) (slot now : Nat) : GatherRead :=
  let b := k.payload
  { slot := slot, layer := leAt b 0 4, transposed := bitOf b 4 0, kind := GatherKind.ofCode (byteAt b 5)
    version := leAt b 8 4, row := leAt b 12 4, rows := leAt b 16 4, num := leAt b 20 2, peer := some k.src, rslot := k.rslot
    fjob := k.fjob, fwdOnly := bitOf b 6 0, latest := bitOf b 6 1, bg := bitOf b 6 2, since := now, awaiting := none, blocks := 0 }

/-- One GATHER_RSP: request number, then the byte offset of the data, or with a status the version found. -/
def State.sendRspPart (s : State) (dst fjob rslot num status w : Nat) (bs : List Byte) : State :=
  s.sendPacket { s.packet .gatherRsp dst (jobChan fjob) (leBytes 2 num ++ zeroBytes 2 ++ leBytes 4 w ++ bs) with
    fjob := fjob, rslot := rslot, status := status }
/-- The GATHER_RSPs of data that begins at a byte offset of the response. -/
def State.sendRsp (s : State) (dst fjob rslot num at_ : Nat) (data : List Byte) : State :=
  (List.range (ceilDiv data.length 4088)).foldl (fun s i =>
    s.sendRspPart dst fjob rslot num 0 (at_ + 4088 * i) (slice data (4088 * i) (min 4088 (data.length - 4088 * i)))) s

/-- Ask for rows: number the request, then queue it at this device's Mills or send it. -/
def State.ask (s : State) (q0 : GatherReq) (bg : Bool) : State :=
  let q := { q0 with num := s.flow.reqNum }
  let f := s.fjobOf q.slot
  let s1 : State := { s with flow := { s.flow with reqs := s.flow.reqs ++ [q], reqNum := (s.flow.reqNum + 1) % 65536 } }
  match q.peer with
  | some a => s1.sendPacket { s1.packet .gatherReq a (jobChan f) (q.payload bg) with fjob := f, rslot := q.slot }
  | none =>
    let r : GatherRead :=
      { slot := (match s.jobSlot f with | some n => n.val | none => goneSlot), layer := q.layer, transposed := q.transposed
        kind := q.kind, version := q.version, row := q.row, rows := q.rows, num := q.num, peer := none, rslot := q.slot
        fjob := f, fwdOnly := q.fwdOnly, latest := q.latest, bg := bg, since := s.clk.root, awaiting := none, blocks := 0 }
    { s1 with flow := { s1.flow with reads := s1.flow.reads ++ [r] } }

/-! ### HOIST_GATHER_REQUEST (R188, R189, R192) -/

/-- The shards of a gather and the devices asked: owners for a forward gather, holders of the node for the rest. -/
def HoistTable.asks (h : HoistTable) (kind : GatherKind) : List (Nat × Option Nat) :=
  let nodes := List.range h.nn
  match kind with
  | .forward => nodes.map fun k => (h.shardOf k h.myDev, if k = h.myNode then none else some (h.peer k h.myDev))
  | .holder => (nodes.map fun k => ((List.range h.nd).filter (· != h.myDev)).map fun j => (h.shardOf k j, some (h.peer h.myNode j))).flatten
  | .regather => (nodes.map fun k => (List.range h.nd).map fun j =>
      (h.shardOf k j, if j = h.myDev then none else some (h.peer h.myNode j))).flatten

def State.stageOf (s : State) (c : CopyId) : Option StageData := s.flow.staging.find? fun x => x.copy == c
def State.pieceOf (s : State) (c : CopyId) (shard : Nat) : Option Piece := s.flow.pieces.find? fun p => p.copy == c && p.shard == shard
/-- Put a shard's part of a copy in the place of what was known of it. -/
def State.setPiece (s : State) (p : Piece) : State :=
  { s with flow := { s.flow with pieces := s.flow.pieces.filter (fun x => !(x.copy == p.copy && x.shard == p.shard)) ++ [p] } }
/-- The copies of a gather are begun: the forward one, then the transposed one. -/
def State.beginCopies (s : State) (n layer : Nat) (regather : Bool) : State :=
  [false, true].foldl (fun (s : State) o =>
    let c : CopyId := { slot := n, layer := layer, transposed := o, regather := regather }
    if (s.stageOf c).isSome then s
    else { s with flow := { s.flow with staging := s.flow.staging ++ [{ copy := c, pos := 0, next := 0, turn := [] }] } }) s
/-- Ask for a shard of a copy, once for each copy. -/
def State.askShard (s : State) (n layer shard : Nat) (peer : Option Nat) (l : Layer) (o : Bool) (kind : GatherKind) (version : Nat) : State :=
  let c : CopyId := { slot := n, layer := layer, transposed := o, regather := kind == .regather }
  if (s.pieceOf c shard).isSome then s
  else
    let fo := s.fwdOnly n
    (s.setPiece { copy := c, shard := shard, gone := 0, data := .empty }).ask
      { num := 0, slot := n, layer := layer, transposed := o, kind := kind, version := version, row := l.row0 shard, rows := l.rowsIn shard
        peer := peer, fwdOnly := fo, latest := fo && l.vmode, got := 0, relay := none } (s.background n)

/-- HOIST_GATHER_REQUEST of a slot for a layer, in the older or the newer RUN_STEP in progress. A layer is gathered for forward use once in a
step: everything else in the step comes from inside the node (01 R17). -/
def onHoistGatherRequest (n : Fin 8) (layer : Nat) (kind : GatherKind) (newer : Bool) (s : State) : State :=
  match (s.stepsOf n.val)[if newer then 1 else 0]?, s.layer n.val layer with
  | some (_, step), some (h, l) =>
    let x := s.slot n.val
    if !s.live ∨ x.stopped ∨ h.ovfLen ≤ s.ovfUsed n.val ∨ (kind = .forward ∧ x.fetched.contains (step, layer)) then s
    else
      let s1 := if kind = .forward then s.setSlot n.val { x with fetched := x.fetched ++ [(step, layer)] } else s
      ((h.asks kind).filter fun y => 0 < l.rowsIn y.1).foldl (fun s y => l.orders.foldl (fun s o =>
        s.askShard n.val layer y.1 y.2 l o kind ((step + 2 ^ 32 - 1) % 2 ^ 32)) s) (s1.beginCopies n.val layer (kind == .regather))
  | _, _ => s

/-- The answer to `HOIST_GATHER_REQUEST`. -/
def execHoistGatherRequest (n : Fin 8) (layer : Nat) (kind : GatherKind) (newer : Bool) (s : State) : Answer :=
  .next (onHoistGatherRequest n layer kind newer s)

/-! ### Staging (R191, R192) -/

/-- Write bytes `pos` on of a copy into a chunk, from byte `at_` of the chunk. A chunk that is no longer in its window is an access out of
bounds (04 R89). -/
def State.writeChunk (s : State) (n : Nat) (l : Layer) (c : Chunk) (trn : Bool) (at_ pos : Nat) (bs : List Byte) : State :=
  if !(s.winEn c.site c.win && s.winOf n c.site c.win && c.page + c.pages ≤ s.winLimit c.site c.win - s.winFirst c.site c.win) then
    (s.bumpSite c.site 0x168).jobFault (Fin.ofNat 8 n) 0x0011 c.site c.win (4096 * c.page) 0 0
  else
    let a := 4096 * (s.winFirst c.site c.win + c.page) + at_
    let s1 := s.bankWrite c.site (bs.zipIdx.map fun x => (a + x.2, x.1))
    let turned (k : Nat) : Nat := 8 * k / (256 * fmtBits l.sfmt)
    if trn ∧ l.scheme = 0 then s1.bumpSite c.site 0x120 (turned (pos + bs.length) - turned pos) else s1

/-- The corner turn of an unscaled forward copy (04 R99). -/
def Layer.cornerTurn (l : Layer) (bs : List Byte) : List Byte :=
  let w := l.lineBytes l.cols
  ((List.range l.cols).map fun c =>
    packElems l.sfmt ((List.range l.rows).map fun r => packedElem l.sfmt (slice bs (r * w) w) c)).flatten

/-- The chunk that takes a copy's next bytes: its index, place and bytes filled; none while it is not free. -/
def State.openChunk (s : State) (h : HoistTable) (l : Layer) (x : StageData) : Option (Nat × Chunk × Nat) :=
  let g := l.chunkRange x.copy.transposed
  let c := g.1 + x.next % max 1 g.2
  (h.chunks[c]?).bind fun ch =>
    match s.flow.chunks.find? fun y => y.slot == x.copy.slot && y.chunk == c with
    | none => some (c, ch, 0)
    | some y => if y.copy = x.copy ∧ !y.closed then some (c, ch, y.filled) else none

/-- What the forward copy of an unscaled layer hands to the MU's corner turn: the transposed copy's bytes are there once the last has come
(R191). -/
def State.turnCopy (s : State) (l : Layer) (x : CopyId) (bs : List Byte) (last : Bool) : State :=
  if x.transposed ∨ l.scheme ≠ 0 then s
  else
    let c : CopyId := { x with transposed := true }
    match s.stageOf c with
    | none => s
    | some y =>
      let t := y.turn ++ bs
      let s1 : State := { s with flow := { s.flow with staging := s.flow.staging.map fun z => if z.copy = c then { z with turn := if last then [] else t } else z } }
      if last then s1.setPiece { copy := c, shard := 0, gone := 0, data := { lines := [], rest := l.cornerTurn t } } else s1

/-- Move a copy's next bytes into its next chunk: as many as have come, the chunk takes and one shard gives. None where nothing moves. -/
def State.fillChunk (s : State) (x : StageData) : Option (State × StageData) :=
  match s.layer x.copy.slot x.copy.layer with
  | none => none
  | some (h, l) => match segAt (h.segments l x.copy.transposed) x.pos, s.openChunk h l x with
    | some (shard, left), some (c, ch, filled) => (s.pieceOf x.copy shard).bind fun p =>
      let k := min (min left p.data.len) (4096 * ch.pages - filled)
      if k = 0 then none
      else match s.ovfStop x.copy.slot (p.data.firstLines k) with
        | some t => some (t, x)
        | none =>
          let bs := (s.ovfBytes p.data).take k
          let s1 := (p.data.firstLines k).foldl (fun (s : State) y => s.touchLine false y) s
          let s2 := s1.writeChunk x.copy.slot l ch x.copy.transposed filled x.pos bs
          let last := decide (h.copySize l x.copy.transposed ≤ x.pos + k)
          let full := decide (filled + k = 4096 * ch.pages)
          let y : StagedChunk := { slot := x.copy.slot, chunk := c, copy := x.copy, filled := filled + k, closed := last || full, read := false }
          let s3 : State := { s2 with flow := { s2.flow with
            chunks := s2.flow.chunks.filter (fun z => !(z.slot == y.slot && z.chunk == c)) ++ [y] } }
          some ((s3.setPiece { p with gone := p.gone + k, data := p.data.drop k }).turnCopy l x.copy bs last,
            { x with pos := x.pos + k, next := if full then x.next + 1 else x.next })
    | _, _ => none
def State.fillChunks : Nat → State → StageData → State × StageData
  | 0, s, x => (s, x)
  | k + 1, s, x =>
    if (s.slot x.copy.slot).stopped then (s, x)
    else match s.fillChunk x with
      | none => (s, x)
      | some y => y.1.fillChunks k y.2

/-- Two copies use some chunk in common. -/
def State.shareChunks (s : State) (x y : CopyId) : Bool :=
  match s.layer x.slot x.layer, s.layer y.slot y.layer with
  | some (_, a), some (_, b) =>
    let p := a.chunkRange x.transposed
    let q := b.chunkRange y.transposed
    x.slot == y.slot && p.1 < q.1 + q.2 && q.1 < p.1 + p.2
  | _, _ => false
/-- Bytes of a copy that have come and not gone into chunks. -/
def State.arrivedOf (s : State) (c : CopyId) : Nat :=
  (s.flow.pieces.filter fun p => p.copy == c).foldl (fun a p => a + p.data.len) 0
/-- A copy has gone into its chunks whole. -/
def State.copyStaged (s : State) (x : StageData) : Bool :=
  match s.layer x.copy.slot x.copy.layer with | some (h, l) => decide (h.copySize l x.copy.transposed ≤ x.pos) | none => true

/-- Move data into chunks, oldest copy first; a copy waits behind an older one that uses its chunks. One that has gone whole is no longer
known. -/
def State.pumpStage (s : State) : State :=
  (s.flow.staging.map (·.copy)).foldl (fun (s : State) c =>
    match s.stageOf c with
    | none => s
    | some x =>
      if (s.flow.staging.takeWhile fun y => y.copy != c).any fun y => s.shareChunks c y.copy then s
      else
        let y := s.fillChunks (s.arrivedOf c) x
        if y.1.copyStaged y.2 then { y.1 with flow := { y.1.flow with
          staging := y.1.flow.staging.filter (·.copy != c), pieces := y.1.flow.pieces.filter (·.copy != c) } }
        else { y.1 with flow := { y.1.flow with staging := y.1.flow.staging.map fun z =>
          if z.copy = c then { y.2 with turn := z.turn } else z } }) s

/-- What has come while its chunk is not free is written into the HOIST_OVF region, and counted there (R192, R209). -/
def State.spillPieces (s : State) (n : Nat) : State :=
  (s.flow.pieces.filter fun p => p.copy.slot == n && !p.data.rest.isEmpty).foldl (fun (s : State) p =>
    let x := s.ovfPut n p.data []
    let moved := p.data.rest.length - x.2.rest.length
    if moved = 0 then x.1
    else match s.layer n p.copy.layer with
      | none => x.1
      | some (h, l) => (x.1.setPiece { p with data := x.2 }).countLevels n 0x10
          (h.levels l p.copy.transposed p.shard (p.gone + (p.data.len - p.data.rest.length)) moved)) s

/-- STAGING_CHUNK_CREDIT: the GATHER station has released the last token of a chunk, which is free again; the Hoist moves overflow data into
it (R192). -/
def onStagingChunkCredit (n : Fin 8) (chunk : Nat) (s : State) : State :=
  if !s.live ∨ !s.flow.chunks.any (fun y => y.slot == n.val && y.chunk == chunk && y.read) then s
  else (({ s with flow := { s.flow with chunks := s.flow.chunks.filter fun y => !(y.slot == n.val && y.chunk == chunk) } } : State).pumpStage).spillPieces n.val

/-- The answer to `STAGING_CHUNK_CREDIT`. -/
def execStagingChunkCredit (n : Fin 8) (chunk : Nat) (s : State) : Answer := .next (onStagingChunkCredit n chunk s)

/-! ### The requester's side of a response (R189, R197, 14 R358) -/

/-- The GATHER stations of a slot that read staging memory on a site of a copy's chunks. -/
def State.gatherStations (s : State) (n : Nat) (h : HoistTable) (l : Layer) (trn : Bool) : List StRef :=
  (s.stationsOf n).filter fun r => r.survey.hoistFed r.st && (h.chunksOf l trn).any fun c => c.site == r.st.site

/-- The tile that a station has issued or would issue next. -/
def State.nextTile (s : State) (r : StRef) : Option (Firing × Entry × Issue) :=
  match (match (s.run r.dev).issue with
    | some i => (s.issued r i).map fun f => (f, some i)
    | none => (firstFiring (s.firings r)).map fun f => (f, none)) with
  | none => none
  | some (f, i) => (r.st.ents[f.entry]?).map fun e => (f, e, i.getD (s.issueOf r e f))
/-- The tile reads chunks of a copy. -/
def State.readsCopy (s : State) (r : StRef) (l : Layer) (trn : Bool) (e : Entry) (i : Issue) : Bool :=
  match r.tmpl e, r.desc e with
  | some t, some d => (s.stagedReads r t d (s.walkTile r e d i)).any fun c =>
      decide ((l.chunkRange trn).1 ≤ c.1) && decide (c.1 < (l.chunkRange trn).1 + (l.chunkRange trn).2)
  | _, _ => false
/-- ERROR tokens for the tiles that a station would have taken from a copy: those of the walks that its tokens have begun or call for (R197, 05
R116). -/
def State.missTiles : Nat → State → StRef → Layer → Bool → State
  | 0, s, _, _, _ => s
  | k + 1, s, r, l, trn => match s.nextTile r with
    | none => s
    | some (f, e, i) =>
      if s.readsCopy r l trn e i then
        ((s.outputAll r e f.tag (i.count % 256) .error f.step).fired r e f i 0x08).missTiles k r l trn
      else s
/-- A gather has failed: its stations get those tokens. -/
def State.gatherError (s : State) (q : GatherReq) (h : HoistTable) (l : Layer) : State :=
  (s.gatherStations q.slot h l q.transposed).foldl (fun (s : State) r => s.missTiles 65536 r l q.transposed) s

/-- A request that fails is a fault of the requester's job: VERSION_MISMATCH for status 3, REMOTE_ERROR from a peer. -/
def State.gatherFail (s : State) (q : GatherReq) (h : HoistTable) (l : Layer) (status found : Nat) : State :=
  let n : Fin 8 := Fin.ofNat 8 q.slot
  let s1 := s.gatherError q h l
  let s2 :=
    if status = 3 then
      let asked := (s.gatherStations q.slot h l q.transposed).find? fun r =>
        match s.nextTile r with | some x => s.readsCopy r l q.transposed x.2.1 x.2.2 | none => false
      (s1.bump (hoistBase (h.levelOf l q.transposed (l.shardOfRow q.row)) q.slot + 0x38)).jobFaultWith n 0x0022 0x0B
        (genPayload (match asked, s.gatherStations q.slot h l q.transposed with | some r, _ => r.dev | none, r :: _ => r.dev | none, [] => 0) 0
          q.layer (l.shardOfRow q.row) (q.version + 2 ^ 32 * found))
    else s1
  match q.peer with
  | some a => s2.remoteError n a status
  | none => if status = 3 ∨ (s2.slot q.slot).stopped then s2 else s2.remoteError n s.myAddr status

/-- A holder keeps what it receives of its piece, in the HOIST_OVF region (R189). -/
def State.retain (s : State) (q : GatherReq) (h : HoistTable) (shard : Nat) (data : List Byte) : State :=
  let is (r : Retained) : Bool := r.slot == q.slot && r.layer == q.layer && r.shard == shard && r.version == q.version
  if q.fwdOnly ∧ h.nd = 1 then s
  else
    let x := (s.flow.retained.find? is).getD
      { slot := q.slot, layer := q.layer, shard := shard, version := q.version, fwd := .empty, trn := .empty, done := [], fetched := []
        revoked := false }
    let d := if q.transposed then x.trn else x.fwd
    let w := s.ovfPut q.slot { d with rest := d.rest ++ data } []
    let y := if q.transposed then { x with trn := w.2 } else { x with fwd := w.2 }
    { w.1 with flow := { w.1.flow with retained := w.1.flow.retained.filter (fun r => !is r) ++ [y] } }

def State.dropReq (s : State) (q : GatherReq) : State :=
  { s with flow := { s.flow with reqs := s.flow.reqs.filter fun x => !(x.num == q.num && x.slot == q.slot) } }

/-- Data of a request comes, in order: it is passed on to the device that asked, or kept where this device is the holder and taken toward its
chunks. With the last of it the request is complete, which is progress of the slot (05 R144). -/
def State.gatherData (s : State) (q : GatherReq) (data : List Byte) : State :=
  match s.layer q.slot q.layer with
  | none => s.dropReq q
  | some (h, l) =>
    let q1 : GatherReq := { q with got := q.got + data.length }
    let s0 : State := { s with flow := { s.flow with reqs := s.flow.reqs.map fun x => if x = q then q1 else x } }
    let done := decide (l.pieceBytes q.transposed q.row q.rows ≤ q1.got)
    let s1 := if done then s0.dropReq q1 else s0
    match q.relay with
    | some (a, num, rslot) => s1.sendRsp a (s.fjobOf q.slot) rslot num q.got data
    | none =>
      if (s.slot q.slot).stopped then s1
      else
        let shard := l.shardOfRow q.row
        let s2 := if q.kind = .forward then s1.retain q h shard data else s1
        let c : CopyId := { slot := q.slot, layer := q.layer, transposed := q.transposed, regather := q.kind == .regather }
        let s3 := match s2.pieceOf c shard with
          | some p => ((s2.setPiece { p with data := { p.data with rest := p.data.rest ++ data } }).pumpStage).spillPieces q.slot
          | none => s2
        if done then s3.progress q.slot else s3

/-- A request ends with a status other than OK: passed on to the device that asked, or failed. -/
def State.gatherEnd (s : State) (q : GatherReq) (status found : Nat) : State :=
  let s1 := s.dropReq q
  match q.relay, s.layer q.slot q.layer with
  | some (a, num, rslot), _ => s1.sendRspPart a (s.fjobOf q.slot) rslot num status found []
  | none, none => s1
  | none, some (h, l) => s1.gatherFail q h l status found

/-- Answer a read: to this device's own Hoist, or with GATHER_RSP. -/
def State.answer (s : State) (r : GatherRead) (status found : Nat) (data : List Byte) : State :=
  match r.peer with
  | some a => if status ≠ 0 then s.sendRspPart a r.fjob r.rslot r.num status found [] else s.sendRsp a r.fjob r.rslot r.num 0 data
  | none => match s.flow.reqs.find? fun q => q.num == r.num && q.slot == r.rslot with
    | some q => if status ≠ 0 then s.gatherEnd q status found else s.gatherData q data
    | none => s

/-- GATHER_RSP_RECEIVE: data is taken in order; a complete response, or a status, ends the request. -/
def onGatherRspReceive (s : State) : State :=
  match s.nextRx fun k => k.ptype == .gatherRsp with
  | none => s
  | some x =>
    let k := x.pkt
    if !s.jobsRun then s
    else
      let s1 := s.deliver x
      match s1.flow.reqs.find? fun q => q.num == leAt k.payload 0 2 && q.slot == k.rslot && q.peer == some k.src &&
          s1.fjobOf q.slot == k.fjob with
      | none => s1
      | some q => match s1.layer q.slot q.layer with
        | none => s1
        | some (h, l) =>
          if k.status ≠ 0 then s1.gatherEnd q k.status (leAt k.payload 4 4)
          else if leAt k.payload 4 4 ≠ q.got then s1
          else
            let bs := k.payload.drop 8
            let near := (s1.nodeIndex h q.peer).isSome
            (s1.countLevels q.slot (if near then 0x08 else 0x00) (h.levels l q.transposed (l.shardOfRow q.row) q.got bs.length)).gatherData q bs

/-- The answer to `GATHER_RSP_RECEIVE`. -/
def execGatherRspReceive (s : State) : Answer := .next (onGatherRspReceive s)

/-! ### The owner's side: short copies (R190, 09 R230 to R232) -/

/-- Version and master value of each parameter of the rows, row by row. -/
def State.masters (s : State) (l : Layer) (u : Rule) (row0 row rows : Nat) : List (Nat × Word) :=
  (List.range (rows * l.cols)).map fun k =>
    let i := (row - row0) * l.cols + k
    ((s.tail (l.granAddr (i / recsPer u.rec8))).version, wordAt (s.hbmBytes (l.recAddr u.rec8 i) 4) 0)

/-- Scales of the blocks of rows in an order, in block order. -/
def Layer.blockScales (l : Layer) (trn : Bool) (rows : Nat) (vals : List (Nat × Word)) : List BlockScale :=
  let bl := blockLen l.scheme
  let outer := if trn then l.cols else rows
  let inner := if trn then rows else l.cols
  let at_ (a b : Nat) : Val := rd ((vals.getD (if trn then b * l.cols + a else a * l.cols + b) (0, 0)).2)
  ((List.range outer).map fun a => (List.range (ceilDiv inner bl)).map fun k =>
    let amax := amaxOf ((List.range (min bl (inner - k * bl))).map fun i => at_ a (k * bl + i))
    if l.scheme = 1 then schemeAScale l.sfmt amax else schemeBScale l.sfmt (if trn then l.s2t else l.s2f) amax).flatten

/-- The converted elements of rows in row order, each with what the Canary counts (R190, R191, 09 R230, R231). -/
def Layer.convert (l : Layer) (trn : Bool) (row rows : Nat) (vals : List (Nat × Word)) : List (Nat × Mark) × List BlockScale :=
  let bl := blockLen l.scheme
  let sc := if l.scheme = 0 then [] else l.blockScales trn rows vals
  let nb := ceilDiv (if trn then rows else l.cols) bl
  (vals.zipIdx.map fun x =>
    let i := x.2 / l.cols
    let c := x.2 % l.cols
    let rnd := rndOf l.conv l.seed x.1.1 (row + i) c
    if l.scheme = 0 then writeElem l.sfmt rnd (rd x.1.2)
    else writeScaled l.sfmt rnd (sc.getD (if trn then c * nb + i / bl else i * nb + c / bl) { code := 0, divisor := .nan, zeroed := false }) (rd x.1.2), sc)

/-- The bytes of converted rows in an order: each row's elements and first-order scales, then the second-order scales of the groups that begin
among the rows (02 R41). -/
def Layer.copyBytes (l : Layer) (trn : Bool) (row rows : Nat) (codes : List Nat) (sc : List BlockScale) : List Byte :=
  let outer := if trn then l.cols else rows
  let inner := if trn then rows else l.cols
  let nb := if l.scheme = 0 then 0 else ceilDiv inner (blockLen l.scheme)
  ((List.range outer).map fun a =>
    packElems l.sfmt ((List.range inner).map fun b => codes.getD (if trn then b * l.cols + a else a * l.cols + b) 0) ++
    (List.range nb).map fun k => BitVec.ofNat 8 (sc.getD (a * nb + k) { code := 0, divisor := .nan, zeroed := false }).code).flatten ++
  (List.replicate (l.groups trn row rows) (leBytes 4 (if trn then l.s2t else l.s2f).toNat)).flatten

/-- Emit the short copy of rows and answer the read; each granule's counts enter the rule slot's Canary. -/
def State.emitCopy (s : State) (r : GatherRead) (h : HoistTable) (l : Layer) (u : Rule) (vals : List (Nat × Word)) : State :=
  let x := l.convert r.transposed r.row r.rows vals
  let first := (r.row - l.row0 h.shard) * l.cols
  let s1 := (l.rowGrans u.rec8 (l.row0 h.shard) r.row r.rows).foldl (fun (s : State) g =>
    let ms := (x.1.zipIdx.filter fun y => (first + y.2) / recsPer u.rec8 == g).map (·.1.2)
    (s.bumpMill (chanOf (l.granAddr g)) 0x40 ms.length).ruleCanary r.slot l u (marksOf ms)) s
  s1.answer r 0 0 (l.copyBytes r.transposed r.row r.rows (x.1.map (·.1)) x.2)

/-- An owner opens a lease when it serves a forward gather (R193, R200, R206). -/
def State.openLease (s : State) (r : GatherRead) (h : HoistTable) (l : Layer) : State :=
  let holder := r.peer.getD s.myAddr
  if r.kind ≠ .forward ∨ r.fwdOnly ∨ l.frozen ∨ s.flow.leases.any (fun x => x.is r.slot r.layer h.shard r.version holder) then s
  else
    let x : Lease := { slot := r.slot, layer := r.layer, shard := h.shard, version := r.version, holder := holder
                       expiry := s.deadline (2 ^ s.rf (jobBase r.slot + 0x38) 3 5), expired := false }
    ({ s with flow := { s.flow with leases := s.flow.leases ++ [x] } } : State).bump
      (hoistBase (chanOf (l.granAddr 0) / 192) r.slot + 0x20)

/-- Rows, order and layer of a read lie in the owner's table (14 Table 14-6). A transposed read covers whole blocks. -/
def GatherRead.ownRows (r : GatherRead) (h : HoistTable) (l : Layer) : Bool :=
  let lo := l.row0 h.shard
  let hi := lo + l.rowsIn h.shard
  0 < r.rows && lo ≤ r.row && r.row + r.rows ≤ hi &&
  (!r.transposed || (l.scheme != 0 && r.row % 32 == 0 && (r.rows % 32 == 0 || r.row + r.rows == hi)))

/-- First granule of a list with a property. -/
def State.badTail (s : State) (l : Layer) (gs : List Nat) (p : Tail → Bool) : Option Nat := gs.find? fun g => p (s.tail (l.granAddr g))

/-- Uncorrectable line that reading the tails of granules meets (R250); an open tail is not read from memory. -/
def State.tailUe (s : State) (l : Layer) (gs : List Nat) : Option Nat :=
  gs.findSome? fun g => if s.tailOpen (l.granAddr g) then none else s.firstUe (l.granAddr g + 4032) 64
/-- Uncorrectable line among the record lines of rows. -/
def State.recordUe (s : State) (l : Layer) (rec8 : Bool) (row0 row rows : Nat) (gs : List Nat) : Option Nat :=
  let i0 := (row - row0) * l.cols
  let i1 := (row + rows - row0) * l.cols
  let n := recsPer rec8
  gs.findSome? fun g =>
    let lo := max i0 (g * n)
    s.firstUe (l.recAddr rec8 lo) (recSize rec8 * (min i1 ((g + 1) * n) - lo))

/-- Account for the lines a gather read takes. -/
def State.gatherLines (s : State) (l : Layer) (rec8 : Bool) (row0 row rows : Nat) (gs : List Nat) : State :=
  let i0 := (row - row0) * l.cols
  let i1 := (row + rows - row0) * l.cols
  let n := recsPer rec8
  gs.foldl (fun (s : State) g =>
    let a := l.granAddr g
    let s1 := if s.tailOpen a then s else s.hbmRead (a + 4032) 64
    let lo := max i0 (g * n)
    s1.hbmRead (l.recAddr rec8 lo) (recSize rec8 * (min i1 ((g + 1) * n) - lo))) s

/-- The owner's Mills serve a read whose rows are theirs; none where it waits (01 R18; 09 R226, R229). -/
def State.ownerServe (s : State) (r : GatherRead) : Option State :=
  match s.layer r.slot r.layer, (s.layer r.slot r.layer).bind fun x => s.ruleOf r.slot x.2 with
  | some (h, l), some u =>
    if !r.ownRows h l then some (s.answer r 4 0 [])
    else
      let row0 := l.row0 h.shard
      let gs := l.rowGrans u.rec8 row0 r.row r.rows
      let found (p : Tail → Bool) : Option Nat := (s.badTail l gs p).map fun g => (s.tail (l.granAddr g)).version
      let busy (t : Tail) : Bool := t.pend != t.version
      if (s.slot r.slot).stopped then
        some (match found busy with | some v => s.answer r 3 v [] | none => s.answer r 1 0 [])
      else match gs.findSome? fun g => (s.sealedAgainst r.slot (l.granAddr g) 4096).map fun k => (k, l.granAddr g) with
        | some (k, a) => some ((s.sealStop r.slot k a).answer r 5 0 [])
        | none => match s.tailUe l gs with
          | some line => some ((s.hbmUe line 1).answer r 2 0 [])
          | none => match s.badTail l gs fun t => t.rec8 != u.rec8 with
            | some g => some ((s.runInvalid (chanOf (l.granAddr g)) r.slot r.layer g 6).answer r 4 0 [])
            | none =>
              if !r.latest ∧ (found busy).isSome then none
              else
                let exact := !r.latest && !l.frozen
                match if exact then found fun t => verDist r.version t.version < 0 else none with
                | some v => some (s.answer r 3 v [])
                | none =>
                  if exact ∧ (found fun t => 0 < verDist r.version t.version).isSome then none
                  else match s.recordUe l u.rec8 row0 r.row r.rows gs with
                  | some line => some ((s.hbmUe line 1).answer r 2 0 [])
                  | none =>
                    let s1 := gs.foldl (fun (s : State) g =>
                      if busy (s.tail (l.granAddr g)) then s.bumpMill (chanOf (l.granAddr g)) 0x50 else s)
                      ((s.gatherLines l u.rec8 row0 r.row r.rows gs).openLease r h l)
                    let vals := s.masters l u row0 r.row r.rows
                    if l.scheme = 0 then some (s1.emitCopy r h l u vals)
                    else some { s1 with flow := { s1.flow with reads := s1.flow.reads ++ [{ r with awaiting := some vals, blocks := 0 }] } }
  | some _, none => some (s.answer r 4 0 [])
  | none, _ => some (s.answer r (if s.loaded r.slot ∧ !(s.slot r.slot).stopped then 4 else 1) 0 [])

/-! ### The holder's side (R189, R194, R197) -/

/-- A retained piece is spent: every device of the node has done its re-gathers, or for a forward-only slot its fetch. -/
def Retained.spent (x : Retained) (h : HoistTable) (l : Layer) (fwdOnly : Bool) : Bool :=
  (List.range h.nd).all fun j =>
    if fwdOnly then j == h.myDev || x.fetched.contains j else l.rgCount ≤ (x.done.filter (· == j)).length

/-- Note a fetch or re-gather, and let a spent piece go. -/
def State.noteServed (s : State) (x : Retained) (r : GatherRead) (h : HoistTable) (l : Layer) : State :=
  if r.transposed ≠ l.lastOrder then s
  else match s.nodeIndex h r.peer with
    | none => s
    | some j =>
      let y := if r.kind = .regather then { x with done := x.done ++ [j] } else { x with fetched := x.fetched ++ [j] }
      let s1 : State := { s with flow := { s.flow with retained := s.flow.retained.map fun z => if z = x then y else z } }
      if y.spent h l (s.fwdOnly x.slot) then s1.closeRetained fun z => z == y else s1

/-- A re-gather of a revoked shard goes to the owner: this device's own request again, or another's passed on. -/
def State.passOn (s : State) (r : GatherRead) (slot owner : Nat) : State :=
  let s1 : State := match r.peer with
    | some _ => s
    | none => { s with flow := { s.flow with reqs := s.flow.reqs.filter fun q => !(q.num == r.num && q.slot == r.rslot) } }
  s1.ask { num := 0, slot := if r.peer.isNone then r.rslot else slot, layer := r.layer, transposed := r.transposed, kind := .regather
           version := r.version, row := r.row, rows := r.rows, peer := some owner, fwdOnly := r.fwdOnly, latest := r.latest, got := 0
           relay := r.peer.map fun a => (a, r.num, r.rslot) } r.bg

/-- A holder serves a fetch or re-gather from its retained copy; a revoked shard's goes to the owner; none where it waits. -/
def State.holderServe (s : State) (r : GatherRead) : Option State :=
  match s.layer r.slot r.layer with
  | none => s.ownerServe r
  | some (h, l) =>
    if (s.slot r.slot).stopped then some (s.answer r 1 0 [])
    else
      let shard := l.shardOfRow r.row
      if r.rows = 0 ∨ l.rows < r.row + r.rows ∨ shard % h.nd ≠ h.myDev ∨ l.shardOfRow (r.row + r.rows - 1) ≠ shard ∨
          (r.transposed ∧ l.scheme = 0) then some (s.answer r 4 0 [])
      else match s.flow.retained.find? fun x => s.fjobOf x.slot == r.fjob && s.fwdOnly x.slot == r.fwdOnly && x.layer == r.layer &&
          x.shard == shard && (r.latest || l.frozen || x.version == r.version) with
        | none => none
        | some x =>
          if x.revoked then
            (if shard = h.shard then s.ownerServe r
            else some (s.passOn r x.slot (h.peer (shard / h.nd) (shard % h.nd))))
          else
            let d := if r.transposed then x.trn else x.fwd
            if d.len < l.pieceBytes r.transposed (l.row0 shard) (l.rowsIn shard) then none
            else if r.transposed ∧ (r.row ≠ l.row0 shard ∨ r.rows ≠ l.rowsIn shard) then some (s.answer r 4 0 [])
            else match s.ovfStop x.slot (d.lines.map (·.line)) with
              | some t => some (t.answer r 2 0 [])
              | none =>
                let s1 := d.lines.foldl (fun (s : State) y => s.touchLine false y.line) s
                let bs := s.ovfBytes d
                let part := slice bs ((r.row - l.row0 shard) * l.lineBytes l.cols) (l.bodyBytes false r.rows) ++
                  slice bs (l.bodyBytes false (l.rowsIn shard) + 4 * l.groups false (l.row0 shard) (r.row - l.row0 shard)) (4 * l.groups false r.row r.rows)
                some ((s1.answer r 0 0 (if r.transposed then bs else part)).noteServed x r h l)

/-! ### Serving reads (R207, 09 R229, R230) -/

/-- A re-gather of a device of this node, and every holder fetch, is for the holder; the rest is for the owner. -/
def State.forHolder (s : State) (r : GatherRead) : Bool :=
  match r.kind with
  | .forward => false
  | .holder => true
  | .regather => match s.layer r.slot r.layer with | some (h, _) => (s.nodeIndex h r.peer).isSome | none => false

/-- Serve one read, taken out of the queue; none where it waits. -/
def State.serve (s : State) (r : GatherRead) : Option State :=
  let s1 : State := { s with flow := { s.flow with reads := s.flow.reads.erase r } }
  if s.forHolder r then s1.holderServe r else s1.ownerServe r

/-- Level of the Hoist that serves a read: that of the Mill with the first record of the layer's shard here (log entry 17). -/
def State.readLevel (s : State) (r : GatherRead) : Nat :=
  match s.layer r.slot r.layer with | some x => chanOf (x.2.granAddr 0) / 192 | none => 0

/-- A background read is due: none has been served at the Hoist in the 15 XCLK cycles in which this one has waited (R207). -/
def State.bgDue (s : State) (level : Nat) (bg : List GatherRead) : Bool :=
  match bg with
  | r :: _ => decide (max r.since (tblGet (fun _ => 0) s.flow.bgServed level) + nsRoot 15 ≤ s.clk.root)
  | [] => false

/-- GATHER_READ_SERVE at a Hoist: the oldest read that can be served is. Background reads wait while one of a normal slot is queued,
but for one in at least one cycle in 16. `err` is what the controllers find in the lines it reads. -/
def onGatherReadServe (level : Fin 4) (err : HbmErrors) (s : State) : State :=
  if !s.live then s
  else
    let all := s.flow.reads.filter fun r => r.awaiting.isNone && s.readLevel r == level.val
    let bg := all.filter (·.bg)
    let normal := all.filter fun r => !r.bg
    let s1 := s.foundErrors err
    match ((if s.bgDue level.val bg then bg else []) ++ (if normal.isEmpty then bg else normal)).findSome? fun r =>
        (s1.serve r).map fun t => (r.bg, t) with
    | some (b, t) => if b then { t with flow := { t.flow with bgServed := tblSet (fun _ => 0) t.flow.bgServed level.val s.clk.root } } else t
    | none => s

/-- The answer to `GATHER_READ_SERVE`. -/
def execGatherReadServe (level : Fin 4) (err : HbmErrors) (s : State) : Answer := .next (onGatherReadServe level err s)

/-- AMAX_EXCHANGE: of the oldest read whose values wait for their block scales, the blocks whose values the Mills hold are converted; with the
last of them the read is answered (09 R231). -/
def onAmaxExchange (s : State) : State :=
  match s.flow.reads.find? fun r => r.awaiting.isSome with
  | none => s
  | some r =>
    let s1 : State := { s with flow := { s.flow with reads := s.flow.reads.erase r } }
    if !s.live then s
    else match r.awaiting, s.layer r.slot r.layer, (s.layer r.slot r.layer).bind fun x => s.ruleOf r.slot x.2 with
      | some vals, some (h, l), some u =>
        let n := r.blocks + max 1 (r.heldBlocks h l u (r.blockCount l - r.blocks) r.blocks [])
        if n < r.blockCount l then { s1 with flow := { s1.flow with reads := { r with blocks := n } :: s1.flow.reads } }
        else s1.emitCopy r h l u vals
      | _, _, _ => s1.answer r 1 0 []

/-- The answer to `AMAX_EXCHANGE`. -/
def execAmaxExchange (s : State) : Answer := .next (onAmaxExchange s)

/-- GATHER_REQ_RECEIVE: queued at the slot that carries its job, or answered with ERROR JOB_ABSENT (14 R357, R358). -/
def onGatherReqReceive (s : State) : State :=
  match s.nextRx fun k => k.ptype == .gatherReq with
  | none => s
  | some x =>
    if !s.jobsRun then s
    else
      let s1 := s.deliver x
      match s.jobSlot x.pkt.fjob with
      | none => s1.sendError x.pkt 1
      | some n => { s1 with flow := { s1.flow with reads := s1.flow.reads ++ [x.pkt.gatherRead n.val s.clk.root] } }

/-- The answer to `GATHER_REQ_RECEIVE`. -/
def execGatherReqReceive (s : State) : Answer := .next (onGatherReqReceive s)

/-! ### Lease messages (R193, R194, R196) -/

/-- LEASE_EXPIRY: the first lease whose expiry time has passed is marked expired. -/
def onLeaseExpiry (s : State) : State :=
  match s.flow.leases.find? fun l => !l.expired && s.passed l.expiry with
  | none => s
  | some l =>
    let g := match s.layer l.slot l.layer with | some x => chanOf (x.2.granAddr 0) / 192 | none => 0
    let f (x : Lease) : Lease := if x = l then { x with expired := true } else x
    ({ s with flow := { s.flow with leases := s.flow.leases.map f } } : State).bump (hoistBase g l.slot + 0x28)

/-- The answer to `LEASE_EXPIRY`. -/
def execLeaseExpiry (s : State) : Answer := .next (onLeaseExpiry s)

def Packet.isLease (k : Packet) (op : Nat) : Bool := k.ptype == .lease && byteAt k.payload 0 == op

/-- LEASE_CLOSE: the sender's lease on the shard's version closes at this owner. -/
def onLeaseClose (s : State) : State :=
  match s.nextRx fun k => k.isLease 0 with
  | none => s
  | some x =>
    if !s.jobsRun then s
    else
      let b := x.pkt.payload
      match s.jobSlot x.pkt.fjob with
      | none => s.deliver x
      | some n => (s.deliver x).closeLease fun l => l.is n.val (leAt b 2 2) (leAt b 4 4) (leAt b 8 4) x.pkt.src

/-- The answer to `LEASE_CLOSE`. -/
def execLeaseClose (s : State) : Answer := .next (onLeaseClose s)

/-- LEASE_REVOKE: this holder drops its copy of the shard and marks it revoked. -/
def onLeaseRevoke (s : State) : State :=
  match s.nextRx fun k => k.isLease 1 with
  | none => s
  | some x =>
    if !s.jobsRun then s
    else
      let b := x.pkt.payload
      (s.deliver x).revoke fun r => s.fjobOf r.slot == x.pkt.fjob && r.layer == leAt b 2 2 && r.shard == leAt b 4 4 && r.version == leAt b 8 4

/-- The answer to `LEASE_REVOKE`. -/
def execLeaseRevoke (s : State) : Answer := .next (onLeaseRevoke s)

/-- HOIST_TABLE_CHECK_COMPLETE of a slot: the table is accepted or refused (R186). A sealed region that the slot may not use, or an
uncorrectable line, among what is read ends the check with the fault of 10 R246 or R250, and no table is accepted. -/
def onHoistTableCheckComplete (n : Fin 8) (err : HbmErrors) (s : State) : State :=
  if !(s.slot n.val).checking ∨ !s.live then s
  else
    let s1 := s.foundErrors err
    let none_ (s : State) : State := (s.setSlot n.val { s.slot n.val with checking := false, hoist := none }).setRf (jobBase n.val + 0x38) 0 1 0
    let xs := s1.tableSpans n.val
    match s1.spansSealed n.val xs, s1.spansUe xs with
    | some k, _ => (none_ s1).sealStop n.val k.1 k.2
    | none, some l => (none_ s1).hbmUe l 2
    | none, none => (s1.spansRead xs).endTableCheck n.val

/-- The answer to `HOIST_TABLE_CHECK_COMPLETE`. -/
def execHoistTableCheckComplete (n : Fin 8) (err : HbmErrors) (s : State) : Answer := .next (onHoistTableCheckComplete n err s)

end Sys2Proof.Machine
end

