-- ==== Sys2Proof/Machine/Manager.lean ====
section
/-! DEFINITION. The fabric manager's work and what follows from it: neighbours, the election, members and addresses, epoch
changes, departures (14 R339 to R342, R346 to R350, R352; 17 R425, R433). -/
namespace Sys2Proof.Machine

def ownUid : Nat := Config.unitId.toNat

/-! ### Sequence state and jobs of a peer (R349, R352; 17 R433) -/

/-- Both directions of every channel with an address start again at 0; retained and held packets go. -/
def State.resetPeer (s : State) (peer : Nat) : State :=
  let inPeer (e : Nat) : Bool := e / 256 == peer
  { s with fab := { s.fab with
    tx := s.fab.tx.filter fun e => !inPeer e.1
    rx := s.fab.rx.filter fun e => !inPeer e.1
    rxq := s.fab.rxq.filter fun r => !(r.pkt.sequenced && s.isMine r.pkt && r.pkt.src == peer) } }

/-- Jobs whose peer table names an address. -/
def State.jobsOf (s : State) (peer : Nat) : List (Fin 8) :=
  (List.finRange 8).filter fun n => match (s.slot n.val).hoist with
    | some h => s.loaded n.val && h.peers.contains peer
    | none => false

/-- PEER_LOST and PEER_NEW of an address: sequence state toward it is reset, and the jobs that name it stop with
FABRIC_PEER_LOST, which fails their barriers. -/
def State.peerGone (s : State) (peer : Nat) : State :=
  (s.jobsOf peer).foldl (fun s n => s.jobFault n 0x0056 peer 0 0 0 0) (s.resetPeer peer)

/-! ### The election (R340) -/

/-- Rank of candidates: designation first, then the lower unit ID. -/
def outranks (a b : Bool × Nat) : Bool := (a.1 && !b.1) || (a.1 == b.1 && a.2 < b.2)
def higher (a b : Option (Bool × Nat)) : Option (Bool × Nat) :=
  match a, b with
  | some x, some y => if outranks y x then some y else some x
  | some x, none => some x
  | none, y => y

def State.helloPeriod (s : State) : Nat := msRoot (s.rf 0xC000 13 7)
/-- The last HELLO of a neighbour is no older than three periods. -/
def State.recent (s : State) (x : Neighbour) : Bool := s.clk.root < x.heard + 3 * s.helloPeriod
/-- Neighbours by port. -/
def State.neighbours (s : State) : List (Nat × Neighbour) :=
  ((List.range 12).map fun p => (s.port p).neigh.map fun x => (p, x)).flatten

def State.eligible (s : State) : Bool := s.rfBit 0xC000 0
def State.designated (s : State) : Bool := s.rfBit 0xC000 1
/-- The highest-ranked of this device, if eligible, and of every candidate heard within three periods. -/
def State.bestNow (s : State) : Option (Bool × Nat) :=
  s.neighbours.foldl (fun b x => if s.recent x.2 then higher b x.2.best else b)
    (if s.eligible then some (s.designated, ownUid) else none)

/-- A change of the best candidate begins the wait of R340 anew. -/
def State.reviewElection (s : State) : State :=
  if s.bestNow = s.fab.best then s
  else { s with fab := { s.fab with best := s.bestNow, bestSince := s.clk.root, settled := false, mgr := none } }

/-! ### What the manager knows (R342) -/

/-- This device's neighbours by port and unit ID. -/
def State.ownLinks (s : State) : List (Nat × Nat) := s.neighbours.map fun x => (x.1, x.2.uid)
/-- Report the neighbours to the manager (R349). -/
def State.reportLinks (s : State) : State := s.toMgr (.neighbours ownUid s.ownLinks)

def State.member (s : State) (uid : Nat) : Option Member := s.fab.members.find? fun m => m.uid == uid
/-- A present device holds the address. -/
def State.memberAt (s : State) (a : Nat) : Bool := s.fab.members.any fun m => m.present && m.addr == some a
def State.setMember (s : State) (m : Member) : State :=
  if (s.member m.uid).isSome
  then { s with fab := { s.fab with members := s.fab.members.map fun x => if x.uid = m.uid then m else x } }
  else { s with fab := { s.fab with members := s.fab.members ++ [m] } }

/-- Two devices are joined: by the report of either, and by this device's own list for its own links. -/
def State.joined (s : State) (u v : Nat) : Bool :=
  let lists (a b : Nat) : Bool := match s.member a with | some m => m.links.any fun l => l.2 == b | none => false
  if u = ownUid then s.ownLinks.any fun l => l.2 == v
  else if v = ownUid then s.ownLinks.any fun l => l.2 == u
  else lists u v || lists v u

/-- Unit IDs of the present devices that the manager reaches. -/
def State.reachable (s : State) : List Nat :=
  (List.range s.fab.members.length).foldl (fun (seen : List Nat) _ =>
    seen ++ ((s.fab.members.filter fun m => m.present && !seen.contains m.uid && seen.any fun u => s.joined u m.uid).map (·.uid))) [ownUid]

/-! ### Addresses (R342) -/

/-- No present device but the unit itself holds the address. -/
def State.addrFree (s : State) (uid a : Nat) : Bool := !s.fab.members.any fun m => m.present && m.uid != uid && m.addr == some a
/-- The lowest address neither held nor remembered for another unit. -/
def State.addrLowest (s : State) (uid : Nat) : Option Nat :=
  (List.range 1024).find? fun a => !s.fab.members.any fun m => m.uid != uid && m.addr == some a

/-- Give a unit its address: it is present from now on. -/
def State.giveAddr (s : State) (r : Report) (a : Nat) : State :=
  match s.member r.uid with
  | none => s
  | some m =>
    let s1 := s.setMember { m with addr := some a, present := true }
    let s2 : State := if r.uid = ownUid then { s1 with fab := { s1.fab with addr := some a, mgrAddr := some a } } else s1
    if r.held.map (·.val) = some a then s2 else s2.emit (.fab (.mgmt none (.assign r.uid a)))

/-- The address a unit held before: the one remembered for it, else the one it reports. -/
def State.addrBefore (s : State) (r : Report) : Option Nat :=
  match s.member r.uid with
  | some m => (match m.addr with | some a => some a | none => r.held.map (·.val))
  | none => r.held.map (·.val)

/-- Assign in the order of R342: addresses held before, then requests by unit ID, then the lowest free ones by unit ID. -/
def State.assignAll (s : State) (rs : List Report) : State :=
  let pass (want : State → Report → Option Nat) (st : State × List Report) : State × List Report :=
    st.2.foldl (fun (st : State × List Report) r => match want st.1 r with
      | some a => (st.1.giveAddr r a, st.2)
      | none => (st.1, st.2 ++ [r])) (st.1, [])
  let keep (s : State) (r : Report) : Option Nat := (s.addrBefore r).filter fun a => s.addrFree r.uid a
  let ask (s : State) (r : Report) : Option Nat := (r.req.map (·.val)).filter fun a => s.addrFree r.uid a
  let low (s : State) (r : Report) : Option Nat := s.addrLowest r.uid
  (pass low (pass ask (pass keep (s, rs.insertionSort fun a b => a.uid ≤ b.uid)))).1

/-! ### Epoch changes and departures (R347, R349, R350) -/

/-- The later of two epochs, modulo 2^16. -/
def laterEpoch (a b : Nat) : Nat := if 0 < (b + 65536 - a) % 65536 ∧ (b + 65536 - a) % 65536 < 32768 then b else a

/-- Links between present devices by address, and the addresses transit must avoid: what the tables are computed from. -/
def State.linkMap (s : State) : List (Nat × Nat × Nat) :=
  (s.fab.members.map fun m => (if m.uid = ownUid then s.ownLinks else m.links).filterMap fun l =>
    match m.addr, s.member l.2 with
    | some a, some x => if m.present && x.present then x.addr.map fun b => (a, l.1, b) else none
    | _, _ => none).flatten
def State.noTransit (s : State) : List Nat := s.fab.members.filterMap fun m => if m.transit then none else m.addr

/-- Begin the change to an epoch: every present device gets its table, this one loads its own. -/
def State.moveTo (s : State) (e : Nat) : State :=
  let table (a : Nat) : List (Nat × Word) := Config.routeTable e a s.linkMap s.noTransit
  let s1 := s.fab.members.foldl (fun (s : State) m => match m.addr with
    | some a => if m.present && m.uid != ownUid then s.emit (.fab (.mgmt (some a) (.table a e (table a)))) else s
    | none => s) s
  { s1 with fab := { s1.fab with moving := some (e, s.clk.root), shadow := some (e, table (s.fab.addr.getD 0)) } }

/-- The epoch that a change leads to: the one under way, else one past the latest of this device's and those reported. -/
def State.nextEpoch (s : State) (reported : List Nat) : Nat :=
  match s.fab.moving with
  | some m => m.1
  | none => (reported.foldl laterEpoch s.fab.epoch + 1) % 65536

/-- Present devices with the property depart: PEER_LOST names their addresses, here as everywhere. -/
def State.depart (s : State) (p : Member → Bool) : State :=
  (s.fab.members.filter fun m => m.present && m.uid != ownUid && p m).foldl (fun (s : State) m =>
    let s1 := s.setMember { m with present := false }
    match m.addr with
    | some a => (s1.emit (.fab (.mgmt none (.peerLost a)))).peerGone a
    | none => s1) s

/-- Devices lost: they depart, and the routes change around them. -/
def State.lose (s : State) (p : Member → Bool) : State :=
  let s1 := s.depart p
  s1.moveTo (s1.nextEpoch [])

/-- A link change at the manager itself: devices it no longer reaches depart, and the epoch changes (R349). -/
def State.linkLost (s : State) : State :=
  if s.isMgr then let r := s.reachable; s.lose fun m => !r.contains m.uid else s.reportLinks

/-! ### Neighbours that go (R339) -/

/-- Neighbours of a port with the property are lost: their MAC addresses go, the election and the routes follow. -/
def State.loseNeighbours (s : State) (p : Nat) (gone : Neighbour → Bool) : State :=
  let x := s.port p
  if !x.neigh.any gone then s
  else
    let addrs := (x.neigh.filter gone).filterMap (·.addr)
    (s.setPort p { x with neigh := x.neigh.filter fun n => !gone n
                          macs := x.macs.filter fun m => !addrs.contains m.1 }).reviewElection.linkLost

end Sys2Proof.Machine
end

