-- ==== Sys2Proof/Machine/Transport.lean ====
section
/-! DEFINITION. FMT transport: received packets, transit, acknowledgement, retransmission, rate limits, ERROR packets (14 R334,
R336, R338, R348, R352 to R358; 17 R424, R425). -/
namespace Sys2Proof.Machine

/-! ### Received packets (R336, R348, R354) -/

/-- Deliver the MGMT packets that their channel may deliver: the Headframe controller takes them at once, and their contents
are the operands of the management commands (log entry 18). -/
def State.takeMgmt : Nat → State → State
  | 0, s => s
  | n + 1, s => match s.nextRx fun k => k.ptype == .mgmt with
    | some r => takeMgmt n (s.deliver r)
    | none => s

/-- Bytes of a slice's 4 MiB reorder buffer in use: packets ahead of a gap. -/
def State.reorderUsed (s : State) (slc : Nat) : Nat :=
  s.fab.rxq.foldl (fun a r =>
    if r.port / 3 = slc ∧ r.pkt.sequenced ∧ s.isMine r.pkt ∧ r.pkt.seq ≠ (s.rxChan r.pkt.src r.pkt.chan).want
    then a + 32 + r.pkt.payload.length else a) 0

/-- Congestion seen on a packet is echoed in the channel's next ACK (R356). -/
def State.noteEcn (s : State) (k : Packet) : State :=
  if k.ecn = 3 then s.setRxChan k.src k.chan { s.rxChan k.src k.chan with ecn := true } else s

/-- A sequenced packet for this device: kept for its consumer, or acknowledged again where it is a duplicate; one ahead of a
gap waits in the reorder buffer, if there is room, and is acknowledged at once (R354). -/
def State.takeSequenced (s : State) (r : RxPacket) : State :=
  let k := r.pkt
  let c := s.rxChan k.src k.chan
  let d := (k.seq + 2 ^ 24 - c.want) % 2 ^ 24
  let keep : State := { s with fab := { s.fab with rxq := s.fab.rxq ++ [r] } }
  if 2 ^ 23 ≤ d ∨ (s.heldSeqs k.src k.chan).contains k.seq then s.sendAck k.src k.chan
  else if d = 0 then (keep.noteEcn k).takeMgmt 1024
  else if 2 ^ 22 < s.reorderUsed (r.port / 3) + 32 + k.payload.length then s.bumpFab 0x138
  else (keep.noteEcn k).sendAck k.src k.chan

/-- A packet as it comes from a port: `b` holds header and payload. -/
def State.receive (s : State) (port : Nat) (mac : List Byte) (b : List Byte) : State :=
  let k := Packet.parse b
  let r : RxPacket := { port := port, mac := mac, pkt := k }
  let keep : State := { s with fab := { s.fab with rxq := s.fab.rxq ++ [r] } }
  if badHeader b then s.bumpFab 0x100
  else if k.ptype = .hello ∨ k.ptype = .epochMark ∨ (k.ptype = .mgmt ∧ k.flood) then keep
  else if (s.tableFor k.epoch).isNone then s.bumpFab 0x118
  else if !s.isMine k then keep
  else if k.ptype = .ack then keep
  else (s.takeSequenced r).wake .fabric

/-! ### FMT_TRANSIT (R334, R343 to R345) -/

/-- The packet leaves by some port: its entry is valid and its next hop is known. -/
def State.routes (s : State) (k : Packet) : Bool :=
  match s.tableFor k.epoch with
  | none => false
  | some t =>
    let e := (tblGet (fun _ => (0 : BitVec 32)) t k.dst).toNat
    bitAt e 12 && (match hashPort k (setBitsOf (e % 4096)) with
      | none => false
      | some p => !s.isEth p || (s.port p).macs.any fun m => m.1 == bits e 14 10)

/-- A packet for another device. -/
def State.isTransit (s : State) (k : Packet) : Bool :=
  !s.isMine k && k.ptype != .hello && k.ptype != .epochMark && !(k.ptype == .mgmt && k.flood)

/-- FMT_TRANSIT: the oldest packet for another device is forwarded by the table of its epoch, or dropped; A4 drops it. -/
def onFmtTransit (s : State) : State :=
  match s.fab.rxq.find? fun r => s.isTransit r.pkt with
  | none => s
  | some r =>
    let s1 := s.dropRx r
    if !s.fabLive then s
    else if s.pwr.idle = 4 then s1.bump 0x6150
    else if s1.routes r.pkt then (s1.forward r.pkt).bumpFab 0x120
    else s1.forward r.pkt

/-- The answer to `FMT_TRANSIT`. -/
def execFmtTransit (s : State) : Answer := .next (onFmtTransit s)

/-! ### Rate limiters (R356) -/

def State.limiter (s : State) (dst : Nat) : Limiter := tblGet (fun _ => Limiter.init) s.fab.limiters dst
def State.setLimiter (s : State) (dst : Nat) (x : Limiter) : State :=
  { s with fab := { s.fab with limiters := tblSet (fun _ => Limiter.init) s.fab.limiters dst x } }

/-- An ACK with ECE cuts the destination's rate, at most once per 8 µs. -/
def State.cutRate (s : State) (dst : Nat) : State :=
  let x := s.limiter dst
  let now := s.clk.root
  if !s.rfBit 0xC014 24 then s
  else if x.cut ≠ 0 ∧ now < x.cut + usRoot 8 then s.setLimiter dst { x with rise := now }
  else s.setLimiter dst { rate := x.rate - x.rate / 2 ^ s.rf 0xC014 8 4, cut := now, rise := now }

/-- RATE_INCREASE of a destination: `INC_US` µs have passed without ECE since the last rise. -/
def onRateIncrease (dst : Fin 1024) (s : State) : State :=
  let x := s.limiter dst.val
  if !s.fabLive ∨ !s.rfBit 0xC014 24 ∨ lineRate ≤ x.rate ∨ s.clk.root < x.rise + usRoot (s.rf 0xC014 16 8) then s
  else s.setLimiter dst.val { x with rate := min lineRate (x.rate + lineRate / 2 ^ s.rf 0xC014 12 4), rise := s.clk.root }

/-- The answer to `RATE_INCREASE`. -/
def execRateIncrease (dst : Fin 1024) (s : State) : Answer := .next (onRateIncrease dst s)

/-! ### ACKs and retransmission (R353, R355) -/

/-- Send one retained packet again, stamped with the epoch now current (R347). -/
def State.resend (s : State) (peer chan : Nat) (x : Kept) : State :=
  let k := { x.pkt with epoch := s.fab.epoch }
  let y : Kept := { pkt := k, sent := s.clk.root, resent := true }
  let c := s.txChan peer chan
  ((s.setTxChan peer chan { c with kept := c.kept.map fun z => if z.pkt.seq = k.seq then y else z }).bumpFab 0x128).forward k

/-- Retained packets that an ACK covers: those up to its sequence, by distance from the oldest. -/
def acked (kept : List Kept) (ackSeq : Nat) : Nat :=
  match kept with
  | [] => 0
  | k :: _ => let d := (ackSeq + 1 + 2 ^ 24 - k.pkt.seq) % 2 ^ 24
              if d ≤ kept.length then d else 0

/-- ACK_RECEIVE: retained packets go, gaps with three later packets held are filled once per timeout, ECE cuts the rate. -/
def onAckReceive (s : State) : State :=
  match s.fab.rxq.find? fun r => s.isMine r.pkt && r.pkt.ptype == .ack with
  | none => s
  | some r =>
    if !s.fabLive then s
    else
      let k := r.pkt
      let s1 := s.dropRx r
      let c := s1.txChan k.src k.chan
      let n := acked c.kept k.ackSeq
      let c1 := { c with kept := c.kept.drop n, timeouts := if n = 0 then c.timeouts else 0, mark := if n = 0 then c.mark else s.clk.root }
      let s2 := s1.setTxChan k.src k.chan c1
      let s3 := if k.ece then (s2.bumpFab 0x150).cutRate k.src else s2
      let map := leAt k.payload 0 8
      let held (q : Nat) : Bool := let i := (q + 2 ^ 24 - (k.ackSeq + 2) % 2 ^ 24) % 2 ^ 24; decide (i < 64) && bitAt map i
      let gap (x : Kept) (later : List Kept) : Bool :=
        !held x.pkt.seq && 3 ≤ (later.filter fun y => held y.pkt.seq).length &&
        (!x.resent || x.sent + usRoot (s.rf 0xC010 0 8) ≤ s.clk.root)
      let miss := (List.range c1.kept.length).filterMap fun i => match c1.kept.drop i with | x :: l => if gap x l then some x else none | [] => none
      (miss.foldl (fun s x => s.resend k.src k.chan x) s3).pumpChan 1024 k.src k.chan

/-- The answer to `ACK_RECEIVE`. -/
def execAckReceive (s : State) : Answer := .next (onAckReceive s)

/-- ACK_DELAY_EXPIRY of a channel: 2 µs have passed since its first packet without an ACK (R354). -/
def onAckDelayExpiry (peer : Fin 1024) (chan : Fin 256) (s : State) : State :=
  match (s.rxChan peer.val chan.val).first with
  | some t => if s.fabLive ∧ t + usRoot 2 ≤ s.clk.root then s.sendAck peer.val chan.val else s
  | none => s

/-- The answer to `ACK_DELAY_EXPIRY`. -/
def execAckDelayExpiry (peer : Fin 1024) (chan : Fin 256) (s : State) : Answer := .next (onAckDelayExpiry peer chan s)

/-- The retransmission timeout of a channel has run out; each consecutive one is twice as long. -/
def State.timedOut (s : State) (c : TxChan) : Bool :=
  !c.kept.isEmpty && c.mark + usRoot (s.rf 0xC010 0 8) * 2 ^ c.timeouts ≤ s.clk.root

/-- RETRANSMIT_TIMEOUT of a channel: the oldest retained packet goes again. -/
def onRetransmitTimeout (peer : Fin 1024) (chan : Fin 256) (s : State) : State :=
  let c := s.txChan peer.val chan.val
  match c.kept with
  | [] => s
  | x :: _ =>
    if !s.fabLive ∨ !s.timedOut c ∨ s.rf 0xC010 8 4 ≤ c.timeouts + 1 then s
    else (s.setTxChan peer.val chan.val { c with timeouts := c.timeouts + 1, mark := s.clk.root }).resend peer.val chan.val x

/-- The answer to `RETRANSMIT_TIMEOUT`. -/
def execRetransmitTimeout (peer : Fin 1024) (chan : Fin 256) (s : State) : Answer := .next (onRetransmitTimeout peer chan s)

/-! ### A channel fails (R355) -/

/-- FMT_CHANNEL_FAIL of a channel: the timeout after `RETRY_MAX` − 1 others runs out; its jobs stop; a manager that holds the
peer present treats it as a departure (R355). -/
def onFmtChannelFail (peer : Fin 1024) (chan : Fin 256) (s : State) : State :=
  let c := s.txChan peer.val chan.val
  if !s.fabLive ∨ !s.timedOut c ∨ c.timeouts + 1 < s.rf 0xC010 8 4 then s
  else
    let jobs := ((c.kept.map (·.pkt.fjob)) ++ c.queue.map (·.fjob)).dedup
    let slots := if chan.val = 0 then [] else (List.finRange 8).filter fun n => s.loaded n.val && jobs.contains (s.fjobOf n.val)
    let s1 := (s.setTxChan peer.val chan.val { TxChan.init with queue := c.queue }).bumpFab 0x130
    let pay := genPayload peer.val chan.val 0 0 0
    let s2 := if slots.isEmpty then s1.raise 0x0057 .job none pay
      else slots.foldl (fun s n => s.jobFaultWith n 0x0057 stJobFault pay) s1
    let s3 := s2.pumpChan 1024 peer.val chan.val
    if s3.isMgr ∧ s3.memberAt peer.val then s3.lose fun m => m.addr == some peer.val else s3

/-- The answer to `FMT_CHANNEL_FAIL`. -/
def execFmtChannelFail (peer : Fin 1024) (chan : Fin 256) (s : State) : Answer := .next (onFmtChannelFail peer chan s)

/-! ### FMT_ERROR_RECEIVE (R358) -/

/-- The slot an ERROR packet is for: the requester's on a gather channel, else the one that carries the job. -/
def State.errorSlot (s : State) (k : Packet) : Option (Fin 8) :=
  if k.chan < 16 ∧ s.loaded k.rslot ∧ s.fjobOf k.rslot = k.fjob then some (Fin.ofNat 8 k.rslot)
  else (List.finRange 8).find? fun n => s.loaded n.val && s.fjobOf n.val == k.fjob

/-- FMT_ERROR_RECEIVE: a fault of the job concerned. Requests to that peer end, and their GATHER stations get ERROR tokens. -/
def onFmtErrorReceive (s : State) : State :=
  match s.nextRx fun k => k.ptype == .error with
  | none => s
  | some x =>
    if !s.jobsRun then s
    else
      let k := x.pkt
      let s1 := s.deliver x
      match s1.errorSlot k with
      | none => s1
      | some n =>
        let lost := if k.chan < 16 then s1.flow.reqs.filter fun q => q.slot == n.val && q.peer == some k.src else []
        let s2 := lost.foldl (fun (s : State) q => match s.layer q.slot q.layer with
          | some (h, l) => s.gatherError q h l
          | none => s) s1
        ({ s2 with flow := { s2.flow with reqs := s2.flow.reqs.filter fun q => !lost.contains q } } : State).remoteError n k.src k.status

/-- The answer to `FMT_ERROR_RECEIVE`. -/
def execFmtErrorReceive (s : State) : Answer := .next (onFmtErrorReceive s)

end Sys2Proof.Machine
end

