-- ==== Sys2Proof/Machine/Discovery.lean ====
section
/-! DEFINITION. Discovery, the fabric manager, routing epochs, joins and departures (14 R339 to R351; 12 R302, R303). -/
namespace Sys2Proof.Machine

/-! ### HELLO (R339) -/

/-- The payload of Table 14-4. -/
def State.helloPayload (s : State) (p : Nat) : List Byte :=
  leBytes 8 ownUid ++ leBytes 2 s.fab.incarn ++
  leBytes 2 (s.fab.addr.getD 0 + 2 ^ 10 * b2n s.fab.addr.isSome + 2 ^ 11 * b2n s.eligible + 2 ^ 12 * b2n s.designated) ++
  leBytes 1 (p + 16 * s.portMode p) ++
  leBytes 1 (match s.bestNow with | some b => b2n b.1 | none => 0) ++ leBytes 2 s.fab.epoch ++
  leBytes 8 (match s.bestNow with | some b => b.2 | none => 2 ^ 64 - 1)

def broadcastMac : List Byte := [0xFF, 0xFF, 0xFF, 0xFF, 0xFF, 0xFF]

/-- Give a packet of one link to its port: to the broadcast address in Ethernet mode. -/
def State.sendLink (s : State) (p : Nat) (k : Packet) : State :=
  s.outPort p (if s.isEth p then some broadcastMac else none) k

/-- HELLO_SEND of a port: its HELLO is due. -/
def onHelloSend (p : Fin 12) (s : State) : State :=
  let x := s.port p.val
  let due := match x.helloSent with | some t => decide (t + s.helloPeriod ≤ s.clk.root) | none => true
  if !s.fabLive ∨ !s.portUp p.val ∨ !due then s
  else (s.setPort p.val { x with helloSent := some s.clk.root }).sendLink p.val (s.packet .hello 0 0 (s.helloPayload p.val))

/-- The answer to `HELLO_SEND`. -/
def execHelloSend (p : Fin 12) (s : State) : Answer := .next (onHelloSend p s)

/-- The neighbour that a HELLO makes known. -/
def helloFrom (pl : List Byte) (now : Nat) : Neighbour :=
  { uid := leAt pl 0 8, incarn := leAt pl 8 2, addr := if bitAt (leAt pl 10 2) 10 then some (leAt pl 10 2 % 1024) else none
    heard := now, best := if leAt pl 16 8 = 2 ^ 64 - 1 then none else some (bitAt (byteAt pl 13) 0, leAt pl 16 8) }

/-- HELLO: the oldest one received makes its sender a known neighbour of its port; an Ethernet port's address table takes its
source address; a new or changed neighbour is reported (R339, R340, R349). -/
def onHello (s : State) : State :=
  match s.fab.rxq.find? fun r => r.pkt.ptype == .hello with
  | none => s
  | some r =>
    if !s.fabLive then s
    else
      let s1 := s.dropRx r
      let n := helloFrom r.pkt.payload s.clk.root
      let x := s1.port r.port
      let same := x.neigh.any fun y => y.uid == n.uid && y.incarn == n.incarn && y.addr == n.addr
      let macs := match n.addr with
        | some a => if s.isEth r.port then (a, r.mac) :: x.macs.filter fun m => m.1 != a else x.macs
        | none => x.macs
      let s2 := (s1.setPort r.port { x with
        neigh := if x.neigh.any fun y => y.uid == n.uid then x.neigh.map fun y => if y.uid = n.uid then n else y else x.neigh ++ [n]
        macs := macs }).reviewElection
      if same then s2 else s2.reportLinks

/-- The answer to `HELLO`. -/
def execHello (s : State) : Answer := .next (onHello s)

/-- NEIGHBOUR_TIMEOUT of a port: neighbours without a HELLO for three periods are lost (R339). -/
def onNeighbourTimeout (p : Fin 12) (s : State) : State :=
  if s.fabLive then s.loseNeighbours p.val fun n => !s.recent n else s

/-- The answer to `NEIGHBOUR_TIMEOUT`. -/
def execNeighbourTimeout (p : Fin 12) (s : State) : Answer := .next (onNeighbourTimeout p s)

/-! ### Election (R340, R350) -/

/-- ELECTION_SETTLED: the best candidate stands for 100 ms. A designated device that loses raises MANAGER_CONFLICT; the winner
asks every device for what it is. -/
def onElectionSettled (s : State) : State :=
  if !s.fabLive ∨ s.fab.settled then s
  else
    let s1 := s.reviewElection
    match s1.fab.best with
    | none => s1
    | some b =>
      if s1.clk.root < s1.fab.bestSince + msRoot 100 then s1
      else
        let won := decide (b.2 = ownUid)
        let s2 : State := { s1 with fab := { s1.fab with
          settled := true, mgr := some b.2, moving := none
          members := if won then s1.fab.members else []
          mgrAddr := if won then s1.fab.addr else s1.fab.mgrAddr } }
        if won then (s2.emit (.fab (.mgmt none .query))).chooseParent
        else if s2.designated ∧ s2.eligible then s2.ev 0x0054 .warning 0 0 b.2 0 0
        else s2

/-- The answer to `ELECTION_SETTLED`. -/
def execElectionSettled (s : State) : Answer := .next (onElectionSettled s)

/-- FABRIC_NO_MANAGER: 1 s after its first port came UP the device knows no eligible device. -/
def onFabricNoManager (s : State) : State :=
  match s.fab.firstUp with
  | none => s
  | some t =>
    if !s.fabLive ∨ s.fab.noMgrRaised ∨ s.bestNow.isSome ∨ s.clk.root < t + msRoot 1000 then s
    else ({ s with fab := { s.fab with noMgrRaised := true } } : State).ev 0x0055 .warning 0 0 0 0 0

/-- The answer to `FABRIC_NO_MANAGER`. -/
def execFabricNoManager (s : State) : Answer := .next (onFabricNoManager s)

/-- MANAGER_LOSS: the settled manager is lost; the election runs again without it, forwarding goes on by the current tables. -/
def onManagerLoss (s : State) : State :=
  match s.fab.mgr with
  | none => s
  | some m =>
    if !s.fabLive ∨ !s.fab.settled ∨ m = ownUid then s
    else
      let forget (x : PortState) : PortState := { x with neigh := x.neigh.map fun n =>
        { n with best := n.best.filter fun b => b.2 != m } }
      let s1 : State := { s with fab := { s.fab with
        ports := tblMap (fun _ => PortState.init) (fun _ x => forget x) s.fab.ports
        settled := false, mgr := none, mgrAddr := none } }
      { s1 with fab := { s1.fab with best := s1.bestNow, bestSince := s1.clk.root } }

/-- The answer to `MANAGER_LOSS`. -/
def execManagerLoss (s : State) : Answer := .next (onManagerLoss s)

/-! ### Flooded management packets (R341) -/

/-- MGMT_FLOOD: the oldest flooded packet received goes out once on every other UP port. Its payload begins with the origin's
unit ID, the message number and the target's unit ID (log entry 9). -/
def onMgmtFlood (s : State) : State :=
  match s.fab.rxq.find? fun r => r.pkt.ptype == .mgmt && r.pkt.flood with
  | none => s
  | some r =>
    if !s.fabLive then s
    else
      let s1 := s.dropRx r
      let id := (leAt r.pkt.payload 0 8, leAt r.pkt.payload 8 4)
      if id.1 = ownUid ∨ s.fab.seen.contains id then s1
      else ((upPorts s).filter fun p => p != r.port).foldl (fun (s : State) p => s.sendLink p r.pkt)
        { s1 with fab := { s1.fab with seen := id :: s1.fab.seen } }

/-- The answer to `MGMT_FLOOD`. -/
def execMgmtFlood (s : State) : Answer := .next (onMgmtFlood s)

/-! ### Addresses, tables and epochs (R342, R347) -/

/-- ADDRESS_ASSIGN: the manager at an address gives this device its own. With a new address every channel starts at 0 (R352). -/
def onAddressAssign (addr mgr : Fin 1024) (s : State) : State :=
  if !s.fabLive ∨ s.isMgr then s
  else
    let f := { s.fab with addr := some addr.val, mgrAddr := some mgr.val }
    if s.fab.addr = some addr.val then { s with fab := f } else { s with fab := { f with tx := [], rx := [] } }

/-- The answer to `ADDRESS_ASSIGN`. -/
def execAddressAssign (addr mgr : Fin 1024) (s : State) : Answer := .next (onAddressAssign addr mgr s)

/-- ROUTING_TABLE_LOAD: a table for the epoch after the current one goes into the shadow copy and is confirmed. -/
def onRoutingTableLoad (mgr : Fin 1024) (epoch : Fin 65536) (entries : List (Fin 1024 × Word)) (s : State) : State :=
  if !s.fabLive ∨ s.isMgr then s
  else
    let s1 : State := { s with fab := { s.fab with
      mgrAddr := some mgr.val, shadow := some (epoch.val, entries.map fun e => (e.1.val, e.2)) } }
    s1.toMgr (.confirm (s.fab.addr.getD 0) epoch.val)

/-- The answer to `ROUTING_TABLE_LOAD`. -/
def execRoutingTableLoad (mgr : Fin 1024) (epoch : Fin 65536) (entries : List (Fin 1024 × Word)) (s : State) : Answer :=
  .next (onRoutingTableLoad mgr epoch entries s)

/-- Send EPOCH_MARK on a port, ahead of every packet stamped with the new epoch. -/
def State.sendMark (s : State) (p : Nat) : State :=
  let k := s.packet .epochMark 0 0 (leBytes 2 s.fab.epoch)
  let x := s.port p
  (s.setPort p { x with markLeft := if s.isFd p then (x.txBytes.getD 3 []).length + k.bytes.length else 0 }).sendLink p k

/-- The table whose listed entries are given; the others are 0. -/
def tableOf (es : List (Nat × Word)) : Tbl Word := es.foldl (fun t e => tblSet (fun _ => (0 : Word)) t (e.1 % 1024) e.2) []

/-- Whole packets that stand one behind another. -/
def splitPackets : Nat → List Byte → List Packet
  | 0, _ => []
  | n + 1, b => if b.length < 32 then [] else Packet.parse b :: splitPackets n (b.drop (32 + leAt b 20 2 % 8192))

/-- The FMT packet of a frame, behind its addresses, tag and EtherType (13 R321, R337). -/
def framePacket (b : List Byte) : List Byte := b.drop (if beAt b 12 2 = 0x8100 then 18 else 14)
/-- A packet of this device, not one in transit. -/
def State.isOwn (s : State) (k : Packet) : Bool := some k.src == s.fab.addr || s.fab.addr.isNone

/-- Packets of this device that wait at a port and whose first byte has not left, in the order of its channels or queues. -/
def State.waiting (s : State) (p : Nat) : List Packet :=
  let x := s.port p
  (if s.isEth p then (x.queues.map fun q => (q.filter fun f => !f.ptp).map fun f => Packet.parse (framePacket f.bytes)).flatten
   else ((List.range 4).map fun v => splitPackets 65536 ((x.txBytes.getD v []).drop (x.txLead.getD v 0))).flatten).filter s.isOwn
/-- The port without them. -/
def State.unqueue (s : State) (p : Nat) : State :=
  let x := s.port p
  if s.isEth p then s.setPort p { x with queues := x.queues.map fun q => q.filter fun f => f.ptp || !s.isOwn (Packet.parse (framePacket f.bytes)) }
  else
    let rest (v : Nat) : List Byte :=
      let bs := x.txBytes.getD v []
      bs.take (x.txLead.getD v 0) ++ (((splitPackets 65536 (bs.drop (x.txLead.getD v 0))).filter fun k => !s.isOwn k).map Packet.bytes).flatten
    s.setPort p { x with txBytes := (List.range 4).map rest }

/-- Send a waiting packet with the epoch now current: one of a link on its port, any other by the new table. -/
def State.restamp (s : State) (p : Nat) (k : Packet) : State :=
  let k1 := { k with epoch := s.fab.epoch }
  if k.ptype = .hello ∨ k.ptype = .epochMark ∨ k.flood then s.sendLink p k1 else s.forward k1

/-- The commit: the current table becomes previous, the shadow table current; marks go out; the time parent is chosen again
(R347 step 3, 15 R375). Packets of this device that still wait whole follow the marks, stamped anew. -/
def State.commitEpoch (s0 : State) (epoch : Nat) (es : List (Nat × Word)) : State :=
  let ports := upPorts s0
  let late := (ports.map fun p => (s0.waiting p).map fun k => (p, k)).flatten
  let s := ports.foldl State.unqueue s0
  let stale (x : PortState) : PortState := { x with oldBytes := x.txBytes.map List.length }
  let s1 : State := { s with fab := { s.fab with
    prev := s.fab.cur, prevEpoch := some s.fab.epoch, cur := tableOf es, epoch := epoch, shadow := none
    committed := s.clk.root
    ports := tblMap (fun _ => PortState.init) (fun _ x => stale x) s.fab.ports } }
  (late.foldl (fun (s : State) x => s.restamp x.1 x.2) (ports.foldl State.sendMark s1)).chooseParent

/-- EPOCH_COMMIT of an epoch. At the manager: every device has confirmed it, and this one has retired its previous table; it
tells every device. -/
def onEpochCommit (epoch : Fin 65536) (s : State) : State :=
  match s.fab.shadow with
  | none => s
  | some sh =>
    if !s.fabLive ∨ sh.1 ≠ epoch.val then s
    else if !s.isMgr then s.commitEpoch sh.1 sh.2
    else if s.fab.prevEpoch.isSome ∨ s.fab.moving.map (·.1) ≠ some epoch.val then s
    else (({ s with fab := { s.fab with moving := none } } : State).emit (.fab (.mgmt none (.commit epoch.val)))).commitEpoch sh.1 sh.2

/-- The answer to `EPOCH_COMMIT`. -/
def execEpochCommit (epoch : Fin 65536) (s : State) : Answer := .next (onEpochCommit epoch s)

/-- EPOCH_MARK: the oldest one received marks its port. -/
def onEpochMark (s : State) : State :=
  match s.fab.rxq.find? fun r => r.pkt.ptype == .epochMark with
  | none => s
  | some r =>
    if !s.fabLive then s
    else
      let s1 := s.dropRx r
      s1.setPort r.port { s1.port r.port with marked := some (leAt r.pkt.payload 0 2) }

/-- The answer to `EPOCH_MARK`. -/
def execEpochMark (s : State) : Answer := .next (onEpochMark s)

/-- Routing epoch stamped in an FMT frame, behind its addresses, tag and EtherType (13 R321, R337). -/
def frameEpoch (b : List Byte) : Nat := leAt (framePacket b) 6 2

/-- A queue of the device holds a packet stamped with an epoch that is not current. -/
def State.holdsOld (s : State) : Bool :=
  (List.range 12).any (fun p =>
    let x := s.port p
    x.oldBytes.any (fun n => 0 < n) ||
    x.queues.any (fun q => q.any fun f => !f.ptp && frameEpoch f.bytes != s.fab.epoch) ||
    (match x.cut with | some f => frameEpoch f.frame != s.fab.epoch | none => false)) ||
  s.fab.rxq.any fun r => s.isTransit r.pkt && r.pkt.epoch != s.fab.epoch

/-- TABLE_RETIRE: every UP port is marked and no old packet is left, or 10 ms have passed since the commit. -/
def onTableRetire (s : State) : State :=
  match s.fab.prevEpoch with
  | none => s
  | some _ =>
    let done := ((upPorts s).all fun p => (s.port p).marked == some s.fab.epoch) && !s.holdsOld
    if !s.fabLive ∨ !(done || decide (s.fab.committed + msRoot 10 ≤ s.clk.root)) then s
    else ({ s with fab := { s.fab with prev := [], prevEpoch := none } } : State).toMgr (.retired (s.fab.addr.getD 0) s.fab.epoch)

/-- The answer to `TABLE_RETIRE`. -/
def execTableRetire (s : State) : Answer := .next (onTableRetire s)

/-- EPOCH_CONFIRM_TIMEOUT: the devices at these addresses have not confirmed for 100 ms; they are lost, and the change starts
again. -/
def onEpochConfirmTimeout (missing : List (Fin 1024)) (s : State) : State :=
  match s.fab.moving with
  | none => s
  | some m =>
    let late (x : Member) : Bool := missing.any fun a => x.addr == some a.val
    if !s.fabLive ∨ !s.isMgr ∨ s.clk.root < m.2 + msRoot 100 ∨ !(s.fab.members.any fun x => x.present && late x) then s
    else s.lose late

/-- The answer to `EPOCH_CONFIRM_TIMEOUT`. -/
def execEpochConfirmTimeout (missing : List (Fin 1024)) (s : State) : Answer := .next (onEpochConfirmTimeout missing s)

/-! ### Joins and departures (R349, R350; 17 R425, R433) -/

/-- This device's own report. -/
def State.ownReport (s : State) : Report :=
  { uid := ownUid, incarn := s.fab.incarn, held := s.fab.addr.map (Fin.ofNat 1024)
    req := if s.rfBit 0xC000 12 then some (Fin.ofNat 1024 (s.rf 0xC000 2 10)) else none
    epoch := Fin.ofNat 65536 s.fab.epoch, links := s.ownLinks, transit := s.fab.transit, wasReset := false }

/-- Take what a report says of its device. -/
def State.note (s : State) (r : Report) : State :=
  let unlist (m : Member) : Member := { m with links := m.links.filter fun l => l.2 != r.uid || r.links.any fun k => k.2 == m.uid }
  let s1 : State := { s with fab := { s.fab with members := s.fab.members.map unlist } }
  match s1.member r.uid with
  | some m => s1.setMember { m with incarn := r.incarn, links := r.links, transit := r.transit }
  | none => s1.setMember { uid := r.uid, incarn := r.incarn, addr := none, present := false, links := r.links, transit := r.transit }

/-- A unit that the manager knew has lost its sequence state: another INCARN, or a device reset (R349, 17 R433). -/
def State.renewed (s : State) (r : Report) : Bool :=
  match s.member r.uid with | some m => r.wasReset || m.incarn != r.incarn | none => r.wasReset

/-- JOIN_REPORT: reports reach the manager. Addresses are assigned, PEER_NEW names units that come back without their state,
devices no longer reached depart, and the epoch changes. -/
def onJoinReport (reports : List Report) (s : State) : State :=
  if !s.fabLive ∨ !s.isMgr then s
  else
    let rs := s.ownReport :: reports.filter fun r => r.uid != ownUid
    let back := (rs.filter s.renewed).map (·.uid)
    let s1 := (rs.foldl State.note s).assignAll rs
    let s2 := back.foldl (fun (s : State) u => match (s.member u).bind (·.addr) with
      | some a => (s.emit (.fab (.mgmt none (.peerNew a)))).peerGone a
      | none => s) s1
    let r := s2.reachable
    let s3 := s2.depart fun m => !r.contains m.uid && !(rs.any fun x => x.uid == m.uid)
    s3.moveTo (s3.nextEpoch (rs.map fun r => r.epoch.val))

/-- The answer to `JOIN_REPORT`. -/
def execJoinReport (reports : List Report) (s : State) : Answer := .next (onJoinReport reports s)

/-- PEER_NEW of an address (R349, R352; 17 R433). -/
def onPeerNew (peer : Fin 1024) (s : State) : State := if s.fabLive then s.peerGone peer.val else s

/-- The answer to `PEER_NEW`. -/
def execPeerNew (peer : Fin 1024) (s : State) : Answer := .next (onPeerNew peer s)

/-- PEER_LOST of an address (R349). -/
def onPeerLost (peer : Fin 1024) (s : State) : State := if s.fabLive then s.peerGone peer.val else s

/-- The answer to `PEER_LOST`. -/
def execPeerLost (peer : Fin 1024) (s : State) : Answer := .next (onPeerLost peer s)

/-! ### The manager's kill (R351, 12 R302, R303) -/

/-- MGMT_JOB_KILL of a fabric job: every slot whose Survey carries it is killed. `tied` names rings whose orders on such a
slot, and `hostKill` slots whose host kill, reached the arbiter in the same MCLK cycle: the kill wins over the former, and
the host's kill wins over the manager's, which is told. -/
def onMgmtJobKill (fjob : Fin 4096) (tied : List (Fin 32)) (hostKill : BitVec 8) (s : State) : State :=
  if !s.live then s
  else (List.range 8).foldl (fun (s : State) n =>
    if !s.loaded n ∨ s.fjobOf n ≠ fjob.val then s
    else if (s.slot n).killing then
      if hostKill.getLsbD n ∧ s.hostKills n
      then (s.orderLost n .kill 0 .kill 1).toMgr (.killReply fjob.val true) else s
    else (s.loseTies n tied 1).killStart n) s

/-- The answer to `MGMT_JOB_KILL`. -/
def execMgmtJobKill (fjob : Fin 4096) (tied : List (Fin 32)) (hostKill : BitVec 8) (s : State) : Answer :=
  .next (onMgmtJobKill fjob tied hostKill s)

end Sys2Proof.Machine
end

