-- ==== Sys2Proof/Machine/Reset.lean ====
section
/-! DEFINITION. Power-on reset, boot, loss of lock, device resets (17 R420, R431 to R434; 15 R370; 16 R389; 18 R457; 20 R493,
R494). -/
namespace Sys2Proof.Machine

/-! ### Power-on reset and lock loss -/

/-- Everything a power-on reset forgets is at its Reset column; what the flash, the fuses and the outside keep stays. -/
def State.powerOn (s : State) : State :=
  { State.reset with
    ras := { RasState.reset with
      flash := s.ras.flash
      units := (s.ras.flash.fenced.foldl (fun t k => tblSet (fun _ => UnitState.inService) t k .fenced)
        (s.ras.flash.routerOnly.foldl (fun t k => tblSet (fun _ => UnitState.inService) t k .routerOnly) []))
      gen := s.ras.flash.gen }
    sec := { SecState.reset with rollback := s.sec.rollback }
    pending := s.pending, out := s.out, fresh := s.fresh }

/-- A flash image whose write lost power is undefined: every byte of the region is a free value (R431). -/
def State.loseImage (s : State) : State :=
  if s.pwr.nvRunning.contains .flashImage then
    ({ s with ras := { s.ras with flash := { s.ras.flash with
        image := (List.range s.ras.staged.length).map fun i => Config.drbgByte s.fresh i } } } : State).draw
  else s

/-- POWER_LOSS: PWROK falls, or VDD_CORE drops below 0.55 V or VDD_IO below 1.62 V; THERMTRIP# is released once VDD_IO is
below 1.62 V (R420, 19 R480). -/
def onPowerLoss (pwrok : Bool) (coreMv ioMv : Nat) (s : State) : State :=
  if pwrok && 550 ≤ coreMv && 1620 ≤ ioMv then s
  else
    let trip := s.pwr.thermTrip && 1620 ≤ ioMv
    let s1 := s.loseImage.powerOn
    let s2 : State := { s1 with pwr := { s1.pwr with
      pwrok := pwrok, coreMv := coreMv, ioMv := ioMv, thermTrip := trip
      air := s.pwr.air, strapRecovery := s.pwr.strapRecovery, smbAddr := s.pwr.smbAddr } }
    if s.pwr.thermTrip && !trip then s2.emit (.pin .thermTrip false) else s2

/-- The answer to `POWER_LOSS`. -/
def execPowerLoss (pwrok : Bool) (coreMv ioMv : Nat) (s : State) : Answer := .next (onPowerLoss pwrok coreMv ioMv s)

/-- A strap as sampled: one that changed in its window is an undefined value (19 R472). -/
def State.strapBit (s : State) (b : Option Bool) (salt : Nat) : Bool :=
  match b with | some v => v | none => Config.freeBool (3 * s.fresh + salt)

/-- POWER_ON_RESET: PWROK rises, the straps are sampled, the root PLL locks, and power-on reset is left once its last
condition clears (R420, 15 R370, 19 R472). While PWROK stays high the straps stand as they were sampled at its rise: the row then says that
the rails have come back. In the air profile ACLK starts at the profile's ceiling (R432). -/
def onPowerOnReset (straps : Straps) (coreMv ioMv : Nat) (s : State) : State :=
  if s.pwr.phase ≠ .held then s
  else
    let air := if s.pwr.pwrok then s.pwr.air else s.strapBit straps.profile 0
    let recovery := if s.pwr.pwrok then s.pwr.strapRecovery else s.strapBit straps.recovery 1
    let s1 := s.powerOn
    let smb := if s.pwr.pwrok then s.pwr.smbAddr
      else match straps.addr with | some a => 0x60 + a.val | none => 0x60 + Config.freeNat s.fresh % 4
    let clear := decide (550 ≤ coreMv) && decide (1620 ≤ ioMv) && !s.pwr.thermTrip
    let s2 : State := { s1 with
      pwr := { s1.pwr with
        phase := if clear then .booting else .held
        pwrok := true, coreMv := coreMv, ioMv := ioMv, air := air, thermTrip := s.pwr.thermTrip
        strapRecovery := recovery
        smbAddr := smb }
      clk := { s1.clk with locked := clear, step := if air then 2 else 0, req := if air then 2 else 0 } }
    ({ s2 with pwr := { s2.pwr with rstCause := 1 } } : State).fabPowerOn.draw

/-- The answer to `POWER_ON_RESET`. -/
def execPowerOnReset (straps : Straps) (coreMv ioMv : Nat) (s : State) : Answer := .next (onPowerOnReset straps coreMv ioMv s)

/-- ROOT_LOCK_LOSS: every root-derived clock stops; the device holds as under power-on reset until lock returns (R370). -/
def onRootLockLoss (s : State) : State :=
  if !s.clk.locked then s
  else
    let s1 := s.powerOn
    { s1 with
      pwr := { s1.pwr with
        phase := .lockLost, pwrok := s.pwr.pwrok, coreMv := s.pwr.coreMv, ioMv := s.pwr.ioMv, air := s.pwr.air
        strapRecovery := s.pwr.strapRecovery, smbAddr := s.pwr.smbAddr, rstCause := 0x10 }
      clk := { s1.clk with lockLost := true, step := if s.pwr.air then 2 else 0, req := if s.pwr.air then 2 else 0 } }

/-- The answer to `ROOT_LOCK_LOSS`. -/
def execRootLockLoss (s : State) : Answer := .next (onRootLockLoss s)

/-- THERMTRIP: hardware asserts THERMTRIP# and holds the device in power-on reset (R428, 19 R480). -/
def onThermtrip (s : State) : State :=
  if s.pwr.phase = .held ∧ s.pwr.thermTrip then s
  else
    let s0 := s.loseImage
    let s1 := s0.powerOn
    ({ s1 with
      pwr := { s1.pwr with
        thermTrip := true, pwrok := s.pwr.pwrok, coreMv := s.pwr.coreMv, ioMv := s.pwr.ioMv
        air := s.pwr.air, strapRecovery := s.pwr.strapRecovery, smbAddr := s.pwr.smbAddr }
      ras := { s1.ras with flash := { s1.ras.flash with tripUnreported := true } } } : State).emit (.pin .thermTrip true)

/-- The answer to `THERMTRIP`. -/
def execThermtrip (s : State) : Answer := .next (onThermtrip s)

/-- Report a thermal shutdown that no earlier boot has reported (R434). -/
def State.reportTrip (s : State) : State :=
  if s.ras.flash.tripUnreported then
    { s with pwr := { s.pwr with rstCause := s.pwr.rstCause ||| 0x20 }
             ras := { s.ras with flash := { s.ras.flash with tripUnreported := false } } }
  else s

/-- FIRMWARE_BOOT: entropy health test, verification, measurement; HBM is zeroed, sealed regions are ended; when a check
fails, or the recovery strap is high, only the recovery registers respond (16 R388 to R390, 10 R497, 18 R459). After a loss
of lock the boot also means that lock has returned (15 R370). -/
def onFirmwareBoot (entropyOk : Bool) (s : State) : State :=
  if s.pwr.phase ≠ .booting ∧ s.pwr.phase ≠ .lockLost then s
  else
    let lost := decide (s.pwr.phase = .lockLost)
    let s1 : State := { s with
      clk := { s.clk with locked := true }
      hbm := { s.hbm with cells := [], ue := [] }
      sec := { s.sec with sealed := [] } }
    let s2 := if lost then s1.reportTrip.fabPowerOn else s1.reportTrip
    let img := s2.ras.flash.image
    let s3 : State :=
      if entropyOk ∧ !s2.pwr.strapRecovery ∧ s2.imageOk img then s2.runImage img false
      else { s2 with pwr := { s2.pwr with phase := .recovery } }
    (if lost then s3.fatal 0x0062 0 0 0 else s3).reviewClock

/-- The answer to `FIRMWARE_BOOT`. -/
def execFirmwareBoot (entropyOk : Bool) (s : State) : Answer := .next (onFirmwareBoot entropyOk s)

/-! ### Device resets (R432, R433) -/

def ResetKind.bit : ResetKind → BitVec 7 | .cxl => 0x02 | .sbr => 0x04 | .perst => 0x08

/-- A device reset begins, or merges with the one in progress (R432): started descriptors end with no record, every slot is
killed, BAR0 stops responding. -/
def State.beginReset (s : State) (k : ResetKind) (memClear reboot : Bool) : State :=
  let p : ResetProgress := match s.pwr.resetting with
    | some q => { kinds := k :: q.kinds, memClear := q.memClear || memClear, reboot := q.reboot || reboot }
    | none => { kinds := [k], memClear := memClear, reboot := reboot }
  let cause := (s.pwr.rstCause ||| k.bit) &&& (if p.memClear then 0x7F else 0x3F) ||| (if p.memClear then 0x40 else 0)
  let s := s.resetTies
  let s1 : State := { s with
    pwr := { s.pwr with resetting := some p, rstCause := cause, heldMem := [], heldWrites := [], waking := none, a4Wait := false }
    cage := { CageState.reset with serial := s.cage.serial }
    clk := { s.clk with hostStep := 0 } }
  s1.killAll.reviewClock

/-- Registers that a device reset keeps (20 R494): clock and time, ports and fabric, the log index, the image window. -/
def keptReg (off : Nat) : Bool :=
  (0x5000 ≤ off && off < 0x6000) || (0xC000 ≤ off && off < 0x20000) || off == 0x7010 || imageBase ≤ off

/-- The memory clear of a reset: every page is in device bias by then (11 R279). -/
def State.clearMemory (s : State) : State := { s with hbm := { s.hbm with hostBias := [] } }.zeroUnsealed

/-- What a completed device reset leaves (R432, 20 R494). The scrub of a host loss ends as part of it (11 R278). -/
def State.afterReset (s : State) (p : ResetProgress) : State :=
  let s1 := (List.range 8).foldl State.killFinish (if s.cxl.hostLoss then s.hostLost else s)
  let s2 := (if p.memClear then s1.clearMemory else s1).flowReset
  let s3 : State := { s2 with
    regs := s2.regs.filter fun e => keptReg e.1
    held := [], ctrs := [], latches := [], slots := []
    cage := { CageState.reset with serial := s2.cage.serial }
    cxl := { CxlState.reset with
      up := s2.cxl.up, mode := s2.cxl.mode, rate := s2.cxl.rate, width := s2.cxl.width, everUp := s2.cxl.everUp }
    sec := { s2.sec with conn := .none, sessions := [], dbg := .locked, dbgResult := 0, chal := none, scope := 0, scopeWait := 0 }
    hbm := { s2.hbm with hostBias := [], waiting := [], violArmed := true, viol := [], ueValid := false, ueSrc := 0, ueAddr := 0 }
    ras := { s2.ras with service := false, seq := 0, unitResult := .none }
    pwr := { s2.pwr with
      resetting := none, wakeUs := 0, idle := 0, wakeCause := .none, tripped := false, sagSeen := false
      idleSince := s2.clk.root }
    clk := { s2.clk with hostStep := 0 } }
  s3.reviewClock.fabReset

/-- CXL_RESET, with or without memory clear (11 R279). -/
def onCxlReset (memClear : Bool) (s : State) : State :=
  if s.pwr.phase = .running ∧ s.cxl.up then s.beginReset .cxl memClear false else s

/-- The answer to `CXL_RESET`. -/
def execCxlReset (memClear : Bool) (s : State) : Answer := .next (onCxlReset memClear s)

/-- SECONDARY_BUS_RESET: as CXL Reset without memory clear; the host link retrains after it (11 R279). -/
def onSecondaryBusReset (s : State) : State :=
  if s.pwr.phase = .running ∧ s.cxl.up then
    let s1 := s.beginReset .sbr false false
    { s1 with cxl := { s1.cxl with up := false, mode := false } }
  else s

/-- The answer to `SECONDARY_BUS_RESET`. -/
def execSecondaryBusReset (s : State) : Answer := .next (onSecondaryBusReset s)

/-- PERST: asserted for `us` µs; a pulse below 100 µs is ignored, and PERST# has no effect while PWROK is low (19 R473).
`asserted` is the level the pulse leaves. -/
def onPerst (us : Nat) (asserted : Bool) (s : State) : State :=
  let s00 : State := { s with pwr := { s.pwr with perst := asserted } }
  let s0 := if s.jtag = 3 ∧ s.pwr.perst ≠ asserted then s00.emit (.pin .boundary asserted) else s00
  if s.pwr.pwrok ∧ 100 ≤ us ∧ (s.pwr.phase = .running ∨ s.pwr.phase = .recovery) then
    let s1 := s0.beginReset .perst false false
    { s1 with cxl := { s1.cxl with up := false, mode := false } }
  else s0

/-- The answer to `PERST`. -/
def execPerst (us : Nat) (asserted : Bool) (s : State) : Answer := .next (onPerst us asserted s)

/-- FW_CTL.ACTIVATE: refused while a slot holds a Survey or a region is TEE-bound; otherwise a reset as PERST# and a reboot
of the Headframe controller (18 R457). -/
def State.fwActivate (s : State) : State :=
  if (List.range 8).any (fun n => s.loaded n) ∨ s.teeBound then s
  else
    let s1 := s.beginReset .perst false true
    { s1 with cxl := { s1.cxl with up := false, mode := false } }

/-- The Headframe controller reboots from flash (18 R457): FW_UPDATE tells the activation, or recovery follows. -/
def State.reboot (s : State) : State :=
  let img := s.ras.flash.image
  if s.imageOk img then (s.runImage img false).ev 0x0097 .info 0 2 (Config.imageSvn img % 64) 0 0
  else { s with pwr := { s.pwr with phase := .recovery } }

/-- RESET_COMPLETE: the kill scrub and any memory clear are finished (R432, 11 R278). -/
def onResetComplete (s : State) : State :=
  match s.pwr.resetting with
  | some p => if p.reboot then (s.afterReset p).reboot else s.afterReset p
  | none => s

/-- The answer to `RESET_COMPLETE`. -/
def execResetComplete (s : State) : Answer := .next (onResetComplete s)

end Sys2Proof.Machine
end

