-- ==== Sys2Proof/Machine/HbmHost.lean ====
section
/-! DEFINITION. Host CXL.mem and BAR2 accesses, bias, HBM upkeep and pseudo-channel power (10, 11 R265). -/
namespace Sys2Proof.Machine

/-- Whether the host reaches the window: decoder 0 committed, CXL.mem negotiated and enabled (11 R261, R267). -/
def State.memOpen (s : State) : Bool :=
  s.live && s.cxl.up && s.cxl.mode && s.cxl.memEn && s.cxl.dec.committed

/-- Device address of a host physical address (11 R267); none outside the window. -/
def State.windowAddr (s : State) (hpa : Nat) : Option Nat :=
  if s.cxl.dec.base ≤ hpa ∧ hpa < s.cxl.dec.base + s.cxl.dec.size then some (s.winBase + (hpa - s.cxl.dec.base)) else none

/-- The power state of a pseudo-channel, the device's idle state included (R253, 17 R423). -/
def State.pc (s : State) (k : Nat) : PcState :=
  if 3 ≤ s.pwr.idle then .selfRefresh else if s.pwr.idle = 2 then .powerDown else tblGet (fun _ => PcState.active) s.hbm.pcs k

/-- A host access to a sealed region is refused and counted; the first one raises SEAL_VIOLATION (R246). -/
def State.sealViolation (s : State) (region hpa : Nat) : State :=
  let v := min (tblGet (fun _ => 0) s.hbm.viol region + 1) (2 ^ 32 - 1)
  let s1 : State := { s with hbm := { s.hbm with viol := tblSet (fun _ => 0) s.hbm.viol region v, violArmed := false } }
  let s2 := s1.bumpMem 0x40880
  if s.hbm.violArmed then s2.ev 0x0031 .warning region 0 hpa 0 0 else s2

def ones64 : List Byte := List.replicate 64 0xFF

/-- Perform a host read of the line at device address `a` (R22, R245, R246, R251). -/
def State.hostReadLine (s : State) (hpa a : Nat) : State :=
  let line := a / 64
  match s.sealedIn (64 * line) 64 with
  | some (r, _) => ((s.touchPc line).sealViolation r hpa).emit (.memData line ones64)
  | none =>
    let s1 := ((s.touchPc line).bumpMem (chanBase (chanOf a))).bumpMem (chanBase (chanOf a) + 0x10)
    if s.hbm.ue.contains line then (s1.hbmUe line 4).emit (.memData line ones64)
    else s1.emit (.memData line (s.hbmBytes (64 * line) 64))

/-- Merge bytes under a mask. -/
def merge (old new : List Byte) (mask : BitVec 64) : List Byte :=
  (List.range 64).map fun i => if mask.getLsbD i then new.getD i 0 else old.getD i 0

/-- Perform a host write of the line at device address `a` (R245, R246, R251). -/
def State.hostWriteLine (s : State) (hpa a : Nat) (data : List Byte) (mask : BitVec 64) : State :=
  let line := a / 64
  let s1 := s.touchPc line
  match s.sealedIn (64 * line) 64 with
  | some (r, _) => s1.sealViolation r hpa
  | none =>
    if s.hbm.ue.contains line ∧ mask ≠ BitVec.allOnes 64 then s1.hbmUe line 4
    else
      let s2 := (s1.bumpMem (chanBase (chanOf a) + 0x08)).bumpMem (chanBase (chanOf a) + 0x18)
      let s3 := s2.putBytes (64 * line) (merge (s.hbmBytes (64 * line) 64) data mask)
      { s3 with hbm := { s3.hbm with ue := s3.hbm.ue.filter (· != line) } }

/-- Accesses accepted while a pseudo-channel wakes; of them, the writes are pending (R253). -/
def State.pcWaits (s : State) (k : Nat) (h : HostMem) : Bool := match s.windowAddr (64 * h.line) with | some a => pcOf a == k | none => false
def State.pendingWrites (s : State) (k : Nat) : Nat := (s.hbm.waiting.filter fun h => h.write.isSome && s.pcWaits k h).length

/-- Perform or hold one host access (R245, R253, R254; 17 R424). An access to a pseudo-channel in POWER_DOWN, or on its way out of it, counts as
waiting until the wake ends; it takes its place in the line's order at once, before every later access (log entry 24). -/
def State.hostMem (s : State) (h : HostMem) : State :=
  match s.windowAddr (64 * h.line) with
  | none => s
  | some a =>
    if s.cxl.tdi = .error then
      (match h.write with | none => s.emit (.memData (a / 64) ones64) | some _ => s)
    else
    let s := s.wake .mem
    if 0 < s.pwr.idle then { s with pwr := { s.pwr with heldMem := s.pwr.heldMem ++ [h] } }
    else
      let s1 : State := match s.pc (pcOf a) with
        | .powerDown | .waking _ => { s with hbm := { s.hbm with waiting := s.hbm.waiting ++ [h] } }
        | _ => s
      match h.write with
      | none => s1.hostReadLine (64 * h.line) a
      | some (d, m) => s1.hostWriteLine (64 * h.line) a d m

/-- HOST_CXL_MEM_READ of the line that holds `hpa`; `ue` says the controller finds it uncorrectable, `ce` that it corrects it (R245, R248,
R251). -/
def onHostCxlMemRead (hpa : Nat) (ue ce : Bool) (s : State) : State :=
  if !s.memOpen then s
  else
    let s1 := match s.windowAddr (64 * (hpa / 64)) with
      | some a => if ue then s.plantUe [a / 64] else if ce then s.foundErrors { ue := [], ce := [a / 64] } else s
      | none => s
    s1.hostMem { line := hpa / 64, write := none }

/-- The answer to `HOST_CXL_MEM_READ`. -/
def execHostCxlMemRead (hpa : Nat) (ue : Bool) (s : State) (ce : Bool := false) : Answer := .next (onHostCxlMemRead hpa ue ce s)

/-- HOST_CXL_MEM_WRITE (R245, R246, R251). -/
def onHostCxlMemWrite (hpa : Nat) (data : List Byte) (mask : BitVec 64) (s : State) : State :=
  if !s.memOpen then s else s.hostMem { line := hpa / 64, write := some (data, mask) }

/-- The answer to `HOST_CXL_MEM_WRITE`. -/
def execHostCxlMemWrite (hpa : Nat) (data : List Byte) (mask : BitVec 64) (s : State) : Answer :=
  .next (onHostCxlMemWrite hpa data mask s)

/-- Debug access to scratchpad is open: unlocked with `SC_SPAD` (16 R407, R410). -/
def State.spadOpen (s : State) : Bool := s.sec.dbg == .unlocked && bitAt s.sec.scope 0

/-- One debug access to a scratchpad byte: a dirty page reads zeros and ignores writes (04 R104, R105). A read of a word
with an uncorrectable error meets R85; a byte write is a read-modify-write (R86). -/
def State.spadAccess (s0 : State) (w : BankWait) : State :=
  let ce := if s0.pageDirty w.site (w.off / 4096) then 0 else w.ce
  let s := (s0.bumpSite w.site 0x158 ce).ceSite w.site SramStruct.scratch.code ce
  let addr := w.site * 2 ^ 21 + w.off
  if s.pageDirty w.site (w.off / 4096) then
    (match w.write with | none => s.emit (.bar2Data addr 0) | some _ => s)
  else match w.write with
    | none =>
      let s1 := s.bumpSite w.site 0x100
      let k := w.site * 2 ^ 18 + w.off / 8
      (if s.flow.scratchUe.contains k then s1.spadUe k else s1).emit (.bar2Data addr (s.scratchByte w.site w.off))
    | some v => s.bankWrite w.site [(w.off, v)]

/-- HOST_BAR2_ACCESS of one byte: offset in the window, write data or none (11 R261, R265; 10 R241; 04 R105). -/
def onHostBar2Access (off : Nat) (write : Option Byte) (ce : Nat) (s : State) : State :=
  if !s.live ∨ !s.barOpen ∨ !s.cxl.mode then s
  else
    let k := off / 2 ^ 21
    if !s.spadOpen ∨ 8192 ≤ k ∨ isCu k then
      (match write with
       | none => (s.bumpMem 0x40888).emit (.bar2Data off 0)
       | some _ => s.bumpMem 0x40888)
    else
      let s := if write.isSome ∨ 0 < s.pwr.idle then s.wake .bar else s
      let x := s.accessBank k (lineBank (off % 2 ^ 21 / 64))
      let w : BankWait := { site := k, off := off % 2 ^ 21, write := write, ce := ce }
      if 0 < s.pwr.idle ∨ !x.2 then
        { x.1 with flow := { x.1.flow with bankWait := x.1.flow.bankWait ++ [w] } }
      else x.1.spadAccess w

/-- The answer to `HOST_BAR2_ACCESS`. -/
def execHostBar2Access (off : Nat) (write : Option Byte) (s : State) (ce : Nat := 0) : Answer := .next (onHostBar2Access off write ce s)

/-! ### BIAS_SET (R244, 12 R290) -/

def biasSetSpec : CmdSpec :=
  { opcode := 0x0A, usesSlot := false, admin := true, operands := [(128, 32), (160, 32), (192, 1)]
    needsSurvey := false, entries := 1 }

/-- BIAS_SET: pages counted from the window's start; every page in the new bias when it completes. -/
def onBiasSet (d : Desc) (s : State) : State :=
  let first := leAt d.bytes 16 4
  let count := leAt d.bytes 20 4
  let host := bitAt (byteAt d.bytes 24) 0
  s.startCmd biasSetSpec d true (.powerSet 0) fun s st =>
    let base := s.winBase / 2 ^ 21
    if count = 0 ∨ s.winSize / 2 ^ 21 < first + count then s.complete st stInvalidArgument 0 []
    else if host ∧ (s.sealedIn ((base + first) * 2 ^ 21) (count * 2 ^ 21)).isSome then s.complete st stNotPermitted 0 []
    else
      let inRange (p : Nat) : Bool := base + first ≤ p && p < base + first + count
      let rest := s.hbm.hostBias.filter fun p => !inRange p
      let pages := if host then ((List.range count).map (base + first + ·)) ++ rest else rest
      ({ s with hbm := { s.hbm with hostBias := pages } } : State).complete st stSuccess 0 []

/-- The answer to `BIAS_SET`. -/
def execBiasSet (d : Desc) (s : State) : Answer := .next (onBiasSet d s)

/-! ### Patrol, status, refresh (R248, R249, R252) -/

/-- Lines of a channel: 3 GiB. -/
def chanLines : Nat := 50331648

/-- HBM_PATROL_READ of channel m's next line: `ce` corrected symbols, or uncorrectable (R249, R250). -/
def onHbmPatrolRead (m : Fin 768) (ce ue : Bool) (s : State) : State :=
  if !s.live ∨ !s.rfBit memBase 0 ∨ 3 ≤ s.pwr.idle then s
  else
    let pos := tblGet (fun _ => 0) s.hbm.patrolPos m.val
    let line := (addrOfLocal m.val (pos / 64) + 64 * (pos % 64)) / 64
    let s1 : State := ({ s with hbm := { s.hbm with
      patrolPos := tblSet (fun _ => 0) s.hbm.patrolPos m.val ((pos + 1) % chanLines) } } : State).touchPc line
    let s2 := (s1.bumpMem (chanBase m.val)).bumpMem (chanBase m.val + 0x38)
    if ue ∨ s.hbm.ue.contains line then (s2.plantUe [line]).hbmUe line 5
    else if ce then s2.correct line else s2

/-- The answer to `HBM_PATROL_READ`. -/
def execHbmPatrolRead (m : Fin 768) (ce ue : Bool) (s : State) : Answer := .next (onHbmPatrolRead m ce ue s)

/-- ODECC_STATUS_READ: the corrections a stack reports for a channel are added (R248). -/
def onOdeccStatusRead (m : Fin 768) (n : Nat) (s : State) : State :=
  if s.live then s.bumpMem (chanBase m.val + 0x30) n else s

/-- The answer to `ODECC_STATUS_READ`. -/
def execOdeccStatusRead (m : Fin 768) (n : Nat) (s : State) : Answer := .next (onOdeccStatusRead m n s)

/-- HBM_REFRESH of a stack: at the doubled rate above 85 °C, which `MEM_STAT.HOT` shows (R252). -/
def onHbmRefresh (stack : Fin 24) (over85 : Bool) (s : State) : State :=
  if !s.live ∨ 3 ≤ s.pwr.idle then s
  else
    let b : BitVec 24 := BitVec.ofNat 24 (2 ^ stack.val)
    { s with pwr := { s.pwr with hotStacks := if over85 then s.pwr.hotStacks ||| b else s.pwr.hotStacks &&& ~~~b } }

/-- The answer to `HBM_REFRESH`. -/
def execHbmRefresh (stack : Fin 24) (over85 : Bool) (s : State) : Answer := .next (onHbmRefresh stack over85 s)

/-! ### Pseudo-channel power (R253) -/

def State.setPc (s : State) (k : Nat) (p : PcState) : State :=
  { s with hbm := { s.hbm with pcs := tblSet (fun _ => PcState.active) s.hbm.pcs k p } }

/-- PC_IDLE_ENTRY of pseudo-channel k (channel k ÷ 2): idle for `PC_IDLE_THR` XCLK cycles, with no write pending (R253). -/
def onPcIdleEntry (k : Fin 1536) (s : State) : State :=
  if s.live ∧ s.pwr.idle < 2 ∧ s.rf 0x40008 0 16 ≠ 0 ∧ s.pc k.val = .active ∧ s.pendingWrites k.val = 0 ∧
      tblGet (fun _ => 0) s.hbm.pcLast k.val + nsRoot (s.rf 0x40008 0 16) ≤ s.clk.root then
    (s.setPc k.val (.entering s.clk.root)).bumpMem (chanBase (k.val / 2) + 0x40)
  else s

/-- The answer to `PC_IDLE_ENTRY`. -/
def execPcIdleEntry (k : Fin 1536) (s : State) : Answer := .next (onPcIdleEntry k s)

/-- PC_POWER_DOWN_ENTRY: 8 XCLK cycles after ENTERING (R253). -/
def onPcPowerDownEntry (k : Fin 1536) (s : State) : State :=
  match s.pc k.val with
  | .entering t => if t + nsRoot 8 ≤ s.clk.root then s.setPc k.val .powerDown else s
  | _ => s

/-- The answer to `PC_POWER_DOWN_ENTRY`. -/
def execPcPowerDownEntry (k : Fin 1536) (s : State) : Answer := .next (onPcPowerDownEntry k s)

/-- PC_WAKE: 24 XCLK cycles after the access that woke it the pseudo-channel is ACTIVE; nothing waits for it any more (R253). -/
def onPcWake (k : Fin 1536) (s : State) : State :=
  match s.pc k.val with
  | .waking t =>
    if s.live ∧ t + nsRoot 24 ≤ s.clk.root then
      let s1 := s.setPc k.val .active
      { s1 with hbm := { s1.hbm with waiting := s1.hbm.waiting.filter fun h => !s.pcWaits k.val h } }
    else s
  | _ => s

/-- The answer to `PC_WAKE`. -/
def execPcWake (k : Fin 1536) (s : State) : Answer := .next (onPcWake k s)

end Sys2Proof.Machine
end

