-- ==== Sys2Proof/Machine/RegRead.lean ====
section
/-! DEFINITION. What a BAR0 read returns (20 R484 to R492 and the register tables of each chapter). -/
namespace Sys2Proof.Machine

/-- `CAGE_STAT.BUSY`: a descriptor is started and not completed, one that waits for the record store too (12 Table 12-9, 11 R266). -/
def State.cageBusy (s : State) : Bool := !s.cage.started.isEmpty || !s.cage.waiting.isEmpty

/-- Identification, capability and global status (20 Tables 20-2 to 20-4). -/
def State.globalReg (s : State) (off : Nat) : Nat :=
  if off = 0x000 then 0x96241F3A
  else if off = 0x004 then Config.devRev.toNat
  else if off = 0x008 then Config.unitId.toNat % 2 ^ 32
  else if off = 0x00C then Config.unitId.toNat / 2 ^ 32
  else if off = 0x010 then s.sec.fwVersion
  else if off = 0x014 then Config.romVersion.toNat
  else if off = 0x040 then 4 + 8 * 2 ^ 4 + 32 * 2 ^ 8 + 64 * 2 ^ 14 + 16 * 2 ^ 21 + 12 * 2 ^ 26
  else if off = 0x044 then 8192 + 8192 * 2 ^ 14
  else if off = 0x048 then 24 + 32 * 2 ^ 5 + 96 * 2 ^ 11 + 64 * 2 ^ 18
  else if off = 0x04C then 0x7FF + 3 * 2 ^ 11 + 2 ^ 13 + 2 ^ 14 + 2 ^ 15 + 2 ^ 16 + s.ceiling * 2 ^ 17
  else if off = 0x080 then
    b2n s.ras.service + 2 * b2n (s.sec.dbg == .unlocked) + 4 * b2n s.cxl.orphan + 8 * s.pwr.idle + 64 * b2n s.pwr.air +
    128 * b2n (s.cxl.tdi == .run) + 256 * b2n s.cageBusy
  else if off = 0x084 then
    (List.range 8).foldl (fun a n => a + b2n (s.loaded n) * 2 ^ n + b2n (s.running n) * 2 ^ (8 + n) +
      b2n (s.slot n).stopped * 2 ^ (16 + n) + b2n (s.slot n).killing * 2 ^ (24 + n)) 0
  else if off = 0x0C0 then s.ras.gen
  else if 0x1000 ≤ off ∧ off < 0x1800 then
    -- the two bitmaps of R492, 32 sites to a word
    let base := 32 * ((off % 0x400) / 4)
    (List.range 32).foldl (fun a i =>
      let u := s.unit (base + i)
      a + b2n (if off < 0x1400 then u == .fenced || u == .testing else u == .routerOnly) * 2 ^ i) 0
  else s.reg off

/-- Word `i` of log record `IDX`, 0 the newest (18 R444, R460). -/
def State.logWord (s : State) (i : Nat) : Nat :=
  match s.ras.log[s.rf 0x7010 0 13]? with
  | some e => leAt (e.bytes 0 false) (4 * i) 4
  | none => 0

/-- Clock, power, service, security, attachment and Cage blocks. -/
def State.systemReg (s : State) (off : Nat) : Nat :=
  if off = 0x5000 then s.clk.step + 8 * b2n s.clk.lockLost
  else if off = 0x5008 then s.clk.tally.toNat % 2 ^ 32
  else if off = 0x5014 then 0
  else if off = 0x501C then
    s.clk.sync.code + 8 * (match s.clk.parentPort with | some p => p | none => 0xF) + 128 * s.clk.parentAddr
  else if off = 0x5020 then unsigned 32 s.clk.offset
  else if off = 0x5024 then unsigned 32 s.clk.trim
  else if off = 0x6004 then b2n s.pwr.air + 2 * s.pwr.idle + 16 * s.permitted + 128 * s.pwr.wakeCause.code
  else if off = 0x6008 then s.pwr.wakeUs
  else if off = 0x6014 then
    min s.pwr.tMax 255 + 256 * min s.pwr.tHbm 255 + 2 ^ 16 * b2n (0 < s.clk.thermSteps) + 2 ^ 17 * b2n (0 < s.clk.powerSteps) +
    2 ^ 18 * b2n s.pwr.tripped
  else if off = 0x6018 then
    b2n s.pwr.coreLow + 2 * b2n s.pwr.ioLow + 4 * b2n (s.pwr.coreLow || s.pwr.ioLow) + 8 * b2n s.pwr.sagSeen
  else if off = 0x601C then s.pwr.rstCause.toNat
  else if off = 0x6020 then s.pwr.watts % 65536
  else if off = 0x7004 then b2n s.ras.service
  else if off = 0x700C then (s.unit (s.rf 0x7008 0 13)).code + 4 * s.ras.unitResult.code
  else if 0x7040 ≤ off ∧ off < 0x7080 then s.logWord ((off - 0x7040) / 4)
  else if off = 0x7084 then s.ras.fwState.code + 8 * s.ras.fwSvn
  else if off = 0x8000 then
    b2n (s.sec.dbg == .unlocked) + 2 * b2n s.sec.bootHost + 4 * s.sec.bootSvn + 2 ^ 8 * s.sec.rollback +
    2 ^ 15 * s.sec.sessions.length + 2 ^ 18 * b2n s.teeBound
  else if 0x8020 ≤ off ∧ off < 0x8040 then leAt (s.sec.chal.getD []) (off - 0x8020) 4
  else if off = 0x8044 then s.sec.dbg.code + 4 * s.sec.dbgResult
  else if off = 0x9000 then
    b2n s.cxl.mode + 2 * s.cxl.rate + 8 * s.cxl.width + 32 * b2n s.cxl.cacheEn + 64 * b2n s.cxl.memEn +
    128 * b2n s.cxl.dec.committed + 256 * (s.ideKeys .link).state.code + 2 ^ 10 * (s.ideKeys .cachemem).state.code +
    2 ^ 12 * s.cxl.tdi.code + 2 ^ 14 * b2n s.cxl.orphan + 2 ^ 15 * b2n s.cxl.winErr
  else if off = 0xA004 then
    b2n s.cageBusy + 2 * s.cage.held.length + 256 * b2n s.cage.evErr
  else if off = 0xA058 then s.cage.evTail + 2 ^ 16 * b2n s.cage.evPhase
  else s.reg off

/-- Ring registers that the Cage writes (12 Table 12-10). -/
def State.ringRegRead (s : State) (off : Nat) : Nat :=
  let k := (off - 0xB000) / 0x40
  let r := s.ring k
  if off % 0x40 = 0x28 then r.head + 2 ^ 16 * b2n (s.ringActive k) + 2 ^ 17 * b2n r.err + 2 ^ 18 * b2n r.phase
  else if off % 0x40 = 0x2C then r.cqTail
  else s.reg off

/-- Memory control registers (10 R255 to R257). -/
def State.memReg (s : State) (off : Nat) : Nat :=
  if off = 0x40004 then b2n (s.pwr.hotStacks != 0) + 2 * b2n (decide (3 ≤ s.pwr.idle))
  else if off = 0x40010 then b2n s.hbm.ueValid + 2 * s.hbm.ueSrc + (s.hbm.ueAddr % 2 ^ 32 / 64) * 64
  else if off = 0x40014 then s.hbm.ueAddr / 2 ^ 32
  else if 0x40100 ≤ off ∧ off < 0x40200 then
    let r := (off - 0x40100) / 0x10
    if off % 0x10 = 0xC then tblGet (fun _ => 0) s.hbm.viol r
    else match s.sealedAt r with
      | some x => if off % 0x10 = 0 then 1 + 2 * x.slots.toNat else if off % 0x10 = 4 then x.basePg else x.limitPg
      | none => 0
  else s.reg off

/-- Value of a 48-bit counter: kept, or summed over the channels or the Mills (10 R258, 09 R238). -/
def State.counterValue (s : State) (off : Nat) : Nat :=
  if 0x40800 ≤ off ∧ off ≤ 0x40848 then
    min ((List.range 768).foldl (fun a m => a + s.ctr (chanBase m + (off - 0x40800))) 0) ctrMax
  else if 0x2000C8 ≤ off ∧ off ≤ 0x200118 then s.millSum (off - 0x2000C8)
  else s.ctr off

/-- The word at an aligned BAR0 offset. Unassigned offsets read 0 (00 R9). -/
def State.bar0Word (s : State) (off : Nat) : Nat :=
  if isCounterLow off then s.counterValue off % 2 ^ 32
  else if 4 ≤ off ∧ isCounterLow (off - 4) then tblGet (fun _ => 0) s.latches (off - 4)
  else if off = 0x500C then tblGet (fun _ => 0) s.latches 0x5008
  else if off < 0x4000 then s.globalReg off
  else if off < 0x5000 then s.reg off
  else if off < 0xB000 then s.systemReg off
  else if off < 0xC000 then s.ringRegRead off
  else if off < 0x20000 then s.fabReg off
  else if off < 0x40000 then s.flowReg off
  else if off < 0x80000 then s.memReg off
  else if off < 0x2000000 then s.flowReg off
  else s.reg off

/-- What a full read of a word does besides returning it: the latch of 03 R83, the pop of `PTP_TXTS` (13 R332). -/
def State.readSide (s : State) (off : Nat) : State :=
  if isCounterLow off then
    { s with latches := tblSet (fun _ => 0) s.latches off (s.counterValue off / 2 ^ 32) }
  else if off = 0x5008 then { s with latches := tblSet (fun _ => 0) s.latches 0x5008 (s.clk.tally.toNat / 2 ^ 32) }
  else s.fabReadSide off

/-- Offsets that respond in recovery (20 R486). -/
def recoveryOff (off : Nat) : Bool := off == 0x7080 || off == 0x7084 || off == 0x8000 || (imageBase ≤ off && off < 0x3000000)

/-- A non-TEE access in RUN completes with Unsupported Request (11 R272), which AER shows (R259; log entry 24). -/
def State.nonTee (s : State) (tee : Bool) (off : Nat) : Option State :=
  if s.cxl.tdi = .run ∧ !tee then some ((({ s with cxl := { s.cxl with aer := s.cxl.aer ||| 0x100000 } } : State).bump 0x9140).emit (.unsupported off)) else none

/-- Read the words that `len` bytes from `off` touch, the lower address first (R484). -/
def State.bar0Read (s : State) (off len : Nat) : State :=
  let first := off / 4 * 4
  let words := (List.range ((off + len - 1) / 4 - off / 4 + 1)).map fun i => first + 4 * i
  if s.pwr.resetting.isSome then s.emit (.bar0Data off (zeroBytes len))
  else
    let r := words.foldl (fun (acc : State × List Byte) w =>
      if acc.1.pwr.phase = .recovery ∧ !recoveryOff w then (acc.1, acc.2 ++ zeroBytes 4)
      else (acc.1.readSide w, acc.2 ++ leBytes 4 (acc.1.bar0Word w))) (s, [])
    r.1.emit (.bar0Data off (slice r.2 (off - first) len))

/-! ### Configuration space and BAR4 (11 R259, R262 to R264) -/

/-- A BAR's words: the address as held, with the type bits of Table 11-4. -/
def State.barWord (s : State) (k : Nat) (high : Bool) : Nat :=
  let size := if k = 0 then 2 ^ 26 else if k = 1 then 2 ^ 34 else 2 ^ 18
  let a := bits s.cxl.bars (64 * k) 64 / size * size
  if high then a / 2 ^ 32 else a % 2 ^ 32 + (if k = 1 then 0xC else 4)

/-- The header: R262's identity, the enables, the BARs, the list of capabilities, no interrupt pin. -/
def State.headerWord (s : State) (off : Nat) : Nat :=
  if off = 0x00 then 0x96241F3A
  else if off = 0x04 then 2 * b2n s.cxl.memSpace + 4 * b2n s.cxl.busMaster + 2 ^ 20
  else if off = 0x08 then Config.devRev.toNat + 2 ^ 8 * 0x120000
  else if 0x10 ≤ off ∧ off < 0x28 then s.barWord ((off - 0x10) / 8) (off % 8 != 0)
  else if off = 0x2C then (Config.subsystem s.ras.flash.image).toNat
  else if off = 0x34 then 0x40
  else 0

/-- Header of an extended capability: its ID and the next structure. -/
def extHead (off id next : Nat) : Nat := id + 2 ^ 16 * bits (Config.capWord off).toNat 16 4 + 2 ^ 20 * next

/-- A word of configuration space: the structures of Table 11-3 in its order and their fields as Table 11-1 restricts them. IDs and the
places of bits are those of the standards (log entry 24). -/
def State.configWord (s : State) (off : Nat) : Nat :=
  let free := (Config.capWord off).toNat
  let put (x : Nat) (fs : List (Nat × Nat × Nat)) : Nat := fs.foldl (fun x f => setBits x f.1 f.2.1 f.2.2) x
  if off < 0x40 then s.headerWord off
  else if off = 0x040 then put free [(0, 16, 0x5001), (25, 2, 0)]
  else if off = 0x044 then put free [(0, 2, if s.cxl.d3 then 3 else 0)]
  else if off = 0x050 then put free [(0, 16, 0xB010)]
  else if off = 0x054 then put free [(28, 1, 0)]
  else if off = 0x05C then put free [(10, 2, 2)]
  else if off = 0x060 then put free [(0, 2, if s.cxl.aspmL1 then 2 else 0)]
  else if off = 0x0B0 then put free [(0, 16, 0x0011), (16, 11, 63), (30, 1, b2n s.cxl.msixFnMask)]
  else if off = 0x0B4 then 4
  else if off = 0x0B8 then 0x2004
  else if off = 0x100 then extHead off 0x0001 0x150
  else if off = 0x104 then s.cxl.aer.toNat
  else if off = 0x150 then extHead off 0x0023 0x1A0
  else if off = 0x154 ∨ off = 0x1A4 ∨ off = 0x1E4 then put free [(0, 16, 0x1E98)]
  else if off = 0x158 then put free [(0, 16, 0), (16, 3, 7), (20, 2, 1), (23, 1, 1), (27, 1, 1), (29, 2, 0)]
  else if off = 0x15C then put free [(0, 1, b2n s.cxl.cacheEn), (1, 1, 1), (2, 1, b2n s.cxl.memEn)]
  else if off = 0x168 then s.winSize / 2 ^ 32
  else if off = 0x16C then put (s.winSize % 2 ^ 32) [(0, 1, 1), (1, 1, b2n (s.pwr.phase == .running)), (2, 26, bits free 2 26)]
  else if off = 0x178 ∨ off = 0x17C ∨ off = 0x180 ∨ off = 0x184 then 0
  else if off = 0x1A0 then extHead off 0x0023 0x1E0
  else if off = 0x1A8 then put free [(0, 16, 7)]
  else if off = 0x1E0 then extHead off 0x0023 0x200
  else if off = 0x1E8 then put free [(0, 16, 8)]
  else if off = 0x200 then extHead off 0x002E 0x230
  else if off = 0x230 then extHead off 0x002E 0x260
  else if off = 0x260 then extHead off 0x000F 0x270
  else if off = 0x264 then put free [(31, 1, b2n s.cxl.atsEn)]
  else if off = 0x270 then extHead off 0x0013 0x280
  else if off = 0x274 then put free [(0, 1, b2n s.cxl.priEn)]
  else if off = 0x278 then 512
  else if off = 0x27C then s.cxl.priAlloc % 2 ^ 32
  else if off = 0x280 then extHead off 0x001B 0x290
  else if off = 0x284 then put free [(8, 5, 20), (16, 1, b2n s.cxl.pasidEn)]
  else if off = 0x290 then extHead off 0x0003 0x2A0
  else if off = 0x294 then Config.unitId.toNat % 2 ^ 32
  else if off = 0x298 then Config.unitId.toNat / 2 ^ 32
  else if off = 0x2A0 then extHead off 0x0030 0x300
  else free

/-- A word of BAR4: the MSI-X table, its pending bits, the component registers (R264, R275). -/
def State.bar4Word (s : State) (off : Nat) : Nat :=
  if off < 0x400 then
    let e := tblGet (fun _ => (0, 0)) s.cxl.msixTable (off / 16)
    if off % 16 = 0 then e.1 % 2 ^ 32 else if off % 16 = 4 then e.1 / 2 ^ 32 else if off % 16 = 8 then e.2
    else b2n (s.cxl.msixMasked.getLsbD (off / 16))
  else if off = 0x2000 then s.cxl.msixPending.toNat % 2 ^ 32
  else if off = 0x2004 then s.cxl.msixPending.toNat / 2 ^ 32
  else if 0x10000 ≤ off ∧ off < 0x20000 then
    if off = 0x10000 + Config.rasStatusOff / 4 * 4 then s.cxl.rasUncor.toNat else (Config.capWord (0x1000 + off)).toNat
  else 0

/-- The bytes of the words that a read of `len` bytes from `off` touches. -/
def readWords (word : Nat → Nat) (off len : Nat) : List Byte :=
  slice ((List.range ((off + len - 1) / 4 - off / 4 + 1)).map fun i => leBytes 4 (word (off / 4 * 4 + 4 * i))).flatten (off % 4) len

/-- A read of configuration space (R262, R263), answered with Request Retry Status until it is ready (R276). -/
def State.configRead (s : State) (off len : Nat) : State :=
  if !s.cxl.up then s
  else if (s.pwr.phase == .running || s.pwr.phase == .recovery) && s.pwr.resetting.isNone then s.emit (.configData off (readWords s.configWord off len))
  else s.emit .configRetry

/-- A read of BAR4 (R264, R272), which does not answer where the link carries CXL.io alone (R261). -/
def State.bar4Read (s : State) (off len : Nat) (tee : Bool) : State :=
  if !s.live ∨ !s.barOpen ∨ !s.cxl.mode then s
  else match s.nonTee tee off with
    | some s' => s'
    | none => s.emit (.bar4Data off (readWords s.bar4Word off len))

/-- COUNTER_LOW_READ, and every other BAR0 read (03 R83, 20 R484, R485); a read of BAR4 or of configuration space likewise. -/
def onCounterLowRead (r : BarRead) (s : State) : State :=
  if r.space = .config then (if r.len = 0 ∨ 4 < r.len then s else s.configRead r.off r.len)
  else if r.space = .bar4 then (if r.len = 0 ∨ 8 < r.len then s else s.bar4Read r.off r.len r.tee)
  else if !s.barOpen ∨ r.len = 0 ∨ 8 < r.len then s
  else match s.nonTee r.tee r.off with
    | some s' => s'
    | none => s.bar0Read r.off r.len

/-- The answer to `COUNTER_LOW_READ`. -/
def execCounterLowRead (r : BarRead) (s : State) : Answer := .next (onCounterLowRead r s)

/-- PTP_TXTS_POP: the read of `PTP_TXTS` + 0x8 of a port (13 R332). -/
def onPtpTxtsPop (p : Fin 12) (tee : Bool) (s : State) : State :=
  onCounterLowRead { off := portBase p.val + 0x028, len := 4, tee := tee } s

/-- The answer to `PTP_TXTS_POP`. -/
def execPtpTxtsPop (p : Fin 12) (tee : Bool) (s : State) : Answer := .next (onPtpTxtsPop p tee s)

end Sys2Proof.Machine
end

