-- ==== Sys2Proof/Machine/RegWrite.lean ====
section
/-! DEFINITION. BAR0 writes: access types, held RWL writes, refused RWQ writes, and the actions of WO fields (00 R5 to R9; 20
R484 to R486). -/
namespace Sys2Proof.Machine

/-- A walk of a memory unit works in a window: its generator holds a tile, or one is issued or ready (04 R110). -/
def State.windowWalked (s : State) (k w : Nat) : Bool :=
  [0, 1].any fun c => match s.stationIn k c with
    | some r => r.st.walks && (0 < (s.run r.dev).tiles || (s.run r.dev).issue.isSome || (s.coalOf r).line.isSome || !(s.firings r).isEmpty) &&
        r.st.ents.any fun e => match r.tmpl e, r.desc e with
          | some t, some d => t.region.isNone && d.win == w
          | _, _ => false
    | none => false
/-- A queue uses a spill descriptor: its region holds lines, or a token is on its way there. -/
def State.spillUsed (s : State) (k q : Nat) : Bool :=
  decide (0 < s.spillOcc k q) || s.flow.flights.any fun f => !f.credit && (match s.rng f.site f.ring with
    | some g => (match s.ringTmpl g with | some t => t.spillEn && t.spillSite f.site == k && t.spill == q | none => false)
    | none => false)
/-- What an RWQ field of a site waits for: a window's or spill descriptor's own activity (04 R110), else the unit's. -/
def State.siteRwqBusy (s : State) (k o : Nat) : Bool :=
  if isCu k ∨ o < 0x200 ∨ 0x400 ≤ o then s.siteBusy k
  else if o < 0x300 then
    let w := (o - 0x200) / 0x20
    s.windowWalked k w || (List.range 16).any fun q => s.rfBit (spillBase k q) 0 && s.rf (spillBase k q) 1 3 == w && s.spillUsed k q
  else s.spillUsed k ((o - 0x300) / 0x10)

/-- Whether the owning block of a register is busy for its RWQ fields (R7; 08 R208, 11 R268, 13 R330, 14 R367, 15 R384). -/
def State.rwqBusy (s : State) (off : Nat) : Bool :=
  if 0x4000 ≤ off ∧ off < 0x4200 then s.running ((off - 0x4000) / 0x40)
  else if off = 0x5018 then s.clk.sync != .free
  else if off = 0x9008 ∨ off = 0x900C then s.cxl.dec.committed
  else if 0xA040 ≤ off ∧ off < 0xA058 then s.evqEn
  else if 0xB000 ≤ off ∧ off < 0xB800 then s.ringEn ((off - 0xB000) / 0x40) || s.ringActive ((off - 0xB000) / 0x40)
  else if off = 0xC010 then s.fabBusy
  else if 0x10000 ≤ off ∧ off < 0x1C000 then s.portBusy ((off - 0x10000) / 0x1000) (off % 0x1000)
  else if 0x1000000 ≤ off ∧ off < 0x2000000 then s.siteRwqBusy ((off - 0x1000000) / 0x800) (off % 0x800)
  else false

/-- Write the stored fields of a register whose RWL fields take effect at once (R5 to R7). -/
def State.fieldWrite (s : State) (off w : Nat) : State :=
  let fs := regFields off
  if fs.isEmpty then s
  else
    let old := s.reg off
    let busy := s.rwqBusy off
    let s1 := s.setReg off (writeFields busy fs old w)
    if busy && changesRwq fs old w then s1.busyWrite off else s1

/-- Write a site register while the site's block runs: its RWL fields are held until the tile boundary (R6). -/
def State.heldWrite (s : State) (off w : Nat) : State :=
  let fs := regFields off
  if fs.isEmpty then s
  else
    let old := s.reg off
    let direct := fs.filter fun f => f.acc != .rwl
    let lived := fs.filter fun f => f.acc == .rwl
    let keepL := lived.foldl (fun a f => a + bits old f.lo f.width * 2 ^ f.lo) 0
    let busy := s.rwqBusy off
    let s1 := s.setReg off (writeFields busy direct old w + keepL)
    let s2 : State := if lived.isEmpty then s1
      else { s1 with held := tblSet (fun _ => none) s1.held off (some (BitVec.ofNat 32 (heldFields lived 0 w))) }
    if busy && changesRwq fs old w then s2.busyWrite off else s2

/-- Apply every held RWL write of a site, at its tile boundary (R6). -/
def State.applyHeld (s : State) (k : Nat) : State :=
  let lo := siteBase k
  let mine := s.held.filter fun e => lo ≤ e.1 && e.1 < lo + 0x800
  let s1 := mine.foldl (fun s e => match e.2 with
    | some v =>
      let lived := (regFields e.1).filter fun f => f.acc == .rwl
      let old := s.reg e.1
      s.setReg e.1 (old - lived.foldl (fun a f => a + bits old f.lo f.width * 2 ^ f.lo) 0 + v.toNat)
    | none => s) s
  { s1 with held := s1.held.filter fun e => !(lo ≤ e.1 && e.1 < lo + 0x800) }

/-- Clear W1C bits of a seven-bit cause register and the like. -/
def clear1 (old w : Nat) (mask : Nat) : Nat := old &&& ((2 ^ 32 - 1) ^^^ (w &&& mask))

/-- Writing 1 to a CNT_CLR bit clears a block's counters and their latched high words. -/
def State.clearIf (s : State) (b : Bool) (lo hi : Nat) : State := if b then s.clearCtrs lo hi else s

/-- MEM_CTL.CNT_CLR: the memory counters and every VIOL, and the first-violation event is armed again (10 R255). -/
def State.memClear (s : State) : State :=
  let s1 := (s.clearCtrs 0x40800 0x40898).clearCtrs 0x50000 0x68000
  { s1 with hbm := { s1.hbm with viol := [], violArmed := true } }

/-- Writes of the clock and power blocks. `LOCK_LOST` and `RST_CAUSE` are set while the device takes no write, so no write meets the
set of one of their bits (R8). -/
def State.clockWrite (s : State) (off w : Nat) : State :=
  if off = 0x5000 then { s with clk := { s.clk with lockLost := s.clk.lockLost && !bitAt w 3 } }
  else if off = 0x5014 then s.tallySetHi w
  else if off = 0x5018 then (s.fieldWrite off w).syncHold.clearIf (bitAt w 31) 0x5100 0x5130
  else if off = 0x6000 then (s.fieldWrite off w).clearIf (bitAt w 16) 0x6100 0x6158
  else if off = 0x6014 then { s with pwr := { s.pwr with tripped := s.w1c s.pwr.tripped s.pwr.trippedSet (bitAt w 18) } }
  else if off = 0x6018 then { s with pwr := { s.pwr with sagSeen := s.w1c s.pwr.sagSeen s.pwr.sagSet (bitAt w 3) } }
  else if off = 0x601C then { s with pwr := { s.pwr with rstCause := s.pwr.rstCause &&& ~~~(BitVec.ofNat 7 w) } }
  else s.fieldWrite off w

/-- Writing `FW_CTL`: `LEN` and the actions, in the order of their bits (18 R456 to R459). -/
def State.fwCtlWrite (s : State) (w : Nat) : State :=
  let s1 := s.fieldWrite 0x7080 w
  let s2 := if bitAt w 25 then s1.fwStage else s1
  let s3 := if bitAt w 26 then s2.fwActivate else s2
  let s4 := if bitAt w 27 then s3.fwCommit else s3
  if bitAt w 28 then s4.fwRecover else s4

/-- Writes of the service, security and attachment blocks. -/
def State.serviceWrite (s : State) (off w : Nat) : State :=
  if off = 0x7000 then (s.fieldWrite off w).clearIf (bitAt w 31) 0x7100 0x7138
  else if off = 0x7008 then (if bitAt w 15 then (s.fieldWrite off w).unitCmd else s.fieldWrite off w)
  else if off = 0x7080 then s.fwCtlWrite w
  else if off = 0x8040 then s.dbgCtlWrite w
  else if 0x8100 ≤ off ∧ off < 0x8200 then
    (if s.sec.dbg = .verifying ∨ s.sec.dbg = .scrubbing then s.busyWrite off else s.fieldWrite off w)
  else if off = 0x9008 ∨ off = 0x900C then
    let s1 := s.fieldWrite off w
    if s1.reg off = s.reg off then s1 else s.lockedChange s1 2
  else if off = 0x9010 then (s.fieldWrite off w).clearIf (bitAt w 8) 0x9100 0x9148
  else s.fieldWrite off w

/-- Writes of the Cage block (12 R305 to R307). `line` is a ring's doorbell line as the Cage then takes it. -/
def State.cageWrite (s : State) (off w : Nat) (line : List Byte) : State :=
  if off = 0xA000 then s.clearIf (bitAt w 0) 0xA100 0xA130
  else if off = 0xA004 then { s with cage := { s.cage with evErr := s.w1c s.cage.evErr s.cage.evErrSet (bitAt w 8) } }
  else if off = 0xA040 then s.evqWriteReg w
  else if 0xB000 ≤ off ∧ off < 0xB800 ∧ off % 0x40 = 0 then s.ringCtlWrite ((off - 0xB000) / 0x40) w line
  else s.fieldWrite off w

/-- Writes of a port's registers (13 R312, R330). No port stands beyond the twelfth. -/
def State.portWrite (s : State) (p o w : Nat) : State :=
  let off := portBase p + o
  if 12 ≤ p then s
  else if o = 0x000 then
    let s1 := s.clearIf (bitAt w 9) (portBase p + 0x100) (portBase p + 0x1B8)
    if s.portBusy p o then s1.fieldWrite off w else s1.portModeSet p w
  else if o = 0x004 then
    let x := s.port p
    s.setPort p { x with modeErr := s.w1c x.modeErr x.modeErrSet (bitAt w 3), retryFail := s.w1c x.retryFail x.retryFailSet (bitAt w 4) }
  else s.fieldWrite off w

/-- Writes of the fabric blocks and the ports (14 R367, 13 R330). -/
def State.fabricWrite (s : State) (off w : Nat) : State :=
  if off = 0xC000 then (s.fieldWrite off w).clearIf (bitAt w 20) 0xC100 0xC178
  else if off < 0x10000 then s.fieldWrite off w
  else s.portWrite ((off - 0x10000) / 0x1000) (off % 0x1000) w

/-- Write of `JOBCTL_HOIST_CFG`: setting `EN` starts the table check and `EN` reads 1 once the table is accepted; clearing it
gives the table up (08 R186, R208). -/
def State.hoistCfgWrite (s : State) (n w : Nat) : State :=
  let off := jobBase n + 0x38
  let was := s.rfBit off 0
  let s1 := s.fieldWrite off w
  if s.rwqBusy off then s1
  else if !bitAt w 0 then s1.setSlot n { s1.slot n with checking := false, hoist := none }
  else if was then s1
  else (s1.setRf off 0 1 0).setSlot n { s1.slot n with checking := true }

/-- Write of `JOBCTL_SLUICE_CFG`: setting `EN` checks the collective table (14 R360). -/
def State.sluiceCfgWrite (s : State) (n w : Nat) : State :=
  let off := jobBase n + 0x08
  let was := s.rfBit off 0
  let s1 := s.fieldWrite off w
  if s.rwqBusy off then s1
  else if !bitAt w 0 then s1.setSlot n { s1.slot n with sluice := [] }
  else if was then s1
  else s1.checkSluice n

/-- `CNT_CLR` of a compute or memory unit: its counters, those of its station contexts, and the largest spill occupancies, which start again
from the present ones (03 R83, 04 R110, 05 R141). -/
def State.clearSite (s : State) (k : Nat) : State :=
  let s1 := (s.clearCtrs (siteBase k + 0x100) (siteBase k + 0x200)).clearCtrs (siteBase k + 0x400) (siteBase k + 0x600)
  (List.range 16).foldl (fun (s : State) q => { s with flow := { s.flow with
    spillMax := tblSet (fun _ => 0) s.flow.spillMax (16 * k + q) (s.spillOcc k q) } }) s1

/-- Writes of a site register (00 R6, 03 R81, 04 R106). An idle unit has no writes left that wait for a boundary. -/
def State.siteWrite (s : State) (off w : Nat) : State :=
  let k := (off - 0x1000000) / 0x800
  let o := off % 0x800
  let spill := !isCu k && decide (0x300 ≤ o ∧ o < 0x400)
  -- a LIMIT above SIZE sets SIZE (04 R100)
  let v := if spill ∧ o % 0x10 = 8 then min (w % 65536) (s.spillSize k ((o - 0x300) / 0x10)) else w
  -- a padding register takes effect at once: each walk has read its tile's padding by its next boundary (04 R109; log entry 13)
  let pad := !isCu k && decide (0x200 ≤ o ∧ o < 0x300 ∧ 0x10 ≤ o % 0x20)
  let s1 := if s.siteBusy k ∧ !pad then s.heldWrite off v else (if pad then s else s.applyHeld k).fieldWrite off v
  if o = 0 ∧ bitAt w 17 = true then (s1.clearSite k) else if spill then s1.pumpSpills k else s1

/-- Carry out one whole-word BAR0 write. Unassigned offsets ignore it (R9). -/
def State.bar0Write (s : State) (off w : Nat) (line : List Byte) : State :=
  if off < 0x4000 then
    (if off = 0x08C then s.clearIf (bitAt w 0) 0x100 0x108 else s.fieldWrite off w)
  else if off < 0x4200 then
    let n := (off - 0x4000) / 0x40
    (if off % 0x40 = 0x38 then s.hoistCfgWrite n w
     else if off % 0x40 = 0x08 then s.sluiceCfgWrite n w
     else s.fieldWrite off w)
  else if off < 0x7000 then s.clockWrite off w
  else if off < 0xA000 then s.serviceWrite off w
  else if off < 0xC000 then s.cageWrite off w line
  else if off < 0x20000 then s.fabricWrite off w
  else if off < 0x80000 then
    (if off = 0x40000 then (if bitAt w 9 then (s.fieldWrite off w).memClear else s.fieldWrite off w)
     else if off = 0x40010 then { s with hbm := { s.hbm with ueValid := s.w1c s.hbm.ueValid s.hbm.ueSet (bitAt w 0) } }
     else s.fieldWrite off w)
  else if off < 0x1000000 then
    (if off = 0x2000C4 then (s.clearIf (bitAt w 0) 0x2000C8 0x200120).clearIf (bitAt w 0) 0x300000 0x330000 else s)
  else if off < 0x2000000 then s.siteWrite off w
  else if off < 0x3000000 then s.fieldWrite off w
  else s

/-- One whole-word write as it reaches the device: lost during a reset, confined in recovery, held in an idle state, refused
in RUN without the TEE indication (R485, R486; 11 R272; 17 R424). -/
def State.mmioWrite (s : State) (off w : Nat) (line : List Byte) (tee : Bool) : State :=
  if s.pwr.resetting.isSome then s
  else if s.pwr.phase = .recovery ∧ !recoveryOff off then s
  else match s.nonTee tee off with
    | some s' => s'
    | none =>
      let s := s.wake (if off = 0x8040 ∧ bitAt w 1 then .debug else .bar)
      if 0 < s.pwr.idle then
        { s with pwr := { s.pwr with heldWrites := s.pwr.heldWrites ++ [{ off := off, bytes := leBytes 4 w, tee := tee }] } }
      else s.bar0Write off w line

/-- The whole aligned words of a write of `bs` from `off`; none when it covers a word only in part (R484). -/
def wholeWords (off : Nat) (bs : List Byte) : Option (List (Nat × Nat)) :=
  if off % 4 = 0 ∧ (bs.length = 4 ∨ (bs.length = 8 ∧ off % 8 = 0))
  then some ((List.range (bs.length / 4)).map fun i => (off + 4 * i, leAt bs (4 * i) 4)) else none

/-- REGISTER_WRITE: any BAR0 write, a 64-bit one as two words, the lower first; a partial one is ignored and counted
(R484). -/
def onRegisterWrite (x : BarWrite) (s : State) : State :=
  if !s.barOpen then s
  else match wholeWords x.off x.bytes with
    | some ws => ws.foldl (fun s w => s.mmioWrite w.1 w.2 [] x.tee) s
    | none => if s.pwr.resetting.isSome ∨ s.pwr.phase = .recovery then s else s.bump 0x100

/-- The answer to `REGISTER_WRITE`. -/
def execRegisterWrite (x : BarWrite) (s : State) : Answer := .next (onRegisterWrite x s)

/-! ### Registers with a row of their own -/

/-- One register write with the gates of every BAR0 write. -/
def State.oneWrite (s : State) (off w : Nat) (tee : Bool) : State :=
  if s.barOpen then s.mmioWrite off w [] tee else s

/-- The stored part of a register with bit `b` set: how a driver sets a WO bit and keeps the other fields. -/
def State.withBit (s : State) (off b : Nat) : Nat := setBits (s.reg off) b 1 1

def onCuCtlCntClr (k : Fin 8192) (tee : Bool) (s : State) : State :=
  if isCu k.val then s.oneWrite (siteBase k.val) (s.withBit (siteBase k.val) 17) tee else s

/-- The answer to `CU_CTL_CNT_CLR`. -/
def execCuCtlCntClr (k : Fin 8192) (tee : Bool) (s : State) : Answer := .next (onCuCtlCntClr k tee s)

def onMuCtlCntClr (k : Fin 8192) (tee : Bool) (s : State) : State :=
  if isCu k.val then s else s.oneWrite (siteBase k.val) (s.withBit (siteBase k.val) 17) tee

/-- The answer to `MU_CTL_CNT_CLR`. -/
def execMuCtlCntClr (k : Fin 8192) (tee : Bool) (s : State) : Answer := .next (onMuCtlCntClr k tee s)

def onMillCtlCntClr (tee : Bool) (s : State) : State := s.oneWrite 0x2000C4 1 tee

/-- The answer to `MILL_CTL_CNT_CLR`. -/
def execMillCtlCntClr (tee : Bool) (s : State) : Answer := .next (onMillCtlCntClr tee s)

def onMemCtlCntClr (tee : Bool) (s : State) : State := s.oneWrite 0x40000 (s.withBit 0x40000 9) tee

/-- The answer to `MEM_CTL_CNT_CLR`. -/
def execMemCtlCntClr (tee : Bool) (s : State) : Answer := .next (onMemCtlCntClr tee s)

def onCxlCtlCntClr (tee : Bool) (s : State) : State := s.oneWrite 0x9010 (s.withBit 0x9010 8) tee

/-- The answer to `CXL_CTL_CNT_CLR`. -/
def execCxlCtlCntClr (tee : Bool) (s : State) : Answer := .next (onCxlCtlCntClr tee s)

def onCageCtlCntClr (tee : Bool) (s : State) : State := s.oneWrite 0xA000 1 tee

/-- The answer to `CAGE_CTL_CNT_CLR`. -/
def execCageCtlCntClr (tee : Bool) (s : State) : Answer := .next (onCageCtlCntClr tee s)

def onPortCtlCntClr (p : Fin 12) (tee : Bool) (s : State) : State :=
  s.oneWrite (portBase p.val) (s.withBit (portBase p.val) 9) tee

/-- The answer to `PORT_CTL_CNT_CLR`. -/
def execPortCtlCntClr (p : Fin 12) (tee : Bool) (s : State) : Answer := .next (onPortCtlCntClr p tee s)

def onFabCfgCntClr (tee : Bool) (s : State) : State := s.oneWrite 0xC000 (s.withBit 0xC000 20) tee

/-- The answer to `FAB_CFG_CNT_CLR`. -/
def execFabCfgCntClr (tee : Bool) (s : State) : Answer := .next (onFabCfgCntClr tee s)

def onTallyCfgCntClr (tee : Bool) (s : State) : State := s.oneWrite 0x5018 (s.withBit 0x5018 31) tee

/-- The answer to `TALLY_CFG_CNT_CLR`. -/
def execTallyCfgCntClr (tee : Bool) (s : State) : Answer := .next (onTallyCfgCntClr tee s)

def onPwrCtlCntClr (tee : Bool) (s : State) : State := s.oneWrite 0x6000 (s.withBit 0x6000 16) tee

/-- The answer to `PWR_CTL_CNT_CLR`. -/
def execPwrCtlCntClr (tee : Bool) (s : State) : Answer := .next (onPwrCtlCntClr tee s)

def onRasCfgCntClr (tee : Bool) (s : State) : State := s.oneWrite 0x7000 (s.withBit 0x7000 31) tee

/-- The answer to `RAS_CFG_CNT_CLR`. -/
def execRasCfgCntClr (tee : Bool) (s : State) : Answer := .next (onRasCfgCntClr tee s)

def onGlbCtlCntClr (tee : Bool) (s : State) : State := s.oneWrite 0x08C 1 tee

/-- The answer to `GLB_CTL_CNT_CLR`. -/
def execGlbCtlCntClr (tee : Bool) (s : State) : Answer := .next (onGlbCtlCntClr tee s)

/-- RING_CTL_EN: a write of the ring's control word; `line` is the doorbell line the Cage then takes (12 R307). -/
def onRingCtlEn (ring : Fin 32) (w : Word) (line : List Byte) (tee : Bool) (s : State) : State :=
  if s.barOpen then s.mmioWrite (ringBase ring.val) w.toNat line tee else s

/-- The answer to `RING_CTL_EN`. -/
def execRingCtlEn (ring : Fin 32) (w : Word) (line : List Byte) (tee : Bool) (s : State) : Answer :=
  .next (onRingCtlEn ring w line tee s)

/-- EVQ_EN (12 R306). -/
def onEvqEn (w : Word) (tee : Bool) (s : State) : State := s.oneWrite 0xA040 w.toNat tee

/-- The answer to `EVQ_EN`. -/
def execEvqEn (w : Word) (tee : Bool) (s : State) : Answer := .next (onEvqEn w tee s)

/-- JOBCTL_HOIST_CFG_EN (08 R186, R208). -/
def onJobctlHoistCfgEn (n : Fin 8) (w : Word) (tee : Bool) (s : State) : State :=
  s.oneWrite (jobBase n.val + 0x38) w.toNat tee

/-- The answer to `JOBCTL_HOIST_CFG_EN`. -/
def execJobctlHoistCfgEn (n : Fin 8) (w : Word) (tee : Bool) (s : State) : Answer := .next (onJobctlHoistCfgEn n w tee s)

/-- JOBCTL_SLUICE_CFG_EN (14 R360). -/
def onJobctlSluiceCfgEn (n : Fin 8) (w : Word) (tee : Bool) (s : State) : State :=
  s.oneWrite (jobBase n.val + 0x08) w.toNat tee

/-- The answer to `JOBCTL_SLUICE_CFG_EN`. -/
def execJobctlSluiceCfgEn (n : Fin 8) (w : Word) (tee : Bool) (s : State) : Answer := .next (onJobctlSluiceCfgEn n w tee s)

/-- TALLY_SET_HI (15 R384). -/
def onTallySetHi (w : Word) (tee : Bool) (s : State) : State := s.oneWrite 0x5014 w.toNat tee

/-- The answer to `TALLY_SET_HI`. -/
def execTallySetHi (w : Word) (tee : Bool) (s : State) : Answer := .next (onTallySetHi w tee s)

/-- DBG_CTL.CHAL_NEW (16 R408). -/
def onDbgCtlChalNew (tee : Bool) (s : State) : State := s.oneWrite 0x8040 1 tee

/-- The answer to `DBG_CTL_CHAL_NEW`. -/
def execDbgCtlChalNew (tee : Bool) (s : State) : Answer := .next (onDbgCtlChalNew tee s)

/-- DBG_CTL.SUBMIT (16 R409); a SUBMIT also wakes the device (17 R424). -/
def onDbgCtlSubmit (tee : Bool) (s : State) : State := s.oneWrite 0x8040 2 tee

/-- The answer to `DBG_CTL_SUBMIT`. -/
def execDbgCtlSubmit (tee : Bool) (s : State) : Answer := .next (onDbgCtlSubmit tee s)

/-- `RAS_UNIT_CMD` with `GO` (18 R447 to R449). -/
def unitWord (k op : Nat) : Nat := k + 2 ^ 13 * op + 2 ^ 15
def onRasUnitFence (k : Fin 8192) (tee : Bool) (s : State) : State := s.oneWrite 0x7008 (unitWord k.val 1) tee

/-- The answer to `RAS_UNIT_FENCE`. -/
def execRasUnitFence (k : Fin 8192) (tee : Bool) (s : State) : Answer := .next (onRasUnitFence k tee s)

def onRasUnitReturn (k : Fin 8192) (tee : Bool) (s : State) : State := s.oneWrite 0x7008 (unitWord k.val 2) tee

/-- The answer to `RAS_UNIT_RETURN`. -/
def execRasUnitReturn (k : Fin 8192) (tee : Bool) (s : State) : Answer := .next (onRasUnitReturn k tee s)

def onRasUnitRestore (k : Fin 8192) (tee : Bool) (s : State) : State := s.oneWrite 0x7008 (unitWord k.val 3) tee

/-- The answer to `RAS_UNIT_RESTORE`. -/
def execRasUnitRestore (k : Fin 8192) (tee : Bool) (s : State) : Answer := .next (onRasUnitRestore k tee s)

/-- FW_CTL.STAGE with `LEN` (18 R456). -/
def onFwCtlStage (len : Nat) (tee : Bool) (s : State) : State := s.oneWrite 0x7080 (len % 2 ^ 25 + 2 ^ 25) tee

/-- The answer to `FW_CTL_STAGE`. -/
def execFwCtlStage (len : Nat) (tee : Bool) (s : State) : Answer := .next (onFwCtlStage len tee s)

def onFwCtlActivate (tee : Bool) (s : State) : State := s.oneWrite 0x7080 (s.withBit 0x7080 26) tee

/-- The answer to `FW_CTL_ACTIVATE`. -/
def execFwCtlActivate (tee : Bool) (s : State) : Answer := .next (onFwCtlActivate tee s)

def onFwCtlCommit (tee : Bool) (s : State) : State := s.oneWrite 0x7080 (s.withBit 0x7080 27) tee

/-- The answer to `FW_CTL_COMMIT`. -/
def execFwCtlCommit (tee : Bool) (s : State) : Answer := .next (onFwCtlCommit tee s)

/-- FW_CTL.RECOVER, written while the boot ROM runs (18 R459). -/
def onFwCtlRecover (s : State) : State := s.fwRecover

/-- The answer to `FW_CTL_RECOVER`. -/
def execFwCtlRecover (s : State) : Answer := .next (onFwCtlRecover s)

/-! ### POWER_SET (17 R423, 15 R371, 12 R302) -/

def powerSetSpec : CmdSpec :=
  { opcode := 0x0B, usesSlot := false, admin := true, operands := [(128, 32), (160, 3)], needsSurvey := false, entries := 1 }

/-- The fastest step the limits allow: the strapped profile, the thermal trip, the sag gate (12 R302). -/
def State.limitStep (s : State) : Nat := if s.pwr.tripLimit || s.clk.sagThrottle then 3 else s.ceiling

/-- POWER_SET: an order beyond a limit is refused whole with PREEMPTED, and one that would gate units of a slot which a FENCE or BARRIER of
the same MCLK cycle holds loses to it; otherwise it completes once its step is in force and
the voltage stands. -/
def onPowerSet (d : Desc) (s : State) : State :=
  let step := leAt d.bytes 20 1 % 8
  s.startCmd powerSetSpec d true (.powerSet step) fun s st =>
    if 4 ≤ step ∧ step ≠ 7 then s.complete st stInvalidArgument 0 []
    else if step < s.limitStep then (s.orderLost 0x200 .limit 2 .power 0).complete st stPreempted 0 s.powerResult
    else if s.fenceTie.isSome ∧ leAt d.bytes 16 4 ≠ 0 then
      (s.orderLost (s.fenceTie.getD 0) .fence 0 .power 0).complete st stPreempted 0 s.powerResult
    else
      let s1 : State := { s with
        pwr := { s.pwr with wakeUs := leAt d.bytes 16 4 }
        clk := { s.clk with hostStep := if step = 7 then s.clk.hostStep else step } }
      s1.reviewClock.settlePower

/-- The answer to `POWER_SET`. -/
def execPowerSet (d : Desc) (s : State) : Answer := .next (onPowerSet d s)

/-! ### End of a wake (17 R423, R424) -/

/-- IDLE_EXIT_COMPLETE: the device is in A0; held accesses and writes take effect in order (20 R485, 10 R254). -/
def onIdleExitComplete (s : State) : State :=
  if s.pwr.waking.isNone then s
  else
    let was := s.pwr.idle
    let s1 := s.flowWake
    let s2 : State := { s1 with
      hbm := if was < 2 then s1.hbm else { s1.hbm with waiting := []
                                                       pcs := if was = 2 then (List.range 1536).map (·, PcState.powerDown) else [] }
      pwr := { s1.pwr with
      idle := 0, waking := none, heldMem := [], heldWrites := [], idleSince := s.clk.root } }
    let s3 := if was = 4 then s2.fabTransit true else s2
    let s3b := s.flow.bankWait.foldl (fun (s : State) w =>
      let x := s.accessBank w.site (lineBank (w.off / 64))
      if x.2 then x.1.spadAccess w else { x.1 with flow := { x.1.flow with bankWait := x.1.flow.bankWait ++ [w] } })
      { s3 with flow := { s3.flow with bankWait := [] } }
    let s4 := s.pwr.heldMem.foldl State.hostMem s3b
    s.pwr.heldWrites.foldl (fun s x => s.mmioWrite x.off (leAt x.bytes 0 4) [] x.tee) s4

/-- The answer to `IDLE_EXIT_COMPLETE`. -/
def execIdleExitComplete (s : State) : Answer := .next (onIdleExitComplete s)

/-! ### JTAG (19 R479) -/

/-- The TAP answers once the Headframe controller has booted (19 R471, R479). -/
def State.tapUp (s : State) : Bool := s.pwr.phase == .running

/-- IDCODE 0xV962_44A3 with V the Revision ID modulo 16 (R479, R488). -/
def idcode : Nat := Config.devRev.toNat % 16 * 2 ^ 28 + 0x96244A3
def onJtagIdcode (s : State) : State :=
  if s.tapUp then ({ s with jtag := 1 } : State).emit (.jtag ((List.range 32).map fun i => bitAt idcode i)) else s

/-- The answer to `JTAG_IDCODE`. -/
def execJtagIdcode (s : State) : Answer := .next (onJtagIdcode s)

def onJtagBypass (s : State) : State := if s.tapUp then { s with jtag := 0 } else s

/-- The answer to `JTAG_BYPASS`. -/
def execJtagBypass (s : State) : Answer := .next (onJtagBypass s)

/-- SAMPLE/PRELOAD captures the lands and loads the chain. -/
def onJtagSamplePreload (lands load : List Bool) (s : State) : State :=
  if s.tapUp then ({ s with jtag := 2, boundary := load } : State).emit (.jtag lands) else s

/-- The answer to `JTAG_SAMPLE_PRELOAD`. -/
def execJtagSamplePreload (lands load : List Bool) (s : State) : Answer := .next (onJtagSamplePreload lands load s)

/-- EXTEST drives the chain while PERST# is asserted, and otherwise acts as BYPASS; PERST has it start or stop with PERST#. -/
def onJtagExtest (s : State) : State :=
  if !s.tapUp then s
  else if s.pwr.perst then (({ s with jtag := 3 } : State).emit (.pin .boundary true)).emit (.jtag s.boundary)
  else { s with jtag := 3 }

/-- The answer to `JTAG_EXTEST`. -/
def execJtagExtest (s : State) : Answer := .next (onJtagExtest s)

end Sys2Proof.Machine
end

