-- ==== Sys2Proof/Machine/Flow.lean ====
section
/-! DEFINITION. Token arrival, tile boundaries, accumulator sets, panels, credits, spill, coalescing, banks, the Mucker and the
watchdog (02 R51; 03 R63 to R72; 04 R97 to R104; 05 R122 to R126, R134, R138, R139, R144, R146; 08 R202). -/
namespace Sys2Proof.Machine

/-- A job slot as an index. -/
def slotFin (n : Nat) : Fin 8 := ⟨n % 8, Nat.mod_lt _ (by decide)⟩

/-! ### TOKEN_ARRIVAL -/

/-- A token whose payload has not the length its stream's kind requires is taken as an ERROR token (R114, R115). -/
def checkedToken (t : Tmpl) (k : Token) : Token :=
  match k.pay with
  | .data bs =>
    let n := bs.length
    let ok := decide (1 ≤ n) && decide (n ≤ 16384) &&
      (if t.kind = 2 ∨ t.kind = 4 then n == 4 else if t.kind = 3 then n == 16
       else if t.kind = 1 then n % 64 == 0 && decide ((ScaleTok.parse bs).size ≤ n) && decide (n < (ScaleTok.parse bs).size + 64)
       else true) && decide (n ≤ 64 * t.lines)
    if ok then k else { k with pay := .error }
  | _ => k

/-- Bytes of the panel that a region holds: the entry that reads it gives its rows and columns (log entry 12). -/
def StRef.panelBytes (r : StRef) (p : InPort) : Nat :=
  match r.st.panelShape p.preg with
  | some sh => sh.1 * packedBytes (fmtBits p.ifmt) sh.2
  | none => 0

/-- First-order codes and second-order scales of a fill tile's blocks, in the scale token's order. Another scheme than the port's makes
each block NaN, as a token of no scheme does (02 R48; log entry 8). -/
def StRef.fillScales (r : StRef) (p : Nat × InPort) (h : Held) (n : Nat) (sb : List Byte) : List (Nat × Word) :=
  let t := ScaleTok.parse sb
  let bl := blockLen p.2.ischeme
  let c := if h.tok.cols = 0 then tileElems p.2.ifmt 0 n else h.tok.cols
  let rows := tileElems p.2.ifmt h.tok.cols n / max 1 c
  if t.scheme ≠ p.2.ischeme then List.replicate (rows * ceilDiv c bl) (0xFF, 0)
  else (List.range t.nblk).map fun b => (t.s1 b, t.s2 (r.rowBlocks p c) (b / max 1 (ceilDiv c bl)) (b % max 1 (ceilDiv c bl)) h.tok.tag)

/-- A fill token enters its panel region: whole bytes, with the scales of its scale token; both leave their rings (03 R70, R72; 07
R498). -/
def State.fillPanel (s : State) (r : StRef) (p : Nat × InPort) (h : Held) : State :=
  let x := s.panel r.st.site r.st.ctx p.2.preg
  match h.tok.pay with
  | .data bs =>
    let scale := if p.2.ischeme = 0 then none else (s.portToks r p.2.sport).find? fun y => y.tok.tag == h.tok.tag
    let scs := match scale with
      | some y => (match y.tok.pay with | .data sb => r.fillScales p h bs.length sb | _ => [])
      | none => []
    let y := if 0 < x.used then PanelRun.empty else x
    let s1 := s.setPanel r.st.site r.st.ctx p.2.preg { y with bytes := y.bytes ++ bs, scales := y.scales ++ scs, tag := h.tok.tag }
    let s2 := s1.releaseTok r p.2 h.order
    (match scale, r.st.ins[p.2.sport]? with
     | some z, some sp => s2.releaseTok r sp z.order
     | _, _ => s2)
  | _ => s.releaseTok r p.2 h.order

/-- A fired product still reads a panel region: its last k-step has not entered the arrays (R72). -/
def State.panelRead (s : State) (r : StRef) (reg : Nat) : Bool :=
  (List.range 4).any fun a => match s.stepping r.st.site a with
    | some w => w.station == r.dev && w.panel == some reg
    | none => false

/-- Fill tokens that can enter their regions now: a scaled one needs its scale token, and a region waits until its fill's uses are over and
no fired product reads it (R72). -/
def State.fillPanels (s : State) (r : StRef) : State :=
  if r.st.kind ≠ 1 then s
  else r.st.ins.zipIdx.foldl (fun s p =>
    if p.1.role ≠ 6 then s
    else (s.portToks r p.2).foldl (fun (s : State) h =>
      let x := s.panel r.st.site r.st.ctx p.1.preg
      let due := p.1.ischeme == 0 || (s.portToks r p.1.sport).any fun y => y.tok.tag == h.tok.tag
      if due ∧ !x.ready ∧ !s.panelRead r p.1.preg ∧ (0 < x.used ∨ x.bytes.length < r.panelBytes p.1) then s.fillPanel r (p.2, p.1) h else s) s) s

/-- Put a flight's token where it goes: into a ring slot by its credit, or by one that has come back since (a token of the Cage, which sends
without one), else into the spill region once its banks are awake (04 R101, R103). None while it has no room. -/
def State.land (s : State) (f : Flight) (g : RingRun) (t : Tmpl) (k : Token) : Option State × State :=
  if f.credit then (s.intoRing f.site f.ring g t.slots k, s)
  else if !t.spillEn then
    (if 0 < g.credits then s.intoRing f.site f.ring { g with credits := g.credits - 1 } t.slots k else none, s)
  else
    let ms := t.spillSite f.site
    let b := s.accessBanks ms ((s.spillLines ms t.spill (s.spillNext ms t.spill g) k.lines).map lineBank).dedup
    if b.2 then (b.1.intoSpill f.site f.ring g t k, s) else (none, b.1)

/-- TOKEN_ARRIVAL of the n-th token on the mesh, in the order of its producer and ring (R135): it lands in its ring slot or
its spill region and is indexed; a token of a foreign or killed slot is discarded (R117, R126, R146). -/
def onTokenArrival (n : Nat) (fault : TokenFault) (s : State) : State :=
  match s.flow.flights[n]? with
  | none => s
  | some f =>
    if (s.flow.flights.take n).any fun g => g.src == f.src && g.site == f.site && g.ring == f.ring then s
    else
      let gone (s : State) : State := { s with flow := { s.flow with flights := s.flow.flights.eraseIdx n } }
      match s.rng f.site f.ring with
      | none => (gone s).killDrop f
      | some g =>
        if g.slot ≠ f.slot ∨ tagSlot f.tok.tag ≠ g.slot ∨ (s.slot g.slot).killing then (gone s).killDrop f
        else match s.ringTmpl g, s.ringPort g with
          | some t, some x =>
            (match fault with
             | .tagParity tag => (gone s).jobFault (slotFin g.slot) 0x0013 f.site f.ring tag 0 0
             | .matchParity => (gone s).jobFault (slotFin g.slot) 0x0012 f.site g.ctx 0 0 0
             | _ =>
               let y := s.land f g t (checkedToken t f.tok)
               match y.1 with
               | none => y.2
               | some s1 =>
                 let s2 := (((gone s1).indexAll 64 x.1).fillPanels x.1).pump f.site f.ring
                 (match fault with
                  | .ringUe w => s2.sramUe (slotFin g.slot) f.site .ring w
                  | _ => s2))
          | _, _ => (gone s).killDrop f

/-- The answer to `TOKEN_ARRIVAL`. -/
def execTokenArrival (n : Nat) (fault : TokenFault) (s : State) : Answer := .next (onTokenArrival n fault s)

/-! ### PANEL_FILL_COMPLETE, ACCUMULATOR_SWAP, SHADOW_DRAIN (03) -/

/-- PANEL_FILL_COMPLETE: the region's last byte has arrived, and the fill's completion is an operand of the products that
name it (R72). `ce` corrected errors, `ue` an uncorrectable word (R436). -/
def onPanelFillComplete (dev : Fin 8192) (region : Fin 8) (ce : Nat) (ue : Option Nat) (s : State) : State :=
  match s.station dev.val with
  | none => s
  | some r =>
    match r.st.ins.find? fun p => p.role == 6 && p.preg == region.val with
    | none => s
    | some p =>
      let x := s.panel r.st.site r.st.ctx region.val
      if x.ready ∨ 0 < x.used ∨ r.panelBytes p = 0 ∨ x.bytes.length < r.panelBytes p then s
      else
        let s0 := s.setPanel r.st.site r.st.ctx region.val { x with ready := true, order := s.flow.order }
        let s1 : State := ({ s0 with flow := { s0.flow with order := s0.flow.order + 1 } } : State).bumpSite r.st.site 0x150 ce
        match ue with
        | some w => s1.sramUe (slotFin r.slot) r.st.site .panel w
        | none => s1

/-- The answer to `PANEL_FILL_COMPLETE`. -/
def execPanelFillComplete (dev : Fin 8192) (region : Fin 8) (ce : Nat) (ue : Option Nat) (s : State) : Answer :=
  .next (onPanelFillComplete dev region ce ue s)

/-- The tile that waits for its swap continues the one that the active set holds: it has to leave the cells and be loaded first (06 R149). -/
def ArrayRun.behind (x : ArrayRun) (w : TileWork) : Bool :=
  !w.fresh && (match x.cur.work with | some o => o.isOpen w.station w.tile | none => false)

/-- ACCUMULATOR_SWAP of an array: the tile whose first k-step waits swaps to the other set once that set's shadow work is
complete (R63, R65). -/
def onAccumulatorSwap (site : Fin 8192) (a : Fin 4) (s : State) : State :=
  let x := s.arr site.val a.val
  match x.next with
  | none => s
  | some w =>
    let other := !x.active
    let y := x.set other
    if y.work.isSome ∨ s.clk.root < y.busy ∨ x.behind w.1 then s
    else
      let d := aclkDiv s.clk.step
      let waited := (s.clk.root - w.2) / d
      let lane := min waited y.laneWait
      let x1 := (x.putSet other { work := some { w.1 with done := s.clk.root + (w.1.done + 3) * d }, busy := 0, laneWait := 0 })
      let s1 := s.setArr site.val a.val { x1 with active := other, next := none }
      (s1.bumpSite site.val 0x120 (waited - lane)).bumpSite site.val 0x128 lane

/-- The answer to `ACCUMULATOR_SWAP`. -/
def execAccumulatorSwap (site : Fin 8192) (a : Fin 4) (s : State) : Answer := .next (onAccumulatorSwap site a s)

/-- All arrays of a firing have drained: its output tokens (R67, 06 R161), each port's along its own axis (R66). A FUSED tile's queries each
give one row. INT32 tiles enter a vector program by their values (log entry 12). -/
def State.emitFiring (s : State) (r : StRef) (entry : Nat) (e : Entry) (w : TileWork) (vals : List (List Word)) : State :=
  let prog := r.survey.entryProg e
  let ports := e.outPorts r.st
  if r.st.kind = 2 then
    -- per array and query j, the Dv values O[u][i][j]; the block's row state is that of its open tile
    let rows := (vals.map fun v => (List.range 16).map fun j =>
      (List.range (v.length / 16)).map fun n => v.getD (256 * (n / 16) + 16 * (n % 16) + j) 0).flatten
    let first := 16 * e.nArr * ((w.tile - r.accBase entry) / max 1 (r.dv e / 16))
    let lines := (linesOfRows 16 rows).map fun l => (first + l.1, l.2)
    let x := s.runLines r (fusedProg prog).2.2.2 false w.tag lines
    (x.1.outputRows r ports w.tag w.count w.step false (rowsOut lines x)).openBoundary r w.step
  else
    let s1 := [false, true].foldl (fun (s : State) axis =>
      let qs := ports.filter fun q => r.byCol entry q == axis
      let rows := arrangeLines axis ((vals.map (drainLines axis)).flatten)
      if qs.isEmpty then s
      else if prog.isEmpty then s.outputRows r qs w.tag w.count w.step w.isInt fun _ => rows
      else
        let lines := (linesOfRows 16 rows).map fun l => (l.1, pipelineWords w.isInt l.2)
        let x := s.runLines r prog true w.tag lines
        x.1.outputRows r qs w.tag w.count w.step false (rowsOut lines x)) s
    s1.openBoundary r w.step

/-- The tile of a drained set reaches its destination. -/
def State.deliverDrain (s : State) (r : StRef) (a : Nat) (w : TileWork) : State :=
  let site := r.st.site
  match w.dest with
  | .acc tile => s.accStore site a tile w.vals
  | .flush entry tile =>
    let s1 := s.accStore site a tile w.vals
    (match r.st.ents[entry]? with
     | some e =>
       let rest := e.arrays.any fun b => let x := s1.arr site b
         [x.next.map (·.1), x.a.work, x.b.work].any fun o => match o with | some y => y.station == r.dev && y.firing == w.firing | none => false
       if rest then s1 else s1.flushStationary r entry e w.tag w.step
     | none => s1)
  | .outs entry =>
    match r.st.ents[entry]? with
    | none => s
    | some e =>
      let x := s.run r.dev
      let all := x.drained ++ [(w.firing, a, w.vals)]
      let mine := all.filter fun d => d.1 == w.firing
      if mine.length < e.nArr then s.setRun r.dev { x with drained := all }
      else
        let s1 := s.setRun r.dev { x with drained := all.filter fun d => d.1 != w.firing }
        s1.emitFiring r entry e w (e.arrays.filterMap fun b => (mine.find? fun d => d.2.1 == b).map fun d => d.2.2)

/-- A drain passes the vector pipeline: a FUSED tile, one with a program, or one whose output format is narrower than FP32 (R67). -/
def StRef.through (r : StRef) (w : TileWork) : Bool :=
  match w.dest with
  | .outs entry => (match r.st.ents[entry]? with
    | some e => r.st.kind == 2 || !(r.survey.entryProg e).isEmpty ||
        (e.outPorts r.st).any fun q => match r.st.outs[q]? with | some o => (r.st.conv o).fmt != 0 | none => false
    | none => false)
  | _ => false

/-- A set can be drained: its last add is complete, no earlier tile still stands in the other set, and it is no open tile that the cells keep
because nothing waits for them (R64, 06 R149). -/
def ArrayRun.drainable (x : ArrayRun) (set : Bool) (w : TileWork) (now : Nat) : Bool :=
  decide (w.done ≤ now) && !((x.set (!set)).work.any fun z => z.done < w.done) &&
  !(set == x.active && x.next.isNone && w.isOpen w.station w.tile)

/-- SHADOW_DRAIN of an array's set: 16 cycles a tile, and one more where the tile that the set takes next is loaded behind it (R64); through
the vector pipeline it first waits for free lanes (R67). The load reads accumulator memory: `ce` corrected errors, `ue` an uncorrectable word,
of the job whose tile is loaded (R69). -/
def onShadowDrain (site : Fin 8192) (a : Fin 4) (set : Bool) (ce : Nat) (ue : Option Nat) (s : State) : State :=
  let x := s.arr site.val a.val
  let y := x.set set
  match y.work with
  | none => s
  | some w =>
    if !x.drainable set w s.clk.root then s
    else match s.station w.station with
      | none => s.setArr site.val a.val (x.putSet set .idle)
      | some r =>
        let d := aclkDiv s.clk.step
        let next := x.next.bind fun n => if n.1.fresh then none else some n.1
        -- the set that the waiting tile takes, or the one it leaves
        let pair := next.filter fun _ => set != x.active
        let after := next.filter fun n => set == x.active && w.isOpen n.station n.tile
        let through := r.through w
        let start := if through then laneStart (s.busyLanes site.val) s.clk.root else s.clk.root
        let len := (match pair with | some n => 16 * max w.tiles n.tiles + 1 | none => 16 * w.tiles) * d
        let s0 := if through then s.takeLane site.val s.clk.root (16 * w.tiles * d) else s
        let x1 := x.putSet set { work := none, busy := start + len, laneWait := (start - s.clk.root) / d }
        let x2 := match after with
          | some n => x1.putSet (!set) { x1.set (!set) with busy := max (x1.set (!set)).busy (start + len) + 16 * n.tiles * d }
          | none => x1
        let s1 := (s0.setArr site.val a.val x2).deliverDrain r a.val w
        match (match pair with | some n => some n | none => after).bind fun n => s.station n.station with
        | some o =>
          let s2 := (s1.bumpSite site.val 0x148 ce).ceSite site.val SramStruct.accum.code ce
          (match ue with
           | some word => s2.sramUe (slotFin o.slot) site.val .accum word
           | none => s2)
        | none => s1

/-- The answer to `SHADOW_DRAIN`. -/
def execShadowDrain (site : Fin 8192) (a : Fin 4) (set : Bool) (ce : Nat) (ue : Option Nat) (s : State) : Answer :=
  .next (onShadowDrain site a set ce ue s)

/-! ### TILE_BOUNDARY (00 R6, 02 R51, 04 R98, 05 R138) -/

/-- The streams of a station whose walks have passed their last position take their next re-arm entries (R138). -/
def State.rearmDue (s : State) (r : StRef) : State :=
  r.st.ents.foldl (fun s e => if 0 < (s.stream r.slot e.tmpl).due then s.takeRearm r e else s) s

/-- Add the Canary counts of a station's oldest tile to its tensors' windows (02 R51). -/
def State.closeCanaries (s : State) (r : StRef) : State :=
  let tile := match (s.run r.dev).marks with | m :: _ => m.2 | [] => []
  r.st.convs.zipIdx.foldl (fun s d =>
    let n := tblGet (fun _ => [0, 0, 0, 0]) tile d.2
    if n.getD 3 0 = 0 then s
    else
      let c := tblGet (fun _ => Canary.zero) (s.run r.dev).canary d.2
      let x := s.canaryClose { c with tile := n } d.1 r.dev (slotFin r.slot) d.2
      x.1.setRun r.dev { x.1.run r.dev with canary := tblSet (fun _ => Canary.zero) (x.1.run r.dev).canary d.2 { x.2 with tile := c.tile } }) s

/-- TILE_BOUNDARY of a station: the generator writes its held lines, then signals completion; RWL writes and re-arm entries
apply; the tile's Canary counts are added (R6, R51, R98, R138, R202). -/
def onTileBoundary (dev : Fin 8192) (s : State) : State :=
  match s.station dev.val with
  | none => s
  | some r =>
    let x := s.run r.dev
    if x.tiles = 0 then s
    else
      let s1 := (s.flushCoal r)
      let s2 := s1.setCoal r .empty
      let s3 := x.waiting.foldl (fun (s : State) w => s.output r w.1 w.2) s2
      let s4 := (s3.closeCanaries r).rearmDue r
      ((s4.setRun r.dev { s4.run r.dev with tiles := x.tiles - 1, marks := (s4.run r.dev).marks.drop 1, waiting := [] }).applyHeld
        r.st.site).pumpSpills r.st.site

/-- The answer to `TILE_BOUNDARY`. -/
def execTileBoundary (dev : Fin 8192) (s : State) : Answer := .next (onTileBoundary dev s)

/-- COAL_HOLD_EXPIRY: a line held for `COAL_HOLD` cycles is written (04 R97). -/
def onCoalHoldExpiry (dev : Fin 8192) (s : State) : State :=
  match s.station dev.val with
  | none => s
  | some r =>
    let c := s.coalOf r
    if c.line.isSome ∧ c.since + s.rf (siteBase r.st.site) 0 8 * aclkDiv s.clk.step ≤ s.clk.root then s.flushCoal r else s

/-- The answer to `COAL_HOLD_EXPIRY`. -/
def execCoalHoldExpiry (dev : Fin 8192) (s : State) : Answer := .next (onCoalHoldExpiry dev s)

/-! ### Credits and spill (04 R101, 05 R134, R139) -/

/-- SPILL_RETURN of a ring: its oldest spilled token takes a free slot, once its banks are awake; `ce` corrected errors count, and an
uncorrectable word stops the job: the token is an ERROR token then (04 R85, R101, R103). -/
def State.spillReturn (s : State) (site ring ce : Nat) : State :=
  match s.rng site ring with
  | none => s
  | some g => match g.spill, s.ringTmpl g, s.ringPort g with
    | k :: rest, some t, some x =>
      let ms := t.spillSite site
      let b := s.accessBanks ms ((s.spillLines ms t.spill k.line k.tok.lines).map lineBank).dedup
      if g.freed = 0 then s
      else if !b.2 then b.1
      else
        let g1 := { g with spill := rest, freed := g.freed - 1 }
        let bad := b.1.spillUe ms t.spill k
        (match (b.1.setRng site ring (some g1)).intoRing site ring g1 t.slots (if bad.isSome then { k.tok with pay := .error } else k.tok) with
         | some s1 =>
           let s2 := (((s1.bumpSite ms 0x140 k.tok.lines).bumpSite ms 0x100 k.tok.lines).bumpSite ms 0x158 ce).ceSite ms SramStruct.scratch.code ce
           let s3 := (((match bad with | some w => s2.spadUe w | none => s2).indexAll 64 x.1).fillPanels x.1)
           s3.pump site ring
         | none => s)
    | _, _, _ => s
def onSpillReturn (site : Fin 8192) (ring : Fin 32) (ce : Nat) (s : State) : State := s.spillReturn site.val ring.val ce

/-- The answer to `SPILL_RETURN`. -/
def execSpillReturn (site : Fin 8192) (ring : Fin 32) (s : State) (ce : Nat := 0) : Answer := .next (onSpillReturn site ring ce s)

/-- RING_CREDIT_RETURN: a released slot's credit reaches the producer, unless spilled tokens are to take the slot (R101, R134); a token that
waits for it is sent. -/
def onRingCreditReturn (site : Fin 8192) (ring : Fin 32) (s : State) : State :=
  match s.rng site.val ring.val with
  | none => s
  | some g =>
    if g.freed = 0 ∨ !g.spill.isEmpty then s
    else (s.setRng site.val ring.val (some { g with freed := g.freed - 1, credits := g.credits + 1 })).pump site.val ring.val

/-- The answer to `RING_CREDIT_RETURN`. -/
def execRingCreditReturn (site : Fin 8192) (ring : Fin 32) (s : State) : Answer := .next (onRingCreditReturn site ring s)

/-! ### Banks (04 R102, R103, R105) -/

/-- Writes accepted for a bank and not performed: held coalescing lines, and the lines of tokens on their way into a spill region (R103). -/
def State.bankPending (s : State) (site b : Nat) : Bool :=
  ([0, 1].any fun c => match (tblGet (fun _ => CoalRun.empty) s.flow.coal (2 * site + c)).line with
    | some l => lineBank l.1 == b
    | none => false) ||
  s.flow.flights.any fun f => !f.credit && (match s.rng f.site f.ring with
    | some g => (match s.ringTmpl g with
      | some t => t.spillEn && t.spillSite f.site == site &&
          ((s.spillLines site t.spill (s.spillNext site t.spill g) f.tok.lines).map lineBank).contains b
      | none => false)
    | none => false)

/-- BANK_IDLE_ENTRY: `IDLE_THR` idle cycles with no pending write. -/
def onBankIdleEntry (site : Fin 8192) (b : Fin 32) (s : State) : State :=
  let thr := s.rf (siteBase site.val + 8) 0 16
  if isCu site.val ∨ !s.live ∨ 0 < s.pwr.idle ∨ thr = 0 ∨ s.bank site.val b.val ≠ .active ∨ s.bankPending site.val b.val ∨
      s.clk.root < tblGet (fun _ => 0) s.flow.bankLast (bankKey site.val b.val) + thr * aclkDiv s.clk.step then s
  else (s.setBank site.val b.val (.entering s.clk.root)).bumpSite site.val 0x148

/-- The answer to `BANK_IDLE_ENTRY`. -/
def execBankIdleEntry (site : Fin 8192) (b : Fin 32) (s : State) : Answer := .next (onBankIdleEntry site b s)

/-- BANK_RETAIN_ENTRY: 16 cycles after ENTERING. -/
def onBankRetainEntry (site : Fin 8192) (b : Fin 32) (s : State) : State :=
  match s.bank site.val b.val with
  | .entering t => if t + 16 * aclkDiv s.clk.step ≤ s.clk.root then s.setBank site.val b.val .retain else s
  | _ => s

/-- The answer to `BANK_RETAIN_ENTRY`. -/
def execBankRetainEntry (site : Fin 8192) (b : Fin 32) (s : State) : Answer := .next (onBankRetainEntry site b s)

/-- BANK_WAKE: 24 cycles after an access arrived the bank is ACTIVE, and the debug accesses that wait for it are performed in
order; a station's tile fires again. -/
def onBankWake (site : Fin 8192) (b : Fin 32) (s : State) : State :=
  match s.bank site.val b.val with
  | .waking t =>
    if s.clk.root < t + 24 * aclkDiv s.clk.step then s
    else
      let s1 := s.setBank site.val b.val .active
      let mine (w : BankWait) : Bool := w.site == site.val && lineBank (w.off / 64) == b.val
      let s2 : State := { s1 with flow := { s1.flow with
        bankLast := tblSet (fun _ => 0) s1.flow.bankLast (bankKey site.val b.val) s.clk.root
        bankWait := s1.flow.bankWait.filter fun w => !mine w } }
      (s.flow.bankWait.filter mine).foldl State.spadAccess s2
  | _ => s

/-- The answer to `BANK_WAKE`. -/
def execBankWake (site : Fin 8192) (b : Fin 32) (s : State) : Answer := .next (onBankWake site b s)

/-! ### MUCKER_PAGE_SCRUBBED (04 R104) -/

def onMuckerPageScrubbed (site : Fin 8192) (pg : Fin 512) (s : State) : State :=
  if s.pageDirty site.val pg.val then s.scrubPage site.val pg.val else s

/-- The answer to `MUCKER_PAGE_SCRUBBED`. -/
def execMuckerPageScrubbed (site : Fin 8192) (pg : Fin 512) (s : State) : Answer := .next (onMuckerPageScrubbed site pg s)

/-! ### WATCHDOG_EXPIRY (05 R144, R145) -/

/-- First unmatched port of a station's nearest firing; 0xF when all are matched. Where no lead token is held, the lead port of the entry
nearest to firing is unmatched. -/
def State.missingPort (s : State) (r : StRef) : Nat := match (s.gaps r).1 with | p :: _ => p.1 | [] => 0xF

/-- Tag of a station's earliest-arrived held token. -/
def State.oldestTag (s : State) (r : StRef) : Nat :=
  let all := (List.range r.st.ins.length).map fun p => match r.st.ins[p]? with
    | some ip => (match s.rng r.st.site ip.ring with | some g => g.toks | none => [])
    | none => []
  match all.flatten.foldl (fun a h => match a with
    | some (b : Held) => if h.order < b.order then some h else some b | none => some h) none with
  | some h => h.tok.tag
  | none => 0

/-- WATCHDOG_EXPIRY of a slot: the count has reached 2^`LIMIT_LOG2`; DEADLOCK_SUSPECTED names the lowest stalled context. -/
def onWatchdogExpiry (n : Fin 8) (s : State) : State :=
  let lim := s.rf (jobBase n.val + 0x20) 1 6
  if !s.watching n.val ∨ s.ctr (jobBase n.val + 0x28) < 2 ^ lim then s
  else
    let stalled := (s.stationsOf n.val).filter fun r => s.ctxRow r != 0
    let first := match stalled with
      | r :: _ => leBytes 2 r.dev ++ leBytes 1 (s.ctxRow r + 16 * s.missingPort r) ++ zeroBytes 3 ++ leBytes 4 (s.oldestTag r)
      | [] => leBytes 2 0 ++ leBytes 1 0xF0 ++ zeroBytes 3 ++ leBytes 4 0
    let payload := leBytes 1 n.val ++ leBytes 1 lim ++ first ++ leBytes 2 stalled.length ++ zeroBytes 2 ++
      leBytes 8 (s.slot n.val).progress.toNat
    let s1 := s.setSlot n.val { s.slot n.val with barked := true }
    s1.raise 0x0014 .warning (some n) payload

/-- The answer to `WATCHDOG_EXPIRY`. -/
def execWatchdogExpiry (n : Fin 8) (s : State) : Answer := .next (onWatchdogExpiry n s)

end Sys2Proof.Machine
end

