-- ==== Sys2Proof/Machine/TimeSync.lean ====
section
/-! DEFINITION. Synchronisation of Tally: offset samples, their handling by state, holdover (15 R373 to R378). -/
namespace Sys2Proof.Machine

def State.lockNs (s : State) : Nat := s.rf 0x5018 9 10
def State.stepNs (s : State) : Nat := s.rf 0x5018 19 12

/-- Slewing removes an offset: the rate it uses is open, within ±200 ppm. -/
def State.slew (s : State) (ofs : Int) : State :=
  ({ s with clk := { s.clk with trim := max (-200000) (min 200000 (Config.slewTrim ofs s.fresh)) } } : State).draw

/-- An offset in ACQUIRING: a large one is removed by a step, another by slewing; the eighth consecutive sample within the lock
window makes the device LOCKED. -/
def State.acquire (s : State) (ofs : Int) : State :=
  let streak := if ofs.natAbs ≤ s.lockNs then s.clk.streak + 1 else 0
  let s1 : State := { s with clk := { s.clk with streak := streak, sync := if 8 ≤ streak then .locked else .acquiring } }
  if s.stepNs < ofs.natAbs then s1.stepTally (BitVec.ofInt 64 ofs) else s1.slew ofs

/-- An offset in LOCKED is slewed away; one above 100 lock windows raises TALLY_SYNC_LOST and leaves LOCKED. -/
def State.track (s : State) (ofs : Int) : State :=
  let s1 := s.slew ofs
  if 100 * s.lockNs < ofs.natAbs then
    (({ s1 with clk := { s1.clk with sync := .acquiring, streak := 0 } } : State).bump 0x5120).ev 0x0061 .warning
      (s.clk.parentPort.getD 0xF) 0 (unsigned 64 ofs) 0 0
  else s1

/-- One offset sample from the parent (R376 to R378). A device in HOLDOVER acquires its parent again. -/
def State.sample (s : State) (ofs : Int) : State :=
  let s1 := ({ s with clk := { s.clk with offset := ofs, lastSample := s.clk.root } } : State).bump 0x5110
  match s.clk.sync with
  | .locked => s1.track ofs
  | .acquiring => s1.acquire ofs
  | .holdover => ({ s1 with clk := { s1.clk with streak := 0 } } : State).acquire ofs
  | .free => s1
  | .root => s1

/-- Offset and delay of R376 from the four times of an exchange. -/
def offsetOf (t1 t2 t3 t4 : BitVec 64) : Int := ((t2 - t1).toInt + (t3 - t4).toInt) / 2
def delayOf (t1 t2 t3 t4 : BitVec 64) : Int := ((t4 - t1).toInt - (t3 - t2).toInt) / 2

/-- The parent is still there: a port that is UP with a known neighbour. -/
def State.parentPresent (s : State) : Bool :=
  match s.clk.parentPort with
  | some p => s.portUp p && !(s.port p).neigh.isEmpty
  | none => false

/-- TALLY_HOLDOVER: the parent of a LOCKED device is lost, or has sent no sample for 1 s; the last trim stays. -/
def onTallyHoldover (s : State) : State :=
  if s.fabLive ∧ s.clk.sync = .locked ∧ (!s.parentPresent ∨ s.clk.lastSample + msRoot 1000 ≤ s.clk.root)
  then { s with clk := { s.clk with sync := .holdover, streak := 0 } } else s

/-- The answer to `TALLY_HOLDOVER`. -/
def execTallyHoldover (s : State) : Answer := .next (onTallyHoldover s)

/-! ### Latency corrections (13 R319, R328) -/

def State.txTime (s : State) (p : Nat) : BitVec 64 := s.clk.tally + BitVec.ofNat 64 (s.rf (portBase p + 0x18) 0 12)
def State.rxTime (s : State) (p : Nat) : BitVec 64 := s.clk.tally - BitVec.ofNat 64 (s.rf (portBase p + 0x18) 16 12)

end Sys2Proof.Machine
end

