-- ==== Sys2Proof/Machine/Ports.lean ====
section
/-! DEFINITION. Flecel Direct links: bring-up, flits, replay, retraining, the time exchange (13 R313 to R319; 15 R376). -/
namespace Sys2Proof.Machine

/-- Last sequence number accepted before any flit: the counters stand at 0 after the LINKCTL exchange (R313). -/
def seqStart : Nat := 4095

/-! ### Bring-up (R313) -/

/-- The device's first port comes UP (14 R340). -/
def State.noteUp (s : State) : State :=
  { s with fab := { s.fab with firstUp := some (s.fab.firstUp.getD s.clk.root) } }

/-- FD_TRAINING_DONE of a port: every lane has adapted; during a retrain too. -/
def onFdTrainingDone (p : Fin 12) (s : State) : State :=
  let x := s.port p.val
  if !s.fabLive ∨ !s.isFd p.val ∨ x.phase ≠ .training then s
  else s.setPort p.val { x with phase := .aligning, lanes := 0xF }

/-- The answer to `FD_TRAINING_DONE`. -/
def execFdTrainingDone (p : Fin 12) (s : State) : Answer := .next (onFdTrainingDone p s)

/-- Send every unacknowledged flit again, from `ACK` + 1: one replay per FCLK cycle (R316). -/
def State.replay (s : State) (p : Nat) : State :=
  let x := s.port p
  let now := s.clk.root / 5
  if x.replay.isEmpty ∨ x.replayAt = some now then s
  else
    let s1 := s.setPort p { x with
      replay := x.replay.map (fun f => { f with sent := s.clk.root }), retries := x.retries + 1, replayAt := some now }
    (x.replay.foldl (fun (s : State) f => s.sendFlit p 1 f.vc f.seq f.payload) s1).bumpPort p 0x138

/-- FD_ALIGNMENT_DONE of a port: boundaries are locked. It sends LINKCTL, or, after a retrain, is UP again and replays. -/
def onFdAlignmentDone (p : Fin 12) (s : State) : State :=
  let x := s.port p.val
  if !s.fabLive ∨ !s.isFd p.val ∨ x.phase ≠ .aligning then s
  else if x.retrain then
    ((s.setPort p.val { x with phase := .up, retrain := false, retries := 0 }).replay p.val).pumpFlits 1024 p.val
  else (s.setPort p.val { x with phase := .init }).sendFlit p.val 3 0 0 []

/-- The answer to `FD_ALIGNMENT_DONE`. -/
def execFdAlignmentDone (p : Fin 12) (s : State) : Answer := .next (onFdAlignmentDone p s)

/-- FD_BRINGUP_TIMEOUT of a port: not UP within 500 ms of leaving DOWN; an Ethernet port waits for its partner likewise (R320). -/
def onFdBringupTimeout (p : Fin 12) (s : State) : State :=
  let x := s.port p.val
  if !s.fabLive ∨ x.phase = .down ∨ x.phase = .up ∨ x.retrain ∨ s.clk.root < x.since + msRoot 500 then s
  else (s.setPort p.val { x with phase := .training, since := s.clk.root, lanes := 0 }).bumpPort p.val 0x150

/-- The answer to `FD_BRINGUP_TIMEOUT`. -/
def execFdBringupTimeout (p : Fin 12) (s : State) : Answer := .next (onFdBringupTimeout p s)

/-! ### Flits (R315, R316, R318) -/

/-- A flit is discarded whole: its CRC fails or its type is reserved. -/
def RxFlit.bad (f : RxFlit) : Bool :=
  0 < f.uncorrected || leAt f.bytes 248 8 != (crc64 (slice f.bytes 0 248)).toNat || 4 ≤ byteAt f.bytes 0 % 16

def RxFlit.ftype (f : RxFlit) : Nat := byteAt f.bytes 0 % 16

/-- FEC codewords count on the port (R314). -/
def State.countFec (s : State) (p : Nat) (corrected uncorrected : Nat) : State :=
  (s.bumpPort p 0x120 corrected).bumpPort p 0x128 uncorrected

/-- Flits of the replay buffer that an `ACK` covers. -/
def coveredBy (l : List Flit) (ack : Nat) : Nat :=
  match l with
  | [] => 0
  | f :: _ => let d := (ack + 1 + 4096 - f.seq) % 4096
              if d ≤ l.length then d else 0

/-- `ACK`, `NAK` and credits of a good flit: covered flits leave the replay buffer, a `NAK` causes a replay. -/
def State.takeControl (s : State) (p : Nat) (b : List Byte) : State :=
  let x := s.port p
  let n := coveredBy x.replay (leAt b 3 2 % 4096)
  let v := byteAt b 5 % 4
  let s1 := s.setPort p { x with
    replay := x.replay.drop n, retries := if n = 0 then x.retries else 0
    credits := x.credits.set v (x.credits.getD v 0 + leAt b 6 2 % 1024) }
  if bitAt (leAt b 3 2) 15 then s1.replay p else s1

/-- Packets that stand whole at the front of a channel's bytes, and what is left. Zeros alone fill a flit up (log entry 9). -/
def wholePackets : Nat → List Byte → List (List Byte) × List Byte
  | 0, b => ([], b)
  | n + 1, b =>
    if b.all (· == 0) then ([], [])
    else
      let len := 32 + leAt b 20 2 % 8192
      if b.length < 32 ∨ b.length < len then ([], b)
      else
        let r := wholePackets n (b.drop len)
        (b.take len :: r.1, r.2)

/-- A DATA flit: accepted when it is the next in sequence, and its payload goes to the router slice, which frees a credit;
otherwise discarded, and `NAK` is set (R316, R318). -/
def State.takeData (s : State) (p : Nat) (b : List Byte) : State :=
  let x := s.port p
  if leAt b 1 2 % 4096 ≠ (x.rxSeq + 1) % 4096 then s.setPort p { x with nak := true }
  else
    let v := bits (byteAt b 0) 4 2
    let r := wholePackets 16 (x.rxBytes.getD v [] ++ slice b 8 240)
    let s1 := s.setPort p { x with
      rxSeq := (x.rxSeq + 1) % 4096, nak := false, rxBytes := x.rxBytes.set v r.2
      returns := x.returns.set v (x.returns.getD v 0 + 1) }
    r.1.foldl (fun (s : State) k => s.receive p [] k) ((s1.bumpPort p 0x100).bumpPort p 0x110 240)

/-- DATA_FLIT_RECEIVE: a DATA or IDLE flit, or one that is discarded. New flits follow as credits and room allow; a flit that
acknowledges goes out at once. -/
def onDataFlitReceive (p : Fin 12) (f : RxFlit) (s : State) : State :=
  if !s.fabLive ∨ !s.isFd p.val ∨ !s.portUp p.val ∨ (!f.bad ∧ 2 ≤ f.ftype) then s
  else
    let s1 := s.countFec p.val f.corrected f.uncorrected
    if f.bad then
      let s2 := s1.bumpPort p.val 0x130
      (s2.setPort p.val { s2.port p.val with nak := true }).sendFlit p.val 0 0 0 []
    else
      let s2 := s1.takeControl p.val f.bytes
      let s3 := if f.ftype = 1 then (s2.takeData p.val f.bytes).sendFlit p.val 0 0 0 [] else s2
      s3.pumpFlits 1024 p.val

/-- The answer to `DATA_FLIT_RECEIVE`. -/
def execDataFlitReceive (p : Fin 12) (f : RxFlit) (s : State) : Answer := .next (onDataFlitReceive p f s)

/-- REPLAY_TIMEOUT of a port: its oldest unacknowledged flit is older than `REPLAY_TMO`. -/
def onReplayTimeout (p : Fin 12) (s : State) : State :=
  let x := s.port p.val
  match x.replay with
  | [] => s
  | f :: _ =>
    if !s.fabLive ∨ !s.isFd p.val ∨ !s.portUp p.val ∨ s.clk.root ≤ f.sent + nsRoot (16 * s.rf (portBase p.val + 8) 0 10)
    then s else s.replay p.val

/-- The answer to `REPLAY_TIMEOUT`. -/
def execReplayTimeout (p : Fin 12) (s : State) : Answer := .next (onReplayTimeout p s)

/-- LINKCTL_FLIT_RECEIVE: the exchange sets both sequence counters to 0, hands out the receiver's credits, and brings the port
UP (R313, R318). -/
def onLinkctlFlitReceive (p : Fin 12) (f : RxFlit) (s : State) : State :=
  let x := s.port p.val
  if !s.fabLive ∨ !s.isFd p.val ∨ x.phase ≠ .init ∨ (!f.bad ∧ f.ftype ≠ 3) then s
  else
    let s1 := s.countFec p.val f.corrected f.uncorrected
    if f.bad then s1.bumpPort p.val 0x130
    else
      let y : PortState := { x with
        phase := .up, txSeq := 0, rxSeq := seqStart, nak := false, replay := [], retries := 0, replayAt := none
        credits := [0, 0, 0, 0], returns := (List.range 4).map (s.vcShare p.val)
        txBytes := [[], [], [], []], txLead := [0, 0, 0, 0], oldBytes := [0, 0, 0, 0], markLeft := 0, rxBytes := [[], [], [], []]
        echo := none, timexSent := s.clk.root, helloSent := none, marked := none }
      let s2 := (s1.setPort p.val y).noteUp.sendFlit p.val 3 0 0 []
      let s3 := ((List.range 4).foldl (fun (s : State) _ => s.sendFlit p.val 0 0 0 []) s2)
      s3.ev 0x0050 .info p.val (s.portMode p.val) 0 0 0

/-- The answer to `LINKCTL_FLIT_RECEIVE`. -/
def execLinkctlFlitReceive (p : Fin 12) (f : RxFlit) (s : State) : Answer := .next (onLinkctlFlitReceive p f s)

/-! ### Retraining (R317) -/

/-- FD_RETRY_EXHAUSTED of a port: `RETRY_MAX` replays have passed without progress. -/
def onFdRetryExhausted (p : Fin 12) (s : State) : State :=
  let x := s.port p.val
  if !s.fabLive ∨ !s.isFd p.val ∨ !s.portUp p.val ∨ x.retries < s.rf (portBase p.val + 8) 14 4 then s
  else
    ((s.setPort p.val { x with phase := .training, since := s.clk.root, retrain := true, retryFail := true, retryFailSet := s.mclk, retries := 0, lanes := 0 }).bumpPort
      p.val 0x148).ev 0x0052 .warning p.val 0 0 0 0

/-- The answer to `FD_RETRY_EXHAUSTED`. -/
def execFdRetryExhausted (p : Fin 12) (s : State) : Answer := .next (onFdRetryExhausted p s)

/-- FD_RETRAIN_TIMEOUT of a port: it goes DOWN and delivers nothing further; its neighbour is lost at once (R317, 14 R339). -/
def onFdRetrainTimeout (p : Fin 12) (s : State) : State :=
  let x := s.port p.val
  if !s.fabLive ∨ !x.retrain ∨ x.phase ≠ .training ∨ s.clk.root < x.since + msRoot 500 then s
  else
    let y : PortState := { x with
      phase := .down, retrain := false, replay := [], credits := [0, 0, 0, 0], returns := [0, 0, 0, 0]
      txBytes := [[], [], [], []], txLead := [0, 0, 0, 0], oldBytes := [0, 0, 0, 0], markLeft := 0, rxBytes := [[], [], [], []], echo := none }
    ((s.setPort p.val y).ev 0x0051 .warning p.val 0 0 0 0).loseNeighbours p.val fun _ => true

/-- The answer to `FD_RETRAIN_TIMEOUT`. -/
def execFdRetrainTimeout (p : Fin 12) (s : State) : Answer := .next (onFdRetrainTimeout p s)

/-! ### Time exchange (R319, 15 R376) -/

/-- TIMEX_SEND of a port: a period of 2^`TIMEX_LOG2` µs has passed (Table 13-3). -/
def onTimexSend (p : Fin 12) (s : State) : State :=
  let x := s.port p.val
  if !s.fabLive ∨ !s.isFd p.val ∨ !s.portUp p.val ∨
      s.clk.root < x.timexSent + usRoot (2 ^ s.rf (portBase p.val + 8) 10 4) then s
  else
    let e := x.echo.getD (0, 0)
    (s.setPort p.val { x with timexSent := s.clk.root }).sendFlit p.val 2 0 0
      (leBytes 8 (s.txTime p.val).toNat ++ leBytes 8 e.1.toNat ++ leBytes 8 e.2.toNat ++ leBytes 1 (b2n x.echo.isSome))

/-- The answer to `TIMEX_SEND`. -/
def execTimexSend (p : Fin 12) (s : State) : Answer := .next (onTimexSend p s)

/-- TIMEX_FLIT_RECEIVE: its time is kept for the echo; one from the parent with valid echoes yields an offset sample. A flit
that fails its CRC loses the sample. -/
def onTimexFlitReceive (p : Fin 12) (f : RxFlit) (s : State) : State :=
  if !s.fabLive ∨ !s.isFd p.val ∨ !s.portUp p.val ∨ (!f.bad ∧ f.ftype ≠ 2) then s
  else
    let s1 := s.countFec p.val f.corrected f.uncorrected
    if f.bad then s1.bumpPort p.val 0x130
    else
      let tm (i : Nat) : BitVec 64 := BitVec.ofNat 64 (leAt f.bytes i 8)
      let t4 := s.rxTime p.val
      let s2 := s1.takeControl p.val f.bytes
      let s3 := (s2.setPort p.val { s2.port p.val with echo := some (tm 8, t4) }).pumpFlits 1024 p.val
      if s3.clk.parentPort = some p.val ∧ bitAt (byteAt f.bytes 32) 0
      then s3.sample (offsetOf (tm 16) (tm 24) (tm 8) t4) else s3

/-- The answer to `TIMEX_FLIT_RECEIVE`. -/
def execTimexFlitReceive (p : Fin 12) (f : RxFlit) (s : State) : Answer := .next (onTimexFlitReceive p f s)

end Sys2Proof.Machine
end

