-- ==== Sys2Proof/Machine/Mac.lean ====
section
/-! DEFINITION. The Ethernet MAC: link state, received frames, transmit queues, pre-emption, PTP (13 R320 to R329; 15 R377). -/
namespace Sys2Proof.Machine

def State.macCfg (s : State) (p : Nat) : Nat := s.reg (portBase p + 0x10)

/-! ### Link state (R320, R327) -/

/-- ETHERNET_LINK_UP: auto-negotiation and training have brought the port UP. Without verification pre-emption runs at once. -/
def onEthernetLinkUp (p : Fin 12) (s : State) : State :=
  let x := s.port p.val
  if !s.fabLive ∨ !s.isEth p.val ∨ x.phase ≠ .training then s
  else (s.setPort p.val { x with
    phase := .up, lanes := if 4 ≤ s.portMode p.val then 0xFF else 0xF, helloSent := none, marked := none
    ptpSent := s.clk.root, preempt := bitAt (s.macCfg p.val) 29 && bitAt (s.macCfg p.val) 30 }).noteUp

/-- The answer to `ETHERNET_LINK_UP`. -/
def execEthernetLinkUp (p : Fin 12) (s : State) : Answer := .next (onEthernetLinkUp p s)

/-- ETHERNET_LINK_DOWN: the port trains again, and a pre-empted frame on either side is discarded. Its neighbours are lost once their HELLOs
fail (14 R339). -/
def onEthernetLinkDown (p : Fin 12) (s : State) : State :=
  let x := s.port p.val
  if !s.fabLive ∨ !s.isEth p.val ∨ x.phase ≠ .up then s
  else
    let s1 := s.setPort p.val { x with
      phase := .training, since := s.clk.root, lanes := 0, preempt := false, cut := none, asm := none }
    s1.bumpPort p.val 0x178 (b2n x.asm.isSome)

/-- The answer to `ETHERNET_LINK_DOWN`. -/
def execEthernetLinkDown (p : Fin 12) (s : State) : Answer := .next (onEthernetLinkDown p s)

/-- PREEMPT_VERIFY: the standard's verification ends well or badly. -/
def onPreemptVerify (p : Fin 12) (ok : Bool) (s : State) : State :=
  let c := s.macCfg p.val
  if !s.fabLive ∨ !s.isEth p.val ∨ !s.portUp p.val ∨ !bitAt c 29 ∨ bitAt c 30 then s
  else
    let s1 := s.setPort p.val { s.port p.val with preempt := ok }
    if ok then s1 else s1.ev 0x0053 .warning p.val 0 0 0 0

/-- The answer to `PREEMPT_VERIFY`. -/
def execPreemptVerify (p : Fin 12) (ok : Bool) (s : State) : Answer := .next (onPreemptVerify p ok s)

/-! ### PTP messages (15 R377; 13 R328, R329) -/

def ptpMac : List Byte := [0x01, 0x1B, 0x19, 0x00, 0x00, 0x00]

/-- A Tally value as a PTP timestamp: seconds and nanoseconds of the fabric epoch, in network byte order. -/
def ptpTime (t : BitVec 64) : List Byte := beBytes 6 (t.toNat / 1000000000) ++ beBytes 4 (t.toNat % 1000000000)
def ptpTimeAt (b : List Byte) (i : Nat) : BitVec 64 := BitVec.ofNat 64 (beAt b i 6 * 1000000000 + beAt b (i + 6) 4)

def State.ptpDomain (s : State) : Nat := s.rf 0x5018 1 8

/-- Source port identity: the unit ID and the port. -/
def portIdentity (p : Nat) : List Byte := beBytes 8 ownUid ++ beBytes 2 (p + 1)

/-- Header of IEEE 1588 and a body. -/
def State.ptpMessage (s : State) (p type seq : Nat) (body : List Byte) : List Byte :=
  beBytes 1 type ++ beBytes 1 0x12 ++ beBytes 2 (34 + body.length) ++ beBytes 1 s.ptpDomain ++ zeroBytes 1 ++
  beBytes 2 (if type = 0 then 0x0200 else 0) ++ zeroBytes 12 ++ portIdentity p ++ beBytes 2 seq ++
  beBytes 1 (if type = 0 then 0 else if type = 1 then 1 else if type = 8 then 2 else 3) ++
  beBytes 1 (if type = 0 ∨ type = 8 then 0xFD else 0x7F) ++ body

/-- Put a PTP message into queue 7 (R326). -/
def State.sendPtp (s : State) (p type seq : Nat) (body : List Byte) : State :=
  s.enqueue p 7 { bytes := s.frameOf p 7 ptpMac 0x88F7 (s.ptpMessage p type seq body), ptp := true }

/-- PTP_SYNC_SEND of a port toward children: eight Syncs a second; Follow_Up goes when the Sync has left. -/
def onPtpSyncSend (p : Fin 12) (s : State) : State :=
  let x := s.port p.val
  if !s.fabLive ∨ !s.isEth p.val ∨ !s.portUp p.val ∨ s.clk.sync = .free ∨ s.clk.parentPort = some p.val ∨
      s.clk.root < x.ptpSent + msRoot 125 then s
  else (s.setPort p.val { x with ptpSent := s.clk.root, ptpSeq := (x.ptpSeq + 1) % 65536 }).sendPtp p.val 0 x.ptpSeq (zeroBytes 10)

/-- The answer to `PTP_SYNC_SEND`. -/
def execPtpSyncSend (p : Fin 12) (s : State) : Answer := .next (onPtpSyncSend p s)

/-- PTP_DELAY_REQ_SEND of the port to the parent, once a Sync with its Follow_Up stands. -/
def onPtpDelayReqSend (p : Fin 12) (s : State) : State :=
  let x := s.port p.val
  if !s.fabLive ∨ !s.isEth p.val ∨ !s.portUp p.val ∨ s.clk.parentPort ≠ some p.val ∨ x.origin.isNone then s
  else (s.setPort p.val { x with ptpSeq := (x.ptpSeq + 1) % 65536 }).sendPtp p.val 1 x.ptpSeq (zeroBytes 10)

/-- The answer to `PTP_DELAY_REQ_SEND`. -/
def execPtpDelayReqSend (p : Fin 12) (s : State) : Answer := .next (onPtpDelayReqSend p s)

/-- A PTP message reaches the Headframe controller, an event message with its timestamp. A child takes Sync, Follow_Up and
Delay_Resp of its parent; any device answers a Delay_Req. -/
def State.takePtp (s : State) (p : Nat) (m : List Byte) : State :=
  let t := s.rxTime p
  let type := byteAt m 0 % 16
  let seq := beAt m 30 2
  let x := s.port p
  let child := s.clk.parentPort = some p
  let s0 := if type < 4 then s.emit (.fab (.ptp p type seq t)) else s
  if beAt m 4 1 ≠ s.ptpDomain ∨ !s.syncEn then s0
  else if type = 0 ∧ child then s0.setPort p { x with sync := some (seq, t), origin := none }
  else if type = 8 ∧ child then
    match x.sync with
    | some y => if y.1 = seq then s0.setPort p { x with origin := some (ptpTimeAt m 34) } else s0
    | none => s0
  else if type = 1 ∧ !child ∧ s.clk.sync ≠ .free then s0.sendPtp p 9 seq (ptpTime t ++ slice m 20 10)
  else if type = 9 ∧ child ∧ slice m 44 10 = portIdentity p then
    match x.sync, x.origin, x.delayReq with
    | some y, some t1, some q =>
      if q.1 = seq then
        (s0.setPort p { x with sync := none, origin := none, delayReq := none }).sample
          (((t1 - y.2).toInt + (ptpTimeAt m 34 - q.2).toInt) / 2)
      else s0
    | _, _, _ => s0
  else s0

/-! ### Received frames (R321 to R325, R327) -/

/-- mCRC of a fragment that is not the last, by IEEE 802.3br: the CRC so far with its low half inverted. -/
def mcrcOf (b : List Byte) : List Byte :=
  match fcsOf b with
  | [w, x, y, z] => [~~~w, ~~~x, y, z]
  | l => l

/-- EtherType, where the packet begins and whether the tag check passes (R321): without `VLAN_EN` one 802.1Q tag is skipped; with
it the tag and its VID are needed. -/
def State.etype (s : State) (p : Nat) (b : List Byte) : Nat × Nat × Bool :=
  let c := s.macCfg p
  let outer := beAt b 12 2
  let inner := beAt b 16 2
  let twice := outer = 0x8100 ∧ (inner = 0x8100 ∨ inner = 0x88A8)
  let tagged : Bool := outer = 0x8100
  let ok := !bitAt c 16 || (tagged && beAt b 14 2 % 4096 == bits c 17 12)
  if twice then (outer, 14, ok) else if tagged then (inner, 18, ok) else (outer, 14, ok)

/-- R323: an enabled entry, or the broadcast address where it is let in. -/
def State.addressPasses (s : State) (p : Nat) (b : List Byte) : Bool :=
  let d := slice b 0 6
  (List.range 16).any (fun i => bitAt (s.reg (portBase p + 0x44 + 8 * i)) 16 && s.filterMac p i == d) ||
  (bitAt (s.macCfg p) 14 && d == broadcastMac)

/-- A frame that passed rows 1 to 5 of Table 13-4: rows 6 to 8, then delivery. `b` ends with the FCS; `passes`: the address filter let it
in at its first byte. -/
def State.takeIn (s : State) (p : Nat) (noBuffer passes : Bool) (b : List Byte) : State :=
  let e := s.etype p b
  let capture (s : State) : State := (s.setPort p { s.port p with capture := (s.port p).capture ++ [b] }).bumpPort p 0x198
  let fmt := e.1 == s.rf (portBase p + 0x14) 0 16
  let body := (b.take (b.length - 4)).drop e.2.1
  if !passes ∨ !e.2.2 then if bitAt (s.macCfg p) 15 then capture s else s.bumpPort p 0x180
  else if !fmt ∧ e.1 ≠ 0x88F7 then if bitAt (s.macCfg p) 15 then capture s else s.bumpPort p 0x188
  else if fmt ∧ noBuffer then s.bumpPort p 0x190
  else
    let s1 := (s.bumpPort p 0x100).bumpPort p 0x110 b.length
    if !fmt then s1.takePtp p body
    else if body.length < 32 ∨ body.length < 32 + leAt body 20 2 % 8192 then s1.bumpFab 0x100
    else s1.receive p (slice b 6 6) (body.take (32 + leAt body 20 2 % 8192))

/-- FRAME_RECEIVE: one frame or fragment, by the first row of Table 13-4 that applies. -/
def onFrameReceive (p : Fin 12) (f : RxFrame) (s : State) : State :=
  if !s.fabLive ∨ !s.isEth p.val ∨ !s.portUp p.val then s
  else
    let s0 := s.countFec p.val f.corrected f.uncorrected
    let x := s0.port p.val
    let passes : Bool := match f.form, x.asm with | .cont _, some a => a.passes | _, _ => s.addressPasses p.val f.bytes
    let drop (s : State) (o : Nat) : State := s.bumpPort p.val o
    let held : List Byte := match f.form, x.asm with | .cont _, some a => a.frame | _, _ => []
    let body := f.bytes.take (f.bytes.length - 4)
    let whole := held ++ body
    let tail := f.bytes.drop (f.bytes.length - 4)
    let fragment : Bool := (match f.form with | .express => false | .cont _ => true | .first => tail != fcsOf body && tail == mcrcOf body)
    let last : Bool := tail == fcsOf whole
    let inOrder : Bool := (match f.form, x.asm with | .cont n, some a => a.count == n.val | .cont _, none => false | _, _ => true)
    -- a new pre-emptable frame ends one that is still open (R324 row 5)
    let s1 := match f.form, x.asm with
      | .first, some _ => drop (s0.setPort p.val { x with asm := none }) 0x178
      | _, _ => s0
    let shut (s : State) : State := match f.form with
      | .express => s
      | _ => s.setPort p.val { s.port p.val with asm := none }
    if f.codeError ∨ 0 < f.uncorrected then drop (shut s1) 0x158
    else if f.bytes.length < 64 ∧ !fragment then drop (shut s1) 0x160
    else if s1.rf (portBase p.val + 0x10) 0 14 < whole.length + 4 then drop (shut s1) 0x168
    else if inOrder ∧ !last ∧ !(fragment && tail == mcrcOf whole) then drop (shut s1) 0x170
    else if !inOrder then drop (shut s1) 0x178
    else if !last then
      s1.setPort p.val { s1.port p.val with
        asm := some { frame := whole, upTo := whole.length, passes := passes
                      count := match f.form with | .cont n => (n.val + 1) % 4 | _ => 0 } }
    else
      let s2 := match f.form with
        | .cont _ => (shut s1).bumpPort p.val 0x1A8
        | _ => s1
      s2.takeIn p.val f.noBuffer passes (whole ++ tail)

/-- The answer to `FRAME_RECEIVE`. -/
def execFrameReceive (p : Fin 12) (f : RxFrame) (s : State) : Answer := .next (onFrameReceive p f s)

/-! ### Transmission (R326 to R329) -/

/-- A PTP message in a frame: its bytes behind addresses, tag and EtherType. -/
def ptpBody (b : List Byte) : List Byte := b.drop (if beAt b 12 2 = 0x8100 then 18 else 14)

/-- A PTP frame leaves: an event message is timestamped into the FIFO; a Sync is followed by its Follow_Up, and the time of a
Delay_Req is kept. -/
def State.stampPtp (s : State) (p : Nat) (b : List Byte) : State :=
  let m := ptpBody b
  let type := byteAt m 0 % 16
  let seq := beAt m 30 2
  let t := s.txTime p
  let x := s.port p
  if 4 ≤ type then s
  else
    let s1 := if x.stamps.length < 16
      then s.setPort p { x with stamps := x.stamps ++ [{ ts := t, seqId := seq, msgType := type }] }
      else s.bumpPort p 0x1B0
    if type = 0 then s1.sendPtp p 8 seq (ptpTime t)
    else if type = 1 then s1.setPort p { s1.port p with delayReq := some (seq, t) }
    else s1

/-- A frame has left whole. -/
def State.sent (s : State) (p n : Nat) : State := (s.bumpPort p 0x108).bumpPort p 0x118 n

/-- Where a fragment that begins at `start` ends when an express frame waits once `waits` bytes of the frame have gone: the first
8-byte boundary with 64 bytes in the fragment and 64 bytes left (R327). -/
def cutAt (start waits len : Nat) : Option Nat :=
  (List.range (len / 8 + 1)).findSome? fun i =>
    if waits ≤ 8 * i ∧ start + 64 ≤ 8 * i ∧ 8 * i + 64 ≤ len then some (8 * i) else none

/-- Send a pre-emptable frame from byte `start` on, as its first fragment or the one with this count: whole, or cut. -/
def State.sendFrom (s : State) (p start : Nat) (count : Option Nat) (b : List Byte) (waits : Option Nat) : State :=
  let stop := match waits with
    | some w => if (s.port p).preempt then cutAt start w b.length else none
    | none => none
  match stop with
  | some k =>
    let part := slice b start (k - start)
    ((s.setPort p { s.port p with cut := some { frame := b, upTo := k, count := match count with | some n => (n + 1) % 4 | none => 0 } }).bumpPort p 0x1A0).emit
      (.fab (.fragment p count false (part ++ mcrcOf (b.take k))))
  | none =>
    let s1 := (s.setPort p { s.port p with cut := none }).sent p b.length
    if start = 0 then s1.emit (.fab (.frame p b)) else s1.emit (.fab (.fragment p count true (b.drop start)))

/-- FRAME_TRANSMIT of a port, at a frame boundary: an express frame of the highest queue, else the remainder of a frame that was
cut, else the highest pre-emptable queue. `waits`: an express frame waits once so many bytes of the frame have gone. -/
def onFrameTransmit (p : Fin 12) (waits : Option Nat) (s : State) : State :=
  let x := s.port p.val
  let next (l : List Nat) : Option (Nat × Frame) := l.findSome? fun q => (x.queues.getD q []).head?.map fun f => (q, f)
  let pop (q : Nat) : State := s.setPort p.val { x with queues := x.queues.set q ((x.queues.getD q []).drop 1) }
  if !s.fabLive ∨ !s.isEth p.val ∨ !s.portUp p.val then s
  else match next [7, 6], x.cut with
    | some (q, f), _ =>
      let s1 := ((pop q).emit (.fab (.frame p.val f.bytes))).sent p.val f.bytes.length
      if f.ptp then s1.stampPtp p.val f.bytes else s1
    | none, some c => s.sendFrom p.val c.upTo (some c.count) c.frame waits
    | none, none => match next [5, 4, 3, 2, 1, 0] with
      | some (q, f) => (pop q).sendFrom p.val 0 none f.bytes waits
      | none => s

/-- The answer to `FRAME_TRANSMIT`. -/
def execFrameTransmit (p : Fin 12) (waits : Option Nat) (s : State) : Answer := .next (onFrameTransmit p waits s)

end Sys2Proof.Machine
end

