-- ==== Sys2Proof/Machine/Dispatch.lean ====
section
/-! DEFINITION. The meaning of every command: one arm per row of the command table. -/
namespace Sys2Proof.Machine

/-- What a command does to everything but the queue. -/
def exec (i : Instr) (s : State) : Host.Outcome State Fault Refusal :=
  match i with
  | .nop d => Sys2Proof.Machine.execNop d s
  | .surveyLoad d view => Sys2Proof.Machine.execSurveyLoad d view s
  | .surveyLoadComplete view => Sys2Proof.Machine.execSurveyLoadComplete view s
  | .surveyUnload d tied => Sys2Proof.Machine.execSurveyUnload d tied s
  | .runStep d => Sys2Proof.Machine.execRunStep d s
  | .runStepComplete n => Sys2Proof.Machine.execRunStepComplete n s
  | .setStepParams d view => Sys2Proof.Machine.execSetStepParams d view s
  | .rearmStream d => Sys2Proof.Machine.execRearmStream d s
  | .copy d view err => Sys2Proof.Machine.execCopy d view err s
  | .copyComplete ring index view err => Sys2Proof.Machine.execCopyComplete ring index view err s
  | .fence d => Sys2Proof.Machine.execFence d s
  | .fenceComplete ring => Sys2Proof.Machine.execFenceComplete ring s
  | .barrier d => Sys2Proof.Machine.execBarrier d s
  | .barrierTimeout ring => Sys2Proof.Machine.execBarrierTimeout ring s
  | .killJob d tied => Sys2Proof.Machine.execKillJob d tied s
  | .killComplete n => Sys2Proof.Machine.execKillComplete n s
  | .biasSet d => Sys2Proof.Machine.execBiasSet d s
  | .powerSet d => Sys2Proof.Machine.execPowerSet d s
  | .bundleLoad d view => Sys2Proof.Machine.execBundleLoad d view s
  | .bundleLoadComplete view => Sys2Proof.Machine.execBundleLoadComplete view s
  | .sealRelease d => Sys2Proof.Machine.execSealRelease d s
  | .sealExport d => Sys2Proof.Machine.execSealExport d s
  | .sealExportComplete view => Sys2Proof.Machine.execSealExportComplete view s
  | .doorbellSnoop lineAddr line faults => Sys2Proof.Machine.execDoorbellSnoop lineAddr line faults s
  | .completionHeadPoll ring w => Sys2Proof.Machine.execCompletionHeadPoll ring w s
  | .eventRingHeadPoll w => Sys2Proof.Machine.execEventRingHeadPoll w s
  | .registerWrite x => Sys2Proof.Machine.execRegisterWrite x s
  | .counterLowRead r => Sys2Proof.Machine.execCounterLowRead r s
  | .ptpTxtsPop p tee => Sys2Proof.Machine.execPtpTxtsPop p tee s
  | .cuCtlCntClr k tee => Sys2Proof.Machine.execCuCtlCntClr k tee s
  | .muCtlCntClr k tee => Sys2Proof.Machine.execMuCtlCntClr k tee s
  | .millCtlCntClr tee => Sys2Proof.Machine.execMillCtlCntClr tee s
  | .memCtlCntClr tee => Sys2Proof.Machine.execMemCtlCntClr tee s
  | .cxlCtlCntClr tee => Sys2Proof.Machine.execCxlCtlCntClr tee s
  | .cageCtlCntClr tee => Sys2Proof.Machine.execCageCtlCntClr tee s
  | .portCtlCntClr p tee => Sys2Proof.Machine.execPortCtlCntClr p tee s
  | .fabCfgCntClr tee => Sys2Proof.Machine.execFabCfgCntClr tee s
  | .tallyCfgCntClr tee => Sys2Proof.Machine.execTallyCfgCntClr tee s
  | .pwrCtlCntClr tee => Sys2Proof.Machine.execPwrCtlCntClr tee s
  | .rasCfgCntClr tee => Sys2Proof.Machine.execRasCfgCntClr tee s
  | .glbCtlCntClr tee => Sys2Proof.Machine.execGlbCtlCntClr tee s
  | .ringCtlEn ring w line tee => Sys2Proof.Machine.execRingCtlEn ring w line tee s
  | .evqEn w tee => Sys2Proof.Machine.execEvqEn w tee s
  | .jobctlHoistCfgEn n w tee => Sys2Proof.Machine.execJobctlHoistCfgEn n w tee s
  | .jobctlSluiceCfgEn n w tee => Sys2Proof.Machine.execJobctlSluiceCfgEn n w tee s
  | .tallySetHi w tee => Sys2Proof.Machine.execTallySetHi w tee s
  | .dbgCtlChalNew tee => Sys2Proof.Machine.execDbgCtlChalNew tee s
  | .dbgCtlSubmit tee => Sys2Proof.Machine.execDbgCtlSubmit tee s
  | .debugUnlockScrubDone => Sys2Proof.Machine.execDebugUnlockScrubDone s
  | .rasUnitFence k tee => Sys2Proof.Machine.execRasUnitFence k tee s
  | .rasUnitReturn k tee => Sys2Proof.Machine.execRasUnitReturn k tee s
  | .rasUnitRestore k tee => Sys2Proof.Machine.execRasUnitRestore k tee s
  | .siteFence k cause => Sys2Proof.Machine.execSiteFence k cause s
  | .selftestComplete k failing => Sys2Proof.Machine.execSelftestComplete k failing s
  | .fwCtlStage len tee => Sys2Proof.Machine.execFwCtlStage len tee s
  | .fwWriteComplete => Sys2Proof.Machine.execFwWriteComplete s
  | .fwCtlActivate tee => Sys2Proof.Machine.execFwCtlActivate tee s
  | .fwCtlCommit tee => Sys2Proof.Machine.execFwCtlCommit tee s
  | .fwCtlRecover => Sys2Proof.Machine.execFwCtlRecover s
  | .busMasterEnableWrite b => Sys2Proof.Machine.execBusMasterEnableWrite b s
  | .priEnableWrite b => Sys2Proof.Machine.execPriEnableWrite b s
  | .hdmDecoderCommit base size ways => Sys2Proof.Machine.execHdmDecoderCommit base size ways s
  | .lockedItemChange item => Sys2Proof.Machine.execLockedItemChange item s
  | .lockInterface => Sys2Proof.Machine.execLockInterface s
  | .stopInterface => Sys2Proof.Machine.execStopInterface s
  | .ideKm op => Sys2Proof.Machine.execIdeKm op s
  | .ideStreamReceive st good => Sys2Proof.Machine.execIdeStreamReceive st good s
  | .getVersion m => Sys2Proof.Machine.execGetVersion s m
  | .getCapabilities m => Sys2Proof.Machine.execGetCapabilities s m
  | .negotiateAlgorithms o m => Sys2Proof.Machine.execNegotiateAlgorithms o s m
  | .getCertificate slot offset len m => Sys2Proof.Machine.execGetCertificate slot offset len s m
  | .challenge slot nonce m => Sys2Proof.Machine.execChallenge slot nonce s m
  | .getMeasurements q sign nonce m => Sys2Proof.Machine.execGetMeasurements q sign nonce s m
  | .keyExchange m => Sys2Proof.Machine.execKeyExchange s m
  | .keyUpdate id m => Sys2Proof.Machine.execKeyUpdate id s m
  | .endSession id m => Sys2Proof.Machine.execEndSession id s m
  | .heartbeatTimeout id => Sys2Proof.Machine.execHeartbeatTimeout id s
  | .cdatRead => Sys2Proof.Machine.execCdatRead s
  | .pldmFwUpdate img => Sys2Proof.Machine.execPldmFwUpdate img s
  | .jtagIdcode => Sys2Proof.Machine.execJtagIdcode s
  | .jtagBypass => Sys2Proof.Machine.execJtagBypass s
  | .jtagSamplePreload lands load => Sys2Proof.Machine.execJtagSamplePreload lands load s
  | .jtagExtest => Sys2Proof.Machine.execJtagExtest s
  | .hostCxlMemRead hpa ue ce => Sys2Proof.Machine.execHostCxlMemRead hpa ue s ce
  | .hostCxlMemWrite hpa data mask => Sys2Proof.Machine.execHostCxlMemWrite hpa data mask s
  | .hostBar2Access off write ce => Sys2Proof.Machine.execHostBar2Access off write s ce
  | .atsInvalidation pasid page count => Sys2Proof.Machine.execAtsInvalidation pasid page count s
  | .translationCompletion pasid page r w => Sys2Proof.Machine.execTranslationCompletion pasid page r w s
  | .pageRequestResponse pasid page c => Sys2Proof.Machine.execPageRequestResponse pasid page c s
  | .pageRequestTimeout pasid page => Sys2Proof.Machine.execPageRequestTimeout pasid page s
  | .cxlLinkUp l => Sys2Proof.Machine.execCxlLinkUp l s
  | .cxlLinkDown => Sys2Proof.Machine.execCxlLinkDown s
  | .powerOnReset straps coreMv ioMv => Sys2Proof.Machine.execPowerOnReset straps coreMv ioMv s
  | .firmwareBoot entropyOk => Sys2Proof.Machine.execFirmwareBoot entropyOk s
  | .rootLockLoss => Sys2Proof.Machine.execRootLockLoss s
  | .perst us asserted => Sys2Proof.Machine.execPerst us asserted s
  | .cxlReset memClear => Sys2Proof.Machine.execCxlReset memClear s
  | .secondaryBusReset => Sys2Proof.Machine.execSecondaryBusReset s
  | .thermalSample r => Sys2Proof.Machine.execThermalSample r s
  | .thermtrip => Sys2Proof.Machine.execThermtrip s
  | .pmbusAlert rail status warning => Sys2Proof.Machine.execPmbusAlert rail status warning s
  | .voltageTargetReached reported => Sys2Proof.Machine.execVoltageTargetReached reported s
  | .aclkStepChange => Sys2Proof.Machine.execAclkStepChange s
  | .sagDetect coreMv ioMv => Sys2Proof.Machine.execSagDetect coreMv ioMv s
  | .sagRelease => Sys2Proof.Machine.execSagRelease s
  | .nvOperationStart => Sys2Proof.Machine.execNvOperationStart s
  | .nvGateTimeout => Sys2Proof.Machine.execNvGateTimeout s
  | .idleEntry => Sys2Proof.Machine.execIdleEntry s
  | .a4Entry => Sys2Proof.Machine.execA4Entry s
  | .tokenArrival n fault => Sys2Proof.Machine.execTokenArrival n fault s
  | .stationFire dev errs => Sys2Proof.Machine.execStationFire dev errs s
  | .tileIssue dev => Sys2Proof.Machine.execTileIssue dev s
  | .tileBoundary dev => Sys2Proof.Machine.execTileBoundary dev s
  | .accumulatorSwap site a => Sys2Proof.Machine.execAccumulatorSwap site a s
  | .shadowDrain site a set ce ue => Sys2Proof.Machine.execShadowDrain site a set ce ue s
  | .panelFillComplete dev region ce ue => Sys2Proof.Machine.execPanelFillComplete dev region ce ue s
  | .ringCreditReturn site ring => Sys2Proof.Machine.execRingCreditReturn site ring s
  | .spillReturn site ring ce => Sys2Proof.Machine.execSpillReturn site ring s ce
  | .coalHoldExpiry dev => Sys2Proof.Machine.execCoalHoldExpiry dev s
  | .bankIdleEntry site b => Sys2Proof.Machine.execBankIdleEntry site b s
  | .bankRetainEntry site b => Sys2Proof.Machine.execBankRetainEntry site b s
  | .bankWake site b => Sys2Proof.Machine.execBankWake site b s
  | .muckerPageScrubbed site pg => Sys2Proof.Machine.execMuckerPageScrubbed site pg s
  | .watchdogExpiry n => Sys2Proof.Machine.execWatchdogExpiry n s
  | .hoistGatherRequest n layer kind newer => Sys2Proof.Machine.execHoistGatherRequest n layer kind newer s
  | .stagingChunkCredit n chunk => Sys2Proof.Machine.execStagingChunkCredit n chunk s
  | .millRunArrival m => Sys2Proof.Machine.execMillRunArrival m s
  | .millRunApply m res err => Sys2Proof.Machine.execMillRunApply m res err s
  | .gatherReadServe level err => Sys2Proof.Machine.execGatherReadServe level err s
  | .amaxExchange => Sys2Proof.Machine.execAmaxExchange s
  | .leaseExpiry => Sys2Proof.Machine.execLeaseExpiry s
  | .leaseClose => Sys2Proof.Machine.execLeaseClose s
  | .leaseRevoke => Sys2Proof.Machine.execLeaseRevoke s
  | .sluiceContribution fault => Sys2Proof.Machine.execSluiceContribution fault s
  | .redReceive fault => Sys2Proof.Machine.execRedReceive fault s
  | .sluiceResidueFatal own => Sys2Proof.Machine.execSluiceResidueFatal own s
  | .runDelivery c => Sys2Proof.Machine.execRunDelivery c s
  | .barArrive => Sys2Proof.Machine.execBarArrive s
  | .barRelease => Sys2Proof.Machine.execBarRelease s
  | .barAbort => Sys2Proof.Machine.execBarAbort s
  | .gatherReqReceive => Sys2Proof.Machine.execGatherReqReceive s
  | .gatherRspReceive => Sys2Proof.Machine.execGatherRspReceive s
  | .fmtErrorReceive => Sys2Proof.Machine.execFmtErrorReceive s
  | .fmtTransit => Sys2Proof.Machine.execFmtTransit s
  | .ackReceive => Sys2Proof.Machine.execAckReceive s
  | .ackDelayExpiry peer chan => Sys2Proof.Machine.execAckDelayExpiry peer chan s
  | .retransmitTimeout peer chan => Sys2Proof.Machine.execRetransmitTimeout peer chan s
  | .fmtChannelFail peer chan => Sys2Proof.Machine.execFmtChannelFail peer chan s
  | .rateIncrease dst => Sys2Proof.Machine.execRateIncrease dst s
  | .hello => Sys2Proof.Machine.execHello s
  | .helloSend p => Sys2Proof.Machine.execHelloSend p s
  | .neighbourTimeout p => Sys2Proof.Machine.execNeighbourTimeout p s
  | .electionSettled => Sys2Proof.Machine.execElectionSettled s
  | .fabricNoManager => Sys2Proof.Machine.execFabricNoManager s
  | .mgmtFlood => Sys2Proof.Machine.execMgmtFlood s
  | .addressAssign addr mgr => Sys2Proof.Machine.execAddressAssign addr mgr s
  | .routingTableLoad mgr epoch entries => Sys2Proof.Machine.execRoutingTableLoad mgr epoch entries s
  | .epochCommit epoch => Sys2Proof.Machine.execEpochCommit epoch s
  | .epochMark => Sys2Proof.Machine.execEpochMark s
  | .tableRetire => Sys2Proof.Machine.execTableRetire s
  | .epochConfirmTimeout missing => Sys2Proof.Machine.execEpochConfirmTimeout missing s
  | .joinReport reports => Sys2Proof.Machine.execJoinReport reports s
  | .managerLoss => Sys2Proof.Machine.execManagerLoss s
  | .peerNew peer => Sys2Proof.Machine.execPeerNew peer s
  | .peerLost peer => Sys2Proof.Machine.execPeerLost peer s
  | .mgmtJobKill fjob tied hostKill => Sys2Proof.Machine.execMgmtJobKill fjob tied hostKill s
  | .dataFlitReceive p f => Sys2Proof.Machine.execDataFlitReceive p f s
  | .replayTimeout p => Sys2Proof.Machine.execReplayTimeout p s
  | .fdRetryExhausted p => Sys2Proof.Machine.execFdRetryExhausted p s
  | .fdRetrainTimeout p => Sys2Proof.Machine.execFdRetrainTimeout p s
  | .fdBringupTimeout p => Sys2Proof.Machine.execFdBringupTimeout p s
  | .linkctlFlitReceive p f => Sys2Proof.Machine.execLinkctlFlitReceive p f s
  | .timexSend p => Sys2Proof.Machine.execTimexSend p s
  | .timexFlitReceive p f => Sys2Proof.Machine.execTimexFlitReceive p f s
  | .tallyHoldover => Sys2Proof.Machine.execTallyHoldover s
  | .ptpSyncSend p => Sys2Proof.Machine.execPtpSyncSend p s
  | .frameReceive p f => Sys2Proof.Machine.execFrameReceive p f s
  | .frameTransmit p waits => Sys2Proof.Machine.execFrameTransmit p waits s
  | .preemptVerify p ok => Sys2Proof.Machine.execPreemptVerify p ok s
  | .ethernetLinkUp p => Sys2Proof.Machine.execEthernetLinkUp p s
  | .meshFlitCrcError bridge site face again => Sys2Proof.Machine.execMeshFlitCrcError bridge site face again s
  | .meshLinkFail site face => Sys2Proof.Machine.execMeshLinkFail site face s
  | .bridgeFail b => Sys2Proof.Machine.execBridgeFail b s
  | .ceThreshold u n => Sys2Proof.Machine.execCeThreshold u n s
  | .hbmPatrolRead m ce ue => Sys2Proof.Machine.execHbmPatrolRead m ce ue s
  | .odeccStatusRead m n => Sys2Proof.Machine.execOdeccStatusRead m n s
  | .hbmRefresh stack over85 => Sys2Proof.Machine.execHbmRefresh stack over85 s
  | .pcIdleEntry k => Sys2Proof.Machine.execPcIdleEntry k s
  | .pcPowerDownEntry k => Sys2Proof.Machine.execPcPowerDownEntry k s
  | .pcWake k => Sys2Proof.Machine.execPcWake k s
  | .powerLoss pwrok coreMv ioMv => Sys2Proof.Machine.execPowerLoss pwrok coreMv ioMv s
  | .resetComplete => Sys2Proof.Machine.execResetComplete s
  | .sealReleaseComplete r => Sys2Proof.Machine.execSealReleaseComplete r s
  | .stopInterfaceComplete => Sys2Proof.Machine.execStopInterfaceComplete s
  | .startInterface => Sys2Proof.Machine.execStartInterface s
  | .hoistTableCheckComplete n err => Sys2Proof.Machine.execHoistTableCheckComplete n err s
  | .fdTrainingDone p => Sys2Proof.Machine.execFdTrainingDone p s
  | .fdAlignmentDone p => Sys2Proof.Machine.execFdAlignmentDone p s
  | .ethernetLinkDown p => Sys2Proof.Machine.execEthernetLinkDown p s
  | .hbmChannelFail m status => Sys2Proof.Machine.execHbmChannelFail m status s
  | .msixMaskClear vec => Sys2Proof.Machine.execMsixMaskClear vec s
  | .cacheEnableWrite b lines => Sys2Proof.Machine.execCacheEnableWrite b lines s
  | .idleExitComplete => Sys2Proof.Machine.execIdleExitComplete s
  | .ptpDelayReqSend p => Sys2Proof.Machine.execPtpDelayReqSend p s

end Sys2Proof.Machine
end

