-- ==== Sys2Proof/Safety.lean ====
section
/-! DEFINITION. What statements are made of: answers of commands, starts of descriptors, records, canonical memory, a legal clock,
and the groups of commands that share a frame. -/
namespace Sys2Proof.Machine

/-- The command answers a next state with the property. -/
def Answers (i : Instr) (s : State) (p : State → Prop) : Prop := ∃ t, exec i s = .next t ∧ p t

/-! ### Ring commands (12 R284 to R289, R299) -/

/-- The descriptor stands at the head of its ring, is the command of `spec`, may start now, and passes the common checks (R289). -/
def Starts (spec : CmdSpec) (d : Desc) (s : State) : Prop :=
  byteAt d.bytes 0 = spec.opcode ∧
  s.ringReady d.ring.val spec.entries spec.usesSlot (byteAt d.bytes 2 % 8) = true ∧
  (spec.admin = true → s.ringAdmin d.ring.val = true) ∧
  (spec.usesSlot = true →
    bitAt (s.ringSlots d.ring.val) (byteAt d.bytes 2 % 8) = true ∧ (s.slot (byteAt d.bytes 2 % 8)).killing = false) ∧
  reservedZero spec d.bytes = true ∧
  (spec.needsSurvey = true → s.loaded (byteAt d.bytes 2 % 8) = true)

/-- The command of Table 12-2 that a ring-command row starts, with its descriptor. -/
def ringCmd : Instr → Option (CmdSpec × Desc)
  | .nop d => some (nopSpec, d) | .surveyLoad d _ => some (surveyLoadSpec, d) | .surveyUnload d _ => some (unloadSpec, d)
  | .runStep d => some (runStepSpec, d) | .setStepParams d _ => some (stepParamsSpec, d) | .rearmStream d => some (rearmSpec, d)
  | .copy d _ _ => some (copySpec d.bytes, d) | .fence d => some (fenceSpec, d) | .barrier d => some (barrierSpec, d)
  | .killJob d _ => some (killSpec, d) | .biasSet d => some (biasSetSpec, d) | .powerSet d => some (powerSetSpec, d)
  | .bundleLoad d _ => some (bundleLoadSpec, d) | .sealRelease d => some (sealReleaseSpec, d) | .sealExport d => some (sealExportSpec, d)
  | _ => none

/-- The command waits for nothing of its own before it starts: a third RUN_STEP or parameter set of a slot waits at its ring's head
(12 R286, R16), as do a bundle or release whose region is in use and a command already being worked on (R293, R296, R400, R405). -/
def unheld (i : Instr) (s : State) : Bool :=
  match i with
  | .runStep d => s.stepFree (byteAt d.bytes 2 % 8)
  | .setStepParams d _ => s.paramsFree (byteAt d.bytes 2 % 8) (leAt d.bytes 16 4) &&
      s.cage.started.all fun x => x.ring != d.ring || (match x.kind with | .stepParams j => j.waiting | _ => true)
  | .barrier d => (s.onRing d.ring.val).all fun x => match x.kind with | .barrier k _ => k.sent.isSome | _ => true
  | .bundleLoad d view => !s.copyOver (leAt d.bytes 32 6)
      (4096 * ceilDiv (match view.range true (leAt d.bytes 16 8 + 8) 8 with | .ok b => leAt b 0 8 | _ => 0) 4096)
  | .sealRelease d => !s.exporting (leAt d.bytes 16 1 % 16)
  | .sealExport d => !(match s.sealedAt (leAt d.bytes 16 1 % 16) with | some x => s.setRunning x | none => false)
  | _ => true

/-- The state in which a descriptor's own work begins, and the descriptor as it is listed (R284). -/
def begun (spec : CmdSpec) (kind : StartedKind) (d : Desc) (s : State) : State × Started := s.begin spec d kind

/-- The descriptor is among the started ones, doing this. -/
def StartedAs (d : Desc) (t : State) (p : StartedKind → Bool) : Prop :=
  ∃ x ∈ t.cage.started, x.ring = d.ring ∧ p x.kind = true

/-- A descriptor whose record can be written at once and that asks for one with this status (11 R266, R277; 12 R299). -/
def RecordDue (flags status : Nat) (s : State) : Prop :=
  s.busOn = true ∧ s.cxl.cageStopped = false ∧ (status ≠ 0 ∨ bitAt flags 1 = false)

/-- A completion record of the ring, at the entry that was next, with the status (12 Table 12-5). -/
def Recorded (ring : Fin 32) (status : Nat) (s t : State) : Prop :=
  ∃ r, Output.completion ring (s.ring ring.val).cqTail (s.ringTag ring.val) (s.ringCq ring.val + 64 * (s.ring ring.val).cqTail) r ∈ t.out ∧
    byteAt r 16 = status

/-- A started descriptor has ended with the status: it is no longer listed, and its record is written where one is due. -/
def Finished (d : Started) (status : Nat) (s t : State) : Prop :=
  (∀ x ∈ t.cage.started, x.serial ≠ d.serial) ∧
  (RecordDue (byteAt d.header 1) status s → Recorded d.ring status s t)

/-- A fetched descriptor has ended with the status in the step that started it. -/
def EndsAtOnce (d : Desc) (status : Nat) (s t : State) : Prop :=
  (∀ x ∈ t.cage.started, x.serial ≠ s.cage.serial) ∧
  (RecordDue (byteAt d.bytes 1) status s → Recorded d.ring status s t)

/-! ### Registers and events -/

/-- A BAR0 write takes effect at once: the host reaches the device, which runs in A0 without a reset in progress, and in RUN the
write carries the TEE indication (20 R485, R486; 11 R272). -/
def WriteOpen (tee : Bool) (s : State) : Prop :=
  s.barOpen = true ∧ s.pwr.resetting = none ∧ s.pwr.phase = .running ∧ (s.cxl.tdi = .run → tee = true) ∧ s.pwr.idle = 0 ∧
  s.pwr.a4Wait = false

/-- Every counter of a range, and its latched high word, reads 0. -/
def CountersZero (lo hi : Nat) (t : State) : Prop :=
  ∀ o, lo ≤ o → o < hi → t.ctr o = 0 ∧ tblGet (fun _ => 0) t.latches o = 0

/-- The newest record of the log is this event, the first after those of `s` (18 R442 to R444). -/
def Logged (code : Nat) (cls : EvClass) (slot : Option (Fin 8)) (payload : List Byte) (s t : State) : Prop :=
  ∃ e, t.ras.log.head? = some e ∧ e.code = code ∧ e.cls = cls ∧ e.slot = slot ∧ e.payload = payload ∧
    e.seq = (s.ras.seq + 1) % 2 ^ 32 ∧ e.tally = s.clk.tally

/-- The log has grown by records one of which is of this event; of all it keeps the newest 8,192 (18 R444). -/
def Raised (code : Nat) (s t : State) : Prop :=
  ∃ new : List EventRec, (∃ e ∈ new, e.code = code) ∧ t.ras.log = (new ++ s.ras.log).take 8192

/-- The next idle step ends an MCLK cycle: no command waits, the root is locked, the device runs, and no MCTP message is held. -/
def CycleEnds (s : State) : Prop :=
  s.pending = [] ∧ s.clk.locked = true ∧ s.pwr.phase = .running ∧ (s.clk.root + 8) % 16 = 0 ∧ s.sec.mctp = []

/-! ### Invariants -/

/-- Every memory of the package is in its canonical form: HBM lists rising addresses and no zero byte. -/
def HbmCanonical (s : State) : Prop := tblWf (fun _ => (0 : Byte)) s.hbm.cells = true

/-- The ACLK step in force, the one requested and the one that waits for its voltage are the four of 15 Table 15-1. -/
def ClockLegal (s : State) : Prop :=
  s.clk.step ≤ 3 ∧ s.clk.req ≤ 3 ∧ ∀ w, s.clk.volt = some w → w.step ≤ 3

/-- What the bounded stores hold at most: the log of 18 R444, the record store of 11 R266, the sessions of 16 R392, the
translations of 11 R273. -/
def StoresBounded (s : State) : Prop :=
  s.ras.log.length ≤ 8192 ∧ s.cage.held.length ≤ 64 ∧ s.sec.sessions.length ≤ 4 ∧ s.cxl.atc.length ≤ 1024

/-! ### Frames -/

/-- Every byte of HBM reads as before. -/
def SameMemory (s t : State) : Prop := ∀ a, t.hbmByte a = s.hbmByte a

/-- The kinds of state of the block: the parts of State, the queue of commands apart, and the bytes of HBM apart from the rest of it. -/
inductive Field
  | regs | held | ctrs | latches | clk | pwr | ras | sec | cxl | cage | memory | hbm | slots | flow | fab | jtag | boundary | out | fresh
  deriving DecidableEq, Repr

/-- This kind of state is the same in both. -/
def Field.Same (f : Field) (s t : State) : Prop :=
  match f with
  | .regs => t.regs = s.regs | .held => t.held = s.held | .ctrs => t.ctrs = s.ctrs | .latches => t.latches = s.latches
  | .clk => t.clk = s.clk | .pwr => t.pwr = s.pwr | .ras => t.ras = s.ras | .sec => t.sec = s.sec | .cxl => t.cxl = s.cxl
  | .cage => t.cage = s.cage | .memory => t.hbm.cells = s.hbm.cells | .hbm => t.hbm = s.hbm | .slots => t.slots = s.slots
  | .flow => t.flow = s.flow | .fab => t.fab = s.fab | .jtag => t.jtag = s.jtag | .boundary => t.boundary = s.boundary
  | .out => t.out = s.out | .fresh => t.fresh = s.fresh

/-- All kinds, and all but these. -/
def Field.all : List Field :=
  [.regs, .held, .ctrs, .latches, .clk, .pwr, .ras, .sec, .cxl, .cage, .memory, .hbm, .slots, .flow, .fab, .jtag, .boundary, .out, .fresh]
def Field.but (l : List Field) : List Field := Field.all.filter fun f => !l.contains f

/-- The kinds of state a command may change; the frame of each command is that every other kind stays as it is. -/
def footprint : Instr → List Field
  | .nop _ | .sealExport _ => [.ctrs, .pwr, .cxl, .cage, .out]
  | .surveyLoad _ _ => [.ctrs, .pwr, .ras, .sec, .cxl, .cage, .memory, .hbm, .slots, .flow, .out]
  | .surveyLoadComplete _ => Field.but [.held, .clk, .fab, .jtag, .boundary, .fresh]
  | .surveyUnload _ _ | .killJob _ _ | .cxlLinkDown | .mgmtJobKill _ _ _
    => Field.but [.held, .latches, .clk, .sec, .jtag, .boundary, .fresh]
  | .runStep _ => [.ctrs, .pwr, .ras, .cxl, .cage, .slots, .flow, .out]
  | .runStepComplete _ => [.ctrs, .cxl, .cage, .memory, .hbm, .slots, .flow, .out]
  | .setStepParams _ _ => [.ctrs, .pwr, .ras, .sec, .cxl, .cage, .memory, .hbm, .slots, .out]
  | .rearmStream _ => [.ctrs, .pwr, .cxl, .cage, .flow, .out]
  | .copy _ _ _ | .copyComplete _ _ _ _ => Field.but [.regs, .held, .latches, .clk, .jtag, .boundary, .fresh]
  | .fence _ | .completionHeadPoll _ _ | .fwWriteComplete | .nvGateTimeout | .cacheEnableWrite _ _ => [.ctrs, .pwr, .ras, .cxl, .cage, .out]
  | .fenceComplete _ => [.ctrs, .cxl, .cage, .out]
  | .barrier _ => [.ctrs, .pwr, .ras, .cxl, .cage, .flow, .fab, .out]
  | .barrierTimeout _ => [.ctrs, .cxl, .cage, .flow, .out]
  | .killComplete _ => [.regs, .ctrs, .pwr, .ras, .cxl, .cage, .memory, .hbm, .slots, .flow, .out]
  | .biasSet _ => [.ctrs, .pwr, .cxl, .cage, .hbm, .out]
  | .powerSet _ => [.ctrs, .clk, .pwr, .ras, .cxl, .cage, .out]
  | .bundleLoad _ _ | .bundleLoadComplete _ | .debugUnlockScrubDone | .translationCompletion _ _ _ _ | .pageRequestResponse _ _ _
  | .pageRequestTimeout _ _ => [.ctrs, .pwr, .ras, .sec, .cxl, .cage, .memory, .hbm, .out]
  | .sealRelease _ => [.ctrs, .pwr, .sec, .cxl, .cage, .out]
  | .sealExportComplete _ => Field.but [.regs, .held, .latches, .clk, .jtag, .boundary]
  | .doorbellSnoop _ _ _ | .cxlLinkUp _ | .fabricNoManager | .fdRetryExhausted _ | .linkctlFlitReceive _ _ | .preemptVerify _ _
    => [.ctrs, .pwr, .ras, .cxl, .cage, .fab, .out]
  | .eventRingHeadPoll _ => [.regs, .ctrs, .pwr, .ras, .cxl, .cage, .out]
  | .registerWrite _ | .cuCtlCntClr _ _ | .muCtlCntClr _ _ | .millCtlCntClr _ | .memCtlCntClr _ | .cxlCtlCntClr _ | .cageCtlCntClr _
  | .portCtlCntClr _ _ | .fabCfgCntClr _ | .tallyCfgCntClr _ | .pwrCtlCntClr _ | .rasCfgCntClr _ | .glbCtlCntClr _ | .ringCtlEn _ _ _ _
  | .evqEn _ _ | .jobctlHoistCfgEn _ _ _ | .jobctlSluiceCfgEn _ _ _ | .tallySetHi _ _ | .dbgCtlChalNew _ | .dbgCtlSubmit _
  | .rasUnitFence _ _ | .rasUnitReturn _ _ | .rasUnitRestore _ _ | .fwCtlStage _ _ | .fwCtlActivate _ | .fwCtlCommit _ | .idleExitComplete
    => Field.but [.jtag, .boundary]
  | .counterLowRead _ | .ptpTxtsPop _ _ => [.ctrs, .latches, .cxl, .fab, .out]
  | .siteFence _ _ | .hostBar2Access _ _ _ | .tokenArrival _ _ | .tileIssue _ | .shadowDrain _ _ _ _ _ | .panelFillComplete _ _ _ _
  | .spillReturn _ _ _ | .coalHoldExpiry _ | .bankWake _ _ | .sluiceContribution _ | .redReceive _ | .sluiceResidueFatal _
  | .fmtChannelFail _ _ | .neighbourTimeout _ | .epochConfirmTimeout _ | .joinReport _ | .peerNew _ | .peerLost _ | .fdRetrainTimeout _
  | .meshLinkFail _ _ | .bridgeFail _ | .ceThreshold _ _ | .hbmChannelFail _ _
    => [.ctrs, .pwr, .ras, .cxl, .cage, .slots, .flow, .fab, .out]
  | .selftestComplete _ _ => [.ctrs, .pwr, .ras, .cxl, .cage, .flow, .out]
  | .fwCtlRecover | .nvOperationStart | .hbmRefresh _ _ => [.pwr]
  | .busMasterEnableWrite _ | .priEnableWrite _ | .hdmDecoderCommit _ _ _ | .lockedItemChange _ | .stopInterface | .ideKm _
  | .ideStreamReceive _ _ | .msixMaskClear _ => Field.but [.held, .latches, .clk, .jtag, .boundary, .fresh]
  | .lockInterface | .startInterface => [.cxl, .out]
  | .getVersion _ | .getCapabilities _ | .negotiateAlgorithms _ _ | .getCertificate _ _ _ _ | .keyUpdate _ _ | .endSession _ _
    => [.sec, .out]
  | .challenge _ _ _ | .getMeasurements _ _ _ _ | .keyExchange _ => [.sec, .out, .fresh]
  | .heartbeatTimeout _ => [.sec]
  | .cdatRead => [.out]
  | .pldmFwUpdate _ => [.ctrs, .pwr, .ras, .sec, .cxl, .cage, .out]
  | .jtagIdcode | .jtagExtest => [.jtag, .out]
  | .jtagBypass => [.jtag]
  | .jtagSamplePreload _ _ => [.jtag, .boundary, .out]
  | .hostCxlMemRead _ _ _ | .hostCxlMemWrite _ _ _ | .bankRetainEntry _ _ | .stagingChunkCredit _ _ | .millRunApply _ _ _ | .runDelivery _
    => [.ctrs, .pwr, .ras, .cxl, .cage, .memory, .hbm, .slots, .flow, .fab, .out]
  | .atsInvalidation _ _ _ => [.ctrs, .cxl, .out]
  | .powerOnReset _ _ _ => Field.but [.out]
  | .firmwareBoot _ => Field.but [.held, .latches, .jtag, .boundary, .fresh]
  | .rootLockLoss => Field.but [.out, .fresh]
  | .perst _ _ | .cxlReset _ | .secondaryBusReset => Field.but [.held, .latches, .sec, .jtag, .boundary, .fresh]
  | .thermalSample _ => [.ctrs, .clk, .pwr, .ras, .cxl, .cage, .slots, .flow, .fab, .out]
  | .thermtrip | .powerLoss _ _ _ => Field.all
  | .pmbusAlert _ _ _ | .sagDetect _ _ | .electionSettled => [.ctrs, .clk, .pwr, .ras, .cxl, .cage, .fab, .out]
  | .voltageTargetReached _ | .aclkStepChange => [.ctrs, .clk, .cxl, .cage, .out]
  | .sagRelease => [.ctrs, .clk, .pwr, .cxl, .cage, .fab, .out]
  | .idleEntry | .dataFlitReceive _ _ => [.ctrs, .pwr, .fab, .out]
  | .a4Entry => [.ctrs, .pwr]
  | .stationFire _ _ | .gatherReadServe _ _ | .amaxExchange | .gatherRspReceive
    => Field.but [.regs, .held, .latches, .clk, .sec, .jtag, .boundary]
  | .tileBoundary _ => [.regs, .held, .ctrs, .pwr, .ras, .cxl, .cage, .slots, .flow, .fab, .out]
  | .accumulatorSwap _ _ | .bankIdleEntry _ _ | .muckerPageScrubbed _ _ | .leaseExpiry => [.ctrs, .flow]
  | .ringCreditReturn _ _ | .millRunArrival _ => [.flow]
  | .watchdogExpiry _ => [.ctrs, .pwr, .ras, .cxl, .cage, .slots, .out]
  | .hoistGatherRequest _ _ _ _ => [.ctrs, .slots, .flow, .fab, .out]
  | .leaseClose | .leaseRevoke | .gatherReqReceive => [.ctrs, .flow, .fab, .out]
  | .barArrive | .barRelease | .barAbort => [.ctrs, .cxl, .cage, .flow, .fab, .out]
  | .fmtErrorReceive => [.ctrs, .pwr, .ras, .cxl, .cage, .slots, .flow, .fab, .out, .fresh]
  | .fmtTransit | .ackReceive | .ackDelayExpiry _ _ | .retransmitTimeout _ _ | .helloSend _ | .mgmtFlood | .replayTimeout _
  | .frameTransmit _ _ | .fdAlignmentDone _ => [.ctrs, .fab, .out]
  | .rateIncrease _ | .addressAssign _ _ | .epochMark | .managerLoss | .ptpSyncSend _ | .ethernetLinkUp _ | .fdTrainingDone _
  | .ptpDelayReqSend _ => [.fab]
  | .hello | .routingTableLoad _ _ _ | .tableRetire | .timexSend _ => [.fab, .out]
  | .epochCommit _ => [.ctrs, .clk, .fab, .out]
  | .fdBringupTimeout _ | .ethernetLinkDown _ => [.ctrs, .fab]
  | .timexFlitReceive _ _ | .frameReceive _ _ => [.ctrs, .clk, .pwr, .ras, .cxl, .cage, .flow, .fab, .out, .fresh]
  | .tallyHoldover => [.clk]
  | .meshFlitCrcError _ _ _ _ => [.ctrs, .ras]
  | .hbmPatrolRead _ _ _ => [.ctrs, .pwr, .ras, .cxl, .cage, .hbm, .slots, .flow, .fab, .out]
  | .odeccStatusRead _ _ => [.ctrs]
  | .pcIdleEntry _ => [.ctrs, .hbm]
  | .pcPowerDownEntry _ | .pcWake _ => [.hbm]
  | .resetComplete => Field.but [.jtag, .boundary, .fresh]
  | .sealReleaseComplete _ => [.ctrs, .sec, .cxl, .cage, .memory, .hbm, .out]
  | .stopInterfaceComplete => [.ctrs, .cxl, .cage, .memory, .hbm, .out]
  | .hoistTableCheckComplete _ _ => [.regs, .ctrs, .pwr, .ras, .cxl, .cage, .hbm, .slots, .flow, .fab, .out]

end Sys2Proof.Machine
end

