-- ==== Sys2Proof/Certificates/Slice0/Obligations.lean ====
section
/-! DEFINITION. The statements for the provers, one definition each: the queue and the checks of commands, what each command does where
it completes, what it leaves alone, and what every step keeps. Clauses follow the rules of the manual that their comments name. -/
open Sys2Proof Sys2Proof.Machine

/-! ### The queue and time -/

/-- Tier 1. A step takes the command at the front of the queue and answers what its meaning answers on the rest. -/
def Obligations.StepRunsFront : Prop :=
  ∀ (c : Instr) (rest : List Instr) (s : State), step { s with pending := c :: rest } = exec c { s with pending := rest }

/-- Tier 1 (log entry 2, a design choice; 15 R369, R373). With no command waiting a step is one XCLK cycle: 8 root cycles, and while
Tally is not slewed it counts one; registers, memory, slots, dataflow and fabric stand; security, log, link and Cage stand unless a held
MCTP message or a non-volatile write goes out. A root without lock stands still. -/
def Obligations.StepIdlesOneCycle : Prop :=
  (∀ s : State, s.pending = [] → s.clk.locked = true → s.pwr.phase ≠ .held → s.pwr.phase ≠ .lockLost →
    ∃ t, step s = .next t ∧ t.clk.root = s.clk.root + 8 ∧ t.clk.tally = s.clk.tally + BitVec.ofNat 64 s.tallyAdvance ∧
      (s.clk.trim = 0 → t.clk.tally = s.clk.tally + 1) ∧ t.regs = s.regs ∧ t.hbm = s.hbm ∧ t.slots = s.slots ∧ t.flow = s.flow ∧
      t.fab = s.fab ∧ (s.sec.mctp = [] → (∀ w ∈ s.pwr.nvWait, w.starting = false) →
        t.sec = s.sec ∧ t.ras = s.ras ∧ t.cxl = s.cxl ∧ t.cage = s.cage)) ∧
  (∀ s : State, s.pending = [] → s.clk.locked = false → step s = .next s)

/-- Tier 1. What reset leaves: every register at its Reset column, no Survey, no session, nothing started, Tally 0, links down. -/
def Obligations.ResetValues : Prop :=
  (∀ off, State.reset.reg off = (regReset off).toNat) ∧ (∀ off, State.reset.ctr off = 0) ∧
  (∀ n, State.reset.slot n = Slot.empty) ∧ (∀ a, State.reset.hbmByte a = 0) ∧ (∀ r, State.reset.sealedAt r = none) ∧
  State.reset.sec.sessions = [] ∧ State.reset.sec.dbg = .locked ∧ State.reset.cage.started = [] ∧ State.reset.clk.tally = 0 ∧
  State.reset.clk.sync = .free ∧ State.reset.cxl.up = false ∧ State.reset.cxl.tdi = .unlocked ∧ State.reset.pwr.phase = .held ∧
  State.reset.ras.log = [] ∧ State.reset.pending = [] ∧ State.reset.out = []

/-- Tier 1. The state after reset meets the invariants that every step keeps. -/
def Obligations.ResetMeetsInvariants : Prop :=
  HbmCanonical State.reset ∧ ClockLegal State.reset ∧ StoresBounded State.reset

/-! ### Invariants that every step keeps -/

/-- Tier 2. A command's meaning leaves the queue of waiting commands alone. -/
def Obligations.CommandsLeaveQueue : Prop := ∀ (c : Instr) (s t : State), exec c s = .next t → t.pending = s.pending

/-- Tier 3. Every step keeps the package's memory canonical: rising addresses below one another, no zero byte listed. -/
def Obligations.HbmStaysCanonical : Prop := ∀ s t : State, HbmCanonical s → step s = .next t → HbmCanonical t

/-- Tier 3. No step, whatever the command, a reset among them, lets the anti-rollback counter fall (18 R458). -/
def Obligations.RollbackNeverFalls : Prop := ∀ s t : State, step s = .next t → s.sec.rollback ≤ t.sec.rollback

/-- Tier 3. Every step keeps the ACLK step, the step requested and the step waited for among the four of 15 Table 15-1. -/
def Obligations.ClockStaysLegal : Prop := ∀ s t : State, ClockLegal s → step s = .next t → ClockLegal t

/-- Tier 3. Every step keeps the bounds of the bounded stores: log, record store, sessions, translations. -/
def Obligations.StoresStayBounded : Prop := ∀ s t : State, StoresBounded s → step s = .next t → StoresBounded t

/-! ### The checks of every ring command -/

/-- Tier 2 (12 R289). Table 12-2 and the checks of a command that starts, in their order. -/
def Obligations.RingCommandChecks : Prop :=
  ([nopSpec, surveyLoadSpec, unloadSpec, runStepSpec, stepParamsSpec, rearmSpec, copySpec [], fenceSpec, barrierSpec, killSpec,
      biasSetSpec, powerSetSpec, bundleLoadSpec, sealReleaseSpec, sealExportSpec].map fun c => (c.opcode, c.usesSlot, c.admin)) =
    [(0x00, false, false), (0x01, true, false), (0x02, true, false), (0x03, true, false), (0x04, true, false), (0x05, true, false),
      (0x06, true, false), (0x07, false, false), (0x08, true, false), (0x09, true, false), (0x0A, false, true), (0x0B, false, true),
      (0x0C, false, true), (0x0D, false, true), (0x0E, false, true)] ∧
  (∀ (st : Started), st.blocks = match st.kind with | .kill => true | .fence _ _ _ => true | .barrier _ _ => true | _ => false) ∧
  ∀ (c : Instr) (spec : CmdSpec) (d : Desc) (s : State), ringCmd c = some (spec, d) → unheld c s = true →
    let op := byteAt d.bytes 0
    let k := d.ring.val
    let n := byteAt d.bytes 2 % 8
    (0x0F ≤ op → s.ringReady k 1 false n = true → Answers c s (EndsAtOnce d 0x03 s)) ∧
    (op = spec.opcode → s.ringReady k spec.entries spec.usesSlot n = true →
      if spec.admin = true ∧ s.ringAdmin k = false then Answers c s (EndsAtOnce d 0x05 s)
      else if spec.usesSlot = true ∧ bitAt (s.ringSlots k) n = false then Answers c s (EndsAtOnce d 0x05 s)
      else if reservedZero spec d.bytes = false then Answers c s (EndsAtOnce d 0x04 s)
      else if spec.needsSurvey = true ∧ s.loaded n = false then Answers c s (EndsAtOnce d 0x06 s)
      else if spec.usesSlot = true ∧ (s.slot n).killing = true then Answers c s (EndsAtOnce d 0x02 s)
      else True)

/-! ### Ring commands that start -/

/-- Tier 2. NOP ends with SUCCESS (12 R289). REARM_STREAM puts the entry's fields before those of its generator and ends; an entry the
template lacks, or a template the Survey lacks, is INVALID_ARGUMENT (05 R138). BIAS_SET gives every page of its range, counted from
the window's start, the bias named, and leaves the other pages; a count of 0 or a range outside the window is INVALID_ARGUMENT, host
bias over a sealed region NOT_PERMITTED (10 R244, 12 R290). POWER_SET within the limits stores the host's step, unless it names 7, and
the wake latency, when no FENCE or BARRIER came with it; beyond a limit, or gating beside one that did, it is PREEMPTED (12 R290, R302,
15 R371, 17 R428). -/
def Obligations.SmallRingCommandsAct : Prop :=
  (∀ (d : Desc) (s : State), Starts nopSpec d s → Answers (.nop d) s fun t =>
    EndsAtOnce d 0 s t ∧ t.slots = s.slots ∧ t.flow = s.flow ∧ t.hbm = s.hbm ∧ t.regs = s.regs) ∧
  (∀ (d : Desc) (s : State) (v : Survey),
    let n := byteAt d.bytes 2 % 8
    let k := leAt d.bytes 16 2
    let e := byteAt d.bytes 18 % 64
    Starts rearmSpec d s → (s.slot n).survey = some v →
    (∀ m, v.tmpls[k]? = some m → e < m.rearmN → Answers (.rearmStream d) s fun t => EndsAtOnce d 0 s t ∧ (t.stream n k).rearms.head? =
      some (e, { base := leAt d.bytes 20 4, lims := (List.range 5).map fun i => leAt d.bytes (24 + 2 * i) 2 }) ∧
      t.slots = s.slots ∧ t.hbm = s.hbm) ∧
    ((∀ m, v.tmpls[k]? = some m → m.rearmN ≤ e) →
      Answers (.rearmStream d) s fun t => EndsAtOnce d 0x04 s t ∧ t.flow = s.flow)) ∧
  (∀ (d : Desc) (s : State),
    let first := leAt d.bytes 16 4
    let count := leAt d.bytes 20 4
    let host := bitAt (byteAt d.bytes 24) 0
    let base := s.winBase / 2 ^ 21
    Starts biasSetSpec d s →
    (count = 0 ∨ s.winSize / 2 ^ 21 < first + count → Answers (.biasSet d) s fun t => EndsAtOnce d 0x04 s t ∧ t.hbm = s.hbm) ∧
    (count ≠ 0 → first + count ≤ s.winSize / 2 ^ 21 → host = true →
      (s.sealedIn ((base + first) * 2 ^ 21) (count * 2 ^ 21)).isSome = true →
      Answers (.biasSet d) s fun t => EndsAtOnce d 0x05 s t ∧ t.hbm = s.hbm) ∧
    (count ≠ 0 → first + count ≤ s.winSize / 2 ^ 21 →
      (host = true → s.sealedIn ((base + first) * 2 ^ 21) (count * 2 ^ 21) = none) →
      Answers (.biasSet d) s fun t => EndsAtOnce d 0 s t ∧ t.hbm.cells = s.hbm.cells ∧ ∀ p, t.hbm.hostBias.contains p =
        (if base + first ≤ p ∧ p < base + first + count then host else s.hbm.hostBias.contains p))) ∧
  (∀ (d : Desc) (s : State),
    let step := leAt d.bytes 20 1 % 8
    Starts powerSetSpec d s →
    (4 ≤ step → step ≠ 7 → Answers (.powerSet d) s fun t => EndsAtOnce d 0x04 s t ∧ t.clk = s.clk) ∧
    (step < s.limitStep → step ≤ 3 → Answers (.powerSet d) s fun t => EndsAtOnce d 0x02 s t ∧ t.clk = s.clk) ∧
    (step ≤ 3 ∨ step = 7 → s.limitStep ≤ step → s.fenceTie.isSome = true → leAt d.bytes 16 4 ≠ 0 →
      Answers (.powerSet d) s fun t => EndsAtOnce d 0x02 s t ∧ t.clk = s.clk) ∧
    (step ≤ 3 ∨ step = 7 → s.limitStep ≤ step → s.fenceTie = none ∨ leAt d.bytes 16 4 = 0 → Answers (.powerSet d) s fun t =>
      t.pwr.wakeUs = leAt d.bytes 16 4 ∧ t.clk.hostStep = (if step = 7 then s.clk.hostStep else step)))

/-- Tier 2. A RUN_STEP that nothing refuses sets the slot's step number and sends a START token to every START port (01 R14, 05
Table 05-3); under service it ends with PREEMPTED, on a STOPPED slot with JOB_FAULT, with a step number that is not the next with
INVALID_ARGUMENT, as is one whose layer table is lacking (01 R14, 18 R439, R451). A SURVEY_LOAD is checked at once when no other load
is in progress and otherwise waits, listed (07 R179). SET_STEP_PARAMS takes the parameters from host memory (09 R215). A COPY whose checks pass begins to move (12 R292). -/
def Obligations.JobRingCommandsAct : Prop :=
  (∀ (d : Desc) (s : State),
    let n := byteAt d.bytes 2 % 8
    let step := leAt d.bytes 16 4
    let b := begun runStepSpec (.runStep step) d s
    Starts runStepSpec d s → unheld (.runStep d) s = true →
    (s.ras.service = false → s.pwr.tripLimit = false → (s.slot n).stopped = false → (s.slot n).nextStep step = true →
      s.lacksTable n = false →
      exec (.runStep d) s = .next ((b.1.setSlot n { s.slot n with
        lastStep := some step, firstStep := some ((s.slot n).firstStep.getD step) }).sendStarts n step)) ∧
    (s.ras.service = true → Answers (.runStep d) s (EndsAtOnce d 0x02 s)) ∧
    (s.ras.service = false → s.pwr.tripLimit = false → (s.slot n).stopped = true → Answers (.runStep d) s (EndsAtOnce d 0x0A s)) ∧
    (s.ras.service = false → s.pwr.tripLimit = false → (s.slot n).stopped = false →
      (s.slot n).nextStep step = false ∨ s.lacksTable n = true →
      Answers (.runStep d) s (EndsAtOnce d 0x04 s))) ∧
  (∀ (d : Desc) (view : HostView) (s : State),
    let len := leAt d.bytes 24 8
    let b := begun surveyLoadSpec (.surveyLoad { desc := d.bytes, waiting := false, checked := false }) d s
    Starts surveyLoadSpec d s →
    (s.ras.service = true → Answers (.surveyLoad d view) s (EndsAtOnce d 0x02 s)) ∧
    (s.ras.service = false → leAt d.bytes 16 8 % 64 ≠ 0 ∨ len < 256 ∨ 2 ^ 28 < len → Answers (.surveyLoad d view) s (EndsAtOnce d 0x04 s)) ∧
    (s.ras.service = false → leAt d.bytes 16 8 % 64 = 0 → 256 ≤ len → len ≤ 2 ^ 28 →
      (s.loads = [] → exec (.surveyLoad d view) s = .next (b.1.checkLoad b.2 d.bytes view)) ∧
      (s.loads ≠ [] → exec (.surveyLoad d view) s = .next b.1))) ∧
  (∀ (d : Desc) (view : HostView) (s : State),
    let n := byteAt d.bytes 2 % 8
    let b := begun stepParamsSpec (.stepParams { desc := d.bytes, waiting := false, checked := false }) d s
    Starts stepParamsSpec d s → unheld (.setStepParams d view) s = true → (s.slot n).stopped = false →
    (leAt d.bytes 24 8 % 16 = 0 → exec (.setStepParams d view) s = .next (b.1.takeParams b.2 d.bytes view)) ∧
    (leAt d.bytes 24 8 % 16 ≠ 0 → Answers (.setStepParams d view) s (EndsAtOnce d 0x04 s))) ∧
  (∀ (d : Desc) (view : HostView) (err : HbmErrors) (s : State),
    let n := byteAt d.bytes 2 % 8
    let j : CopyJob := { desc := d.bytes, next := copyStart d.bytes, bytes := 0, waiting := none, ended := none }
    let b := begun (copySpec d.bytes) (.copy j) d s
    Starts (copySpec d.bytes) d s →
    (s.copyCheck n d.bytes = none →
      exec (.copy d view err) s = .next ((b.1.foundErrors err).copyMove (copyRuns d.bytes) b.2 j view)) ∧
    (∀ status, s.copyCheck n d.bytes = some status →
      exec (.copy d view err) s = .next (b.1.copyEnd b.2 d.bytes status 0 [])))

/-- Tier 2. A FENCE that its ring may give stands among the started descriptors, waiting for the earlier descriptors of its ring, of the
rings and of the slots it names (12 R295). A BARRIER gives its contribution (12 R296); with either, a POWER_SET of the same MCLK cycle may
lose (R302). KILL_JOB and SURVEY_UNLOAD mark a loaded slot as being killed and end with SUCCESS on an empty one (12 R297, R298). -/
def Obligations.OrderRingCommandsAct : Prop :=
  (∀ (d : Desc) (s : State),
    let rings := leAt d.bytes 16 4
    let slots := leAt d.bytes 20 1
    let k := d.ring.val
    let waits := ((s.cage.started.filter fun x =>
        x.ring.val == k || bitAt rings x.ring.val || (x.namesSlot && bitAt slots x.slot)).map (·.serial)) ++
      ((s.cage.waiting.filter fun c => c.ring.val == k || bitAt rings c.ring.val || bitAt slots (byteAt c.header 2 % 8)).map (·.serial))
    Starts fenceSpec d s →
    (s.ringAdmin k = true ∨ ((rings = 0 ∨ rings = 2 ^ k) ∧ ∀ n < 8, bitAt slots n = true → bitAt (s.ringSlots k) n = true) →
      exec (.fence d) s = .next (begun fenceSpec (.fence rings slots waits) d s).1.powerTies ∧
      ((∀ y ∈ s.cage.started, ∀ w, y.kind ≠ .powerSet w) →
        Answers (.fence d) s fun t => StartedAs d t fun x => x == .fence rings slots waits)) ∧
    (s.ringAdmin k = false → (rings ≠ 0 ∧ rings ≠ 2 ^ k) ∨ (∃ n < 8, bitAt slots n = true ∧ bitAt (s.ringSlots k) n = false) →
      Answers (.fence d) s (EndsAtOnce d 0x05 s))) ∧
  (∀ (d : Desc) (s : State) (h : HoistTable),
    let n := byteAt d.bytes 2 % 8
    let waits := (s.onRing d.ring.val).map (·.serial) ++ ((s.cage.waiting.filter fun c => c.ring == d.ring).map (·.serial))
    let j : BarrierJob :=
      { fjob := s.fjobOf n, bid := byteAt d.bytes 16, npart := leAt d.bytes 18 2 + 1, tmoLog2 := byteAt d.bytes 20, sent := none }
    let b := begun barrierSpec (.barrier j waits) d s
    Starts barrierSpec d s → unheld (.barrier d) s = true →
    (10 ≤ byteAt d.bytes 20 → (s.slot n).hoist = some h → (s.slot n).stopped = false →
      exec (.barrier d) s = .next (b.1.powerTies.barContribute b.2 j waits)) ∧
    (byteAt d.bytes 20 < 10 → Answers (.barrier d) s (EndsAtOnce d 0x04 s))) ∧
  (∀ (d : Desc) (tied : List (Fin 32)) (s : State),
    let n := byteAt d.bytes 2 % 8
    Starts killSpec d s →
    ((s.slot n).survey.isSome = true ∨ (s.slot n).loading = true → Answers (.killJob d tied) s fun t =>
      (t.slot n).killing = true ∧ (t.slot n).survey = (s.slot n).survey) ∧
    ((s.slot n).survey = none → (s.slot n).loading = false → tied = [] →
      (∀ y ∈ s.cage.started, y.namesSlot = true → y.slot ≠ n) → Answers (.killJob d tied) s fun t =>
      EndsAtOnce d 0 s t ∧ t.slots = s.slots)) ∧
  (∀ (d : Desc) (tied : List (Fin 32)) (s : State),
    let n := byteAt d.bytes 2 % 8
    Starts unloadSpec d s → tied = [] →
    ((s.slot n).survey.isSome = true → s.running n = false → (s.slot n).loading = false → s.loadQueued n = false →
      Answers (.surveyUnload d tied) s fun t => (t.slot n).killing = true ∧ (t.slot n).survey = (s.slot n).survey) ∧
    (s.running n = true ∨ (s.slot n).loading = true ∨ s.loadQueued n = true → Answers (.surveyUnload d tied) s fun t =>
      EndsAtOnce d 0x07 s t ∧ t.slots = s.slots ∧ t.flow = s.flow ∧ t.hbm = s.hbm) ∧
    ((s.slot n).survey = none → s.running n = false → (s.slot n).loading = false → s.loadQueued n = false →
      Answers (.surveyUnload d tied) s (EndsAtOnce d 0 s)))

/-- Tier 2. SEAL_RELEASE begins the release of a region that no Survey uses (16 R405); SEAL_EXPORT stands as started when its buffer
holds the bundle (16 R406); BUNDLE_LOAD fetches the header and begins its checks, and a destination that is not a whole page is
INVALID_ARGUMENT; under service it is PREEMPTED (16 R399, R400, 18 R451). -/
def Obligations.SealRingCommandsAct : Prop :=
  (∀ (d : Desc) (s : State) (x : Sealed),
    let r := leAt d.bytes 16 1 % 16
    Starts sealReleaseSpec d s → unheld (.sealRelease d) s = true → s.sealedAt r = some x →
    (s.sealUsed x = false → Answers (.sealRelease d) s fun t =>
      t.sealedAt r = some { x with releasing := true } ∧ t.hbm = s.hbm ∧ StartedAs d t fun k => k == .sealRelease r) ∧
    (s.sealUsed x = true → Answers (.sealRelease d) s fun t => EndsAtOnce d 0x05 s t ∧ t.sec = s.sec)) ∧
  (∀ (d : Desc) (s : State), Starts sealReleaseSpec d s → unheld (.sealRelease d) s = true →
    s.sealedAt (leAt d.bytes 16 1 % 16) = none → Answers (.sealRelease d) s fun t => EndsAtOnce d 0x04 s t ∧ t.sec = s.sec) ∧
  (∀ (d : Desc) (s : State) (x : Sealed),
    let r := leAt d.bytes 16 1 % 16
    Starts sealExportSpec d s → unheld (.sealExport d) s = true → s.sealedAt r = some x →
    (x.bundleLen ≤ leAt d.bytes 32 8 → Answers (.sealExport d) s fun t => t.sec = s.sec ∧ t.hbm = s.hbm ∧
      StartedAs d t fun k => k == .sealExport { header := [], region := r, desc := d.bytes, waiting := none }) ∧
    (leAt d.bytes 32 8 < x.bundleLen → Answers (.sealExport d) s (EndsAtOnce d 0x04 s))) ∧
  (∀ (d : Desc) (view : HostView) (s : State),
    let tee := s.cxl.tdi == .run
    let b := begun bundleLoadSpec (.bundleLoad { header := [], tee := tee, region := 0, desc := d.bytes, waiting := none }) d s
    Starts bundleLoadSpec d s → unheld (.bundleLoad d view) s = true →
    (s.ras.service = true → Answers (.bundleLoad d view) s (EndsAtOnce d 0x02 s)) ∧
    (s.ras.service = false → leAt d.bytes 32 6 % 4096 = 0 →
      exec (.bundleLoad d view) s = .next (b.1.bundleCheckStart b.2 tee d.bytes view)) ∧
    (s.ras.service = false → leAt d.bytes 32 6 % 4096 ≠ 0 → Answers (.bundleLoad d view) s (EndsAtOnce d 0x04 s)))

/-! ### Ring commands that end -/

/-- Tier 2. Each completion event ends the descriptor it is about, with the status its rule gives: a checked load that may be placed
(07 R180), a step that is done or whose slot is STOPPED (01 R20, R21, 18 R439), a copy at its end (12 R293), a fence (15 R382), a barrier at
its deadline (12 R296), an export whose buffer is reached (16 R406) and a bundle whose header has passed (16 R400). -/
def Obligations.RingCommandsEnd : Prop :=
  (∀ (view : HostView) (s : State) (d : Started) (j : LoadJob) (rest : List (Started × LoadJob)) (v : Survey),
    s.loads = (d, j) :: rest → s.live = true → j.waiting = false → j.checked = true → (s.slot d.slot).survey = some v →
    ({ s := s, n := d.slot, img := [], v := v } : Load).check09 = [] → ({ s := s, n := d.slot, img := [], v := v } : Load).check0A = [] →
    s.loadWaits v = false →
    exec (.surveyLoadComplete view) s =
      .next (((s.placeSurvey d.slot v).recheckTables d.slot).complete d 0x00 0 (zeroBytes 8 ++ leBytes 2 (s.slot d.slot).base)) ∧
    (((s.placeSurvey d.slot v).recheckTables d.slot).complete d 0x00 0 (zeroBytes 8 ++ leBytes 2 (s.slot d.slot).base)).loaded d.slot = true) ∧
  (∀ (n : Fin 8) (s : State) (d : Started) (step : Nat) (rest : List (Started × Nat)), s.stepsOf n.val = (d, step) :: rest →
    ((s.slot n.val).stopped = false → s.stationsDone n.val = true → s.updatesDone n.val step = true → s.sluicesDone n.val step = true →
      Answers (.runStepComplete n) s fun t => Finished d 0x00 s t ∧ t.hbm.cells = s.hbm.cells) ∧
    ((s.slot n.val).stopped = true → exec (.runStepComplete n) s =
      .next (((s.flushTails n.val).complete d (s.slot n.val).firstStatus 0 ((s.flushTails n.val).stepResult n.val step)).retireStep
        n.val step))) ∧
  (∀ (ring : Fin 32) (index : Nat) (view : HostView) (err : HbmErrors) (s : State) (d : Started) (j : CopyJob),
    (s.cage.started.find? fun d => d.ring == ring && d.index == index && (match d.kind with | .copy _ => true | _ => false)) = some d →
    d.kind = .copy j → s.live = true → s.busOn = true → j.waiting = none →
    (j.ended = none → copyTotal j.desc ≤ j.next →
      exec (.copyComplete ring index view err) s = .next (s.copyEnd d j.desc 0x00 0 (j.result 0)) ∧
      (bitOf j.desc 34 0 = false → Answers (.copyComplete ring index view err) s (Finished d 0x00 s))) ∧
    (j.ended = none → j.next < copyTotal j.desc →
      exec (.copyComplete ring index view err) s = .next ((s.foundErrors err).copyMove (copyRuns j.desc) d j view))) ∧
  (∀ (ring : Fin 32) (s : State) (d : Started) (rings slots : Nat) (waits : List Nat),
    ((s.onRing ring.val).find? fun d => match d.kind with | .fence _ _ _ => true | _ => false) = some d →
    d.kind = .fence rings slots waits →
    (s.allDone waits = true → s.streamsIdle slots = true → Answers (.fenceComplete ring) s (Finished d 0x00 s)) ∧
    (s.allDone waits = false → exec (.fenceComplete ring) s = .next s)) ∧
  (∀ (ring : Fin 32) (s : State) (d : Started) (j : BarrierJob) (deadline : BitVec 64),
    ((s.onRing ring.val).findSome? fun x => match x.kind with | .barrier k _ => k.sent.map fun t => (x, k, t) | _ => none) =
      some (d, j, deadline) →
    (s.passed deadline = true → Answers (.barrierTimeout ring) s (Finished d 0x11 s)) ∧
    (s.passed deadline = false → exec (.barrierTimeout ring) s = .next s)) ∧
  (∀ (view : HostView) (s : State) (d : Started) (j : BundleJob) (x : Sealed) (bytes : List Byte),
    s.engineJob = some d → d.kind = .sealExport j → s.live = true → j.waiting = none → s.busOn = true →
    s.sealedAt j.region = some x → s.firstUe x.base x.len = none →
    view.range (s.ringPasidEn d.ring.val) (leAt j.desc 24 8) x.bundleLen = .ok bytes →
    Answers (.sealExportComplete view) s fun t => (∀ y ∈ t.cage.started, y.serial ≠ d.serial) ∧ t.sec = s.sec ∧
      t.hbm.cells = s.hbm.cells ∧ Output.hostWrite (if s.ringPasidEn d.ring.val then some (s.ringPasid d.ring.val) else none)
        (leAt j.desc 24 8) (s.checkpoint x) ∈ t.out) ∧
  (∀ (view : HostView) (s : State) (d : Started) (j : BundleJob),
    s.engineJob = some d → d.kind = .bundleLoad j → s.live = true → j.waiting = none → s.busOn = true →
    (j.header ≠ [] → exec (.bundleLoadComplete view) s = .next (s.bundleFinish d j view)) ∧
    (j.header = [] → exec (.bundleLoadComplete view) s = .next (s.bundleCheckStart d j.tee j.desc view)))

/-- Tier 2. KILL_COMPLETE empties the slot: every byte of its Survey's regions that are not sealed reads 0, no kill of the slot stays
listed, and outside those regions memory is as before (12 R297). SEAL_RELEASE_COMPLETE frees a region: it reads 0 and its number is
free (16 R405). -/
def Obligations.ScrubsEmptyAndZero : Prop :=
  (∀ (n : Fin 8) (s : State) (v : Survey), (s.slot n.val).killing = true → (s.slot n.val).survey = some v →
    Answers (.killComplete n) s fun t =>
      t.slot n.val = Slot.empty ∧
      (∀ r ∈ v.regions, r.isSealed = false → ∀ a, r.base ≤ a → a < r.base + r.len → t.hbmByte a = 0) ∧
      (∀ a, (∀ r ∈ v.regions, r.isSealed = false → a < r.base ∨ r.base + r.len ≤ a) → t.hbmByte a = s.hbmByte a) ∧
      (∀ x ∈ t.cage.started, x.kind = .kill → x.slot ≠ n.val)) ∧
  (∀ (r : Fin 16) (s : State) (x : Sealed), s.sealedAt r.val = some x → x.releasing = true → Answers (.sealReleaseComplete r) s fun t =>
      t.sealedAt r.val = none ∧ (∀ a, x.base ≤ a → a < x.base + x.len → t.hbmByte a = 0) ∧
      (∀ a, a < x.base ∨ x.base + x.len ≤ a → t.hbmByte a = s.hbmByte a))

/-! ### The Cage's polls, BAR0 -/

/-- Tier 2. A doorbell line gives each of its enabled rings its new tail, or stops the ring when the tail lies outside it (11 R269, 12
R283, R287); a failed read stops the ring it is for. A head poll takes the head word, an error stops the ring with RING_ERROR (12 R285,
R287). The event ring's head poll does the same for the event ring (12 R306, 18 R443). -/
def Obligations.RingWordsAreTaken : Prop :=
  (∀ (lineAddr : Nat) (line : List Byte) (k : Fin 32) (s : State),
    let v := leAt line (8 * s.ringDbWord k.val) 2
    s.live = true → s.cxl.up = true → s.cxl.mode = true → s.cxl.cacheEn = true → s.cxl.cageStopped = false →
    k.val ∈ s.ringsOf lineAddr → (s.ring k.val).err = false →
    (v < s.ringSize k.val → Answers (.doorbellSnoop lineAddr line []) s fun t => t.ring k.val = { s.ring k.val with tail := v }) ∧
    (s.ringSize k.val ≤ v → Answers (.doorbellSnoop lineAddr line []) s fun t => t.ring k.val = { s.ring k.val with err := true }) ∧
    (∀ c, v < s.ringSize k.val → Answers (.doorbellSnoop lineAddr line [(k, c)]) s fun t =>
      t.ring k.val = { s.ring k.val with tail := v, err := true } ∧ Raised 0x0003 s t)) ∧
  (∀ (k : Fin 32) (s : State), s.cageRuns = true → s.limitHolds k.val = true →
    (∀ v : BitVec 64, Answers (.completionHeadPoll k (.ok v)) s fun t =>
      t.ring k.val = { s.ring k.val with cqHead := v.toNat % 65536 % s.ringSize k.val } ∧ t.ras = s.ras) ∧
    Answers (.completionHeadPoll k .ioError) s (fun t => t.ring k.val = { s.ring k.val with err := true } ∧
      Logged 0x0003 .warning none (genPayload k.val 2 0 0 0) s t) ∧
    Answers (.completionHeadPoll k .pageFail) s (fun t => t.ring k.val = { s.ring k.val with err := true } ∧
      Logged 0x0003 .warning none (genPayload k.val 3 0 0 0) s t)) ∧
  (∀ (s : State), s.live = true → s.evqEn = true → s.busOn = true →
    (∀ v : BitVec 64, s.evqFull = true → Answers (.eventRingHeadPoll (.ok v)) s fun t =>
      t = { s with cage := { s.cage with evHead := v.toNat % 65536 % s.evqSize } }) ∧
    Answers (.eventRingHeadPoll .ioError) s (fun t => t.evqEn = false ∧ t.cage.evErr = true ∧
      Logged 0x0003 .warning none (genPayload 32 2 0 0 0) s t))

/-- Tier 2. A whole-word BAR0 write that nothing holds back is carried out; a partial one is ignored and counted in `PARTIAL_WRITES`
(20 R484); an offset below 0x4000 without writable fields changes nothing (00 R9). A read of a counter's low word returns it, latches the high word
(03 R83), and a read of the high word returns what was latched. Reading `PTP_TXTS` + 0x8 pops the port's time stamps (13 R332). -/
def Obligations.RegisterAccess : Prop :=
  (∀ (x : BarWrite) (off w : Nat) (s : State), WriteOpen x.tee s → wholeWords x.off x.bytes = some [(off, w)] →
    exec (.registerWrite x) s = .next (s.bar0Write off w []) ∧
    (off < 0x4000 → off ≠ 0x08C → regFields off = [] → exec (.registerWrite x) s = .next s)) ∧
  (∀ (x : BarWrite) (s : State), s.barOpen = true → wholeWords x.off x.bytes = none → s.pwr.resetting = none →
    s.pwr.phase ≠ .recovery → exec (.registerWrite x) s = .next (s.bump 0x100)) ∧
  (∀ (off : Nat) (tee : Bool) (s : State), s.barOpen = true → s.pwr.resetting = none → s.pwr.phase ≠ .recovery →
    (s.cxl.tdi = .run → tee = true) → isCounterLow off = true →
    Answers (.counterLowRead { off := off, len := 4, tee := tee }) s (fun t =>
      tblGet (fun _ => 0) t.latches off = s.counterValue off / 2 ^ 32 ∧ t.ctrs = s.ctrs ∧
      t.out.head? = some (.bar0Data off (leBytes 4 (s.counterValue off % 2 ^ 32)))) ∧
    Answers (.counterLowRead { off := off + 4, len := 4, tee := tee }) s (fun t => t.latches = s.latches ∧
      t.out.head? = some (.bar0Data (off + 4) (leBytes 4 (tblGet (fun _ => 0) s.latches off))))) ∧
  (∀ (p : Fin 12) (tee : Bool) (s : State), s.barOpen = true → s.pwr.resetting = none → s.pwr.phase ≠ .recovery →
    (s.cxl.tdi = .run → tee = true) →
    Answers (.ptpTxtsPop p tee) s fun t => (t.port p.val).stamps = (s.port p.val).stamps.drop 1)

/-- Tier 2. Every CNT_CLR bit clears the counters of its block, and their latched high words (03 R83 and the register table of each
chapter), a unit's those of its station contexts too (05 R141); MEM_CTL.CNT_CLR clears every VIOL and arms the first-violation event too
(10 R255). No job, byte or session changes. -/
def Obligations.CounterClears : Prop :=
  ∀ (tee : Bool) (s : State), WriteOpen tee s →
    let kept := fun t : State => t.slots = s.slots ∧ t.hbm.cells = s.hbm.cells ∧ t.sec = s.sec
    (∀ k : Fin 8192, isCu k.val = true → Answers (.cuCtlCntClr k tee) s fun t =>
      CountersZero (siteBase k.val + 0x100) (siteBase k.val + 0x200) t ∧
      CountersZero (siteBase k.val + 0x400) (siteBase k.val + 0x600) t ∧ kept t) ∧
    (∀ k : Fin 8192, isCu k.val = false → Answers (.muCtlCntClr k tee) s fun t =>
      CountersZero (siteBase k.val + 0x100) (siteBase k.val + 0x200) t ∧
      CountersZero (siteBase k.val + 0x400) (siteBase k.val + 0x600) t ∧ kept t) ∧
    Answers (.millCtlCntClr tee) s (fun t => CountersZero 0x2000C8 0x200120 t ∧ CountersZero 0x300000 0x330000 t ∧ kept t) ∧
    Answers (.memCtlCntClr tee) s (fun t => CountersZero 0x40800 0x40898 t ∧ CountersZero 0x50000 0x68000 t ∧ t.hbm.viol = [] ∧
      t.hbm.violArmed = true ∧ kept t) ∧
    Answers (.cxlCtlCntClr tee) s (fun t => CountersZero 0x9100 0x9148 t ∧ kept t) ∧
    Answers (.cageCtlCntClr tee) s (fun t => CountersZero 0xA100 0xA130 t ∧ kept t) ∧
    (∀ p : Fin 12, Answers (.portCtlCntClr p tee) s fun t =>
      CountersZero (portBase p.val + 0x100) (portBase p.val + 0x1B8) t ∧ kept t) ∧
    Answers (.fabCfgCntClr tee) s (fun t => CountersZero 0xC100 0xC178 t ∧ kept t) ∧
    Answers (.tallyCfgCntClr tee) s (fun t => CountersZero 0x5100 0x5130 t ∧ kept t) ∧
    Answers (.pwrCtlCntClr tee) s (fun t => CountersZero 0x6100 0x6158 t ∧ kept t) ∧
    Answers (.rasCfgCntClr tee) s (fun t => CountersZero 0x7100 0x7138 t ∧ kept t) ∧
    Answers (.glbCtlCntClr tee) s (fun t => CountersZero 0x100 0x108 t ∧ kept t)

/-- Tier 2. Setting a ring's `EN` restarts the ring at entry 0 with `PHASE` 1 (12 R307); setting `EVQ_EN` restarts the event ring (12
R306); setting `EN` of `JOBCTL_HOIST_CFG` starts the table check and `EN` reads 0 until the table is accepted, clearing it gives the
table up (08 R186, R208); setting `EN` of `JOBCTL_SLUICE_CFG` checks the collective table (14 R360). A write of
`TALLY_SET_HI` loads {`TALLY_SET_HI`, `TALLY_SET_LO`} while `SYNC` is FREE; in any other state it is ignored and raises
CFG_BUSY_WRITE (15 R384). -/
def Obligations.EnableBitsAct : Prop :=
  ∀ (w : Word) (tee : Bool) (s : State), WriteOpen tee s →
    (∀ (k : Fin 32) (line : List Byte), (bitAt w.toNat 0 = true → s.ringEn k.val = false → s.ringActive k.val = false →
        s.cxl.cacheEn = false → Answers (.ringCtlEn k w line tee) s fun t =>
          t.ring k.val = { Ring.init with phase := true } ∧ t.ringEn k.val = true) ∧
      (bitAt w.toNat 0 = false → Answers (.ringCtlEn k w line tee) s fun t => t.ringEn k.val = false)) ∧
    (bitAt w.toNat 0 = true → s.evqEn = false → Answers (.evqEn w tee) s fun t =>
      t.evqEn = true ∧ t.cage.evTail = 0 ∧ t.cage.evPhase = true ∧ t.cage.evHead = 0) ∧
    (bitAt w.toNat 0 = false → Answers (.evqEn w tee) s fun t => t.evqEn = false) ∧
    (∀ n : Fin 8, s.running n.val = false →
      (bitAt w.toNat 0 = true → s.rfBit (jobBase n.val + 0x38) 0 = false → Answers (.jobctlHoistCfgEn n w tee) s fun t =>
        (t.slot n.val).checking = true ∧ t.rfBit (jobBase n.val + 0x38) 0 = false) ∧
      (bitAt w.toNat 0 = false → Answers (.jobctlHoistCfgEn n w tee) s fun t =>
        (t.slot n.val).checking = false ∧ (t.slot n.val).hoist = none) ∧
      (bitAt w.toNat 0 = true → s.rfBit (jobBase n.val + 0x08) 0 = false → exec (.jobctlSluiceCfgEn n w tee) s =
        .next ((s.fieldWrite (jobBase n.val + 0x08) w.toNat).checkSluice n.val)) ∧
      (bitAt w.toNat 0 = false → Answers (.jobctlSluiceCfgEn n w tee) s fun t => (t.slot n.val).sluice = [])) ∧
    (s.clk.sync = .free → Answers (.tallySetHi w tee) s fun t =>
      t.clk.tally = BitVec.ofNat 64 (w.toNat * 2 ^ 32 + s.reg 0x5010) ∧ t.hbm = s.hbm ∧ t.slots = s.slots) ∧
    (s.clk.sync ≠ .free → Answers (.tallySetHi w tee) s fun t =>
      t.clk = s.clk ∧ Logged 0x0001 .warning none (genPayload 0 0 0x5014 0 0) s t)

/-! ### Debug unlock, unit service, firmware -/

/-- Tier 2 (16 R408). `CHAL_NEW` draws a fresh 256-bit challenge; a SUBMIT discards it, and so do `CHAL_NEW`, a device reset and a
power-on reset. -/
def Obligations.ChallengeServesOneSubmit : Prop :=
  (∀ (tee : Bool) (s : State), WriteOpen tee s → s.sec.dbg ≠ .verifying → s.sec.dbg ≠ .scrubbing →
    Answers (.dbgCtlChalNew tee) s (fun t => t.sec.chal = some (s.drbg 32) ∧ (s.drbg 32).length = 32 ∧ t.fresh = s.fresh + 1) ∧
    Answers (.dbgCtlSubmit tee) s (fun t => t.sec.chal = none)) ∧
  (∀ (s : State) (p : ResetProgress), s.pwr.resetting = some p →
    Answers .resetComplete s fun t => t.sec.chal = none) ∧
  (∀ s : State, s.clk.locked = true → Answers .rootLockLoss s fun t => t.sec.chal = none) ∧
  (∀ (pwrok : Bool) (core io : Nat) (s : State), pwrok = false ∨ core < 550 ∨ io < 1620 →
    Answers (.powerLoss pwrok core io) s fun t => t.sec.chal = none) ∧
  (∀ s : State, s.pwr.thermTrip = false → Answers .thermtrip s fun t => t.sec.chal = none)

/-- Tier 2 (16 R409). A SUBMIT checks the token in the order of the `RESULT` codes 2 to 7 and stops at the first failure, which raises
DEBUG_UNLOCK_FAIL and leaves the device locked; a token that passes starts the scrub (16 R410). While unlocked a SUBMIT completes with
`RESULT` 1 (16 R411). -/
def Obligations.SubmitChecksInOrder : Prop :=
  ∀ (tee : Bool) (s : State), WriteOpen tee s →
    let t0 := s.token
    let r := if leAt t0 0 4 ≠ 0x4B4F5444 ∨ 4 ≤ leAt t0 4 4 ∨ zeroAt t0 176 80 = false then 2
      else if leAt t0 8 8 ≠ Config.unitId.toNat then 3
      else if s.sec.chal ≠ some (slice t0 16 32) then 4
      else if sm3 (slice t0 48 64) ≠ Config.dbgKeyDigest then 5
      else if Config.sm2Verify (slice t0 48 64) (sm3 (slice t0 0 112)) (slice t0 112 64) = false then 6
      else if s.cxl.tdi = .locked ∨ s.cxl.tdi = .run then 7 else 1
    (s.sec.dbg = .locked → r ≠ 1 → Answers (.dbgCtlSubmit tee) s fun t => t.sec = { s.sec with dbgResult := r, chal := none } ∧
      t.slots = s.slots ∧ t.hbm = s.hbm ∧ Logged 0x0070 .warning none (genPayload 0 r 0 0 0) s t) ∧
    (s.sec.dbg = .locked → r = 1 → Answers (.dbgCtlSubmit tee) s fun t => t.sec.dbg = .scrubbing ∧ t.sec.dbgResult = 1 ∧
      t.sec.scopeWait = leAt t0 4 4 % 4) ∧
    (s.sec.dbg = .unlocked → exec (.dbgCtlSubmit tee) s = .next { s with sec := { s.sec with dbgResult := 1, chal := none } })

/-- Tier 2. Once every kill is done the unlock takes effect: sessions end, the token's scope opens and every sealed region is gone and
reads 0 (16 R410). -/
def Obligations.UnlockOpensAfterScrub : Prop :=
  (∀ s : State, s.sec.dbg = .scrubbing → (∀ n < 8, (s.slot n).killing = false) → Answers .debugUnlockScrubDone s fun t =>
    t.sec.dbg = .unlocked ∧ t.sec.sessions = [] ∧ t.sec.scope = s.sec.scopeWait ∧ t.sec.rollback = s.sec.rollback ∧
    (∀ r x, s.sealedAt r = some x → t.sealedAt r = none ∧ ∀ a, x.base ≤ a → a < x.base + x.len → t.hbmByte a = 0) ∧
    Raised 0x0071 s t) ∧
  (∀ (n : Fin 8) (s : State), (s.slot n.val).killing = true → exec .debugUnlockScrubDone s = .next s)

/-- Tier 2. The commands of `RAS_UNIT_CMD` and the fences (18 R447 to R449): FENCE makes the site FENCED, and the generation counts one
where the bitmap changes (20 R492); RETURN puts a fenced site that no Survey uses under test, for 4 ms, after which it is ROUTER_ONLY or
FENCED again; RESTORE brings a ROUTER_ONLY site back; in another state RETURN and RESTORE are REFUSED, RETURN of a site in use is BUSY,
and so is either in the MCLK cycle in which a fence of the site takes effect. -/
def Obligations.UnitServiceMovesSites : Prop :=
  let counted := fun (s t : State) (k : Nat) =>
    t.ras.gen = (if s.unit k = .fenced ∨ s.unit k = .testing then s.ras.gen else (s.ras.gen + 1) % 2 ^ 32)
  (∀ (k : Fin 8192) (tee : Bool) (s : State), WriteOpen tee s →
    Answers (.rasUnitFence k tee) s (fun t => t.unit k.val = .fenced ∧ t.ras.unitResult = .done ∧ Raised 0x0090 s t ∧ counted s t k.val) ∧
    (s.justFenced k.val = false → s.unit k.val = .fenced → s.siteInUse k.val = false → Answers (.rasUnitReturn k tee) s fun t =>
      t.unit k.val = .testing ∧ t.ras.unitResult = .done ∧ tblGet (fun _ => 0) t.ras.testSince k.val = s.clk.root) ∧
    (s.unit k.val = .fenced → s.siteInUse k.val = true → Answers (.rasUnitReturn k tee) s fun t =>
      t.unit k.val = .fenced ∧ t.ras.unitResult = .busy) ∧
    (s.justFenced k.val = false → s.unit k.val ≠ .fenced → Answers (.rasUnitReturn k tee) s fun t =>
      t.unit k.val = s.unit k.val ∧ t.ras.unitResult = .refused) ∧
    (s.justFenced k.val = false → s.unit k.val = .routerOnly → Answers (.rasUnitRestore k tee) s fun t =>
      t.unit k.val = .inService ∧ t.ras.unitResult = .done ∧ t.ras.gen = (s.ras.gen + 1) % 2 ^ 32 ∧ Raised 0x0093 s t ∧ t.slots = s.slots) ∧
    (s.justFenced k.val = false → s.unit k.val ≠ .routerOnly → Answers (.rasUnitRestore k tee) s fun t =>
      t.unit k.val = s.unit k.val ∧ t.ras.unitResult = .refused) ∧
    (s.justFenced k.val = true →
      Answers (.rasUnitReturn k tee) s (fun t => t.unit k.val = s.unit k.val ∧ t.ras.unitResult = .busy) ∧
      Answers (.rasUnitRestore k tee) s (fun t => t.unit k.val = s.unit k.val ∧ t.ras.unitResult = .busy))) ∧
  (∀ (k : Fin 8192) (cause : FenceCause) (s : State), s.live = true → Answers (.siteFence k cause) s fun t =>
    t.unit k.val = .fenced ∧ Raised 0x0090 s t ∧ counted s t k.val) ∧
  (∀ (k : Fin 8192) (s : State), s.unit k.val = .testing →
    (tblGet (fun _ => 0) s.ras.testSince k.val + msRoot 4 ≤ s.clk.root →
      Answers (.selftestComplete k none) s (fun t =>
        t.unit k.val = .routerOnly ∧ t.ras.gen = (s.ras.gen + 1) % 2 ^ 32 ∧ Raised 0x0092 s t) ∧
      ∀ w : BitVec 16, Answers (.selftestComplete k (some w)) s fun t => t.unit k.val = .fenced ∧
        Logged 0x0091 .unit none (genPayload k.val w.toNat 0 0 0) s t) ∧
    (s.clk.root < tblGet (fun _ => 0) s.ras.testSince k.val + msRoot 4 → ∀ r, exec (.selftestComplete k r) s = .next s))

/-- Tier 2. An image that fails a check of 16 R389 is refused; one that passes is staged, over `STAGE` and over PLDM alike, and asks for
its write to flash (18 R456), which starts at once where the gate of 17 R430 is open, otherwise when NV_OPERATION_START finds it open;
the write is under way from the end of that MCLK cycle (log entry 25, a design choice) and over at FW_WRITE_COMPLETE. RECOVER leaves the
boot ROM in recovery (18 R459). -/
def Obligations.ImagesAreCheckedAndWritten : Prop :=
  let taken := fun (img : List Byte) (s t : State) => t.ras.staged = img ∧ t.ras.fwState = .checking ∧
    t.ras.flash.image = s.ras.flash.image ∧
    t.pwr.nvWait = s.pwr.nvWait ++ [{ op := .flashImage, since := s.clk.root, starting := s.nvOpen }]
  (∀ (img : List Byte) (s : State), s.live = true → s.ras.fwState ≠ .writing → s.ras.fwState ≠ .checking →
    (s.imageOk img = false → Answers (.pldmFwUpdate img) s fun t => t.ras.fwState = .refused ∧ t.ras.flash.image = s.ras.flash.image ∧
      Logged 0x0097 .warning none (genPayload 0 3 (Config.imageSvn img % 64) 0 0) s t) ∧
    (s.imageOk img = true → Answers (.pldmFwUpdate img) s (taken img s))) ∧
  (∀ (len : Nat) (tee : Bool) (s : State), WriteOpen tee s → s.ras.fwState ≠ .writing → s.ras.fwState ≠ .checking →
    let img := s.imageWindow (min (len % 2 ^ 25) (2 ^ 24))
    (s.imageOk img = false → Answers (.fwCtlStage len tee) s fun t =>
      t.ras.fwState = .refused ∧ t.ras.flash.image = s.ras.flash.image ∧
      Logged 0x0097 .warning none (genPayload 0 3 (Config.imageSvn img % 64) 0 0) s t) ∧
    (s.imageOk img = true → Answers (.fwCtlStage len tee) s (taken img s))) ∧
  (∀ (s : State) (w : NvWait) (ws : List NvWait), s.pwr.nvWait = w :: ws → w.starting = false →
    (s.nvOpen = true → Answers .nvOperationStart s fun t => t.pwr.nvWait = { w with starting := true } :: ws) ∧
    (s.nvOpen = false → exec .nvOperationStart s = .next s)) ∧
  (∀ (s : State) (since : Nat), CycleEnds s → s.pwr.nvWait = [{ op := .flashImage, since := since, starting := true }] →
    ∃ t, step s = .next t ∧ t.ras.fwState = .writing ∧ NvOp.flashImage ∈ t.pwr.nvRunning ∧ t.pwr.nvWait = []) ∧
  (∀ s : State, NvOp.flashImage ∈ s.pwr.nvRunning → Answers .fwWriteComplete s fun t =>
    t.ras.flash.image = s.ras.staged ∧ t.ras.fwState = .written ∧ NvOp.flashImage ∉ t.pwr.nvRunning) ∧
  (∀ s : State, s.pwr.phase = .booting → exec .fwCtlRecover s = .next { s with pwr := { s.pwr with phase := .recovery } })

/-- Tier 2 (18 R457). ACTIVATE is refused while a slot holds a Survey or a sealed region is TEE-bound; otherwise it begins the reset
that PERST# begins, after which the Headframe controller boots from flash: an image that passes its checks runs, and FW_UPDATE tells the
activation; otherwise recovery follows. -/
def Obligations.ActivateResetsAndReboots : Prop :=
  ∀ (tee : Bool) (s : State), WriteOpen tee s → s.rf 0x7080 25 4 = 0 →
    ((∃ n < 8, s.loaded n = true) ∨ (∃ r x, (r, some x) ∈ s.sec.sealed ∧ x.teeBound = true) →
      Answers (.fwCtlActivate tee) s fun t => t.pwr = s.pwr ∧ t.slots = s.slots ∧ t.cxl = s.cxl ∧ t.ras = s.ras) ∧
    ((∀ n < 8, s.loaded n = false) → (∀ r x, (r, some x) ∈ s.sec.sealed → x.teeBound = false) →
      Answers (.fwCtlActivate tee) s fun t => t.pwr.resetting = some { kinds := [.perst], memClear := false, reboot := true } ∧
        t.cxl.up = false ∧ t.cage.started = [] ∧ t.pwr.rstCause = (s.pwr.rstCause ||| 0x08) &&& 0x3F) ∧
    (∀ (u : State) (p : ResetProgress), u.pwr.resetting = some p → p.reboot = true →
      (u.imageOk u.ras.flash.image = true → Answers .resetComplete u fun t => t.pwr.phase = .running ∧
        t.sec.bootSvn = Config.imageSvn u.ras.flash.image % 64 ∧ Raised 0x0097 u t) ∧
      (u.imageOk u.ras.flash.image = false → Answers .resetComplete u fun t => t.pwr.phase = .recovery))

/-- Tier 3 (18 R458). COMMIT asks for the anti-rollback counter to be burnt up to the running image's SVN, in this MCLK cycle where the
gate of 17 R430 is open and otherwise when it opens; the burn, at the end of the cycle, raises ROLLBACK_COMMIT; no step lets the counter
fall; and an image with a lower SVN neither boots, from flash or from recovery, nor is staged. -/
def Obligations.CommitBurnsForGood : Prop :=
  (∀ (tee : Bool) (s : State), WriteOpen tee s → s.rf 0x7080 25 4 = 0 →
    (s.sec.rollback < s.sec.bootSvn → Answers (.fwCtlCommit tee) s fun t => t.sec = s.sec ∧
      t.pwr.nvWait = s.pwr.nvWait ++ [{ op := .counter s.sec.bootSvn, since := s.clk.root, starting := s.nvOpen }]) ∧
    (s.sec.bootSvn ≤ s.sec.rollback → Answers (.fwCtlCommit tee) s fun t => t.sec = s.sec ∧ t.pwr = s.pwr)) ∧
  (∀ (s : State) (v since : Nat), CycleEnds s → s.pwr.nvWait = [{ op := .counter v, since := since, starting := true }] →
    ∃ t, step s = .next t ∧ t.sec = { s.sec with rollback := max s.sec.rollback v } ∧ t.pwr.nvWait = [] ∧
      Logged 0x0098 .info none (genPayload 0 0 (max s.sec.rollback v) 0 0) { s with clk := t.clk } t) ∧
  (∀ s t : State, step s = .next t → s.sec.rollback ≤ t.sec.rollback) ∧
  (∀ s : State, Config.imageSvn s.ras.flash.image % 64 < s.sec.rollback →
    (∀ e : Bool, s.pwr.phase = .booting ∨ s.pwr.phase = .lockLost → Answers (.firmwareBoot e) s fun t => t.pwr.phase = .recovery) ∧
    (∀ p, s.pwr.resetting = some p → p.reboot = true → Answers .resetComplete s fun t => t.pwr.phase = .recovery)) ∧
  (∀ (img : List Byte) (s : State), Config.imageSvn img % 64 < s.sec.rollback → s.live = true → s.ras.fwState ≠ .writing →
    s.ras.fwState ≠ .checking → Answers (.pldmFwUpdate img) s fun t => t.ras.fwState = .refused) ∧
  (∀ (len : Nat) (tee : Bool) (s : State), s.barOpen = true → s.pwr.resetting = none → s.pwr.phase = .recovery → s.cxl.tdi ≠ .run →
    s.pwr.idle = 0 → s.pwr.a4Wait = false → Config.imageSvn (s.imageWindow (min (len % 2 ^ 25) (2 ^ 24))) % 64 < s.sec.rollback →
    Answers (.fwCtlStage len tee) s fun t => t.ras.fwState = .refused ∧ t.pwr.phase = .recovery)

/-! ### Configuration space, TDI, IDE -/

/-- Tier 2. Configuration writes in CONFIG_UNLOCKED take effect: Bus Master Enable (with the held records, 11 R266), PRI Enable (11 R274),
the BARs, enables, MSI-X masks and entries, and the window (11 R266 to R275), Cache_Enable (11 R269), the decoder with its checks (11
R267). In CONFIG_LOCKED or RUN a change of a locked item moves the TDI to ERROR (11 R272). Before configuration space is ready a write
gets Request Retry Status (11 R276). -/
def Obligations.ConfigurationWritesAct : Prop :=
  (∀ s : State, s.configOpen = true → s.tdiFrozen = false →
    (s.cxl.busMaster = true → exec (.busMasterEnableWrite false) s = .next { s with cxl := { s.cxl with busMaster := false } }) ∧
    (s.cxl.busMaster = false → Answers (.busMasterEnableWrite true) s fun t => t.cxl.busMaster = true ∧
      (s.cxl.mode = true → s.cxl.d3 = false → s.cxl.tdi ≠ .error → t.cage.held = [] ∧ t.cage.waiting = [])) ∧
    (∀ b, s.cxl.priEn ≠ b → Answers (.priEnableWrite b) s fun t => t.cxl.priEn = b ∧
      (b = true → t.cxl.priSuppressed = false)) ∧
    (∀ v, Answers (.lockedItemChange (.bars v)) s fun t => t.cxl.bars = v) ∧
    (∀ b, Answers (.lockedItemChange (.memSpaceEnable b)) s fun t => t.cxl.memSpace = b) ∧
    (∀ b, Answers (.lockedItemChange (.memEnable b)) s fun t => t.cxl.memEn = b) ∧
    (∀ b, Answers (.lockedItemChange (.atsEnable b)) s fun t => t.cxl.atsEn = b) ∧
    (∀ b, Answers (.lockedItemChange (.pasidEnable b)) s fun t => t.cxl.pasidEn = b) ∧
    (∀ b, Answers (.lockedItemChange (.busMaster b)) s fun t => t.cxl.busMaster = b) ∧
    (∀ b, Answers (.lockedItemChange (.priEnable b)) s fun t => t.cxl.priEn = b) ∧
    (∀ n, Answers (.lockedItemChange (.priAllocation n)) s fun t => t.cxl.priAlloc = n) ∧
    (∀ v, Answers (.lockedItemChange (.ideSettings v)) s fun t => t.cxl.ideSettings = v) ∧
    (∀ b, Answers (.lockedItemChange (.powerState b)) s fun t => t.cxl.d3 = b) ∧
    Answers (.lockedItemChange .decoderUncommit) s (fun t => t.cxl.dec.committed = false) ∧
    (∀ v b, Answers (.lockedItemChange (.msixMask v b)) s fun t => t.cxl.msixMasked.getLsbD v.val = b) ∧
    (∀ b, Answers (.lockedItemChange (.msixFunctionMask b)) s fun t => t.cxl.msixFnMask = b) ∧
    (∀ v a x, Answers (.lockedItemChange (.msixEntry v a x)) s fun t =>
      tblGet (fun _ => (0, 0)) t.cxl.msixTable v.val = (a % 2 ^ 64, x % 2 ^ 32)) ∧
    (s.cxl.dec.committed = false → ∀ b z, Answers (.lockedItemChange (.window b z)) s fun t =>
      t.reg 0x9008 = clampNat 0 9215 (b % 2 ^ 14) ∧ t.reg 0x900C = clampNat 1 9216 (z % 2 ^ 14)) ∧
    (s.cxl.dec.committed = true → ∀ b z, Answers (.lockedItemChange (.window b z)) s fun t =>
      t.regs = s.regs ∧ Logged 0x0001 .warning none (genPayload 0 0 0x9008 0 0) s t)) ∧
  (∀ (b : Bool) (s : State), s.configOpen = true → Answers (.cacheEnableWrite b []) s fun t => t.cxl.cacheEn = b) ∧
  (∀ (base size ways : Nat) (s : State), s.live = true → s.cxl.up = true → s.cxl.mode = true → s.tdiFrozen = false →
    (size = s.winSize → base % 2 ^ 28 = 0 → ways = 1 → s.winBase + s.winSize ≤ hbmSize →
      Answers (.hdmDecoderCommit base size ways) s fun t =>
        t.cxl.dec = { committed := true, base := base, size := size, ways := ways, error := false } ∧ t.cxl.winErr = false) ∧
    (size ≠ s.winSize ∨ base % 2 ^ 28 ≠ 0 ∨ ways ≠ 1 ∨ hbmSize < s.winBase + s.winSize →
      Answers (.hdmDecoderCommit base size ways) s fun t => t.cxl.dec.committed = false ∧ t.cxl.winErr = true)) ∧
  (∀ s : State, s.configOpen = true → s.tdiFrozen = true →
    (∀ b, s.cxl.busMaster ≠ b → Answers (.busMasterEnableWrite b) s fun t => t.cxl.tdi = .error) ∧
    (∀ b, s.cxl.priEn ≠ b → Answers (.priEnableWrite b) s fun t => t.cxl.tdi = .error) ∧
    (∀ i k, (s.applyItem i).2 = some k → (s.applyItem i).1 ≠ s → Answers (.lockedItemChange i) s fun t => t.cxl.tdi = .error)) ∧
  (∀ (base size ways : Nat) (s : State), s.live = true → s.cxl.up = true → s.cxl.mode = true → s.tdiFrozen = true →
    Answers (.hdmDecoderCommit base size ways) s fun t => t.cxl.tdi = .error) ∧
  (∀ s : State, s.configOpen = false → s.cxl.up = true → ∀ b i ls,
    exec (.busMasterEnableWrite b) s = .next (s.emit .configRetry) ∧ exec (.priEnableWrite b) s = .next (s.emit .configRetry) ∧
    exec (.lockedItemChange i) s = .next (s.emit .configRetry) ∧ exec (.cacheEnableWrite b ls) s = .next (s.emit .configRetry))

/-- Tier 2 (11 R275). After any reset every ring and the event ring use vector 0. While a vector or the function is masked a message sets
the vector's pending bit and nothing is sent; when the mask clears one message is sent, and the pending bit is 0. Messages go out where the
link carries CXL (11 R261). -/
def Obligations.MaskedVectorsStayPending : Prop :=
  let zeroVectors := fun t : State => (∀ k < 32, t.rf (ringBase k) 5 6 = 0) ∧ t.rf 0xA040 5 6 = 0
  (zeroVectors State.reset ∧ (∀ (s : State) (p : ResetProgress), s.pwr.resetting = some p → Answers .resetComplete s zeroVectors) ∧
    (∀ s : State, s.clk.locked = true → Answers .rootLockLoss s zeroVectors) ∧
    ∀ (pwrok : Bool) (core io : Nat) (s : State), pwrok = false ∨ core < 550 ∨ io < 1620 → Answers (.powerLoss pwrok core io) s zeroVectors) ∧
  (∀ (v : Fin 64) (s : State), s.cxl.msixFnMask = true ∨ s.cxl.msixMasked.getLsbD v.val = true →
    (s.msix v.val).out = s.out ∧ (s.msix v.val).cxl.msixPending.getLsbD v.val = true) ∧
  (∀ (v : Fin 64) (s : State), s.cxl.mode = true → s.cxl.msixFnMask = false → s.cxl.msixMasked.getLsbD v.val = false →
    s.msix v.val = s.emit (.msix v.val)) ∧
  (∀ (v : Fin 64) (s : State), s.live = true → s.cxl.up = true → s.cxl.mode = true → s.cxl.msixMasked.getLsbD v.val = true → s.tdiFrozen = false →
    s.cxl.msixFnMask = false → Answers (.msixMaskClear (some v)) s fun t => t.cxl.msixMasked.getLsbD v.val = false ∧
      t.cxl.msixPending.getLsbD v.val = false ∧
      t.out.count (.msix v.val) = s.out.count (.msix v.val) + (if s.cxl.msixPending.getLsbD v.val then 1 else 0)) ∧
  (∀ (s : State), s.live = true → s.cxl.up = true → s.cxl.mode = true → s.cxl.msixFnMask = true → Answers (.msixMaskClear none) s fun t =>
      t.cxl.msixFnMask = false ∧ ∀ v : Fin 64, s.cxl.msixMasked.getLsbD v.val = false →
      t.cxl.msixPending.getLsbD v.val = false ∧
      t.out.count (.msix v.val) = s.out.count (.msix v.val) + (if s.cxl.msixPending.getLsbD v.val then 1 else 0))

/-- Tier 2. The interface moves as TDISP says (11 R272, 16 R395, R396): LOCK needs both IDE streams Secure, debug locked and no Survey;
START moves CONFIG_LOCKED to RUN; STOP kills every slot and releases the TEE-bound regions, and when that is done memory outside sealed
regions reads 0 and the TDI is CONFIG_UNLOCKED. -/
def Obligations.InterfaceMoves : Prop :=
  (∀ s : State, s.live = true → s.cxl.up = true → s.sec.sessions ≠ [] →
    (s.cxl.tdi = .unlocked → (s.ideKeys .link).state = .secure → (s.ideKeys .cachemem).state = .secure → s.sec.dbg = .locked →
      (∀ n < 8, s.loaded n = false) → exec .lockInterface s =
        .next (({ s with cxl := { s.cxl with tdi := .locked } } : State).emit (.tdisp true))) ∧
    ((∃ n < 8, s.loaded n = true) ∨ s.sec.dbg ≠ .locked ∨ s.cxl.tdi ≠ .unlocked ∨ (s.ideKeys .link).state ≠ .secure ∨
      (s.ideKeys .cachemem).state ≠ .secure → exec .lockInterface s = .next (s.emit (.tdisp false))) ∧
    (s.cxl.tdi = .locked → exec .startInterface s = .next (({ s with cxl := { s.cxl with tdi := .run } } : State).emit (.tdisp true))) ∧
    (s.cxl.tdi ≠ .locked → exec .startInterface s = .next (s.emit (.tdisp false))) ∧
    (s.cxl.tdi = .unlocked → exec .stopInterface s = .next (s.emit (.tdisp true))) ∧
    (s.cxl.tdi ≠ .unlocked → Answers .stopInterface s fun t => t.cxl.stopping = true ∧
      (∀ n < 8, s.loaded n = true → (t.slot n).killing = true) ∧
      (∀ r x, (r, some x) ∈ t.sec.sealed → x.teeBound = true → x.releasing = true))) ∧
  (∀ s : State, s.cxl.stopping = true → (∀ n < 8, (s.slot n).killing = false) →
    (∀ r x, (r, some x) ∈ s.sec.sealed → x.releasing = false) → Answers .stopInterfaceComplete s fun t =>
      t.cxl.tdi = .unlocked ∧ t.cxl.stopping = false ∧ t.sec = s.sec ∧
      ∀ a, (∀ r x, (r, some x) ∈ s.sec.sealed → a < x.base ∨ x.base + x.len ≤ a) → t.hbmByte a = 0)

/-- Tier 2. IDE (11 R271): keys are programmed and switched inside a session, and a stream without keys is not Secure; a failed check
makes the stream Insecure with IDE_FAIL, and in RUN moves the TDI to ERROR, as stopping a stream does once the TDI is locked. -/
def Obligations.IdeStreamsMove : Prop :=
  (∀ (st : IdeStream) (k : Bool) (s : State), s.live = true → s.cxl.up = true → s.sec.sessions ≠ [] →
    Answers (.ideKm (.program st k)) s (fun t => t.ideKeys st = { s.ideKeys st with programmed := some k }) ∧
    ((s.ideKeys st).programmed = some k → Answers (.ideKm (.start st k)) s fun t =>
      t.ideKeys st = { state := .secure, keySet := k, programmed := none }) ∧
    (s.tdiFrozen = false → Answers (.ideKm (.stop st)) s fun t => (t.ideKeys st).state = .none) ∧
    (s.tdiFrozen = true → Answers (.ideKm (.stop st)) s fun t => t.cxl.tdi = .error)) ∧
  (∀ (st : IdeStream) (s : State), s.cxl.up = true → (s.ideKeys st).state = .secure →
    (s.cxl.tdi ≠ .run → Answers (.ideStreamReceive st false) s fun t => (t.ideKeys st).state = .insecure ∧
      Logged 0x0041 .warning none (genPayload st.code 0 0 0 0) s t) ∧
    (s.cxl.tdi = .run → Answers (.ideStreamReceive st false) s fun t => (t.ideKeys st).state = .insecure ∧ t.cxl.tdi = .error) ∧
    exec (.ideStreamReceive st true) s = .next s)

/-! ### SPDM, CDAT, the test port -/

/-- Tier 2. The SPDM responder (16 R391 to R394), over DOE or over MCTP, whose responses wait for the bus (19 R476): the connection moves
by GET_VERSION, GET_CAPABILITIES and NEGOTIATE_ALGORITHMS, and an offer without one class fails it; certificates, challenges,
measurements and sessions need a negotiated connection; at most four sessions are open, and each ends by END_SESSION or a heartbeat
timeout. CDAT is read over DOE (11 R263). -/
def Obligations.ResponderAnswers : Prop :=
  (∀ (code : Nat) (body : List Byte) (s : State), s.spdm false code body = s.emit (.spdm code body) ∧
    (s.spdm true code body).sec = { s.sec with mctp := s.sec.mctp ++ [{ type := 5, code := code, body := body }] }) ∧
  (∀ (m : Bool) (s : State), s.live = true → m = true ∨ s.cxl.up = true →
    let said := fun t : State => if m = true then t.sec.mctp.length = s.sec.mctp.length + 1 else t.out.length = s.out.length + 1
    let refused := .next (s.spdm m 0x7F [])
    Answers (.getVersion m) s (fun t => t.sec.conn = .version ∧ t.sec.sessions = s.sec.sessions ∧ said t) ∧
    (s.sec.conn ≠ .none → s.sec.conn ≠ .failed → Answers (.getCapabilities m) s fun t => t.sec.conn = .capabilities ∧ said t) ∧
    (s.sec.conn = .none ∨ s.sec.conn = .failed → exec (.getCapabilities m) s = refused) ∧
    (∀ o : SpdmOffer, (s.sec.conn = .capabilities → Answers (.negotiateAlgorithms o m) s fun t => said t ∧ t.sec.conn =
        (if o.asym && o.hash && o.measHash && o.dhe && o.aead && o.keySched then .negotiated else .failed)) ∧
      (s.sec.conn ≠ .capabilities → exec (.negotiateAlgorithms o m) s = refused)) ∧
    (s.sec.conn = .negotiated →
      (∀ offset len, exec (.getCertificate 0 offset len m) s = .next (s.spdm m 0x02 ((Config.certChain.drop offset).take len))) ∧
      (∀ nonce, Answers (.challenge 0 nonce m) s fun t => t.sec.conn = .negotiated ∧ t.sec.sessions = s.sec.sessions ∧ said t) ∧
      (∀ nonce, exec (.getMeasurements .count false nonce m) s = .next (s.spdm m 0x60 [29])) ∧
      (∀ i nonce, exec (.getMeasurements (.one i) false nonce m) s = .next (s.spdm m 0x60 (leBytes 1 i ++ s.measurement i))) ∧
      (∀ q nonce, Answers (.getMeasurements q true nonce m) s fun t => t.sec.sessions = s.sec.sessions ∧ said t) ∧
      (s.sec.sessions.length < 4 → Answers (.keyExchange m) s fun t => said t ∧
        t.sec.sessions = s.sec.sessions ++ [{ id := s.sec.sessionSerial, keyGen := 0 }]) ∧
      (4 ≤ s.sec.sessions.length → exec (.keyExchange m) s = .next (s.spdm m 0x7F [0x0A]))) ∧
    (s.sec.conn ≠ .negotiated → ∀ slot offset len q sign nonce, exec (.getCertificate slot offset len m) s = refused ∧
      exec (.challenge slot nonce m) s = refused ∧ exec (.getMeasurements q sign nonce m) s = refused ∧ exec (.keyExchange m) s = refused) ∧
    (∀ x ∈ s.sec.sessions, Answers (.keyUpdate x.id m) s (fun t => { x with keyGen := x.keyGen + 1 } ∈ t.sec.sessions ∧
        t.sec.sessions.length = s.sec.sessions.length ∧ said t) ∧
      Answers (.endSession x.id m) s (fun t => (∀ y ∈ t.sec.sessions, y.id ≠ x.id) ∧
        (∀ y ∈ s.sec.sessions, y.id ≠ x.id → y ∈ t.sec.sessions) ∧ said t) ∧
      Answers (.heartbeatTimeout x.id) s (fun t => ∀ y ∈ t.sec.sessions, y.id ≠ x.id))) ∧
  (∀ s : State, s.live = true → s.cxl.up = true → exec .cdatRead s = .next (s.emit (.doe (Config.cdatBytes s.winBase s.winSize))))

/-- Tier 2. The test port (19 R479, 20 R488): IDCODE shifts out 32 bits that end in 0x962_44A3 with the metal revision above them; SAMPLE
captures the lands and loads the boundary register; EXTEST drives the lands only while PERST# is asserted. -/
def Obligations.TestPortActs : Prop :=
  ∀ s : State, s.pwr.phase = .running →
    Answers .jtagIdcode s (fun t => t.jtag = 1 ∧ ∃ l, t.out = .jtag l :: s.out ∧ l.length = 32 ∧
      (∀ i < 28, l[i]? = some (bitAt 0x96244A3 i)) ∧ ∀ i < 4, l[28 + i]? = some (bitAt Config.devRev.toNat i)) ∧
    exec .jtagBypass s = .next { s with jtag := 0 } ∧
    (∀ lands load, exec (.jtagSamplePreload lands load) s = .next { s with jtag := 2, boundary := load, out := .jtag lands :: s.out }) ∧
    (s.pwr.perst = false → exec .jtagExtest s = .next { s with jtag := 3 }) ∧
    (s.pwr.perst = true → Answers .jtagExtest s fun t => t.jtag = 3 ∧ t.boundary = s.boundary ∧
      t.out = .jtag s.boundary :: .pin .boundary true :: s.out)

/-! ### Host memory, BAR2, translations, links -/

/-- Tier 2. Host accesses to HBM (10 R245, R246; 11 R267): in the window, with the device in A0, a read of a line answers its 64 bytes and a
write stores the bytes of its mask and no other; an uncorrectable line, and a line of a sealed region, read as all ones, and a sealed line
ignores writes. An access takes its place at once also while its pseudo-channel wakes (log entry 24, a design choice). -/
def Obligations.HostMemoryServed : Prop :=
  ∀ (hpa a : Nat) (s : State), s.memOpen = true → s.windowAddr (64 * (hpa / 64)) = some a → s.cxl.tdi ≠ .error → s.pwr.idle = 0 →
    s.pwr.a4Wait = false →
    (s.sealedIn (64 * (a / 64)) 64 = none → a / 64 ∉ s.hbm.ue →
      Answers (.hostCxlMemRead hpa false false) s (fun t => SameMemory s t ∧ t.regs = s.regs ∧ t.slots = s.slots ∧ t.flow = s.flow ∧
        t.out = .memData (a / 64) ((List.range 64).map fun i => s.hbmByte (64 * (a / 64) + i)) :: s.out) ∧
      Answers (.hostCxlMemRead hpa false true) s (fun t => SameMemory s t ∧ t.slots = s.slots ∧ t.flow = s.flow ∧
        t.out.head? = some (.memData (a / 64) ((List.range 64).map fun i => s.hbmByte (64 * (a / 64) + i)))) ∧
      ∀ data mask, Answers (.hostCxlMemWrite hpa data mask) s fun t =>
        (∀ i < 64, t.hbmByte (64 * (a / 64) + i) =
          if mask.getLsbD i then data.getD i 0 else s.hbmByte (64 * (a / 64) + i)) ∧
        (∀ b, b < 64 * (a / 64) ∨ 64 * (a / 64) + 64 ≤ b → t.hbmByte b = s.hbmByte b) ∧
        t.out = s.out ∧ t.regs = s.regs ∧ t.slots = s.slots ∧ t.flow = s.flow ∧ t.sec = s.sec) ∧
    (s.sealedIn (64 * (a / 64)) 64 = none → ∀ ce, Answers (.hostCxlMemRead hpa true ce) s (fun t => SameMemory s t ∧
        t.out.head? = some (.memData (a / 64) (List.replicate 64 0xFF)))) ∧
    (∀ r x, s.sealedIn (64 * (a / 64)) 64 = some (r, x) →
      Answers (.hostCxlMemRead hpa false false) s (fun t => SameMemory s t ∧
        t.out.head? = some (.memData (a / 64) (List.replicate 64 0xFF))) ∧
      ∀ data mask, Answers (.hostCxlMemWrite hpa data mask) s (SameMemory s))

/-- Tier 2 (11 R261, R265, 04 R105, 10 R241). While debug access is locked a BAR2 read returns 0, a write is ignored, and each counts one in
UNMAPPED_HOST, a counter of 48 bits that holds while CNT_FREEZE is 1; an access where no memory unit stands does the same. With
scratchpad debug open, a read of a clean page of an awake bank answers the byte, a write stores it, a word with an uncorrectable error
keeps what it holds, a dirty page reads 0. -/
def Obligations.BarTwoServed : Prop :=
  ∀ (off ce : Nat) (s : State), s.live = true → s.barOpen = true → s.cxl.mode = true →
    (s.spadOpen = false ∨ 8192 ≤ off / 2 ^ 21 ∨ isCu (off / 2 ^ 21) = true →
      (∀ w, Answers (.hostBar2Access off w ce) s fun t =>
        t.ctr 0x40888 = (if s.rfBit memBase 8 then s.ctr 0x40888 else min (s.ctr 0x40888 + 1) (2 ^ 48 - 1)) ∧
        t.flow = s.flow ∧ t.hbm = s.hbm ∧ t.out = (if w = none then [.bar2Data off 0] else []) ++ s.out)) ∧
    (s.spadOpen = true → off / 2 ^ 21 < 8192 → isCu (off / 2 ^ 21) = false → s.pwr.idle = 0 → s.pwr.a4Wait = false →
      s.bank (off / 2 ^ 21) (lineBank (off % 2 ^ 21 / 64)) = .active →
      let word := off / 2 ^ 21 * 2 ^ 18 + off % 2 ^ 21 / 8
      (s.pageDirty (off / 2 ^ 21) (off % 2 ^ 21 / 4096) = true →
        Answers (.hostBar2Access off none ce) s fun t => t.out = .bar2Data off 0 :: s.out ∧ t.flow.scratch = s.flow.scratch) ∧
      (s.pageDirty (off / 2 ^ 21) (off % 2 ^ 21 / 4096) = false →
        (word ∉ s.flow.scratchUe →
          Answers (.hostBar2Access off none ce) s (fun t =>
            t.out = .bar2Data off (s.scratchByte (off / 2 ^ 21) (off % 2 ^ 21)) :: s.out ∧ t.flow.scratch = s.flow.scratch) ∧
          ∀ v, Answers (.hostBar2Access off (some v) ce) s fun t => t.scratchByte (off / 2 ^ 21) (off % 2 ^ 21) = v ∧ t.out = s.out ∧
            ∀ k b, b < 2 ^ 21 → k * 2 ^ 21 + b ≠ off → t.scratchByte k b = s.scratchByte k b) ∧
        (word ∈ s.flow.scratchUe → ∀ v, Answers (.hostBar2Access off (some v) ce) s fun t => t.flow.scratch = s.flow.scratch)))

/-- Tier 2. Translations (11 R273, R274): a completion stands first among at most 1,024, unless an invalidation of its page came in the same
MCLK cycle, which has it requested again; a page not present with PRI Enable asks for its page once, and waits while the allocation is
used up; an invalidation removes the range and is answered; the host's answer to a page request ends it, and a failure suppresses further
ones; a request with no answer by its deadline ends with PRI_TIMEOUT. -/
def Obligations.TranslationsMove : Prop :=
  (∀ (pasid page count : Nat) (s : State), s.live = true → s.cxl.up = true → s.cxl.atsEn = true →
    Answers (.atsInvalidation pasid page count) s (fun t => .invalidationDone pasid page ∈ t.out ∧
      ((∀ e ∈ s.cxl.atc, e.since ≠ s.mclk) → t.out = .invalidationDone pasid page :: s.out) ∧
      ∀ e, e ∈ t.cxl.atc ↔ e ∈ s.cxl.atc ∧ ¬ (e.pasid = pasid ∧ page ≤ e.page ∧ e.page < page + count)) ∧
    (s.cxl.pasidEn = true → s.cxl.invAt = s.mclk → (∃ n, (pasid, page, n) ∈ s.cxl.invs ∧ 0 < n) → ∀ r w,
      exec (.translationCompletion pasid page r w) s = .next (s.emit (.translationRequest pasid page))) ∧
    (s.cxl.pasidEn = true → s.cxl.invAt ≠ s.mclk → ∀ w,
      (∀ addr, Answers (.translationCompletion pasid page (.present addr) w) s fun t =>
        t.cxl.atc.head? = some { pasid := pasid, page := page, addr := addr, since := s.mclk } ∧ t.cxl.atc.length ≤ 1024 ∧
        ∀ e ∈ t.cxl.atc, e.pasid = pasid → e.page = page → e.addr = addr) ∧
      (s.cxl.priEn = true → s.cxl.priSuppressed = false → (∀ p ∈ s.cxl.pri, ¬ (p.pasid = pasid ∧ p.page = page)) →
        (s.cxl.pri.length < min 512 s.cxl.priAlloc → Answers (.translationCompletion pasid page .notPresent w) s fun t =>
          t.out = .pageRequest pasid page :: s.out ∧ t.cxl.pri.length = s.cxl.pri.length + 1) ∧
        (min 512 s.cxl.priAlloc ≤ s.cxl.pri.length → Answers (.translationCompletion pasid page .notPresent w) s fun t =>
          t.out = s.out ∧ t.cxl.pri = s.cxl.pri ∧ t.cxl.priWait = s.cxl.priWait ++ [(pasid, page, w)])))) ∧
  (∀ (pasid page : Nat) (p : PageReq) (s : State), s.cxl.pri.find? (fun p => p.pasid == pasid && p.page == page) = some p →
    (s.cxl.priWait = [] →
      (∀ n, p.waiters = [.cmd n] → Answers (.pageRequestResponse pasid page .success) s fun t =>
        t.out = .translationRequest pasid page :: s.out ∧ t.cxl.pri = s.cxl.pri.filter fun q => !(q.pasid == pasid && q.page == page)) ∧
      (p.waiters = [] → Answers (.pageRequestResponse pasid page .invalid) s fun t =>
        t.cxl.pri = (s.cxl.pri.filter fun q => !(q.pasid == pasid && q.page == page)) ∧ t.ctr 0x9128 = min (s.ctr 0x9128 + 1) ctrMax) ∧
      (p.waiters = [] → s.passed p.deadline = true → Answers (.pageRequestTimeout pasid page) s fun t =>
        t.cxl.pri = (s.cxl.pri.filter fun q => !(q.pasid == pasid && q.page == page)) ∧
        Logged 0x0044 .warning none (genPayload 0 0 (4096 * page) 0 0) s t)) ∧
    (s.cxl.pri = [p] → p.waiters = [] → s.cxl.priWait = [] → Answers (.pageRequestResponse pasid page .failure) s fun t =>
        t.cxl.pri = [] ∧ t.cxl.priSuppressed = true ∧ Logged 0x0043 .warning none (genPayload 0 0 (4096 * page) 0 0) s t))

/-- Tier 2. The host link comes up with what training settled, and a link that is up retrains and keeps its protocols where the rate
allows them (11 R261). Going down with jobs kills them, ends the host's bias and stops the records; HOST_LOST is raised, and the device is
put in A2, once the last of them is scrubbed, or at once when there are none (11 R277). -/
def Obligations.HostLinkMoves : Prop :=
  (∀ (l : LinkUp) (s : State), s.pwr.phase = .running →
    (s.cxl.up = false → s.cxl.orphan = false →
      Answers (.cxlLinkUp l) s fun t => t.cxl.up = true ∧ t.cxl.mode = (l.cxl && l.rate.val != 3) ∧ t.cxl.rate = l.rate.val ∧
        t.cxl.width = l.width.val ∧ (l.rate.val ≠ 2 ∨ l.width.val ≠ 2 →
          Logged 0x0040 .warning none (genPayload 0 (l.width.val + 16 * l.rate.val) 0 0 0) s t)) ∧
    (s.cxl.up = true → Answers (.cxlLinkUp l) s fun t => t.cxl.up = true ∧ t.cxl.mode = (s.cxl.mode && l.rate.val != 3) ∧
      t.cxl.rate = l.rate.val ∧ t.cxl.width = l.width.val)) ∧
  (∀ s : State, s.cxl.up = true → s.pwr.resetting = none →
    ((∀ n < 8, s.loaded n = false ∧ (s.slot n).loading = false) → (∀ k < 32, s.ringEn k = false) → s.pwr.idle = 0 →
      Answers .cxlLinkDown s fun t => t.cxl.up = false ∧ t.pwr.idle = 2 ∧ Logged 0x0045 .warning none (genPayload 0 0 0 0 0) s t) ∧
    (∀ n < 8, s.loaded n = true → Answers .cxlLinkDown s fun t => t.cxl.up = false ∧ t.cxl.hostLoss = true ∧ t.cxl.cageStopped = true ∧
      (t.slot n).killing = true ∧ t.hbm.hostBias = [] ∧ t.cage.held = [])) ∧
  (∀ (n : Fin 8) (s : State), s.cxl.hostLoss = true → s.cxl.up = false → (s.slot n.val).killing = true → s.pwr.idle < 2 →
    (∀ k < 8, k ≠ n.val → (s.slot k).killing = false) → Answers (.killComplete n) s fun t =>
      t.cxl.hostLoss = false ∧ t.pwr.idle = 2 ∧ Raised 0x0045 s t)

/-! ### Resets, power, temperature, idle -/

/-- Tier 2. Power and resets: PWROK samples the straps, locks the root and leaves the Reset column (17 R420, R432); loss of lock holds the
device (15 R370); power loss forgets all but flash, fuses and the anti-rollback counter; THERMTRIP# holds the device and is noted in
flash (17 R428); while PWROK stays high the straps stand as they were sampled; PERST#, CXL reset and secondary bus reset kill every slot (17 R432, 11 R279); when the scrub is done the registers
not kept are at their Reset column and no job, session or debug unlock is left (17 R432, 20 R494). -/
def Obligations.ResetsForget : Prop :=
  (∀ (air : Bool) (rec addr) (core io : Nat) (s : State), s.pwr.phase = .held → s.pwr.pwrok = false → s.pwr.thermTrip = false →
    550 ≤ core → 1620 ≤ io →
    Answers (.powerOnReset { profile := some air, recovery := rec, addr := addr } core io) s fun t =>
      t.pwr.phase = .booting ∧ t.clk.locked = true ∧ t.pwr.air = air ∧ t.clk.step = (if air then 2 else 0) ∧ t.pwr.rstCause = 1 ∧
      t.slots = [] ∧ t.hbm = State.reset.hbm ∧ t.flow = State.reset.flow ∧ t.cxl = State.reset.cxl ∧ t.sec.sealed = [] ∧
      t.sec.rollback = s.sec.rollback ∧ t.ras.flash.image = s.ras.flash.image ∧ t.ras.log = []) ∧
  (∀ (straps : Straps) (core io : Nat) (s : State), s.pwr.phase = .held → s.pwr.pwrok = true → s.pwr.thermTrip = false →
    550 ≤ core → 1620 ≤ io → Answers (.powerOnReset straps core io) s fun t => t.pwr.phase = .booting ∧ t.clk.locked = true ∧
      t.pwr.air = s.pwr.air ∧ t.pwr.strapRecovery = s.pwr.strapRecovery ∧ t.pwr.smbAddr = s.pwr.smbAddr) ∧
  (∀ s : State, s.clk.locked = true → Answers .rootLockLoss s fun t => t.pwr.phase = .lockLost ∧ t.clk.locked = false ∧
      t.clk.lockLost = true ∧ t.pwr.rstCause = 0x10 ∧ t.slots = [] ∧ t.regs = State.reset.regs ∧ t.sec.rollback = s.sec.rollback) ∧
  (∀ (pwrok : Bool) (core io : Nat) (s : State), pwrok = false ∨ core < 550 ∨ io < 1620 →
    Answers (.powerLoss pwrok core io) s fun t => t.pwr.phase = .held ∧ t.pwr.pwrok = pwrok ∧ t.slots = [] ∧ t.hbm = State.reset.hbm ∧
      t.regs = State.reset.regs ∧ t.sec.rollback = s.sec.rollback ∧ t.pwr.thermTrip = (s.pwr.thermTrip && 1620 ≤ io) ∧
      (NvOp.flashImage ∉ s.pwr.nvRunning → t.ras.flash = s.ras.flash)) ∧
  (∀ s : State, s.pwr.thermTrip = false → Answers .thermtrip s fun t => t.pwr.phase = .held ∧ t.pwr.thermTrip = true ∧
      t.ras.flash.tripUnreported = true ∧ t.out.head? = some (.pin .thermTrip true) ∧ t.slots = [] ∧ t.sec.rollback = s.sec.rollback) ∧
  (∀ s : State, s.pwr.phase = .running →
    (∀ us asserted, s.pwr.pwrok = true → 100 ≤ us → s.pwr.resetting = none → Answers (.perst us asserted) s fun t =>
      t.pwr.resetting = some { kinds := [.perst], memClear := false, reboot := false } ∧ t.cxl.up = false ∧ t.pwr.perst = asserted ∧
      ∀ n < 8, s.loaded n = true → (t.slot n).killing = true) ∧
    (∀ us asserted, us < 100 → s.jtag ≠ 3 → exec (.perst us asserted) s = .next { s with pwr := { s.pwr with perst := asserted } }) ∧
    (s.cxl.up = true → s.pwr.resetting = none →
      (∀ c, Answers (.cxlReset c) s fun t => t.pwr.resetting = some { kinds := [.cxl], memClear := c, reboot := false } ∧
        t.cxl.up = s.cxl.up ∧ ∀ n < 8, s.loaded n = true → (t.slot n).killing = true) ∧
      Answers .secondaryBusReset s fun t => t.pwr.resetting = some { kinds := [.sbr], memClear := false, reboot := false } ∧
        t.cxl.up = false ∧ ∀ n < 8, s.loaded n = true → (t.slot n).killing = true)) ∧
  (∀ (s : State) (p : ResetProgress), s.pwr.resetting = some p → p.reboot = false → Answers .resetComplete s fun t =>
      t.pwr.resetting = none ∧ t.slots = [] ∧ t.sec.sessions = [] ∧ t.sec.dbg = .locked ∧ t.sec.sealed = s.sec.sealed ∧
      t.flow = FlowState.reset ∧ t.cage.started = [] ∧ (∀ off, keptReg off = false → t.reg off = (regReset off).toNat) ∧
      ∀ off, (0x5000 ≤ off ∧ off < 0x6000) ∨ (0xC000 ≤ off ∧ off < 0x20000) → t.reg off = s.reg off)

/-- Tier 2. Temperature, rails and the non-volatile gate (17 R417, R426 to R430): a junction above T_THROTTLE takes one step, a trip stops
every job and forces /8, a sag asks for /8 and is released 100 µs after the rails are back, a faster step waits for its voltage and
takes effect at an alignment boundary with ACLK held for 240 root cycles (15 R372), a closed gate stops what had not started, and an
operation the gate held for 1 s fails. -/
def Obligations.PowerEventsAct : Prop :=
  (∀ (r : Sensors) (s : State), s.pwr.phase = .running →
    (s.rf 0x6010 0 8 < r.junction → s.baseStep + s.clk.thermSteps < 3 → Answers (.thermalSample r) s fun t =>
      t.clk.thermSteps = s.clk.thermSteps + 1 ∧ t.pwr.tMax = r.junction ∧ t.pwr.tHbm = r.stack ∧ t.pwr.watts = r.watts) ∧
    (s.capWatts < r.watts → s.baseStep + s.clk.powerSteps < 3 → Answers (.thermalSample r) s fun t =>
      t.clk.powerSteps = s.clk.powerSteps + 1) ∧
    (110 < r.junction ∨ 105 < r.stack → s.pwr.tripLimit = false → r.allUnder95 = false → Answers (.thermalSample r) s fun t =>
      t.pwr.tripLimit = true ∧ t.pwr.thermAlert = true ∧ t.clk.tripThrottle = true ∧
      ∀ n < 8, s.loaded n = true → (t.slot n).stopped = true ∧ (t.slot n).survey = (s.slot n).survey)) ∧
  (∀ (rail : Fin 8) (status : BitVec 16) (s : State), s.pwr.phase = .running →
    (Answers (.pmbusAlert rail status false) s fun t => t.clk = s.clk ∧ Output.pmbus rail.val status.toNat ∈ t.out ∧
      Logged 0x0080 .warning none (genPayload rail.val status.toNat 0 0 0) s t) ∧
    (s.clk.regWarn = false → s.clk.req ≤ 3 → Answers (.pmbusAlert rail status true) s fun t => t.clk.regWarn = true ∧ t.clk.req = 3)) ∧
  (∀ (reported : Bool) (w : VoltWait) (s : State), s.clk.volt = some w → (reported = true ∨ w.since + usRoot 200 ≤ s.clk.root) →
    Answers (.voltageTargetReached reported) s fun t => t.clk = { s.clk with volt := none, req := w.step }) ∧
  (∀ s : State, s.clk.locked = true → s.clk.root % 240 = 0 → s.clk.req ≠ s.clk.step → Answers .aclkStepChange s fun t =>
    t.clk.step = s.clk.req ∧ t.clk.req = s.clk.req ∧ t.clk.aclkResume = s.clk.root + 240 ∧
    t.ctr 0x5100 = min (s.ctr 0x5100 + 1) ctrMax) ∧
  (∀ (core io : Nat) (s : State), s.pwr.phase ≠ .held →
    (core + 40 < s.clk.setPoint ∨ io < 1740 → s.clk.sagThrottle = false → s.clk.req ≤ 3 → Answers (.sagDetect core io) s fun t =>
      t.clk.sagThrottle = true ∧ t.clk.req = 3 ∧ t.nvOpen = false ∧ (∀ w ∈ t.pwr.nvWait, w.starting = false) ∧ Logged 0x0083 .warning none
        (genPayload 0 (b2n (decide (core + 40 < s.clk.setPoint)) + 2 * b2n (decide (io < 1740))) 0 0 0) s t) ∧
    (s.clk.setPoint ≤ core + 40 → 1740 ≤ io → s.pwr.coreLow = true ∨ s.pwr.ioLow = true → Answers (.sagDetect core io) s fun t =>
      t.clk = s.clk ∧ t.pwr.railsBack = some s.clk.root ∧ t.pwr.coreLow = false ∧ t.pwr.ioLow = false)) ∧
  (∀ (b : Nat) (s : State), s.pwr.railsBack = some b → b + usRoot 100 ≤ s.clk.root → s.clk.sagThrottle = true →
    Answers .sagRelease s fun t => t.clk.sagThrottle = false ∧ t.pwr.railsBack = none) ∧
  (∀ (w : NvWait) (ws : List NvWait) (s : State), s.pwr.nvWait = w :: ws → s.nvOpen = false → w.since + msRoot 1000 ≤ s.clk.root →
    Answers .nvGateTimeout s fun t => t.pwr.nvWait = ws ∧ t.sec = s.sec ∧ t.ras.flash = s.ras.flash ∧
      t.ctr 0x6148 = min (s.ctr 0x6148 + 1) ctrMax ∧ (w.op = .flashImage → t.ras.fwState = .refused) ∧
      Logged 0x0084 .warning none (genPayload 0 w.op.code 0 0 0) s t)

/-- Tier 2. Idle states (17 R423 to R425): after IDLE_US idle the device enters the deepest state WAKE_US permits; for A4 with a manager
and a port up it first asks for transit to be routed elsewhere; A4 powers the banks off, and the exit from it finds the scratchpads and
accumulators empty; at the end of a wake the device is in A0. -/
def Obligations.IdleStatesMove : Prop :=
  (∀ s : State, s.live = true → s.deviceIdle = true → s.pwr.idle = 0 → s.pwr.a4Wait = false → 0 < s.permitted →
    s.pwr.idleSince + usRoot (s.reg 0x6000) ≤ s.clk.root →
    (s.permitted ≤ 3 → Answers .idleEntry s fun t => t.pwr.idle = s.permitted ∧ t.flow = s.flow ∧ t.hbm = s.hbm ∧
      t.ctr (0x6100 + 8 * (s.permitted - 1)) = min (s.ctr (0x6100 + 8 * (s.permitted - 1)) + 1) ctrMax) ∧
    (s.permitted = 4 → s.fabManaged = true → s.portsUp = true → Answers .idleEntry s fun t =>
      t.pwr.a4Wait = true ∧ t.pwr.idle = 0 ∧ t.fab.transit = false ∧ t.flow = s.flow) ∧
    (s.permitted = 4 → s.fabManaged = false ∨ s.portsUp = false → Answers .idleEntry s fun t =>
      t.pwr.idle = 4 ∧ t.flow = s.flow ∧ t.hbm = s.hbm ∧ ∀ site b, t.bank site b = .off)) ∧
  (∀ s : State, s.permitted = 0 → exec .idleEntry s = .next s) ∧
  (∀ s : State, s.pwr.a4Wait = true → s.deviceIdle = true → s.permitted = 4 → Answers .a4Entry s fun t =>
    t.pwr.idle = 4 ∧ t.pwr.a4Wait = false ∧ t.flow = s.flow ∧ t.hbm = s.hbm ∧ ∀ site b, t.bank site b = .off) ∧
  (∀ (c : WakeCause) (s : State), s.pwr.waking = some c → s.pwr.heldMem = [] → s.pwr.heldWrites = [] → s.flow.bankWait = [] →
    Answers .idleExitComplete s fun t => t.pwr.idle = 0 ∧ t.pwr.waking = none ∧ t.pwr.idleSince = s.clk.root ∧
      (s.pwr.idle = 4 → t.fab.transit = true ∧ t.flow.scratch = [] ∧ t.flow.acc = []) ∧ t.hbm.cells = s.hbm.cells ∧
      (s.pwr.idle < 2 → t.hbm = s.hbm))

/-! ### Tokens, firings, arrays, scratchpads -/

/-- Tier 2. Tokens (05 R117, R122, R126, R134, R139, 04 R101, R103): the oldest token of its producer and ring on the mesh lands where `land`
puts it, and is indexed; without room it stays on the mesh; a token of another or a killed slot is discarded; a tag with a parity error and
an uncorrectable ring word stop the job; a released slot's credit returns unless a spilled token takes the slot. -/
def Obligations.TokensLand : Prop :=
  (∀ (n : Nat) (f : Flight) (s : State),
    let gone (u : State) : State := { u with flow := { u.flow with flights := u.flow.flights.eraseIdx n } }
    s.flow.flights[n]? = some f → (∀ g ∈ s.flow.flights.take n, ¬ (g.src = f.src ∧ g.site = f.site ∧ g.ring = f.ring)) →
    (s.rng f.site f.ring = none → ∀ e, exec (.tokenArrival n e) s = .next ((gone s).killDrop f)) ∧
    (∀ g, s.rng f.site f.ring = some g →
      (g.slot ≠ f.slot ∨ tagSlot f.tok.tag ≠ g.slot ∨ (s.slot g.slot).killing = true → ∀ e, Answers (.tokenArrival n e) s fun t =>
        t.flow.flights = s.flow.flights.eraseIdx n ∧ t.flow.rings = s.flow.rings ∧ t.slots = s.slots) ∧
      ∀ (m : Tmpl) (x : StRef × InPort), g.slot = f.slot → tagSlot f.tok.tag = g.slot → (s.slot g.slot).killing = false →
        s.ringTmpl g = some m → s.ringPort g = some x →
        let y := s.land f g m (checkedToken m f.tok)
        (∀ u, y.1 = some u →
          let t := (((gone u).indexAll 64 x.1).fillPanels x.1).pump f.site f.ring
          exec (.tokenArrival n .none) s = .next t ∧
          ∀ w, exec (.tokenArrival n (.ringUe w)) s = .next (t.sramUe (slotFin g.slot) f.site .ring w)) ∧
        (y.1 = none → exec (.tokenArrival n .none) s = .next y.2) ∧
        (∀ tag, g.slot < 8 → (s.slot g.slot).survey.isSome = true → Answers (.tokenArrival n (.tagParity tag)) s fun t =>
          (t.slot g.slot).stopped = true ∧
          Logged 0x0013 .job (some (slotFin g.slot)) (genPayload f.site f.ring tag 0 0) s t))) ∧
  (∀ (site : Fin 8192) (ring : Fin 32) (g : RingRun) (s : State), s.rng site.val ring.val = some g → g.freed ≠ 0 →
    (g.spill = [] → exec (.ringCreditReturn site ring) s =
      .next ((s.setRng site.val ring.val (some { g with freed := g.freed - 1, credits := g.credits + 1 })).pump site.val ring.val)) ∧
    (∀ ce k rest m x, g.spill = k :: rest → s.ringTmpl g = some m → s.ringPort g = some x →
      let ms := m.spillSite site.val
      let b := s.accessBanks ms ((s.spillLines ms m.spill k.line k.tok.lines).map lineBank).dedup
      let g1 := { g with spill := rest, freed := g.freed - 1 }
      let bad := b.1.spillUe ms m.spill k
      exec (.ringCreditReturn site ring) s = .next s ∧
      (b.2 = false → exec (.spillReturn site ring ce) s = .next b.1) ∧
      ∀ u, b.2 = true → (b.1.setRng site.val ring.val (some g1)).intoRing site.val ring.val g1 m.slots
          (if bad.isSome then { k.tok with pay := .error } else k.tok) = some u →
        let v := (((u.bumpSite ms 0x140 k.tok.lines).bumpSite ms 0x100 k.tok.lines).bumpSite ms 0x158 ce).ceSite ms SramStruct.scratch.code ce
        exec (.spillReturn site ring ce) s =
          .next ((((match bad with | some w => v.spadUe w | none => v).indexAll 64 x.1).fillPanels x.1).pump site.val ring.val)))

/-- Tier 1. Tiles and firings (05 R116, R118, R119, R127 to R133, 06 R147 to R168): the ready firing whose last operand matched first is
issued after terms 4 and 7; one that fails them gives ERROR tokens and stops the job; a tile left out by its length is skipped; a firing with an
ERROR operand gives ERROR tokens, a null firing what `fireNull` gives, any other the work of its kind; each takes its operands and goes on by
one step; at a tile's boundary the register writes that waited for it take effect. -/
def Obligations.FiringsAct : Prop :=
  (∀ (dev : Fin 8192) (r : StRef) (s : State), s.station dev.val = some r → s.live = true → (s.run r.dev).issue = none →
    s.tileOpen r = false → ¬ ((s.slot r.slot).stopped = true ∧ r.st.kind = 6) →
    (∀ x, s.skippable r = some x → exec (.tileIssue dev) s =
      .next ((s.countClamp r x.1 x.2.1 x.2.2.2.2).skipTile r x.1 x.2.1 x.2.2.1 x.2.2.2.1)) ∧
    ∀ (f : Firing) (e : Entry), s.skippable r = none → firstFiring (s.firings r) = some f → r.st.ents[f.entry]? = some e →
      let i := s.issueOf r e f
      let u := s.countClamp r f.entry e ((s.lenTok r e f.tag).map (·.2))
      (∀ d w, r.desc e = some d → u.issueTile r e i = some w → w.empty = true → u.listBad r d w = true) →
      (u.term4 r e f = true → u.term7 r e = true →
        exec (.tileIssue dev) s = .next (u.setRun r.dev { u.run r.dev with issue := some i })) ∧
      (u.term4 r e f = false ∨ u.term7 r e = false → exec (.tileIssue dev) s = .next
        (((((u.outputAll r e f.tag (i.count % 256) .error f.step).consume r e f (e.blockEnd i.step)).advance r f.entry e f.tag f.step)).jobFaultWith
          (slotFin r.slot) 0x0015 0x09 (genPayload r.dev (f.entry + 16 * (if u.term4 r e f then 7 else 4)) f.tag 0 0)))) ∧
  (∀ (dev : Fin 8192) (r : StRef) (i : Issue) (e : Entry) (f : Firing) (errs : FireErrors) (s : State),
    s.station dev.val = some r → s.live = true → (s.run r.dev).issue = some i → r.st.ents[i.entry]? = some e →
    s.issued r i = some f → s.outputsFree r e f = true → s.fillHeld r = false → s.unitBusy r = false →
    (r.errorIn e f = true ∨ s.sinkSize r e f i = true → exec (.stationFire dev errs) s =
      .next (((s.outputAll r e f.tag (i.count % 256) .error f.step).contribute r i.entry e f.tag i.step).fired r e f i 0x08)) ∧
    (r.errorIn e f = false → s.sinkSize r e f i = false →
      (s.nullFiring r e f = true → exec (.stationFire dev errs) s =
        .next (((s.fireNull r e f i).fired r e f i 0x08).accErrors r (decide (0 < e.pe) && e.finishes r.st f) errs)) ∧
      (s.nullFiring r e f = false →
        (r.st.walks = true →
          (∀ u x, (s.plantErrors r errs).fireWalk r e f i = (some u, x) → exec (.stationFire dev errs) s = .next (u.fired r e f i 0x00)) ∧
          (((s.plantErrors r errs).fireWalk r e f i).1 = none → exec (.stationFire dev errs) s = .next (s.fireWalk r e f i).2)) ∧
        (r.st.walks = false →
          (r.st.kind = 1 → exec (.stationFire dev errs) s =
            .next (((s.fireProduct r e f i).fired r e f i 0x00).accErrors r (!s.freshTile r e f i) errs)) ∧
          (r.st.kind = 2 → exec (.stationFire dev errs) s =
            .next ((((s.fireFused r e f i).fired r e f i 0x00).rowUe r errs).accErrors r (!s.freshTile r e f i) errs)) ∧
          (r.st.kind = 3 → exec (.stationFire dev errs) s = .next
            ((((s.vectorOut r e f i (r.survey.entryProg e) (s.freshTile r e f i) ((r.dataOf e f).headD [])).contribute r i.entry e f.tag
              i.step).fired r e f i 0x00).rowUe r errs)) ∧
          (r.st.kind = 4 → ∀ b bs, r.dataOf e f = b :: bs → exec (.stationFire dev errs) s = .next
            (((s.vectorOut r e f i (r.survey.entryProg e) (s.freshTile r e f i) (likeRows b (combine e.op ((b :: bs).map List.flatten)))).contribute
              r i.entry e f.tag i.step).fired r e f i 0x00)) ∧
          (r.st.kind = 5 → exec (.stationFire dev errs) s = .next ((s.fireUpdate r e f i).fired r e f i 0x00)) ∧
          (r.st.kind = 9 → exec (.stationFire dev errs) s = .next ((s.fireSelect r e f i (s.predOf r e f)).fired r e f i 0x00)))))) ∧
  (∀ (dev : Fin 8192) (r : StRef) (s : State), s.station dev.val = some r → 0 < (s.run r.dev).tiles →
    let u := (((s.run r.dev).waiting.foldl (fun (s : State) w => s.output r w.1 w.2) ((s.flushCoal r).setCoal r .empty)).closeCanaries r).rearmDue r
    let v := (u.setRun r.dev { u.run r.dev with
      tiles := (s.run r.dev).tiles - 1, marks := (u.run r.dev).marks.drop 1, waiting := [] }).applyHeld r.st.site
    exec (.tileBoundary dev) s = .next (v.pumpSpills r.st.site) ∧ ∀ e ∈ v.held, ¬ (siteBase r.st.site ≤ e.1 ∧ e.1 < siteBase r.st.site + 0x800))

/-- Tier 2. Arrays and panels (03 R63 to R67, R72): a waiting tile swaps to the set whose shadow work is done and the set it leaves keeps
its values; a set whose last add is complete drains into accumulator memory for 16 cycles per 256 values when the next tile needs no load, and
for one cycle more, over the longer of the two tiles, when the waiting tile is loaded into it; a panel whose bytes have all arrived is ready. -/
def Obligations.ArraysSwapAndDrain : Prop :=
  (∀ (site : Fin 8192) (a : Fin 4) (w : TileWork × Nat) (s : State),
    let x := s.arr site.val a.val
    x.next = some w → (x.set (!x.active)).work = none → (x.set (!x.active)).busy ≤ s.clk.root → x.behind w.1 = false →
    Answers (.accumulatorSwap site a) s fun t =>
      (t.arr site.val a.val).active = !x.active ∧ (t.arr site.val a.val).next = none ∧
      ((t.arr site.val a.val).set (!x.active)).work = some { w.1 with done := s.clk.root + (w.1.done + 3) * aclkDiv s.clk.step } ∧
      (t.arr site.val a.val).set x.active = x.set x.active ∧ t.flow.acc = s.flow.acc ∧ t.hbm = s.hbm) ∧
  (∀ (site : Fin 8192) (a : Fin 4) (set : Bool) (ce : Nat) (w : TileWork) (r : StRef) (tile : Nat) (s : State),
    let x := s.arr site.val a.val
    (x.set set).work = some w → x.drainable set w s.clk.root = true → s.station w.station = some r → w.dest = .acc tile →
    (∀ n since, x.next = some (n, since) → n.fresh = true ∨ set ≠ x.active) →
    Answers (.shadowDrain site a set ce none) s fun t => ((t.arr site.val a.val).set set).work = none ∧
      ((t.arr site.val a.val).set set).busy = s.clk.root + (match x.next with
        | some (n, _) => if n.fresh then 16 * w.tiles else 16 * max w.tiles n.tiles + 1
        | none => 16 * w.tiles) * aclkDiv s.clk.step ∧
      (t.arr site.val a.val).set (!set) = x.set (!set) ∧ t.hbm = s.hbm) ∧
  (∀ (dev : Fin 8192) (region : Fin 8) (ce : Nat) (r : StRef) (p : InPort) (s : State), s.station dev.val = some r →
    r.st.ins.find? (fun p => p.role == 6 && p.preg == region.val) = some p → r.panelBytes p ≠ 0 →
    let x := s.panel r.st.site r.st.ctx region.val
    x.ready = false → x.used = 0 → r.panelBytes p ≤ x.bytes.length → Answers (.panelFillComplete dev region ce none) s fun t =>
      t.panel r.st.site r.st.ctx region.val = { x with ready := true, order := s.flow.order } ∧ t.flow.rings = s.flow.rings ∧ t.hbm = s.hbm)

/-- Tier 2. Scratchpad upkeep (04 R97, R102 to R104) and the watchdog (05 R144): a line held for COAL_HOLD is written; an idle bank goes
through ENTERING to RETAIN and wakes in 24 cycles, when the debug accesses that wait for it are performed; a dirty page, once zeroed, reads 0
and is clean; a job that makes no progress for 2^LIMIT_LOG2 ACLK cycles raises DEADLOCK_SUSPECTED and is not stopped. -/
def Obligations.ScratchpadUpkeep : Prop :=
  (∀ (dev : Fin 8192) (r : StRef) (s : State), s.station dev.val = some r →
    (s.coalOf r).since + s.rf (siteBase r.st.site) 0 8 * aclkDiv s.clk.step ≤ s.clk.root →
    ∀ l, (s.coalOf r).line = some l → exec (.coalHoldExpiry dev) s =
      .next ((s.bankWrite r.st.site l.2).setCoal r { s.coalOf r with line := none })) ∧
  (∀ (site : Fin 8192) (b : Fin 32) (s : State),
    let thr := s.rf (siteBase site.val + 8) 0 16
    (isCu site.val = false → s.live = true → s.pwr.idle = 0 → thr ≠ 0 → s.bank site.val b.val = .active →
      s.bankPending site.val b.val = false →
      tblGet (fun _ => 0) s.flow.bankLast (bankKey site.val b.val) + thr * aclkDiv s.clk.step ≤ s.clk.root →
      Answers (.bankIdleEntry site b) s fun t => t.bank site.val b.val = .entering s.clk.root ∧ t.flow.scratch = s.flow.scratch ∧
        ∀ k c, bankKey k c ≠ bankKey site.val b.val → t.bank k c = s.bank k c) ∧
    (∀ since, s.pwr.idle = 0 → s.bank site.val b.val = .entering since → since + 16 * aclkDiv s.clk.step ≤ s.clk.root →
      Answers (.bankRetainEntry site b) s fun t => t.bank site.val b.val = .retain ∧ t.flow.scratch = s.flow.scratch) ∧
    (∀ since, s.pwr.idle = 0 → s.bank site.val b.val = .waking since → since + 24 * aclkDiv s.clk.step ≤ s.clk.root →
      let mine (w : BankWait) : Bool := w.site == site.val && lineBank (w.off / 64) == b.val
      let u := s.setBank site.val b.val .active
      u.bank site.val b.val = .active ∧ exec (.bankWake site b) s = .next ((s.flow.bankWait.filter mine).foldl State.spadAccess
        { u with flow := { u.flow with
          bankLast := tblSet (fun _ => 0) s.flow.bankLast (bankKey site.val b.val) s.clk.root
          bankWait := s.flow.bankWait.filter fun w => !mine w } }))) ∧
  (∀ (site : Fin 8192) (pg : Fin 512) (s : State), s.pageDirty site.val pg.val = true → Answers (.muckerPageScrubbed site pg) s fun t =>
    t.pageDirty site.val pg.val = false ∧ (∀ b < 4096, t.scratchByte site.val (4096 * pg.val + b) = 0) ∧
    ∀ k b, b < 2 ^ 21 → k * 2 ^ 21 + b < site.val * 2 ^ 21 + 4096 * pg.val ∨ site.val * 2 ^ 21 + 4096 * pg.val + 4096 ≤ k * 2 ^ 21 + b →
      t.scratchByte k b = s.scratchByte k b) ∧
  (∀ (n : Fin 8) (s : State), s.watching n.val = true → 2 ^ s.rf (jobBase n.val + 0x20) 1 6 ≤ s.ctr (jobBase n.val + 0x28) →
    Answers (.watchdogExpiry n) s fun t => (t.slot n.val).barked = true ∧ (t.slot n.val).stopped = (s.slot n.val).stopped ∧
      t.flow = s.flow ∧ ∃ p, Logged 0x0014 .warning (some n) p s t)

/-! ### Hoists and Mills -/

/-- Tier 1. Gathers (01 R17, 08 R186, R188 to R207, 09 R229 to R231): a gather asks every holder or owner of rows, a layer's forward gather once
in a step; a request queues its read; the first read of a Hoist that can be served is; block scales wait for the AMAX exchange; a response is
taken in order and one with a status ends its request; a consumed chunk takes waiting data; a layer table is accepted, refused, or ends in the
fault of a sealed region or an uncorrectable line; an ERROR for a slot's request is a fault of the job (14 R357). -/
def Obligations.GathersMove : Prop :=
  (∀ (n : Fin 8) (layer : Nat) (kind : GatherKind) (newer : Bool) (d : Started) (step : Nat) (h : HoistTable) (l : Layer) (s : State),
    let x := s.slot n.val
    (s.stepsOf n.val)[if newer then 1 else 0]? = some (d, step) → s.layer n.val layer = some (h, l) → s.live = true →
    x.stopped = false → s.ovfUsed n.val < h.ovfLen →
    (kind = .forward → x.fetched.contains (step, layer) = true → exec (.hoistGatherRequest n layer kind newer) s = .next s) ∧
    (kind ≠ .forward ∨ x.fetched.contains (step, layer) = false →
      let s1 := if kind = .forward then s.setSlot n.val { x with fetched := x.fetched ++ [(step, layer)] } else s
      exec (.hoistGatherRequest n layer kind newer) s = .next (((h.asks kind).filter fun y => 0 < l.rowsIn y.1).foldl (fun s y =>
        l.orders.foldl (fun s o => s.askShard n.val layer y.1 y.2 l o kind ((step + 2 ^ 32 - 1) % 2 ^ 32)) s)
        (s1.beginCopies n.val layer (kind == .regather))))) ∧
  (∀ (n : Fin 8) (chunk : Nat) (s : State), s.live = true →
    s.flow.chunks.any (fun y => y.slot == n.val && y.chunk == chunk && y.read) = true →
    (s.flow.staging = [] → s.flow.pieces = [] → Answers (.stagingChunkCredit n chunk) s fun t => t.hbm = s.hbm ∧
      t.flow.chunks = s.flow.chunks.filter fun y => !(y.slot == n.val && y.chunk == chunk)) ∧
    exec (.stagingChunkCredit n chunk) s = .next ((({ s with flow := { s.flow with
      chunks := s.flow.chunks.filter fun y => !(y.slot == n.val && y.chunk == chunk) } } : State).pumpStage).spillPieces n.val)) ∧
  (∀ (x : RxPacket) (s : State), s.nextRx (fun k => k.ptype == .gatherReq) = some x → s.jobsRun = true →
    (∀ n, s.jobSlot x.pkt.fjob = some n → Answers .gatherReqReceive s fun t =>
      t.flow.reads = (s.deliver x).flow.reads ++ [x.pkt.gatherRead n.val s.clk.root]) ∧
    (s.jobSlot x.pkt.fjob = none → exec .gatherReqReceive s = .next ((s.deliver x).sendError x.pkt 1))) ∧
  (∀ (level : Fin 4) (err : HbmErrors) (r : GatherRead) (s : State), s.live = true → s.flow.reads = [r] → r.awaiting = none →
    s.readLevel r = level.val →
    (∀ t, (s.foundErrors err).serve r = some t → r.bg = false → exec (.gatherReadServe level err) s = .next t) ∧
    ((s.foundErrors err).serve r = none → exec (.gatherReadServe level err) s = .next s) ∧
    ∀ (h : HoistTable) (l : Layer) (u : Rule), s.forHolder r = false → s.layer r.slot r.layer = some (h, l) → s.ruleOf r.slot l = some u →
      let gs := l.rowGrans u.rec8 (l.row0 h.shard) r.row r.rows
      (r.ownRows h l = false → r.bg = false → exec (.gatherReadServe level { ue := [] }) s =
        .next (({ s with flow := { s.flow with reads := [] } } : State).answer r 4 0 [])) ∧
      (r.ownRows h l = true → (s.slot r.slot).stopped = false → l.scheme ≠ 0 → s.hbm.ue = [] →
        (∀ g ∈ gs, s.sealedAgainst r.slot (l.granAddr g) 4096 = none ∧ (s.tail (l.granAddr g)).rec8 = u.rec8 ∧
          (s.tail (l.granAddr g)).version = r.version ∧ (s.tail (l.granAddr g)).pend = r.version) →
        Answers (.gatherReadServe level { ue := [] }) s fun t => SameMemory s t ∧
          t.flow.reads = [{ r with awaiting := some (s.masters l u (l.row0 h.shard) r.row r.rows), blocks := 0 }])) ∧
  (∀ (r : GatherRead) (vals : List (Nat × Word)) (h : HoistTable) (l : Layer) (u : Rule) (s : State), s.live = true →
    s.flow.reads.find? (fun r => r.awaiting.isSome) = some r → r.awaiting = some vals → s.layer r.slot r.layer = some (h, l) →
    s.ruleOf r.slot l = some u →
    let rest := s.flow.reads.erase r
    let n := r.blocks + max 1 (r.heldBlocks h l u (r.blockCount l - r.blocks) r.blocks [])
    (n < r.blockCount l → exec .amaxExchange s = .next { s with flow := { s.flow with reads := { r with blocks := n } :: rest } }) ∧
    (r.blockCount l ≤ n → exec .amaxExchange s = .next (({ s with flow := { s.flow with reads := rest } } : State).emitCopy r h l u vals))) ∧
  (∀ (x : RxPacket) (q : GatherReq) (h : HoistTable) (l : Layer) (s : State),
    let k := x.pkt
    let d := s.deliver x
    s.nextRx (fun k => k.ptype == .gatherRsp) = some x → s.jobsRun = true →
    d.flow.reqs.find? (fun q => q.num == leAt k.payload 0 2 && q.slot == k.rslot && q.peer == some k.src &&
      d.fjobOf q.slot == k.fjob) = some q → d.layer q.slot q.layer = some (h, l) →
    (k.status ≠ 0 → exec .gatherRspReceive s = .next (d.gatherEnd q k.status (leAt k.payload 4 4))) ∧
    (k.status = 0 → leAt k.payload 4 4 ≠ q.got → exec .gatherRspReceive s = .next d) ∧
    (k.status = 0 → leAt k.payload 4 4 = q.got →
      let bs := k.payload.drop 8
      exec .gatherRspReceive s = .next ((d.countLevels q.slot (if (d.nodeIndex h q.peer).isSome then 0x08 else 0x00)
        (h.levels l q.transposed (l.shardOfRow q.row) q.got bs.length)).gatherData q bs))) ∧
  (∀ (n : Fin 8) (err : HbmErrors) (s : State), (s.slot n.val).checking = true → s.live = true →
    let u := s.foundErrors err
    let xs := u.tableSpans n.val
    let v := (u.setSlot n.val { u.slot n.val with checking := false, hoist := none }).setRf (jobBase n.val + 0x38) 0 1 0
    (∀ k, u.spansSealed n.val xs = some k → exec (.hoistTableCheckComplete n err) s = .next (v.sealStop n.val k.1 k.2)) ∧
    (∀ l, u.spansSealed n.val xs = none → u.spansUe xs = some l → exec (.hoistTableCheckComplete n err) s = .next (v.hbmUe l 2)) ∧
    (u.spansSealed n.val xs = none → u.spansUe xs = none →
      exec (.hoistTableCheckComplete n err) s = .next ((u.spansRead xs).endTableCheck n.val))) ∧
  (∀ (x : RxPacket) (s : State), s.nextRx (fun k => k.ptype == .error) = some x → s.jobsRun = true →
      ((s.deliver x).errorSlot x.pkt = none → exec .fmtErrorReceive s = .next (s.deliver x)) ∧
      (∀ n, (s.deliver x).errorSlot x.pkt = some n → 16 ≤ x.pkt.chan → exec .fmtErrorReceive s =
        .next ((s.deliver x).remoteError n x.pkt.src x.pkt.status)))

/-- Tier 2. Leases (08 R193 to R196): an open lease whose time has passed is expired and counted, no other changes; the owner closes the
sender's lease; a holder drops its copy of a revoked shard and keeps the mark. -/
def Obligations.LeasesMove : Prop :=
  (∀ (l : Lease) (s : State), s.flow.leases.find? (fun l => !l.expired && s.passed l.expiry) = some l →
    Answers .leaseExpiry s fun t => { l with expired := true } ∈ t.flow.leases ∧ (∀ x ∈ s.flow.leases, x ≠ l → x ∈ t.flow.leases) ∧
      t.flow.leases.length = s.flow.leases.length ∧ t = { s with flow := t.flow, ctrs := t.ctrs }) ∧
  (∀ (x : RxPacket) (n : Fin 8) (s : State),
    let b := x.pkt.payload
    s.nextRx (fun k => k.isLease 0) = some x → s.jobsRun = true → s.jobSlot x.pkt.fjob = some n → Answers .leaseClose s fun t =>
      ∀ l, l ∈ t.flow.leases ↔ l ∈ s.flow.leases ∧ l.is n.val (leAt b 2 2) (leAt b 4 4) (leAt b 8 4) x.pkt.src = false) ∧
  (∀ (x : RxPacket) (s : State),
    let b := x.pkt.payload
    s.nextRx (fun k => k.isLease 1) = some x → s.jobsRun = true → Answers .leaseRevoke s fun t =>
      ∀ r ∈ s.flow.retained, (if s.fjobOf r.slot = x.pkt.fjob ∧ r.layer = leAt b 2 2 ∧ r.shard = leAt b 4 4 ∧ r.version = leAt b 8 4
        then { r with fwd := .empty, trn := .empty, revoked := true } ∈ t.flow.retained else r ∈ t.flow.retained))

/-- Tier 2. Mills (09 R210 to R228, 01 R19): the oldest run for a Mill enters its buffer of 64; the run picked next is rejected under R223,
R225 or R226, or its records are read, updated and written whole with the granule's tail; while runs of the step are missing only the
run's own lines change in HBM. -/
def Obligations.MillsApplyRuns : Prop :=
  (∀ (m : Fin 768) (r : Run) (s : State), s.live = true → s.flow.dispatch.find? (fun r => (s.dropStopped m.val).millOf r == m.val) = some r →
    (s.slot r.slot).stopped = false → ((s.dropStopped m.val).buf m.val).length < 64 → Answers (.millRunArrival m) s fun t =>
      t.buf m.val = ((s.buf m.val).filter fun r => !(s.slot r.slot).stopped) ++ [r] ∧ t.flow.dispatch = s.flow.dispatch.erase r ∧
      t.hbm = s.hbm) ∧
  (∀ (m : Fin 768) (res : Residue) (err : HbmErrors) (r : Run) (s : State),
    let u := s.dropStopped m.val
    let v := (u.setBuf m.val ((u.buf m.val).erase r)).foundErrors err
    s.live = true → u.pickRun (u.buf m.val) [] = some r →
    (∀ reason, v.runBad r = some reason →
      exec (.millRunApply m res err) s = .next (v.rejectRun m.val r.slot r.layer r.run reason)) ∧
    (∀ (p : RunPlace) (q : StepParam),
      let g := p.base r
      let w := if v.tailOpen g then v else v.hbmRead (g + 4032) 64
      v.runBad r = none → v.place r = some p → ((v.slot r.slot).held r.step).bind (fun h => h.params[p.layer.rule]?) = some q →
      v.sealedAgainst r.slot g 4096 = none → (v.tailOpen g = false → v.firstUe (g + 4032) 64 = none) →
      (∀ reason, reason ≠ 6 → checkTail p.rule.rec8 (p.bit r) r.step (w.tail g) = .reject reason →
        exec (.millRunApply m res err) s = .next (w.rejectRun m.val r.slot r.layer r.run reason)) ∧
      (checkTail p.rule.rec8 (p.bit r) r.step (w.tail g) = .version →
        exec (.millRunApply m res err) s = .next (w.stateVersion m.val (p.gran r) r (w.tail g))) ∧
      (∀ t, checkTail p.rule.rec8 (p.bit r) r.step (w.tail g) = .go t → w.firstUe (p.addr r) (16 * recSize p.rule.rec8) = none →
        let a := applyRun p q r (w.hbmBytes (p.addr r) (16 * recSize p.rule.rec8))
        a.skipped = 0 ∨ p.rule.nfFault = false →
        exec (.millRunApply m .clean err) s = .next ((w.hbmRead (p.addr r) (16 * recSize p.rule.rec8)).commitRun m.val p r t a) ∧
        (t.done ||| 2 ^ p.bit r ≠ p.full r → ((w.openTails (chanOf g)).filter fun e => e.1 != g).length < 1024 →
          Answers (.millRunApply m .clean err) s fun x =>
            (∀ i v, a.lines[i]? = some v → x.hbmByte (p.addr r + i) = v) ∧
            ∀ b, b < p.addr r ∨ p.addr r + a.lines.length ≤ b → x.hbmByte b = s.hbmByte b))))

/-! ### Sluice and barriers -/

/-- Tier 1. Collectives (14 R361 to R365): a contribution goes to the Mill dispatcher where its Mill has room, into this device's context, or to
its node's aggregator; a RED packet is combined run by run, refused with status 1 or 4, or discarded for a mismatch, the fourth of which stops
the job, as does that of a local contribution; a complete run is delivered to its Mill or to HBM, where it changes only its own 64 bytes. -/
def Obligations.CollectivesMove : Prop :=
  (∀ (fault : Bool) (r : Run) (s : State), s.live = true → s.contribHeads = [r] → (s.slot r.slot).stopped = false →
    (s.contribution r = none →
      let r1 : Run := { r with run := match s.layer r.slot r.layer with
        | some (h, l) => if l.allRuns ≤ r.run then 2 ^ 32 - 1 else l.ownRun h.shard r.run
        | none => r.run }
      s.millRoom (s.millOf r1) = true → Answers (.sluiceContribution fault) s fun t => t.flow.contribs = s.flow.contribs.erase r ∧
        t.flow.dispatch = s.flow.dispatch ++ [r1] ∧ t.hbm = s.hbm) ∧
    (∀ k, s.contribution r = some k →
      (k.shard % k.table.nd ≠ k.table.myDev → exec (.sluiceContribution fault) s = .next ((s.sentOne r k.id).sendRed
        (k.table.peer k.table.myNode (k.shard % k.table.nd)) (s.fjobOf r.slot) k.id r.layer (k.layer.ownRun k.shard r.run) k.step 1
        r.bf16 r.vals)) ∧
      (k.shard % k.table.nd = k.table.myDev → ∀ c, s.redCtx r.slot (s.fjobOf r.slot) k.id = some c →
        let y : RedIn := { shard := k.shard, run := k.layer.ownRun k.shard r.run, step := k.step, cnt := 1, vals := widen16 r.bf16 r.vals }
        (s.redRoom c [y] = true → exec (.sluiceContribution false) s = .next
          ((((s.sentOne r k.id).setMisses none r.slot 0 0).setSluice c.1 (some c.2)).redRun c.1 k.id k.col.op k.col.layer k.table k.layer
            y)) ∧
        (s.redRoom c [y] = true → s.misses none r.slot 0 ≠ 3 → exec (.sluiceContribution true) s = .next
          ((s.setMisses none r.slot 0 (s.misses none r.slot 0 + 1)).redMiss c.1 s.myAddr 0))))) ∧
  (∀ (r : RxPacket) (s : State), s.jobsRun = true → s.redNext = [r] →
    let k := r.pkt
    (s.jobSlot k.fjob = none → exec (.redReceive false) s = .next ((s.deliver r).sendError k 1)) ∧
    (∀ n, s.jobSlot k.fjob = some n →
      (s.redTarget n.val k = none ∨ redOk k.payload = false → exec (.redReceive false) s = .next ((s.deliver r).sendError k 4)) ∧
      (∀ e h l c, s.redTarget n.val k = some (e, h, l) → redOk k.payload = true →
        (∀ y ∈ s.redIns h k, y.run < l.runs y.shard) → s.redCtx n.val k.fjob k.xid = some c → s.redRoom c (s.redIns h k) = true →
        (redResidues k.payload = true → exec (.redReceive false) s = .next ((s.redIns h k).foldl
          (fun s y => if (s.slot n.val).stopped then s else s.redRun c.1 k.xid e.op e.layer h l y)
          (((s.deliver r).setMisses (some k.src) k.chan k.seq 0).setSluice c.1 (some c.2)))) ∧
        (redResidues k.payload = false → s.misses (some k.src) k.chan k.seq < 3 → Answers (.redReceive false) s fun t =>
          t.misses (some k.src) k.chan k.seq = s.misses (some k.src) k.chan k.seq + 1 ∧ t.flow.sluices = s.flow.sluices ∧
          Logged 0x005B .corrected none (genPayload c.1 0 k.src k.seq 0) s t)))) ∧
  (∀ (r : RxPacket) (n : Fin 8) (s : State), s.live = true → (s.slot n.val).survey.isSome = true →
    s.redNext.find? (fun r => s.misses (some r.pkt.src) r.pkt.chan r.pkt.seq == 3) = some r → s.jobSlot r.pkt.fjob = some n →
    Answers (.sluiceResidueFatal false) s fun t => (t.slot n.val).stopped = true ∧ Raised 0x005B s t ∧ Raised 0x005C s t) ∧
  (∀ (r : Run) (s : State), s.live = true → r.slot < 8 → (s.slot r.slot).survey.isSome = true →
    s.contribHeads.find? (fun r => s.misses none r.slot 0 == 3) = some r →
    Answers (.sluiceResidueFatal true) s fun t => (t.slot r.slot).stopped = true ∧ Raised 0x005B s t ∧ Raised 0x005C s t ∧
      t.flow.contribs = s.flow.contribs.erase r) ∧
  (∀ (c : Fin 64) (x : SluiceCtx) (z : RedSlot) (rest : List RedSlot) (e : Nat × Collective) (h : HoistTable) (l : Layer) (s : State),
    s.sluice c.val = some x → x.ready = z :: rest → (s.slot x.slot).sluice.find? (fun e => e.1 == x.id) = some e →
    s.layer x.slot e.2.layer = some (h, l) → s.live = true → (s.slot x.slot).stopped = false →
    (e.2.hbm = true → s.sealedAgainst x.slot (e.2.dst + 64 * z.run) 64 = none → z.vals.length = 16 → s.firstUe (e.2.dst + 64 * z.run) 64 = none →
      Answers (.runDelivery c) s fun t =>
        (∀ i w, z.vals[i]? = some w → wordAt (t.hbmBytes (e.2.dst + 64 * z.run) 64) (4 * i) = w) ∧
        (∀ b, b < e.2.dst + 64 * z.run ∨ e.2.dst + 64 * z.run + 64 ≤ b → t.hbmByte b = s.hbmByte b) ∧ ∀ n, n ≠ x.slot → t.slot n = s.slot n) ∧
    (e.2.hbm = false → ∀ r : Run, r = { run := z.run, step := z.step, layer := e.2.layer, slot := x.slot, bf16 := false, vals :=
        (z.vals.map fun w => leBytes 4 w.toNat).flatten } → s.millRoom (s.millOf r) = true →
      Answers (.runDelivery c) s fun t => t.flow.dispatch = s.flow.dispatch ++ [r] ∧ SameMemory s t ∧
        t.sluice c.val = ({ x with ready := rest } : SluiceCtx).settle h l z.step))

/-- Tier 2. The barrier tree (14 R366): an ARRIVE is counted once a context is free and the whole tree's releases; a RELEASE goes down
and ends the local BARRIER; an ABORT is passed on and ends it with FABRIC_ERROR; of the messages for no job an ARRIVE is answered with
status 1 and the others are dropped. -/
def Obligations.BarrierTreeMoves : Prop :=
  (∀ (r : RxPacket) (s : State), s.jobsRun = true →
    let k := r.pkt
    (s.nextRx (fun k => k.isBar 0) = some r →
      (s.jobSlot k.fjob = none → exec .barArrive s = .next ((s.deliver r).sendError k 1)) ∧
      (∀ n h c, s.jobSlot k.fjob = some n → (s.slot n.val).hoist = some h → s.barCtx n.val k.fjob k.xid (leAt k.payload 4 2) = some c →
        (h.myDev = 0 → h.myNode = 0 → leAt k.payload 4 2 = h.nn * h.nd →
          (c.2.arrived.foldl (fun a y => a + y.2) 0) + leAt k.payload 2 2 ≠ h.nn * h.nd → Answers .barArrive s fun t =>
            t.sluice c.1 = some { c.2 with arrived := c.2.arrived ++ [(k.src, leAt k.payload 2 2)] } ∧ t.cage = s.cage ∧ t.hbm = s.hbm) ∧
        (h.myDev = 0 → h.myNode = 0 → leAt k.payload 4 2 = h.nn * h.nd →
          (c.2.arrived.foldl (fun a y => a + y.2) 0) + leAt k.payload 2 2 = h.nn * h.nd → exec .barArrive s = .next
            (((s.deliver r).setSluice c.1 (some { c.2 with arrived := c.2.arrived ++ [(k.src, leAt k.payload 2 2)] })).barRelease n.val
              k.fjob k.xid)))) ∧
    (s.nextRx (fun k => k.isBar 1) = some r →
      (s.jobSlot k.fjob = none → exec .barRelease s = .next (s.deliver r)) ∧
      ∀ n h, s.jobSlot k.fjob = some n → (s.slot n.val).hoist = some h →
        exec .barRelease s = .next ((s.deliver r).barRelease n.val k.fjob k.xid) ∧
        (h.myDev ≠ 0 → ∀ c, s.ctxOf n.val k.fjob true k.xid = some c → s.cage.started = [] → Answers .barRelease s fun t =>
          t.sluice c.1 = none ∧ t.cage.started = [] ∧ t.hbm = s.hbm ∧ t.slots = s.slots)) ∧
    (s.nextRx (fun k => k.isBar 2) = some r → (s.jobSlot k.fjob = none → exec .barAbort s = .next (s.deliver r)) ∧ ∀ n, s.jobSlot k.fjob = some n →
      exec .barAbort s = .next ((s.deliver r).abortBarrier n.val k.fjob k.xid (some k.src)) ∧
      (∀ c, s.ctxOf n.val k.fjob true k.xid = some c → Answers .barAbort s fun t => t.sluice c.1 = none ∧ t.hbm = s.hbm))) ∧
  (∀ (n : Nat) (fjob bid : Nat) (s : State) (d : Started) (j : BarrierJob) (waits : List Nat), s.cage.started = [d] →
    d.kind = .barrier j waits → d.slot = n → j.fjob = fjob → j.bid = bid →
    ((s.ctxOf n fjob true bid).isSome = true → Finished d 0 s (s.barRelease n fjob bid)) ∧ Finished d 0x10 s (s.abortBarrier n fjob bid none))

/-! ### Transport, discovery, management -/

/-- Tier 2. The transport (14 R334, R343, R352 to R356): transit packets are forwarded by the table of their epoch, and dropped in A4; an ACK
releases what it covers; the oldest unacknowledged packet goes again when its timeout runs out; after RETRY_MAX timeouts the channel
starts afresh and its jobs stop; a limited rate rises by steps to the line rate. -/
def Obligations.TransportMoves : Prop :=
  (∀ (r : RxPacket) (s : State), s.fabLive = true → s.fab.rxq.find? (fun r => s.isTransit r.pkt) = some r →
    (s.pwr.idle = 4 → exec .fmtTransit s = .next ((s.dropRx r).bump 0x6150)) ∧
    (s.pwr.idle ≠ 4 → (s.dropRx r).routes r.pkt = true →
      exec .fmtTransit s = .next (((s.dropRx r).forward r.pkt).bumpFab 0x120))) ∧
  (∀ (r : RxPacket) (s : State), s.fabLive = true → s.fab.rxq.find? (fun r => s.isMine r.pkt && r.pkt.ptype == .ack) = some r →
    let k := r.pkt
    let c := s.txChan k.src k.chan
    leAt k.payload 0 8 = 0 → k.ece = false → c.queue = [] → Answers .ackReceive s fun t =>
      (t.txChan k.src k.chan).kept = c.kept.drop (acked c.kept k.ackSeq) ∧ (t.txChan k.src k.chan).next = c.next ∧
      (0 < acked c.kept k.ackSeq → (t.txChan k.src k.chan).timeouts = 0) ∧ t.fab.rxq = s.fab.rxq.erase r ∧ t.ctrs = s.ctrs ∧
      t.out = s.out) ∧
  (∀ (peer : Fin 1024) (chan : Fin 256) (s : State), s.fabLive = true →
    (∀ t0, (s.rxChan peer.val chan.val).first = some t0 → t0 + usRoot 2 ≤ s.clk.root → Answers (.ackDelayExpiry peer chan) s fun t =>
      t.rxChan peer.val chan.val = { s.rxChan peer.val chan.val with since := 0, first := none, ecn := false }) ∧
    (s.timedOut (s.txChan peer.val chan.val) = true →
      ((s.txChan peer.val chan.val).timeouts + 1 < s.rf 0xC010 8 4 → Answers (.retransmitTimeout peer chan) s fun t =>
        (t.txChan peer.val chan.val).timeouts = (s.txChan peer.val chan.val).timeouts + 1 ∧
        (t.txChan peer.val chan.val).kept.length = (s.txChan peer.val chan.val).kept.length ∧ t.slots = s.slots) ∧
      (s.rf 0xC010 8 4 ≤ (s.txChan peer.val chan.val).timeouts + 1 → s.isMgr = false →
        (chan.val = 0 → (s.txChan peer.val chan.val).queue = [] → Answers (.fmtChannelFail peer chan) s fun t =>
          t.txChan peer.val chan.val = TxChan.init ∧ Logged 0x0057 .job none (genPayload peer.val 0 0 0 0) s t) ∧
        (chan.val ≠ 0 → ∀ n : Fin 8, s.loaded n.val = true →
          (∃ x ∈ (s.txChan peer.val chan.val).kept, x.pkt.fjob = s.fjobOf n.val) → Answers (.fmtChannelFail peer chan) s fun t =>
          (t.slot n.val).stopped = true ∧ Raised 0x0057 s t)))) ∧
  (∀ (dst : Fin 1024) (s : State), s.fabLive = true → s.rfBit 0xC014 24 = true → (s.limiter dst.val).rate < lineRate →
    (s.limiter dst.val).rise + usRoot (s.rf 0xC014 16 8) ≤ s.clk.root → Answers (.rateIncrease dst) s fun t =>
      (t.limiter dst.val).rate = min lineRate ((s.limiter dst.val).rate + lineRate / 2 ^ s.rf 0xC014 12 4) ∧
      ∀ d, d ≠ dst.val → t.limiter d = s.limiter d)

/-- Tier 2. Neighbours and the election (14 R339 to R341, R350): a HELLO makes its sender known on its port; a port sends its own when it is
due; neighbours not heard for three periods go; the best candidate that stands for 100 ms is the manager, and a designated device that
loses raises MANAGER_CONFLICT; without a candidate for 1 s FABRIC_NO_MANAGER is raised once; a flood goes on once. -/
def Obligations.ElectionMoves : Prop :=
  ∀ s : State, s.fabLive = true →
    (∀ r, s.fab.rxq.find? (fun r => r.pkt.ptype == .hello) = some r → Answers .hello s fun t =>
      helloFrom r.pkt.payload s.clk.root ∈ (t.port r.port).neigh ∧ t.fab.rxq = s.fab.rxq.erase r ∧ t.fab.cur = s.fab.cur) ∧
    (∀ p : Fin 12, s.portUp p.val = true → (s.port p.val).helloSent = none → exec (.helloSend p) s =
      .next ((s.setPort p.val { s.port p.val with helloSent := some s.clk.root }).sendLink p.val
        (s.packet .hello 0 0 (s.helloPayload p.val)))) ∧
    (∀ (p : Fin 12) t0, s.portUp p.val = true → (s.port p.val).helloSent = some t0 → t0 + s.helloPeriod ≤ s.clk.root →
      exec (.helloSend p) s = .next ((s.setPort p.val { s.port p.val with helloSent := some s.clk.root }).sendLink p.val
        (s.packet .hello 0 0 (s.helloPayload p.val)))) ∧
    (∀ p : Fin 12, s.isMgr = false → Answers (.neighbourTimeout p) s fun t =>
      (t.port p.val).neigh = (s.port p.val).neigh.filter s.recent) ∧
    (∀ b, s.fab.settled = false → s.fab.best = some b → s.bestNow = some b → s.fab.bestSince + msRoot 100 ≤ s.clk.root →
      Answers .electionSettled s fun t => t.fab.settled = true ∧ t.fab.mgr = some b.2 ∧
        (b.2 ≠ ownUid → s.designated = true → s.eligible = true →
          Logged 0x0054 .warning none (genPayload 0 0 b.2 0 0) s t)) ∧
    (∀ t0, s.fab.firstUp = some t0 → s.fab.noMgrRaised = false → s.bestNow = none → t0 + msRoot 1000 ≤ s.clk.root →
      Answers .fabricNoManager s fun t => t.fab.noMgrRaised = true ∧ Logged 0x0055 .warning none (genPayload 0 0 0 0 0) s t) ∧
    (s.fab.noMgrRaised = true → exec .fabricNoManager s = .next s) ∧
    (∀ r, s.fab.rxq.find? (fun r => r.pkt.ptype == .mgmt && r.pkt.flood) = some r → leAt r.pkt.payload 0 8 ≠ ownUid →
      let id := (leAt r.pkt.payload 0 8, leAt r.pkt.payload 8 4)
      (s.fab.seen.contains id = true → exec .mgmtFlood s = .next (s.dropRx r)) ∧
      (s.fab.seen.contains id = false → Answers .mgmtFlood s fun t => t.fab.seen = id :: s.fab.seen)) ∧
    (∀ m, s.fab.mgr = some m → s.fab.settled = true → m ≠ ownUid → Answers .managerLoss s fun t =>
      t.fab.mgr = none ∧ t.fab.settled = false ∧ t.fab.cur = s.fab.cur ∧ t.fab.epoch = s.fab.epoch ∧ t.fab.bestSince = s.clk.root)

/-- Tier 2. What the manager orders (14 R342, R347, R349, R351): an address, a table in the shadow copy with its confirmation, a commit that
keeps the old table as the previous one, its retirement once every port is marked or 10 ms have passed, departures that stop the jobs
that name the peer and start its channels afresh, and the kill of a job. -/
def Obligations.ManagerOrdersAct : Prop :=
  ∀ s : State, s.fabLive = true →
    (∀ addr mgr : Fin 1024, s.isMgr = false → Answers (.addressAssign addr mgr) s fun t =>
      t.fab.addr = some addr.val ∧ t.fab.mgrAddr = some mgr.val ∧ t.fab.cur = s.fab.cur ∧
      (s.fab.addr ≠ some addr.val → t.fab.tx = [] ∧ t.fab.rx = [])) ∧
    (∀ mgr epoch entries, s.isMgr = false → Answers (.routingTableLoad mgr epoch entries) s fun t =>
      t.fab.shadow = some (epoch.val, entries.map fun e => (e.1.val, e.2)) ∧ t.fab.cur = s.fab.cur ∧ t.fab.epoch = s.fab.epoch ∧
      t.out.length = s.out.length + 1) ∧
    (∀ (epoch : Fin 65536) es, s.isMgr = false → s.fab.shadow = some (epoch.val, es) → Answers (.epochCommit epoch) s fun t =>
      t.fab.cur = tableOf es ∧ t.fab.epoch = epoch.val ∧ t.fab.prev = s.fab.cur ∧ t.fab.prevEpoch = some s.fab.epoch ∧
      t.fab.shadow = none) ∧
    (∀ r, s.fab.rxq.find? (fun r => r.pkt.ptype == .epochMark) = some r → Answers .epochMark s fun t =>
      (t.port r.port).marked = some (leAt r.pkt.payload 0 2) ∧ t.fab.rxq = s.fab.rxq.erase r) ∧
    (∀ e, s.fab.prevEpoch = some e →
      (((∀ p < 12, s.portUp p = true → (s.port p).marked = some s.fab.epoch) ∧ s.holdsOld = false) ∨
        s.fab.committed + msRoot 10 ≤ s.clk.root) →
      Answers .tableRetire s fun t => t.fab.prev = [] ∧ t.fab.prevEpoch = none ∧ t.fab.cur = s.fab.cur) ∧
    (∀ (m : Nat × Nat) (missing : List (Fin 1024)) (x : Member) (a : Fin 1024), s.fab.moving = some m → s.isMgr = true →
      m.2 + msRoot 100 ≤ s.clk.root → x ∈ s.fab.members → x.present = true → x.addr = some a.val → a ∈ missing →
      Answers (.epochConfirmTimeout missing) s fun t => t.fab.moving = some (m.1, s.clk.root) ∧ t.fab.shadow.isSome = true) ∧
    (∀ reports : List Report, s.isMgr = true → Answers (.joinReport reports) s fun t =>
      t.fab.moving.map (·.2) = some s.clk.root ∧ t.fab.shadow.isSome = true ∧
      ∀ r ∈ reports, r.uid ≠ ownUid → ∃ m ∈ t.fab.members, m.uid = r.uid) ∧
    (∀ peer : Fin 1024,
      (s.jobsOf peer.val = [] →
        Answers (.peerNew peer) s (fun t => (∀ c < 256, t.txChan peer.val c = TxChan.init ∧ t.rxChan peer.val c = RxChan.init) ∧
          t.slots = s.slots) ∧
        Answers (.peerLost peer) s (fun t => (∀ c < 256, t.txChan peer.val c = TxChan.init ∧ t.rxChan peer.val c = RxChan.init) ∧
          t.slots = s.slots)) ∧
      (∀ n ∈ s.jobsOf peer.val,
        Answers (.peerNew peer) s (fun t => (t.slot n.val).stopped = true) ∧
        Answers (.peerLost peer) s fun t => (t.slot n.val).stopped = true)) ∧
    (∀ (fjob : Fin 4096) (n : Fin 8), s.live = true → s.loaded n.val = true → s.fjobOf n.val = fjob.val →
      (s.slot n.val).killing = false → Answers (.mgmtJobKill fjob [] 0) s fun t => (t.slot n.val).killing = true ∧
        (t.slot n.val).survey = (s.slot n.val).survey)

/-! ### Ports, MAC, time -/

/-- Tier 2. Flecel Direct ports (13 R313 to R318): training, alignment and LINKCTL bring a port UP; a good DATA flit is taken only when it is
the next in sequence; the oldest unacknowledged flit is replayed after REPLAY_TMO; after RETRY_MAX replays without progress the port
retrains, and goes DOWN when that takes 500 ms. -/
def Obligations.DirectPortsMove : Prop :=
  ∀ (p : Fin 12) (s : State), s.fabLive = true → s.isFd p.val = true →
    let x := s.port p.val
    (x.phase = .training → Answers (.fdTrainingDone p) s fun t => t.port p.val = { x with phase := .aligning, lanes := 0xF }) ∧
    (x.phase = .aligning → x.retrain = false →
      exec (.fdAlignmentDone p) s = .next ((s.setPort p.val { x with phase := .init }).sendFlit p.val 3 0 0 [])) ∧
    (x.phase = .aligning → x.retrain = true → Answers (.fdAlignmentDone p) s fun t =>
      (t.port p.val).phase = .up ∧ (t.port p.val).retrain = false) ∧
    (x.phase ≠ .down → x.phase ≠ .up → x.retrain = false → x.since + msRoot 500 ≤ s.clk.root → Answers (.fdBringupTimeout p) s fun t =>
      t.port p.val = { x with phase := .training, since := s.clk.root, lanes := 0 }) ∧
    (∀ f : RxFlit, x.phase = .init → f.bad = false → f.ftype = 3 → Answers (.linkctlFlitReceive p f) s fun t =>
      (t.port p.val).phase = .up ∧ (t.port p.val).rxSeq = 4095 ∧ t.fab.firstUp.isSome = true ∧
      Logged 0x0050 .info none (genPayload p.val (s.portMode p.val) 0 0 0) s t) ∧
    (s.portUp p.val = true →
      (∀ f : RxFlit, f.bad = false → f.ftype = 1 → Answers (.dataFlitReceive p f) s fun t => (t.port p.val).rxSeq =
        if leAt f.bytes 1 2 % 4096 = (x.rxSeq + 1) % 4096 then (x.rxSeq + 1) % 4096 else x.rxSeq) ∧
      (∀ f : RxFlit, f.bad = true → Answers (.dataFlitReceive p f) s fun t =>
        (t.port p.val).nak = true ∧ (t.port p.val).rxSeq = x.rxSeq ∧ t.fab.rxq = s.fab.rxq) ∧
      (∀ f fs, x.replay = f :: fs → f.sent + nsRoot (16 * s.rf (portBase p.val + 8) 0 10) < s.clk.root →
        exec (.replayTimeout p) s = .next (s.replay p.val)) ∧
      (s.rf (portBase p.val + 8) 14 4 ≤ x.retries → Answers (.fdRetryExhausted p) s fun t =>
        (t.port p.val).phase = .training ∧ (t.port p.val).retrain = true ∧ (t.port p.val).replay = x.replay ∧
        Logged 0x0052 .warning none (genPayload p.val 0 0 0 0) s t)) ∧
    (x.phase = .training → x.retrain = true → x.since + msRoot 500 ≤ s.clk.root → s.isMgr = false → Answers (.fdRetrainTimeout p) s fun t =>
      (t.port p.val).phase = .down ∧ (t.port p.val).neigh = [] ∧ Raised 0x0051 s t)

/-- Tier 2. Ethernet ports (13 R320 to R327): link state; a whole express frame within bounds and with a good FCS is admitted and a bad one
changes no received packet; the first fragment of a pre-emptable frame is kept; frames leave highest queue first, a cut one before any
other pre-emptable frame. -/
def Obligations.EthernetPortsMove : Prop :=
  ∀ (p : Fin 12) (s : State), s.fabLive = true → s.isEth p.val = true →
    let x := s.port p.val
    (x.phase = .training → Answers (.ethernetLinkUp p) s fun t => (t.port p.val).phase = .up ∧ t.fab.firstUp.isSome = true) ∧
    (x.phase = .up → Answers (.ethernetLinkDown p) s fun t => t.port p.val =
      { x with phase := .training, since := s.clk.root, lanes := 0, preempt := false, cut := none, asm := none }) ∧
    (s.portUp p.val = true →
      (bitAt (s.macCfg p.val) 29 = true → bitAt (s.macCfg p.val) 30 = false →
        Answers (.preemptVerify p true) s (fun t => (t.port p.val).preempt = true) ∧
        Answers (.preemptVerify p false) s fun t => (t.port p.val).preempt = false ∧
          Logged 0x0053 .warning none (genPayload p.val 0 0 0 0) s t) ∧
      (∀ f : RxFrame, f.codeError = true → Answers (.frameReceive p f) s fun t => t.fab.rxq = s.fab.rxq ∧ t.slots = s.slots) ∧
      (∀ f : RxFrame, f.form = .express → f.codeError = false → f.uncorrected = 0 → 64 ≤ f.bytes.length →
        f.bytes.length ≤ s.rf (portBase p.val + 0x10) 0 14 →
        (f.bytes.drop (f.bytes.length - 4) = fcsOf (f.bytes.take (f.bytes.length - 4)) →
          exec (.frameReceive p f) s = .next ((s.countFec p.val f.corrected 0).takeIn p.val f.noBuffer (s.addressPasses p.val f.bytes) f.bytes)) ∧
        (f.bytes.drop (f.bytes.length - 4) ≠ fcsOf (f.bytes.take (f.bytes.length - 4)) →
          exec (.frameReceive p f) s = .next ((s.countFec p.val f.corrected 0).bumpPort p.val 0x170))) ∧
      (∀ f : RxFrame, f.form = .first → f.codeError = false → f.uncorrected = 0 → x.asm = none → 4 ≤ f.bytes.length →
        f.bytes.length ≤ s.rf (portBase p.val + 0x10) 0 14 →
        f.bytes.drop (f.bytes.length - 4) = mcrcOf (f.bytes.take (f.bytes.length - 4)) →
        f.bytes.drop (f.bytes.length - 4) ≠ fcsOf (f.bytes.take (f.bytes.length - 4)) → Answers (.frameReceive p f) s fun t =>
          (t.port p.val).asm = some { frame := f.bytes.take (f.bytes.length - 4), upTo := f.bytes.length - 4, passes := s.addressPasses p.val f.bytes, count := 0 } ∧
          t.fab.rxq = s.fab.rxq) ∧
      (∀ f fs waits, x.queues.getD 7 [] = f :: fs → f.ptp = false → Answers (.frameTransmit p waits) s fun t =>
        t.out = .fab (.frame p.val f.bytes) :: s.out ∧ (t.port p.val).queues.getD 7 [] = fs ∧
        ∀ q, q ≠ 7 → (t.port p.val).queues.getD q [] = x.queues.getD q []) ∧
      (x.queues.getD 7 [] = [] → x.queues.getD 6 [] = [] →
        (∀ c waits, x.cut = some c →
          exec (.frameTransmit p waits) s = .next (s.sendFrom p.val c.upTo (some c.count) c.frame waits)) ∧
        (∀ f fs, x.cut = none → x.queues.getD 5 [] = f :: fs → Answers (.frameTransmit p none) s fun t =>
          t.out = .fab (.frame p.val f.bytes) :: s.out ∧ (t.port p.val).queues.getD 5 [] = fs)))

/-- Tier 2. Time (13 R319, 15 R376 to R378): a time exchange carries Tally with the port's transmit correction; one from the parent with
valid echoes gives the offset of R376; a LOCKED device whose parent is gone or silent for 1 s holds its trim; Syncs go eight a second
and a Delay_Req once a Sync stands. -/
def Obligations.TimeIsExchanged : Prop :=
  (∀ (p : Fin 12) (s : State), s.fabLive = true → s.isFd p.val = true → s.portUp p.val = true →
    let x := s.port p.val
    (x.timexSent + usRoot (2 ^ s.rf (portBase p.val + 8) 10 4) ≤ s.clk.root → exec (.timexSend p) s =
      .next ((s.setPort p.val { x with timexSent := s.clk.root }).sendFlit p.val 2 0 0 (leBytes 8 (s.txTime p.val).toNat ++
        leBytes 8 (x.echo.getD (0, 0)).1.toNat ++ leBytes 8 (x.echo.getD (0, 0)).2.toNat ++ leBytes 1 (b2n x.echo.isSome)))) ∧
    (∀ f : RxFlit, f.bad = false → f.ftype = 2 → Answers (.timexFlitReceive p f) s fun t =>
      (t.port p.val).echo = some (BitVec.ofNat 64 (leAt f.bytes 8 8), s.rxTime p.val) ∧
      (s.clk.parentPort = some p.val → bitAt (byteAt f.bytes 32) 0 = true → t.clk.lastSample = s.clk.root ∧
        t.clk.offset = offsetOf (BitVec.ofNat 64 (leAt f.bytes 16 8)) (BitVec.ofNat 64 (leAt f.bytes 24 8))
          (BitVec.ofNat 64 (leAt f.bytes 8 8)) (s.rxTime p.val)) ∧
      (s.clk.parentPort ≠ some p.val ∨ bitAt (byteAt f.bytes 32) 0 = false → t.clk = s.clk)) ∧
    (∀ f : RxFlit, f.bad = true → Answers (.timexFlitReceive p f) s fun t => t.clk = s.clk ∧ t.fab = s.fab)) ∧
  (∀ s : State, s.fabLive = true → s.clk.sync = .locked → s.parentPresent = false ∨ s.clk.lastSample + msRoot 1000 ≤ s.clk.root →
    exec .tallyHoldover s = .next { s with clk := { s.clk with sync := .holdover, streak := 0 } }) ∧
  (∀ (p : Fin 12) (s : State), s.fabLive = true → s.isEth p.val = true → s.portUp p.val = true →
    let x := s.port p.val
    (s.clk.sync ≠ .free → s.clk.parentPort ≠ some p.val → x.ptpSent + msRoot 125 ≤ s.clk.root → 7 < x.queues.length →
      Answers (.ptpSyncSend p) s fun t => (t.port p.val).ptpSent = s.clk.root ∧ (t.port p.val).ptpSeq = (x.ptpSeq + 1) % 65536 ∧
        ((t.port p.val).queues.getD 7 []).length = (x.queues.getD 7 []).length + 1) ∧
    (s.clk.parentPort = some p.val → x.origin.isSome = true → 7 < x.queues.length → Answers (.ptpDelayReqSend p) s fun t =>
      (t.port p.val).ptpSeq = (x.ptpSeq + 1) % 65536 ∧
      ((t.port p.val).queues.getD 7 []).length = (x.queues.getD 7 []).length + 1))

/-! ### Faults and HBM upkeep -/

/-- Tier 2. Faults of units (18 R437, R446, R447, R451): replays of a mesh link or a bridge are counted, eight in a row fail it: a link's
failure fences the site, a bridge's or a channel's puts the device in the service state and stops every job; corrected errors of the last
hour raise CE_THRESHOLD each time their number passes a multiple of the threshold, and fence a site above the limit where fencing is enabled. -/
def Obligations.UnitFaultsAct : Prop :=
  ∀ s : State, s.live = true →
    (∀ (site : Fin 8192) (face : Dir),
      let k := 4 * site.val + face.code
      (∀ again, Answers (.meshFlitCrcError none site face again) s fun t => tblGet (fun _ => 0) t.ras.linkReplays k =
          (if again then tblGet (fun _ => 0) s.ras.linkReplays k + 1 else 1) ∧
        t.ctr 0x7110 = min (s.ctr 0x7110 + 1) ctrMax ∧ t.ras.log = s.ras.log) ∧
      (8 ≤ tblGet (fun _ => 0) s.ras.linkReplays k → Answers (.meshLinkFail site face) s fun t =>
        t.unit site.val = .fenced ∧ Raised 0x0094 s t ∧ Raised 0x0090 s t)) ∧
    (∀ (b : Fin 4) (site : Fin 8192) (face : Dir),
      (∀ again, Answers (.meshFlitCrcError (some b) site face again) s fun t => tblGet (fun _ => 0) t.ras.bridgeReplays b.val =
          (if again then tblGet (fun _ => 0) s.ras.bridgeReplays b.val + 1 else 1) ∧
        t.ctr 0x7118 = min (s.ctr 0x7118 + 1) ctrMax ∧ t.ras.log = s.ras.log) ∧
      (8 ≤ tblGet (fun _ => 0) s.ras.bridgeReplays b.val → Answers (.bridgeFail b) s fun t => t.ras.service = true ∧
        Raised 0x0095 s t ∧ ∀ n < 8, s.loaded n = true → (t.slot n).stopped = true)) ∧
    (∀ (m : Fin 768) (status : BitVec 16), Answers (.hbmChannelFail m status) s fun t => t.ras.service = true ∧
      Logged 0x0032 .fatal none (genPayload m.val status.toNat 0 0 0) s t ∧ SameMemory s t ∧
      ∀ n < 8, s.loaded n = true → (t.slot n).stopped = true ∧ (t.slot n).survey = (s.slot n).survey) ∧
    (∀ (m : Fin 768) (n : Nat),
      let h := tblGet (fun _ => CeHistory.none) s.ras.ceMills m.val
      let recent := h.ce.filter fun t => s.clk.root < t + hourRoot
      let thr := s.rf 0x7000 1 15
      Answers (.ceThreshold (.mill m) n) s fun t =>
        (tblGet (fun _ => CeHistory.none) t.ras.ceMills m.val).ce = List.replicate n s.clk.root ++ recent ∧
        (recent.length / thr < (n + recent.length) / thr →
          Logged 0x0096 .corrected none (genPayload m.val 8 (n + recent.length) 0 0) s t) ∧
        (h.crossed = [] → (n + recent.length) / thr ≤ recent.length / thr → t.ras.log = s.ras.log)) ∧
    (∀ (k : Fin 8192) (st : SramStruct) (n : Nat),
      let recent := (tblGet (fun _ => CeHistory.none) s.ras.ceSites k.val).ce.filter fun t => s.clk.root < t + hourRoot
      (s.rfBit 0x7000 0 = true → s.rf 0x7000 16 15 < n + recent.length → s.unit k.val ≠ .fenced →
        Answers (.ceThreshold (.site k st) n) s fun t => t.unit k.val = .fenced) ∧
      (s.rfBit 0x7000 0 = false → n ≠ 0 → Answers (.ceThreshold (.site k st) n) s fun t => t.ras.units = s.ras.units ∧
        (tblGet (fun _ => CeHistory.none) t.ras.ceSites k.val).ce = List.replicate n s.clk.root ++ recent))

/-- Tier 2. HBM upkeep (10 R248, R249, R252, R253): the patrol reads the next line of its channel; an idle pseudo-channel with
no write waiting goes through ENTERING to POWER_DOWN in 8 ns and wakes in 24 ns; a stack's refresh rate follows its temperature. No data byte
changes. -/
def Obligations.HbmIsKeptUp : Prop :=
  ∀ s : State, s.live = true →
    (∀ (m : Fin 768) (ce : Bool),
      let pos := tblGet (fun _ => 0) s.hbm.patrolPos m.val
      s.rfBit memBase 0 = true → s.pwr.idle < 3 → (addrOfLocal m.val (pos / 64) + 64 * (pos % 64)) / 64 ∉ s.hbm.ue →
      Answers (.hbmPatrolRead m ce false) s fun t => tblGet (fun _ => 0) t.hbm.patrolPos m.val = (pos + 1) % chanLines ∧
        SameMemory s t ∧ t.hbm.ue = s.hbm.ue ∧ t.slots = s.slots ∧ t.ras.log = s.ras.log ∧ (ce = false → t.ras = s.ras)) ∧
    (∀ (m : Fin 768) (n : Nat), s.rfBit memBase 8 = false → Answers (.odeccStatusRead m n) s fun t =>
      t.ctr (chanBase m.val + 0x30) = min (s.ctr (chanBase m.val + 0x30) + n) ctrMax ∧ t.hbm = s.hbm) ∧
    (∀ (stack : Fin 24) (hot : Bool), s.pwr.idle < 3 → Answers (.hbmRefresh stack hot) s fun t =>
      (∀ k : Fin 24, t.pwr.hotStacks.getLsbD k.val = if k = stack then hot else s.pwr.hotStacks.getLsbD k.val) ∧ t.hbm = s.hbm) ∧
    (∀ k : Fin 1536, s.pwr.idle < 2 →
      (s.rf 0x40008 0 16 ≠ 0 → s.pc k.val = .active → s.pendingWrites k.val = 0 →
        tblGet (fun _ => 0) s.hbm.pcLast k.val + nsRoot (s.rf 0x40008 0 16) ≤ s.clk.root →
        Answers (.pcIdleEntry k) s fun t => t.pc k.val = .entering s.clk.root ∧ SameMemory s t) ∧
      (∀ t0, s.pc k.val = .entering t0 → t0 + nsRoot 8 ≤ s.clk.root →
        Answers (.pcPowerDownEntry k) s fun t => t.pc k.val = .powerDown ∧ SameMemory s t) ∧
      (∀ t0, s.pc k.val = .waking t0 → t0 + nsRoot 24 ≤ s.clk.root → Answers (.pcWake k) s fun t => t.pc k.val = .active ∧ SameMemory s t ∧
        t.hbm.waiting = s.hbm.waiting.filter fun h => !s.pcWaits k.val h))

/-! ### Frames -/

/-- Tier 2. The frame of every command: `footprint` lists, row by row, the kinds of state the command may change by the rules of its
chapter; when it answers a next state, every other kind of state (registers, counters, clock, power, log, security state, host link,
rings, bytes of HBM, jobs, dataflow, fabric, test port, outputs) is as before. -/
def Obligations.CommandsKeepTheRest : Prop :=
  ∀ (c : Instr) (s t : State), exec c s = .next t → ∀ f, f ∉ footprint c → f.Same s t

/-! ### What copies and conversions carry -/

/-- Tier 2. A COPY of one run of 8-bit elements between host and device memory, its formats alike, moves every byte to its place and no
other byte of device memory changes (12 R291, R292). -/
def Obligations.CopyMovesBytes : Prop :=
  ∀ (d : Desc) (view : HostView) (bs : List Byte) (s : State),
    let n := leAt d.bytes 36 3 + 1
    let src := leAt d.bytes 16 8
    let dst := leAt d.bytes 24 8
    Starts (copySpec d.bytes) d s → s.copyCheck (byteAt d.bytes 2 % 8) d.bytes = none → s.hbm.ue = [] → copyCounts d.bytes = [n, 1, 1, 1] →
    copyFmt d.bytes false = copyFmt d.bytes true → fmtBits (copyFmt d.bytes true) = 8 → bitOf d.bytes 34 1 = false →
    src + n ≤ 2 ^ 64 → dst + n ≤ 2 ^ 64 → bs.length = n →
    (copyDev d.bytes false = false → copyDev d.bytes true = true → (∀ i < n, ∃ b, bs[i]? = some b ∧ view.read (src + i) = .ok b) →
      Answers (.copy d view { ue := [] }) s fun t => (∀ i < n, bs[i]? = some (t.hbmByte (dst + i))) ∧
        (∀ a, a < dst ∨ dst + n ≤ a → t.hbmByte a = s.hbmByte a) ∧
        StartedAs d t fun k => match k with | .copy j => j.next == n | _ => false) ∧
    (copyDev d.bytes false = true → copyDev d.bytes true = false → (∀ i < n, ∃ b, view.read (dst + i) = .ok b) →
      Answers (.copy d view { ue := [] }) s fun t => SameMemory s t ∧ (∃ p, Output.hostWrite p dst (s.hbmBytes src n) ∈ t.out) ∧
        StartedAs d t fun k => match k with | .copy j => j.next == n | _ => false)

/-- Tier 2. Conversions of elements (02 R28 to R31, R35, R36, R39, R40): a NaN becomes the canonical NaN of the target, or its largest
finite value where it has none, and is counted; an infinity stays one, or becomes the largest finite value and counts as saturation; no
number becomes a NaN, and with `OVF` 0 none becomes infinite; a value that a format holds is never changed by converting it to that
format, whatever the rounding, subnormals and the sign of zero among them. -/
def Obligations.ConversionsKeepExactValues : Prop :=
  (∀ code ≤ 10, ∀ c : Rnd, writeElem code c .nan =
    ([0x7FC00000, 0x7FC00000, 0x7FC0, 0x7E00, 0x7F, 0x7E, 0x1F, 0x1F, 0x7, 0x7F, 0x7].getD code 0, .nan)) ∧
  (∀ code ≤ 10, ∀ (c : Rnd) (neg : Bool), writeElem code c (.inf neg) = if neg
    then ([0xFF800000, 0xFF800000, 0xFF80, 0xFC00, 0xFE, 0xFC, 0x3F, 0x3F, 0xF, 0x80, 0x8].getD code 0, if fmtHasInf code then .none else .sat)
    else ([0x7F800000, 0x7F800000, 0x7F80, 0x7C00, 0x7E, 0x7C, 0x1F, 0x1F, 0x7, 0x7F, 0x7].getD code 0,
      if fmtHasInf code then .none else .sat)) ∧
  (∀ code ≤ 10, ∀ (c : Rnd) (v : Val), v ≠ .nan → readElem code (writeElem code c v).1 ≠ .nan) ∧
  (∀ code ≤ 10, ∀ (c : Rnd) (v : Val), v.isFinite = true → c.ovf = false ∨ c.mode = 1 →
    (readElem code (writeElem code c v).1).isFinite = true) ∧
  (∀ code ≤ 10, ∀ (c : Rnd) (raw : Nat), raw < 2 ^ fmtBits code → c.r < 2 ^ 16 → (code = 1 → raw % 2 ^ 13 = 0) →
    readElem code raw ≠ .nan → writeElem code c (readElem code raw) = (raw, .none))
end

