-- ==== Sys2Proof/Laws/Table.lean ====
section
/-! SUPPORT. The laws of sparse tables: read after write on every table, and the operations that keep the canonical form. -/
namespace Sys2Proof.Machine

variable {α : Type} {d : Nat → α}

/-- A key that no entry has reads the default. -/
theorem tblGet_of_absent {t : Tbl α} {k : Nat} (h : ∀ e ∈ t, e.1 ≠ k) : tblGet d t k = d k := by
  induction t with
  | nil => rfl
  | cons e t ih =>
    obtain ⟨j, v⟩ := e
    have hj : k ≠ j := fun c => h (j, v) List.mem_cons_self c.symm
    rw [tblGet, if_neg hj]
    exact ih fun e he => h e (List.mem_cons_of_mem _ he)

theorem tblGet_cons_ne {t : Tbl α} {j k : Nat} {v : α} (h : k ≠ j) : tblGet d ((j, v) :: t) k = tblGet d t k := if_neg h

/-- Dropping entries of other keys leaves a key as it reads. -/
theorem tblGet_filter {t : Tbl α} {p : Nat × α → Bool} {k : Nat} (hp : ∀ v, p (k, v) = true) :
    tblGet d (t.filter p) k = tblGet d t k := by
  induction t with
  | nil => rfl
  | cons e t ih =>
    obtain ⟨j, v⟩ := e
    by_cases hj : k = j
    · subst hj
      rw [List.filter_cons_of_pos (hp v), tblGet, tblGet, if_pos rfl, if_pos rfl]
    · rw [tblGet, if_neg hj, List.filter_cons]
      split
      · rw [tblGet, if_neg hj, ih]
      · exact ih

/-- A key all of whose entries are dropped reads the default. -/
theorem tblGet_filter_out {t : Tbl α} {p : Nat × α → Bool} {k : Nat} (hp : ∀ v, p (k, v) = false) : tblGet d (t.filter p) k = d k := by
  refine tblGet_of_absent fun e he c => ?_
  obtain ⟨j, v⟩ := e
  simp only at c
  subst c
  have := (List.mem_filter.1 he).2
  rw [hp v] at this
  cases this

/-- Read after write at the same key. -/
@[simp] theorem tblGet_tblSet_same [DecidableEq α] (t : Tbl α) (k : Nat) (v : α) : tblGet d (tblSet d t k v) k = v := by
  induction t with
  | nil =>
    simp only [tblSet]
    split
    · rename_i h; exact h.symm
    · simp [tblGet]
  | cons e t ih =>
    obtain ⟨j, w⟩ := e
    simp only [tblSet]
    split
    · rename_i hk
      split
      · rename_i hv
        rw [tblGet, if_neg (by omega), tblGet_filter_out fun _ => by simp, hv]
      · simp [tblGet]
    · split
      · rename_i hj
        split
        · rename_i hv; rw [tblGet_filter_out fun _ => by simp, hv]
        · simp [tblGet]
      · rename_i hj; rw [tblGet, if_neg hj, ih]

/-- A write leaves every other key as it reads. -/
theorem tblGet_tblSet_of_ne [DecidableEq α] {t : Tbl α} {k m : Nat} {v : α} (hm : m ≠ k) :
    tblGet d (tblSet d t k v) m = tblGet d t m := by
  have f : ∀ t : Tbl α, tblGet d (t.filter fun e => e.1 != k) m = tblGet d t m := fun t => tblGet_filter fun _ => by simpa using hm
  induction t with
  | nil =>
    simp only [tblSet]
    split
    · rfl
    · exact tblGet_cons_ne hm
  | cons e t ih =>
    obtain ⟨j, w⟩ := e
    simp only [tblSet]
    split
    · split
      · rw [tblGet, tblGet, f]
      · exact tblGet_cons_ne hm
    · split
      · rename_i hj
        subst hj
        rw [tblGet_cons_ne hm]
        split
        · exact f t
        · exact tblGet_cons_ne hm
      · rw [tblGet, tblGet, ih]

/-- Every key of a table that lies above `m` lies above every smaller number. -/
theorem tblAbove_mono {t : Tbl α} {n m : Nat} (h : n ≤ m) (ha : tblAbove m t = true) : tblAbove n t = true := by
  simp only [tblAbove, List.all_eq_true, decide_eq_true_eq] at *
  exact fun e he => lt_of_le_of_lt h (ha e he)

/-- Dropping entries keeps keys above a bound. -/
theorem tblAbove_filter {t : Tbl α} {n : Nat} {p : Nat × α → Bool} (ha : tblAbove n t = true) : tblAbove n (t.filter p) = true := by
  simp only [tblAbove, List.all_eq_true] at *
  exact fun e he => ha e (List.mem_filter.1 he).1

theorem tblAbove_cons {t : Tbl α} {n k : Nat} {v : α} : tblAbove n ((k, v) :: t) = true ↔ n < k ∧ tblAbove n t = true := by
  simp [tblAbove]

/-- The canonical form, entry by entry. -/
theorem tblWf_cons [DecidableEq α] {k : Nat} {v : α} {t : Tbl α} :
    tblWf d ((k, v) :: t) = true ↔ v ≠ d k ∧ tblAbove k t = true ∧ tblWf d t = true := by
  simp [tblWf, and_assoc]

/-- Dropping entries keeps the canonical form. -/
theorem tblWf_filter [DecidableEq α] {t : Tbl α} {p : Nat × α → Bool} (h : tblWf d t = true) : tblWf d (t.filter p) = true := by
  induction t with
  | nil => rfl
  | cons e t ih =>
    obtain ⟨j, v⟩ := e
    obtain ⟨h1, h2, h3⟩ := tblWf_cons.1 h
    rw [List.filter_cons]
    split
    · exact tblWf_cons.2 ⟨h1, tblAbove_filter h2, ih h3⟩
    · exact ih h3

theorem tblAbove_tblSet [DecidableEq α] {t : Tbl α} {n k : Nat} {v : α} (ha : tblAbove n t = true) (hk : n < k) :
    tblAbove n (tblSet d t k v) = true := by
  induction t with
  | nil =>
    simp only [tblSet]
    split
    · rfl
    · exact tblAbove_cons.2 ⟨hk, rfl⟩
  | cons e t ih =>
    obtain ⟨j, w⟩ := e
    obtain ⟨h1, h2⟩ := tblAbove_cons.1 ha
    simp only [tblSet]
    split
    · split
      · exact tblAbove_cons.2 ⟨h1, tblAbove_filter h2⟩
      · exact tblAbove_cons.2 ⟨hk, ha⟩
    · split
      · split
        · exact tblAbove_filter h2
        · exact tblAbove_cons.2 ⟨hk, h2⟩
      · exact tblAbove_cons.2 ⟨h1, ih h2⟩

/-- A write keeps the canonical form. -/
theorem tblWf_tblSet [DecidableEq α] {t : Tbl α} {k : Nat} {v : α} (h : tblWf d t = true) : tblWf d (tblSet d t k v) = true := by
  induction t with
  | nil =>
    simp only [tblSet]
    split
    · rfl
    · rename_i hv; exact tblWf_cons.2 ⟨hv, rfl, rfl⟩
  | cons e t ih =>
    obtain ⟨j, w⟩ := e
    obtain ⟨h1, h2, h3⟩ := tblWf_cons.1 h
    simp only [tblSet]
    split
    · rename_i hk
      split
      · exact tblWf_cons.2 ⟨h1, tblAbove_filter h2, tblWf_filter h3⟩
      · rename_i hv
        exact tblWf_cons.2 ⟨hv, tblAbove_cons.2 ⟨hk, tblAbove_mono (Nat.le_of_lt hk) h2⟩, h⟩
    · rename_i hk
      split
      · rename_i hj
        subst hj
        split
        · exact tblWf_filter h3
        · rename_i hv; exact tblWf_cons.2 ⟨hv, h2, h3⟩
      · rename_i hj
        exact tblWf_cons.2 ⟨h1, tblAbove_tblSet h2 (by omega), ih h3⟩

/-- A cleared range reads the default. -/
theorem tblGet_tblClear_in {t : Tbl α} {lo hi k : Nat} (h1 : lo ≤ k) (h2 : k < hi) : tblGet d (tblClear lo hi t) k = d k :=
  tblGet_filter_out fun _ => by simp; omega

/-- Keys outside a cleared range read as before. -/
theorem tblGet_tblClear_out {t : Tbl α} {lo hi k : Nat} (hk : k < lo ∨ hi ≤ k) : tblGet d (tblClear lo hi t) k = tblGet d t k :=
  tblGet_filter fun _ => by simpa using hk

theorem tblWf_tblClear [DecidableEq α] {t : Tbl α} {lo hi : Nat} (h : tblWf d t = true) : tblWf d (tblClear lo hi t) = true :=
  tblWf_filter h

end Sys2Proof.Machine
end

