-- ==== Sys2Proof/Laws/Keeps.lean ====
section
/-! SUPPORT. What every shared operation keeps, one lemma each: cite these instead of unfolding an operation. The proofs peel one
operation at a time and rebuild the record once at the end. -/
namespace Sys2Proof.Machine

/-- The clock part of `ClockLegal`. -/
def ClkOk (c : ClockState) : Prop := c.step ≤ 3 ∧ c.req ≤ 3 ∧ ∀ w, c.volt = some w → w.step ≤ 3

theorem clk_same {a b : ClockState} (h1 : b.step = a.step) (h2 : b.req = a.req) (h3 : b.volt = a.volt) : ClkOk a → ClkOk b := by
  intro h; unfold ClkOk; rw [h1, h2, h3]; exact h

/-- The security state keeps its rollback counter from falling and its sessions bounded (16 R378, R392). -/
structure SecKeeps (a b : SecState) : Prop where
  roll : a.rollback ≤ b.rollback
  ses : a.sessions.length ≤ 4 → b.sessions.length ≤ 4

/-- The place of a kind of state in a mask. -/
def Field.place : Field → Nat
  | .regs => 0 | .held => 1 | .ctrs => 2 | .latches => 3 | .clk => 4 | .pwr => 5 | .ras => 6 | .sec => 7 | .cxl => 8 | .cage => 9
  | .memory => 10 | .hbm => 11 | .slots => 12 | .flow => 13 | .fab => 14 | .jtag => 15 | .boundary => 16 | .out => 17 | .fresh => 18
/-- Only the kinds of state whose bit is set in `p` differ between `s` and `t`. -/
abbrev Within (p : Nat) (s t : State) : Prop :=
  (p.testBit 0 = true ∨ t.regs = s.regs) ∧ (p.testBit 1 = true ∨ t.held = s.held) ∧ (p.testBit 2 = true ∨ t.ctrs = s.ctrs) ∧
  (p.testBit 3 = true ∨ t.latches = s.latches) ∧ (p.testBit 4 = true ∨ t.clk = s.clk) ∧ (p.testBit 5 = true ∨ t.pwr = s.pwr) ∧
  (p.testBit 6 = true ∨ t.ras = s.ras) ∧ (p.testBit 7 = true ∨ t.sec = s.sec) ∧ (p.testBit 8 = true ∨ t.cxl = s.cxl) ∧
  (p.testBit 9 = true ∨ t.cage = s.cage) ∧ (p.testBit 10 = true ∨ t.hbm.cells = s.hbm.cells) ∧ (p.testBit 11 = true ∨ t.hbm = s.hbm) ∧
  (p.testBit 12 = true ∨ t.slots = s.slots) ∧ (p.testBit 13 = true ∨ t.flow = s.flow) ∧ (p.testBit 14 = true ∨ t.fab = s.fab) ∧
  (p.testBit 15 = true ∨ t.jtag = s.jtag) ∧ (p.testBit 16 = true ∨ t.boundary = s.boundary) ∧ (p.testBit 17 = true ∨ t.out = s.out) ∧
  (p.testBit 18 = true ∨ t.fresh = s.fresh)

/-- What every operation of the block keeps: every kind of state whose bit in `p` is clear, the queue, the rollback counter, canonical HBM,
legal clock steps and the bounds of the bounded stores. -/
structure Keeps (p : Nat) (s t : State) : Prop where
  frame : Within p s t
  pend : t.pending = s.pending
  sec : SecKeeps s.sec t.sec
  hbm : tblWf (fun _ => (0 : Byte)) s.hbm.cells = true → tblWf (fun _ => (0 : Byte)) t.hbm.cells = true
  clk : ClkOk s.clk → ClkOk t.clk
  ras : s.ras.log.length ≤ 8192 → t.ras.log.length ≤ 8192
  cage : s.cage.held.length ≤ 64 → t.cage.held.length ≤ 64
  cxl : s.cxl.atc.length ≤ 1024 → t.cxl.atc.length ≤ 1024

theorem SecKeeps.rfl' (a : SecState) : SecKeeps a a := ⟨le_rfl, id⟩
theorem Field.same_refl (f : Field) (s : State) : f.Same s s := by cases f <;> rfl
theorem Field.same_trans {s t u : State} (f : Field) (a : f.Same s t) (b : f.Same t u) : f.Same s u := by
  cases f <;> exact Eq.trans b a
/-- Nothing but what the mask says differs, kind by kind. -/
theorem Within.any {p : Nat} {s t : State} (h : Within p s t) (f : Field) : p.testBit f.place = true ∨ f.Same s t := by
  obtain ⟨h0, h1, h2, h3, h4, h5, h6, h7, h8, h9, h10, h11, h12, h13, h14, h15, h16, h17, h18⟩ := h
  cases f <;> assumption
theorem Within.ofAny {p : Nat} {s t : State} (h : ∀ f : Field, p.testBit f.place = true ∨ f.Same s t) : Within p s t :=
  ⟨h .regs, h .held, h .ctrs, h .latches, h .clk, h .pwr, h .ras, h .sec, h .cxl, h .cage, h .memory, h .hbm, h .slots, h .flow, h .fab,
   h .jtag, h .boundary, h .out, h .fresh⟩
theorem Within.same {p : Nat} {s t : State} (h : Within p s t) {f : Field} (hf : p.testBit f.place = false) : f.Same s t :=
  (h.any f).resolve_left (by simp [hf])
theorem Within.after {p q : Nat} {s t u : State} (b : Within q t u) (a : Within p s t) (h : Nat.land q p = q) : Within p s u := by
  refine Within.ofAny fun f => ?_
  rcases a.any f with a | a
  · exact .inl a
  rcases b.any f with b | b
  · rw [← h] at b
    exact .inl (by simpa using (Bool.and_eq_true_iff.1 ((Nat.testBit_land ..).symm.trans b)).2)
  · exact .inr (f.same_trans a b)
theorem Keeps.refl {p : Nat} (s : State) : Keeps p s s := ⟨Within.ofAny fun f => .inr (f.same_refl s), rfl, ⟨le_rfl, id⟩, id, id, id, id, id⟩
/-- Two operations in turn. -/
theorem Keeps.after {p q : Nat} {s t u : State} (b : Keeps q t u) (a : Keeps p s t)
    (h : Nat.land q p = q) : Keeps p s u :=
  ⟨b.frame.after a.frame h, b.pend.trans a.pend, ⟨a.sec.roll.trans b.sec.roll, fun h => b.sec.ses (a.sec.ses h)⟩,
   fun h => b.hbm (a.hbm h), fun h => b.clk (a.clk h), fun h => b.ras (a.ras h), fun h => b.cage (a.cage h), fun h => b.cxl (a.cxl h)⟩
/-- A wider mask. -/
theorem Keeps.mono {p q : Nat} {s t : State} (b : Keeps q s t) (h : Nat.land q p = q) : Keeps p s t := b.after (Keeps.refl s) h
theorem land_self (p : Nat) : Nat.land p p = p := Nat.and_self p
theorem Keeps.ite {p : Nat} {c : Prop} [Decidable c] {s a b : State} (ha : c → Keeps p s a) (hb : ¬c → Keeps p s b) :
    Keeps p s (if c then a else b) := by
  split
  · exact ha ‹_›
  · exact hb ‹_›
theorem Keeps.foldl {p : Nat} {β : Type} (f : State → β → State) (l : List β) (s t : State) (h : ∀ s x, Keeps p s (f s x))
    (a : Keeps p s t) : Keeps p s (l.foldl f t) := by
  induction l generalizing t with
  | nil => exact a
  | cons x l ih => exact ih _ ((h t x).after a (land_self p))
theorem Keeps.foldlP {p : Nat} {β γ : Type} (f : State × γ → β → State × γ) (l : List β) (s : State) (t : State × γ)
    (h : ∀ x b, Keeps p x.1 (f x b).1) (a : Keeps p s t.1) : Keeps p s (l.foldl f t).1 := by
  induction l generalizing t with
  | nil => exact a
  | cons x l ih => exact ih _ ((h t x).after a (land_self p))
theorem Keeps.getD {p : Nat} {s d : State} {o : Option State} (h : ∀ t, o = some t → Keeps p s t) (hd : Keeps p s d) :
    Keeps p s (o.getD d) := by
  cases o with
  | none => exact hd
  | some t => exact h t rfl
theorem findSome_keeps {p : Nat} {β : Type} {s : State} (f : β → Option State) (l : List β)
    (h : ∀ x t, f x = some t → Keeps p s t) : ∀ t, l.findSome? f = some t → Keeps p s t := by
  intro t e
  obtain ⟨x, _, hx⟩ := List.exists_of_findSome?_eq_some e
  exact h x t hx
/-- A record update: whatever is rebuilt is in the mask or as before, and the parts that carry an invariant keep it. -/
theorem Keeps.mk' {p : Nat} {s t : State}
    {regs held ctrs latches clk pwr ras sec cxl cage hbm slots flow fab jtag boundary out fresh}
    (a : Keeps p s t) (hsec : SecKeeps t.sec sec)
    (hhbm : tblWf (fun _ => (0 : Byte)) t.hbm.cells = true → tblWf (fun _ => (0 : Byte)) hbm.cells = true)
    (hclk : ClkOk t.clk → ClkOk clk) (hras : t.ras.log.length ≤ 8192 → ras.log.length ≤ 8192)
    (hcage : t.cage.held.length ≤ 64 → cage.held.length ≤ 64) (hcxl : t.cxl.atc.length ≤ 1024 → cxl.atc.length ≤ 1024)
    (hf : Within p t (State.mk regs held ctrs latches clk pwr ras sec cxl cage hbm slots flow fab jtag boundary t.pending out fresh)) :
    Keeps p s (State.mk regs held ctrs latches clk pwr ras sec cxl cage hbm slots flow fab jtag boundary t.pending out fresh) :=
  Keeps.after (q := p) (t := t) ⟨hf, rfl, hsec, hhbm, hclk, hras, hcage, hcxl⟩ a (land_self p)
/-- The same of an operation that may decline. -/
def OKeeps (p : Nat) (s : State) (o : Option State) : Prop := ∀ t, o = some t → Keeps p s t
theorem OKeeps.none {p : Nat} {s : State} : OKeeps p s none := fun _ h => nomatch h
theorem OKeeps.some {p : Nat} {s t : State} (h : Keeps p s t) : OKeeps p s (some t) := fun _ e => Option.some.inj e ▸ h
theorem OKeeps.of {p q : Nat} {s t : State} {o : Option State} (h : OKeeps q t o) (a : Keeps p s t)
    (hq : Nat.land q p = q) : OKeeps p s o := fun u e => (h u e).after a hq
theorem OKeeps.get {p : Nat} {s t : State} {o : Option State} (h : OKeeps p s o) (e : o = Option.some t) : Keeps p s t := h t e
theorem OKeeps.ite {p : Nat} {c : Prop} [Decidable c] {s : State} {a b : Option State} (ha : c → OKeeps p s a)
    (hb : ¬c → OKeeps p s b) : OKeeps p s (if c then a else b) := by
  split
  · exact ha ‹_›
  · exact hb ‹_›
theorem OKeeps.map {p : Nat} {β : Type} {s : State} {f : β → State} {o : Option β} (h : ∀ x, Keeps p s (f x)) :
    OKeeps p s (o.map f) := by
  intro t e
  obtain ⟨x, _, rfl⟩ := Option.map_eq_some_iff.1 e
  exact h x
theorem OKeeps.findSome {p : Nat} {β : Type} {s : State} {f : β → Option State} {l : List β} (h : ∀ x, OKeeps p s (f x)) :
    OKeeps p s (l.findSome? f) :=
  findSome_keeps f l (fun x t e => h x t e)
theorem Keeps.getD' {p : Nat} {s d : State} {o : Option State} (h : OKeeps p s o) (hd : Keeps p s d) : Keeps p s (o.getD d) :=
  Keeps.getD h hd
theorem hbm_filter {p : Nat × Byte → Bool} {t : Tbl Byte} (h : tblWf (fun _ => (0 : Byte)) t = true) : tblWf (fun _ => (0 : Byte)) (t.filter p) = true :=
  tblWf_filter h
theorem hbm_clear {lo hi : Nat} {t : Tbl Byte} (h : tblWf (fun _ => (0 : Byte)) t = true) : tblWf (fun _ => (0 : Byte)) (tblClear lo hi t) = true :=
  tblWf_tblClear h
theorem hbm_set {k : Nat} {v : Byte} {t : Tbl Byte} (h : tblWf (fun _ => (0 : Byte)) t = true) :
    tblWf (fun _ => (0 : Byte)) (tblSet (fun _ => 0) t k v) = true := tblWf_tblSet h
theorem hbm_nil {t : Tbl Byte} : tblWf (fun _ => (0 : Byte)) t = true → tblWf (fun _ => (0 : Byte)) ([] : Tbl Byte) = true := fun _ => rfl

/-! ### Ops -/

theorem State.setReg_keeps (s : State) (off v : Nat) : Keeps 0x1 s (State.setReg s off v) := by
  unfold State.setReg
  try simp -proj -iota -beta -eta only []
  repeat' first | exact .inl rfl | with_reducible exact .inr rfl | with_reducible apply And.intro
                | with_reducible exact clk_same rfl rfl rfl | with_reducible exact ⟨le_rfl, fun h => h⟩ | with_reducible exact fun h => h
                | with_reducible exact Keeps.refl _ | (with_reducible refine Keeps.mk' ?_ ?_ ?_ ?_ ?_ ?_ ?_ ?_)

theorem State.setRf_keeps (s : State) (off lo width v : Nat) : Keeps 0x1 s (State.setRf s off lo width v) := by
  unfold State.setRf
  try simp -proj -iota -beta -eta only []
  repeat' first | with_reducible exact Keeps.refl _ | with_reducible refine (State.setReg_keeps ..).after ?_ rfl

theorem State.emit_keeps (s : State) (o : Output) : Keeps 0x20000 s (State.emit s o) := by
  unfold State.emit
  try simp -proj -iota -beta -eta only []
  repeat' first | exact .inl rfl | with_reducible exact .inr rfl | with_reducible apply And.intro
                | with_reducible exact clk_same rfl rfl rfl | with_reducible exact ⟨le_rfl, fun h => h⟩ | with_reducible exact fun h => h
                | with_reducible exact Keeps.refl _ | (with_reducible refine Keeps.mk' ?_ ?_ ?_ ?_ ?_ ?_ ?_ ?_)

theorem State.bump_keeps (s : State) (off : Nat) (n : Nat) : Keeps 0x4 s (State.bump s off n) := by
  unfold State.bump
  try simp -proj -iota -beta -eta only []
  repeat' first | exact .inl rfl | with_reducible exact .inr rfl | with_reducible apply And.intro
                | with_reducible exact clk_same rfl rfl rfl | with_reducible exact ⟨le_rfl, fun h => h⟩ | with_reducible exact fun h => h
                | with_reducible exact Keeps.refl _ | (with_reducible refine Keeps.mk' ?_ ?_ ?_ ?_ ?_ ?_ ?_ ?_)

theorem State.clearCtrs_keeps (s : State) (lo hi : Nat) : Keeps 0xc s (State.clearCtrs s lo hi) := by
  unfold State.clearCtrs
  try simp -proj -iota -beta -eta only []
  repeat' first | exact .inl rfl | with_reducible exact .inr rfl | with_reducible apply And.intro
                | with_reducible exact clk_same rfl rfl rfl | with_reducible exact ⟨le_rfl, fun h => h⟩ | with_reducible exact fun h => h
                | with_reducible exact Keeps.refl _ | (with_reducible refine Keeps.mk' ?_ ?_ ?_ ?_ ?_ ?_ ?_ ?_)

theorem State.bumpMem_keeps (s : State) (off : Nat) (n : Nat) : Keeps 0x4 s (State.bumpMem s off n) := by
  unfold State.bumpMem
  try simp -proj -iota -beta -eta only []
  repeat' first | with_reducible exact Keeps.refl _ | with_reducible refine (State.bump_keeps ..).after ?_ rfl
                | with_reducible refine Keeps.ite (fun _ => ?_) (fun _ => ?_)

theorem State.draw_keeps (s : State) : Keeps 0x40000 s (State.draw s) := by
  unfold State.draw
  try simp -proj -iota -beta -eta only []
  repeat' first | exact .inl rfl | with_reducible exact .inr rfl | with_reducible apply And.intro
                | with_reducible exact clk_same rfl rfl rfl | with_reducible exact ⟨le_rfl, fun h => h⟩ | with_reducible exact fun h => h
                | with_reducible exact Keeps.refl _ | (with_reducible refine Keeps.mk' ?_ ?_ ?_ ?_ ?_ ?_ ?_ ?_)

theorem State.msix_keeps (s : State) (vec : Nat) : Keeps 0x20100 s (State.msix s vec) := by
  unfold State.msix
  try simp -proj -iota -beta -eta only []
  repeat' first | exact .inl rfl | with_reducible exact .inr rfl | with_reducible apply And.intro
                | with_reducible exact clk_same rfl rfl rfl | with_reducible exact ⟨le_rfl, fun h => h⟩ | with_reducible exact fun h => h
                | with_reducible exact Keeps.refl _ | with_reducible refine (State.emit_keeps ..).after ?_ rfl
                | with_reducible refine Keeps.ite (fun _ => ?_) (fun _ => ?_) | (with_reducible refine Keeps.mk' ?_ ?_ ?_ ?_ ?_ ?_ ?_ ?_)

theorem State.setRing_keeps (s : State) (k : Nat) (r : Ring) : Keeps 0x200 s (State.setRing s k r) := by
  unfold State.setRing
  try simp -proj -iota -beta -eta only []
  repeat' first | exact .inl rfl | with_reducible exact .inr rfl | with_reducible apply And.intro
                | with_reducible exact clk_same rfl rfl rfl | with_reducible exact ⟨le_rfl, fun h => h⟩ | with_reducible exact fun h => h
                | with_reducible exact Keeps.refl _ | (with_reducible refine Keeps.mk' ?_ ?_ ?_ ?_ ?_ ?_ ?_ ?_)

theorem State.setSlot_keeps (s : State) (n : Nat) (x : Slot) : Keeps 0x1000 s (State.setSlot s n x) := by
  unfold State.setSlot
  try simp -proj -iota -beta -eta only []
  repeat' first | exact .inl rfl | with_reducible exact .inr rfl | with_reducible apply And.intro
                | with_reducible exact clk_same rfl rfl rfl | with_reducible exact ⟨le_rfl, fun h => h⟩ | with_reducible exact fun h => h
                | with_reducible exact Keeps.refl _ | (with_reducible refine Keeps.mk' ?_ ?_ ?_ ?_ ?_ ?_ ?_ ?_)

theorem State.evLose_keeps (s : State) : Keeps 0x204 s (State.evLose s) := by
  unfold State.evLose
  try simp -proj -iota -beta -eta only []
  repeat' first | exact .inl rfl | with_reducible exact .inr rfl | with_reducible apply And.intro
                | with_reducible exact clk_same rfl rfl rfl | with_reducible exact ⟨le_rfl, fun h => h⟩ | with_reducible exact fun h => h
                | with_reducible exact Keeps.refl _ | with_reducible refine (State.bump_keeps ..).after ?_ rfl
                | (with_reducible refine Keeps.mk' ?_ ?_ ?_ ?_ ?_ ?_ ?_ ?_)

theorem State.evWrite_keeps (s : State) (e : EventRec) (lost : Nat) : Keeps 0x20304 s (State.evWrite s e lost) := by
  unfold State.evWrite
  try simp -proj -iota -beta -eta only []
  repeat' first | exact .inl rfl | with_reducible exact .inr rfl | with_reducible apply And.intro
                | with_reducible exact clk_same rfl rfl rfl | with_reducible exact ⟨le_rfl, fun h => h⟩ | with_reducible exact fun h => h
                | with_reducible exact Keeps.refl _ | with_reducible refine (State.emit_keeps ..).after ?_ rfl
                | with_reducible refine (State.bump_keeps ..).after ?_ rfl | with_reducible refine (State.msix_keeps ..).after ?_ rfl
                | split | (with_reducible refine Keeps.mk' ?_ ?_ ?_ ?_ ?_ ?_ ?_ ?_)

theorem State.evPost_keeps (s : State) (e : EventRec) : Keeps 0x20304 s (State.evPost s e) := by
  unfold State.evPost
  try simp -proj -iota -beta -eta only []
  repeat' first | exact .inl rfl | with_reducible exact .inr rfl | with_reducible apply And.intro
                | with_reducible exact clk_same rfl rfl rfl | with_reducible exact ⟨le_rfl, fun h => h⟩ | with_reducible exact fun h => h
                | with_reducible exact Keeps.refl _ | with_reducible refine (State.evLose_keeps ..).after ?_ rfl
                | with_reducible refine (State.evWrite_keeps ..).after ?_ rfl | with_reducible refine Keeps.ite (fun _ => ?_) (fun _ => ?_)
                | (with_reducible refine Keeps.mk' ?_ ?_ ?_ ?_ ?_ ?_ ?_ ?_) | (intro _; simp at * <;> omega)

theorem State.evLog_keeps (s : State) (e : EventRec) : Keeps 0x44 s (State.evLog s e) := by
  unfold State.evLog
  try simp -proj -iota -beta -eta only []
  repeat' first | exact .inl rfl | with_reducible exact .inr rfl | with_reducible apply And.intro
                | with_reducible exact clk_same rfl rfl rfl | with_reducible exact ⟨le_rfl, fun h => h⟩ | with_reducible exact fun h => h
                | with_reducible exact Keeps.refl _ | with_reducible refine (State.bump_keeps ..).after ?_ rfl
                | with_reducible refine Keeps.ite (fun _ => ?_) (fun _ => ?_) | (with_reducible refine Keeps.mk' ?_ ?_ ?_ ?_ ?_ ?_ ?_ ?_)
                | (intro _; simp at * <;> omega)

theorem State.flashLog_keeps (s : State) (e : EventRec) : Keeps 0x20 s (State.flashLog s e) := by
  unfold State.flashLog
  try simp -proj -iota -beta -eta only []
  repeat' first | exact .inl rfl | with_reducible exact .inr rfl | with_reducible apply And.intro
                | with_reducible exact clk_same rfl rfl rfl | with_reducible exact ⟨le_rfl, fun h => h⟩ | with_reducible exact fun h => h
                | with_reducible exact Keeps.refl _ | (with_reducible refine Keeps.mk' ?_ ?_ ?_ ?_ ?_ ?_ ?_ ?_)

theorem State.raise_keeps (s : State) (code : Nat) (cls : EvClass) (slot : Option (Fin 8)) (payload : List Byte) : Keeps 0x20364 s (State.raise s code cls slot payload) := by
  unfold State.raise
  try simp -proj -iota -beta -eta only []
  repeat' first | exact .inl rfl | with_reducible exact .inr rfl | with_reducible apply And.intro
                | with_reducible exact clk_same rfl rfl rfl | with_reducible exact ⟨le_rfl, fun h => h⟩ | with_reducible exact fun h => h
                | with_reducible exact Keeps.refl _ | with_reducible refine (State.evPost_keeps ..).after ?_ rfl
                | with_reducible refine (State.evLog_keeps ..).after ?_ rfl | with_reducible refine (State.flashLog_keeps ..).after ?_ rfl
                | with_reducible refine Keeps.ite (fun _ => ?_) (fun _ => ?_) | split
                | (with_reducible refine Keeps.mk' ?_ ?_ ?_ ?_ ?_ ?_ ?_ ?_)

theorem State.ev_keeps (s : State) (code : Nat) (cls : EvClass) (loc sub arg0 arg1 arg2 : Nat) : Keeps 0x20364 s (State.ev s code cls loc sub arg0 arg1 arg2) := by
  unfold State.ev
  try simp -proj -iota -beta -eta only []
  repeat' first | with_reducible exact Keeps.refl _ | with_reducible refine (State.raise_keeps ..).after ?_ rfl

theorem State.busyWrite_keeps (s : State) (off : Nat) : Keeps 0x20364 s (State.busyWrite s off) := by
  unfold State.busyWrite
  try simp -proj -iota -beta -eta only []
  repeat' first | with_reducible exact Keeps.refl _ | with_reducible refine (State.ev_keeps ..).after ?_ rfl

theorem State.postRecord_keeps (s : State) (c : Completion) : Keeps 0x20300 s (State.postRecord s c) := by
  unfold State.postRecord
  try simp -proj -iota -beta -eta only []
  repeat' first | with_reducible exact Keeps.refl _ | with_reducible refine (State.emit_keeps ..).after ?_ rfl
                | with_reducible refine (State.msix_keeps ..).after ?_ rfl | with_reducible refine (State.setRing_keeps ..).after ?_ rfl
                | with_reducible refine Keeps.ite (fun _ => ?_) (fun _ => ?_)

theorem State.unpost_keeps (s : State) (k : Nat) : Keeps 0x200 s (State.unpost s k) := by
  unfold State.unpost
  try simp -proj -iota -beta -eta only []
  repeat' first | with_reducible exact Keeps.refl _ | with_reducible refine (State.setRing_keeps ..).after ?_ rfl

theorem State.finish_keeps (s : State) (c : Completion) : Keeps 0x20304 s (State.finish s c) := by
  unfold State.finish
  try simp -proj -iota -beta -eta only []
  repeat' first | exact .inl rfl | with_reducible exact .inr rfl | with_reducible apply And.intro
                | with_reducible exact clk_same rfl rfl rfl | with_reducible exact ⟨le_rfl, fun h => h⟩ | with_reducible exact fun h => h
                | with_reducible exact Keeps.refl _ | with_reducible refine (State.bump_keeps ..).after ?_ rfl
                | with_reducible refine (State.setRing_keeps ..).after ?_ rfl
                | with_reducible refine (State.postRecord_keeps ..).after ?_ rfl
                | with_reducible refine Keeps.ite (fun _ => ?_) (fun _ => ?_) | (with_reducible refine Keeps.mk' ?_ ?_ ?_ ?_ ?_ ?_ ?_ ?_)
                | (intro _; simp at * <;> omega)

theorem State.complete_keeps (s : State) (d : Started) (status detail : Nat) (result : List Byte) : Keeps 0x20304 s (State.complete s d status detail result) := by
  unfold State.complete
  try simp -proj -iota -beta -eta only []
  repeat' first | exact .inl rfl | with_reducible exact .inr rfl | with_reducible apply And.intro
                | with_reducible exact clk_same rfl rfl rfl | with_reducible exact ⟨le_rfl, fun h => h⟩ | with_reducible exact fun h => h
                | with_reducible exact Keeps.refl _ | with_reducible refine (State.finish_keeps ..).after ?_ rfl
                | (with_reducible refine Keeps.mk' ?_ ?_ ?_ ?_ ?_ ?_ ?_ ?_)

theorem State.setKind_keeps (s : State) (serial : Nat) (k : StartedKind) : Keeps 0x200 s (State.setKind s serial k) := by
  unfold State.setKind
  try simp -proj -iota -beta -eta only []
  repeat' first | exact .inl rfl | with_reducible exact .inr rfl | with_reducible apply And.intro
                | with_reducible exact clk_same rfl rfl rfl | with_reducible exact ⟨le_rfl, fun h => h⟩ | with_reducible exact fun h => h
                | with_reducible exact Keeps.refl _ | (with_reducible refine Keeps.mk' ?_ ?_ ?_ ?_ ?_ ?_ ?_ ?_)

theorem State.setHbmByte_keeps (s : State) (a : Nat) (v : Byte) : Keeps 0xc00 s (State.setHbmByte s a v) := by
  unfold State.setHbmByte
  try simp -proj -iota -beta -eta only []
  repeat' first | exact .inl rfl | with_reducible exact .inr rfl | with_reducible apply And.intro
                | with_reducible exact clk_same rfl rfl rfl | with_reducible exact ⟨le_rfl, fun h => h⟩ | with_reducible exact fun h => h
                | with_reducible exact hbm_set | with_reducible exact Keeps.refl _
                | (with_reducible refine Keeps.mk' ?_ ?_ ?_ ?_ ?_ ?_ ?_ ?_)

theorem State.putBytes_keeps (s : State) (a : Nat) (l : List Byte) : Keeps 0xc00 s (s.putBytes a l) := by
  induction l generalizing s a with
  | nil => exact Keeps.refl _
  | cons b l ih => exact (ih _ _).after (State.setHbmByte_keeps _ _ _) rfl

theorem State.touchPc_keeps (s : State) (line : Nat) : Keeps 0x804 s (State.touchPc s line) := by
  unfold State.touchPc
  try simp -proj -iota -beta -eta only []
  repeat' first | exact .inl rfl | with_reducible exact .inr rfl | with_reducible apply And.intro
                | with_reducible exact clk_same rfl rfl rfl | with_reducible exact ⟨le_rfl, fun h => h⟩ | with_reducible exact fun h => h
                | with_reducible exact Keeps.refl _ | with_reducible refine (State.bumpMem_keeps ..).after ?_ rfl | split
                | (with_reducible refine Keeps.mk' ?_ ?_ ?_ ?_ ?_ ?_ ?_ ?_)

theorem State.touchLine_keeps (s : State) (write : Bool) (line : Nat) : Keeps 0x20804 s (State.touchLine s write line) := by
  unfold State.touchLine
  try simp -proj -iota -beta -eta only []
  repeat' first | with_reducible exact Keeps.refl _ | with_reducible refine (State.emit_keeps ..).after ?_ rfl
                | with_reducible refine (State.bumpMem_keeps ..).after ?_ rfl | with_reducible refine (State.touchPc_keeps ..).after ?_ rfl
                | with_reducible refine Keeps.ite (fun _ => ?_) (fun _ => ?_)

theorem State.ceSite_keeps (s : State) (k st n : Nat) : Keeps 0x40 s (State.ceSite s k st n) := by
  unfold State.ceSite
  try simp -proj -iota -beta -eta only []
  repeat' first | exact .inl rfl | with_reducible exact .inr rfl | with_reducible apply And.intro
                | with_reducible exact clk_same rfl rfl rfl | with_reducible exact ⟨le_rfl, fun h => h⟩ | with_reducible exact fun h => h
                | with_reducible exact Keeps.refl _ | with_reducible refine Keeps.ite (fun _ => ?_) (fun _ => ?_)
                | (with_reducible refine Keeps.mk' ?_ ?_ ?_ ?_ ?_ ?_ ?_ ?_)

theorem State.ceMill_keeps (s : State) (m n : Nat) : Keeps 0x40 s (State.ceMill s m n) := by
  unfold State.ceMill
  try simp -proj -iota -beta -eta only []
  repeat' first | exact .inl rfl | with_reducible exact .inr rfl | with_reducible apply And.intro
                | with_reducible exact clk_same rfl rfl rfl | with_reducible exact ⟨le_rfl, fun h => h⟩ | with_reducible exact fun h => h
                | with_reducible exact Keeps.refl _ | (with_reducible refine Keeps.mk' ?_ ?_ ?_ ?_ ?_ ?_ ?_ ?_)

theorem State.correct_keeps (s : State) (line : Nat) : Keeps 0x20844 s (State.correct s line) := by
  unfold State.correct
  try simp -proj -iota -beta -eta only []
  repeat' first | with_reducible exact Keeps.refl _ | with_reducible refine (State.bumpMem_keeps ..).after ?_ rfl
                | with_reducible refine (State.touchLine_keeps ..).after ?_ rfl | with_reducible refine (State.ceMill_keeps ..).after ?_ rfl

theorem State.hbmRead_keeps (s : State) (a n : Nat) : Keeps 0x20804 s (State.hbmRead s a n) := by
  unfold State.hbmRead
  try simp -proj -iota -beta -eta only []
  repeat' first | with_reducible exact Keeps.refl _ | with_reducible refine (State.touchLine_keeps ..).after ?_ rfl
                | with_reducible refine Keeps.foldl _ _ _ _ (fun s x => ?_) ?_

theorem State.hbmWrite_keeps (s : State) (a : Nat) (bs : List Byte) : Keeps 0x20c04 s (State.hbmWrite s a bs) := by
  unfold State.hbmWrite
  try simp -proj -iota -beta -eta only []
  repeat' first | exact .inl rfl | with_reducible exact .inr rfl | with_reducible apply And.intro
                | with_reducible exact clk_same rfl rfl rfl | with_reducible exact ⟨le_rfl, fun h => h⟩ | with_reducible exact fun h => h
                | with_reducible exact Keeps.refl _ | with_reducible refine (State.putBytes_keeps ..).after ?_ rfl
                | with_reducible refine (State.touchLine_keeps ..).after ?_ rfl
                | with_reducible refine Keeps.foldl _ _ _ _ (fun s x => ?_) ?_ | (with_reducible refine Keeps.mk' ?_ ?_ ?_ ?_ ?_ ?_ ?_ ?_)

theorem State.touchGran_keeps (s : State) (first n : Nat) : Keeps 0x20804 s (State.touchGran s first n) := by
  unfold State.touchGran
  try simp -proj -iota -beta -eta only []
  repeat' first | with_reducible exact Keeps.refl _ | with_reducible refine (State.bumpMem_keeps ..).after ?_ rfl
                | with_reducible refine (State.touchPc_keeps ..).after ?_ rfl
                | with_reducible refine (State.touchLine_keeps ..).after ?_ rfl
                | with_reducible refine Keeps.ite (fun _ => ?_) (fun _ => ?_) | with_reducible refine Keeps.foldl _ _ _ _ (fun s x => ?_) ?_

theorem State.touchSpan_keeps (s : State) (a n : Nat) : Keeps 0x20804 s (State.touchSpan s a n) := by
  unfold State.touchSpan
  try simp -proj -iota -beta -eta only []
  repeat' first | with_reducible exact Keeps.refl _ | with_reducible assumption
                | with_reducible refine (State.touchGran_keeps ..).after ?_ rfl
                | with_reducible refine Keeps.ite (fun _ => ?_) (fun _ => ?_) | with_reducible refine Keeps.foldl _ _ _ _ (fun s x => ?_) ?_
                | with_reducible refine Keeps.foldlP _ _ _ _ (fun _ _ => ?_) ?_ | with_reducible refine Keeps.getD' ?_ ?_ | split

theorem State.touchBlocks_keeps (s : State) (lo hi : Nat) : Keeps 0x20804 s (State.touchBlocks s lo hi) := by
  unfold State.touchBlocks
  try simp -proj -iota -beta -eta only []
  repeat' first | with_reducible exact Keeps.refl _ | with_reducible assumption
                | with_reducible refine (State.bumpMem_keeps ..).after ?_ rfl | with_reducible refine (State.touchPc_keeps ..).after ?_ rfl
                | with_reducible refine (State.touchSpan_keeps ..).after ?_ rfl
                | with_reducible refine Keeps.ite (fun _ => ?_) (fun _ => ?_) | with_reducible refine Keeps.foldl _ _ _ _ (fun s x => ?_) ?_
                | with_reducible refine Keeps.foldlP _ _ _ _ (fun _ _ => ?_) ?_ | with_reducible refine Keeps.getD' ?_ ?_ | split

theorem State.touchRange_keeps (s : State) (a n : Nat) : Keeps 0x20804 s (State.touchRange s a n) := by
  unfold State.touchRange
  try simp -proj -iota -beta -eta only []
  repeat' first | with_reducible exact Keeps.refl _ | with_reducible assumption
                | with_reducible refine (State.touchSpan_keeps ..).after ?_ rfl
                | with_reducible refine (State.touchBlocks_keeps ..).after ?_ rfl
                | with_reducible refine Keeps.ite (fun _ => ?_) (fun _ => ?_) | with_reducible refine Keeps.foldl _ _ _ _ (fun s x => ?_) ?_
                | with_reducible refine Keeps.foldlP _ _ _ _ (fun _ _ => ?_) ?_ | with_reducible refine Keeps.getD' ?_ ?_ | split

theorem State.hbmZero_keeps (s : State) (a n : Nat) : Keeps 0x20c04 s (State.hbmZero s a n) := by
  unfold State.hbmZero
  try simp -proj -iota -beta -eta only []
  repeat' first | exact .inl rfl | with_reducible exact .inr rfl | with_reducible apply And.intro
                | with_reducible exact clk_same rfl rfl rfl | with_reducible exact ⟨le_rfl, fun h => h⟩ | with_reducible exact fun h => h
                | with_reducible exact hbm_set | with_reducible exact hbm_clear | with_reducible exact hbm_nil
                | with_reducible exact hbm_filter | with_reducible exact Keeps.refl _ | with_reducible assumption
                | with_reducible refine (State.touchRange_keeps ..).after ?_ rfl
                | with_reducible refine Keeps.ite (fun _ => ?_) (fun _ => ?_) | with_reducible refine Keeps.foldl _ _ _ _ (fun s x => ?_) ?_
                | with_reducible refine Keeps.foldlP _ _ _ _ (fun _ _ => ?_) ?_ | with_reducible refine Keeps.getD' ?_ ?_ | split
                | (with_reducible refine Keeps.mk' ?_ ?_ ?_ ?_ ?_ ?_ ?_ ?_) | exact ⟨Nat.le_max_left _ _, fun h => h⟩
                | exact ⟨le_rfl, fun h => (List.length_filter_le _ _).trans h⟩ | exact ⟨le_rfl, fun _ => Nat.zero_le _⟩
                | (rintro ⟨h1, h2, h3⟩; refine ⟨?_, ?_, ?_⟩ <;> first | exact h1 | exact h2 | exact h3 | exact h3 _ ‹_› | exact Nat.zero_le _ | (intro w e; cases e))
                | (refine ⟨le_rfl, fun _ => ?_⟩ <;> simp at * <;> omega) | exact fun h => (List.length_filter_le _ _).trans h
                | exact fun _ => Nat.zero_le _ | (intro _; simp at * <;> omega)

theorem State.orderLost_keeps (s : State) (loc : Nat) (win : OrdKind) (winMaster : Nat) (lose : OrdKind) (loseMaster : Nat) : Keeps 0x20364 s (State.orderLost s loc win winMaster lose loseMaster) := by
  unfold State.orderLost
  try simp -proj -iota -beta -eta only []
  repeat' first | with_reducible exact Keeps.refl _ | with_reducible refine (State.bump_keeps ..).after ?_ rfl
                | with_reducible refine (State.ev_keeps ..).after ?_ rfl

/-! ### Fmt -/

theorem State.setPort_keeps (s : State) (p : Nat) (x : PortState) : Keeps 0x4000 s (State.setPort s p x) := by
  unfold State.setPort
  try simp -proj -iota -beta -eta only []
  repeat' first | exact .inl rfl | with_reducible exact .inr rfl | with_reducible apply And.intro
                | with_reducible exact clk_same rfl rfl rfl | with_reducible exact ⟨le_rfl, fun h => h⟩ | with_reducible exact fun h => h
                | with_reducible exact Keeps.refl _ | (with_reducible refine Keeps.mk' ?_ ?_ ?_ ?_ ?_ ?_ ?_ ?_)

theorem State.bumpPort_keeps (s : State) (p o : Nat) (n : Nat) : Keeps 0x4 s (State.bumpPort s p o n) := by
  unfold State.bumpPort
  try simp -proj -iota -beta -eta only []
  repeat' first | with_reducible exact Keeps.refl _ | with_reducible refine (State.bump_keeps ..).after ?_ rfl

theorem State.bumpFab_keeps (s : State) (o : Nat) (n : Nat) : Keeps 0x4 s (State.bumpFab s o n) := by
  unfold State.bumpFab
  try simp -proj -iota -beta -eta only []
  repeat' first | with_reducible exact Keeps.refl _ | with_reducible refine (State.bump_keeps ..).after ?_ rfl

theorem State.sendFlit_keeps (s : State) (p ftype vc seq : Nat) (payload : List Byte) : Keeps 0x24000 s (State.sendFlit s p ftype vc seq payload) := by
  unfold State.sendFlit
  try simp -proj -iota -beta -eta only []
  repeat' first | with_reducible exact Keeps.refl _ | with_reducible refine (State.emit_keeps ..).after ?_ rfl
                | with_reducible refine (State.setPort_keeps ..).after ?_ rfl

theorem State.pumpFlits_keeps (n : Nat) (s : State) (x0 : Nat) : Keeps 0x24004 s (State.pumpFlits n s x0) := by
  induction n generalizing s x0 with
  | zero => exact Keeps.refl _
  | succ n ih =>
    unfold State.pumpFlits
    try simp -proj -iota -beta -eta only []
    repeat' first | with_reducible exact Keeps.refl _ | with_reducible refine (State.setPort_keeps ..).after ?_ rfl
                  | with_reducible refine (State.bumpPort_keeps ..).after ?_ rfl
                  | with_reducible refine (State.sendFlit_keeps ..).after ?_ rfl | with_reducible refine (ih ..).after ?_ rfl
                  | with_reducible refine Keeps.ite (fun _ => ?_) (fun _ => ?_) | split

theorem State.enqueue_keeps (s : State) (p q : Nat) (f : Frame) : Keeps 0x4000 s (State.enqueue s p q f) := by
  unfold State.enqueue
  try simp -proj -iota -beta -eta only []
  repeat' first | with_reducible exact Keeps.refl _ | with_reducible refine (State.setPort_keeps ..).after ?_ rfl

theorem State.outPort_keeps (s : State) (p : Nat) (mac : Option (List Byte)) (k : Packet) : Keeps 0x24004 s (State.outPort s p mac k) := by
  unfold State.outPort
  try simp -proj -iota -beta -eta only []
  repeat' first | with_reducible exact Keeps.refl _ | with_reducible refine (State.setPort_keeps ..).after ?_ rfl
                | with_reducible refine (State.bumpFab_keeps ..).after ?_ rfl
                | with_reducible refine (State.pumpFlits_keeps ..).after ?_ rfl
                | with_reducible refine (State.enqueue_keeps ..).after ?_ rfl | with_reducible refine Keeps.ite (fun _ => ?_) (fun _ => ?_)
                | split

theorem State.forward_keeps (s : State) (k : Packet) : Keeps 0x24004 s (State.forward s k) := by
  unfold State.forward
  try simp -proj -iota -beta -eta only []
  repeat' first | with_reducible exact Keeps.refl _ | with_reducible refine (State.bumpFab_keeps ..).after ?_ rfl
                | with_reducible refine (State.outPort_keeps ..).after ?_ rfl | with_reducible refine Keeps.ite (fun _ => ?_) (fun _ => ?_)
                | split

theorem State.setTxChan_keeps (s : State) (peer chan : Nat) (c : TxChan) : Keeps 0x4000 s (State.setTxChan s peer chan c) := by
  unfold State.setTxChan
  try simp -proj -iota -beta -eta only []
  repeat' first | exact .inl rfl | with_reducible exact .inr rfl | with_reducible apply And.intro
                | with_reducible exact clk_same rfl rfl rfl | with_reducible exact ⟨le_rfl, fun h => h⟩ | with_reducible exact fun h => h
                | with_reducible exact Keeps.refl _ | (with_reducible refine Keeps.mk' ?_ ?_ ?_ ?_ ?_ ?_ ?_ ?_)

theorem State.pumpChan_keeps (n : Nat) (s : State) (x0 : Nat) (x1 : Nat) : Keeps 0x24004 s (State.pumpChan n s x0 x1) := by
  induction n generalizing s x0 x1 with
  | zero => exact Keeps.refl _
  | succ n ih =>
    unfold State.pumpChan
    try simp -proj -iota -beta -eta only []
    repeat' first | with_reducible exact Keeps.refl _ | with_reducible refine (State.forward_keeps ..).after ?_ rfl
                  | with_reducible refine (State.setTxChan_keeps ..).after ?_ rfl | with_reducible refine (ih ..).after ?_ rfl
                  | with_reducible refine Keeps.ite (fun _ => ?_) (fun _ => ?_) | split

theorem State.sendPacket_keeps (s : State) (k : Packet) : Keeps 0x24004 s (State.sendPacket s k) := by
  unfold State.sendPacket
  try simp -proj -iota -beta -eta only []
  repeat' first | with_reducible exact Keeps.refl _ | with_reducible refine (State.setTxChan_keeps ..).after ?_ rfl
                | with_reducible refine (State.pumpChan_keeps ..).after ?_ rfl

theorem State.sendBar_keeps (s : State) (dst fjob bid kind count npart : Nat) : Keeps 0x24004 s (State.sendBar s dst fjob bid kind count npart) := by
  unfold State.sendBar
  try simp -proj -iota -beta -eta only []
  repeat' first | with_reducible exact Keeps.refl _ | with_reducible refine (State.sendPacket_keeps ..).after ?_ rfl

/-! ### JobStop -/

theorem State.setSluice_keeps (s : State) (c : Nat) (x : Option SluiceCtx) : Keeps 0x2000 s (State.setSluice s c x) := by
  unfold State.setSluice
  try simp -proj -iota -beta -eta only []
  repeat' first | exact .inl rfl | with_reducible exact .inr rfl | with_reducible apply And.intro
                | with_reducible exact clk_same rfl rfl rfl | with_reducible exact ⟨le_rfl, fun h => h⟩ | with_reducible exact fun h => h
                | with_reducible exact Keeps.refl _ | (with_reducible refine Keeps.mk' ?_ ?_ ?_ ?_ ?_ ?_ ?_ ?_)

theorem State.endBarriers_keeps (s : State) (n : Nat) (p : BarrierJob → Bool) (status : Nat) (result : List Byte) : Keeps 0x20304 s (State.endBarriers s n p status result) := by
  unfold State.endBarriers
  try simp -proj -iota -beta -eta only []
  repeat' first | with_reducible exact Keeps.refl _ | with_reducible refine (State.complete_keeps ..).after ?_ rfl
                | with_reducible refine Keeps.ite (fun _ => ?_) (fun _ => ?_) | with_reducible refine Keeps.foldl _ _ _ _ (fun s x => ?_) ?_
                | split

theorem State.abortBarrier_keeps (s : State) (n fjob bid : Nat) (origin : Option Nat) : Keeps 0x26304 s (State.abortBarrier s n fjob bid origin) := by
  unfold State.abortBarrier
  try simp -proj -iota -beta -eta only []
  repeat' first | with_reducible exact Keeps.refl _ | with_reducible refine (State.sendBar_keeps ..).after ?_ rfl
                | with_reducible refine (State.setSluice_keeps ..).after ?_ rfl
                | with_reducible refine (State.endBarriers_keeps ..).after ?_ rfl
                | with_reducible refine Keeps.ite (fun _ => ?_) (fun _ => ?_) | with_reducible refine Keeps.foldl _ _ _ _ (fun s x => ?_) ?_
                | split

theorem State.failBarriers_keeps (s : State) (n : Nat) : Keeps 0x26304 s (State.failBarriers s n) := by
  unfold State.failBarriers
  try simp -proj -iota -beta -eta only []
  repeat' first | with_reducible exact Keeps.refl _ | with_reducible refine (State.endBarriers_keeps ..).after ?_ rfl
                | with_reducible refine (State.abortBarrier_keeps ..).after ?_ rfl
                | with_reducible refine Keeps.foldl _ _ _ _ (fun s x => ?_) ?_

theorem State.stopSlot_keeps (s : State) (n : Fin 8) (code status : Nat) : Keeps 0x27304 s (State.stopSlot s n code status) := by
  unfold State.stopSlot
  try simp -proj -iota -beta -eta only []
  repeat' first | with_reducible exact Keeps.refl _ | with_reducible refine (State.bump_keeps ..).after ?_ rfl
                | with_reducible refine (State.setSlot_keeps ..).after ?_ rfl
                | with_reducible refine (State.failBarriers_keeps ..).after ?_ rfl
                | with_reducible refine Keeps.ite (fun _ => ?_) (fun _ => ?_)

theorem State.jobFaultWith_keeps (s : State) (n : Fin 8) (code status : Nat) (payload : List Byte) : Keeps 0x27364 s (State.jobFaultWith s n code status payload) := by
  unfold State.jobFaultWith
  try simp -proj -iota -beta -eta only []
  repeat' first | with_reducible exact Keeps.refl _ | with_reducible refine (State.raise_keeps ..).after ?_ rfl
                | with_reducible refine (State.stopSlot_keeps ..).after ?_ rfl

theorem State.jobFault_keeps (s : State) (n : Fin 8) (code loc sub arg0 arg1 arg2 : Nat) : Keeps 0x27364 s (State.jobFault s n code loc sub arg0 arg1 arg2) := by
  unfold State.jobFault
  try simp -proj -iota -beta -eta only []
  repeat' first | with_reducible exact Keeps.refl _ | with_reducible refine (State.jobFaultWith_keeps ..).after ?_ rfl

theorem State.hbmUe_keeps (s : State) (line src : Nat) : Keeps 0x27b64 s (State.hbmUe s line src) := by
  unfold State.hbmUe
  try simp -proj -iota -beta -eta only []
  repeat' first | exact .inl rfl | with_reducible exact .inr rfl | with_reducible apply And.intro
                | with_reducible exact clk_same rfl rfl rfl | with_reducible exact ⟨le_rfl, fun h => h⟩ | with_reducible exact fun h => h
                | with_reducible exact Keeps.refl _ | with_reducible refine (State.bumpMem_keeps ..).after ?_ rfl
                | with_reducible refine (State.raise_keeps ..).after ?_ rfl | with_reducible refine (State.jobFault_keeps ..).after ?_ rfl
                | split | (with_reducible refine Keeps.mk' ?_ ?_ ?_ ?_ ?_ ?_ ?_ ?_)

theorem State.sealStop_keeps (s : State) (n region a : Nat) : Keeps 0x27364 s (State.sealStop s n region a) := by
  unfold State.sealStop
  try simp -proj -iota -beta -eta only []
  repeat' first | with_reducible exact Keeps.refl _ | with_reducible refine (State.jobFault_keeps ..).after ?_ rfl

theorem State.plantUe_keeps (s : State) (ls : List Nat) : Keeps 0x800 s (State.plantUe s ls) := by
  unfold State.plantUe
  try simp -proj -iota -beta -eta only []
  repeat' first | exact .inl rfl | with_reducible exact .inr rfl | with_reducible apply And.intro
                | with_reducible exact clk_same rfl rfl rfl | with_reducible exact ⟨le_rfl, fun h => h⟩ | with_reducible exact fun h => h
                | with_reducible exact Keeps.refl _ | (with_reducible refine Keeps.mk' ?_ ?_ ?_ ?_ ?_ ?_ ?_ ?_)

theorem State.foundErrors_keeps (s : State) (e : HbmErrors) : Keeps 0x20844 s (State.foundErrors s e) := by
  unfold State.foundErrors
  try simp -proj -iota -beta -eta only []
  repeat' first | with_reducible exact Keeps.refl _ | with_reducible refine (State.correct_keeps ..).after ?_ rfl
                | with_reducible refine (State.plantUe_keeps ..).after ?_ rfl | with_reducible refine Keeps.foldl _ _ _ _ (fun s x => ?_) ?_

theorem State.hbmStore_keeps (s : State) (a : Nat) (bs : List Byte) : Keeps 0x27f64 s (State.hbmStore s a bs) := by
  unfold State.hbmStore
  try simp -proj -iota -beta -eta only []
  repeat' first | with_reducible exact Keeps.refl _ | with_reducible refine (State.hbmWrite_keeps ..).after ?_ rfl
                | with_reducible refine (State.hbmUe_keeps ..).after ?_ rfl | split

/-! ### Tokens -/

theorem State.setRun_keeps (s : State) (dev : Nat) (r : StationRun) : Keeps 0x2000 s (State.setRun s dev r) := by
  unfold State.setRun
  try simp -proj -iota -beta -eta only []
  repeat' first | exact .inl rfl | with_reducible exact .inr rfl | with_reducible apply And.intro
                | with_reducible exact clk_same rfl rfl rfl | with_reducible exact ⟨le_rfl, fun h => h⟩ | with_reducible exact fun h => h
                | with_reducible exact Keeps.refl _ | (with_reducible refine Keeps.mk' ?_ ?_ ?_ ?_ ?_ ?_ ?_ ?_)

theorem State.bumpSite_keeps (s : State) (site o : Nat) (n : Nat) : Keeps 0x4 s (State.bumpSite s site o n) := by
  unfold State.bumpSite
  try simp -proj -iota -beta -eta only []
  repeat' first | with_reducible exact Keeps.refl _ | with_reducible refine (State.bump_keeps ..).after ?_ rfl
                | with_reducible refine Keeps.ite (fun _ => ?_) (fun _ => ?_)

theorem State.bumpCtx_keeps (s : State) (site ctx o : Nat) (n : Nat) : Keeps 0x4 s (State.bumpCtx s site ctx o n) := by
  unfold State.bumpCtx
  try simp -proj -iota -beta -eta only []
  repeat' first | with_reducible exact Keeps.refl _ | with_reducible refine (State.bumpSite_keeps ..).after ?_ rfl

theorem State.setRng_keeps (s : State) (site ring : Nat) (r : Option RingRun) : Keeps 0x2000 s (State.setRng s site ring r) := by
  unfold State.setRng
  try simp -proj -iota -beta -eta only []
  repeat' first | exact .inl rfl | with_reducible exact .inr rfl | with_reducible apply And.intro
                | with_reducible exact clk_same rfl rfl rfl | with_reducible exact ⟨le_rfl, fun h => h⟩ | with_reducible exact fun h => h
                | with_reducible exact Keeps.refl _ | (with_reducible refine Keeps.mk' ?_ ?_ ?_ ?_ ?_ ?_ ?_ ?_)

theorem State.setScratchByte_keeps (s : State) (k a : Nat) (v : Byte) : Keeps 0x2000 s (State.setScratchByte s k a v) := by
  unfold State.setScratchByte
  try simp -proj -iota -beta -eta only []
  repeat' first | exact .inl rfl | with_reducible exact .inr rfl | with_reducible apply And.intro
                | with_reducible exact clk_same rfl rfl rfl | with_reducible exact ⟨le_rfl, fun h => h⟩ | with_reducible exact fun h => h
                | with_reducible exact Keeps.refl _ | (with_reducible refine Keeps.mk' ?_ ?_ ?_ ?_ ?_ ?_ ?_ ?_)

theorem State.putScratch_keeps (s : State) (k a : Nat) (l : List Byte) : Keeps 0x2000 s (s.putScratch k a l) := by
  induction l generalizing s a with
  | nil => exact Keeps.refl _
  | cons b l ih => exact (ih _ _).after (State.setScratchByte_keeps _ _ _ _) rfl

theorem State.setBank_keeps (s : State) (site b : Nat) (x : BankState) : Keeps 0x2000 s (State.setBank s site b x) := by
  unfold State.setBank
  try simp -proj -iota -beta -eta only []
  repeat' first | exact .inl rfl | with_reducible exact .inr rfl | with_reducible apply And.intro
                | with_reducible exact clk_same rfl rfl rfl | with_reducible exact ⟨le_rfl, fun h => h⟩ | with_reducible exact fun h => h
                | with_reducible exact Keeps.refl _ | (with_reducible refine Keeps.mk' ?_ ?_ ?_ ?_ ?_ ?_ ?_ ?_)

theorem State.accessBank_keeps (s : State) (site b : Nat) : Keeps 0x2004 s (State.accessBank s site b).1 := by
  unfold State.accessBank
  try simp -proj -iota -beta -eta only []
  repeat' first | exact .inl rfl | with_reducible exact .inr rfl | with_reducible apply And.intro
                | with_reducible exact clk_same rfl rfl rfl | with_reducible exact ⟨le_rfl, fun h => h⟩ | with_reducible exact fun h => h
                | with_reducible exact Keeps.refl _ | with_reducible refine (State.bumpSite_keeps ..).after ?_ rfl
                | with_reducible refine (State.setBank_keeps ..).after ?_ rfl | split
                | (with_reducible refine Keeps.mk' ?_ ?_ ?_ ?_ ?_ ?_ ?_ ?_)

theorem State.accessBanks_keeps (s : State) (site : Nat) (bs : List Nat) : Keeps 0x2004 s (State.accessBanks s site bs).1 := by
  unfold State.accessBanks
  try simp -proj -iota -beta -eta only []
  repeat' first | with_reducible exact Keeps.refl _ | with_reducible refine (State.accessBank_keeps ..).after ?_ rfl
                | with_reducible refine Keeps.foldlP _ _ _ _ (fun _ _ => ?_) ?_

theorem State.setStore_keeps (s : State) (site ctx : Nat) (m : MatchStore) : Keeps 0x2000 s (State.setStore s site ctx m) := by
  unfold State.setStore
  try simp -proj -iota -beta -eta only []
  repeat' first | exact .inl rfl | with_reducible exact .inr rfl | with_reducible apply And.intro
                | with_reducible exact clk_same rfl rfl rfl | with_reducible exact ⟨le_rfl, fun h => h⟩ | with_reducible exact fun h => h
                | with_reducible exact Keeps.refl _ | (with_reducible refine Keeps.mk' ?_ ?_ ?_ ?_ ?_ ?_ ?_ ?_)

theorem State.indexOne_keeps (s : State) (r : StRef) : OKeeps 0x2000 s (State.indexOne s r) := by
  unfold State.indexOne
  try simp -proj -iota -beta -eta only []
  repeat' first | exact .inl rfl | with_reducible exact .inr rfl | with_reducible apply And.intro
                | with_reducible exact clk_same rfl rfl rfl | with_reducible exact ⟨le_rfl, fun h => h⟩ | with_reducible exact fun h => h
                | with_reducible exact Keeps.refl _ | with_reducible refine (State.setRng_keeps ..).after ?_ rfl
                | with_reducible refine (State.setStore_keeps ..).after ?_ rfl | with_reducible exact OKeeps.none
                | with_reducible refine OKeeps.map (fun _ => ?_) | split | (with_reducible refine Keeps.mk' ?_ ?_ ?_ ?_ ?_ ?_ ?_ ?_)

theorem State.indexAll_keeps (n : Nat) (s : State) (x0 : StRef) : Keeps 0x2000 s (State.indexAll n s x0) := by
  induction n generalizing s x0 with
  | zero => exact Keeps.refl _
  | succ n ih =>
    unfold State.indexAll
    try simp -proj -iota -beta -eta only []
    repeat' first | with_reducible exact Keeps.refl _ | (with_reducible refine ((State.indexOne_keeps ..).get (by assumption)).after ?_ rfl)
                  | with_reducible refine (ih ..).after ?_ rfl | split

theorem State.intoRing_keeps (s : State) (site ring : Nat) (g : RingRun) (slots : Nat) (t : Token) : OKeeps 0x2000 s (State.intoRing s site ring g slots t) := by
  unfold State.intoRing
  try simp -proj -iota -beta -eta only []
  repeat' first | exact .inl rfl | with_reducible exact .inr rfl | with_reducible apply And.intro
                | with_reducible exact clk_same rfl rfl rfl | with_reducible exact ⟨le_rfl, fun h => h⟩ | with_reducible exact fun h => h
                | with_reducible exact Keeps.refl _ | with_reducible refine (State.setRng_keeps ..).after ?_ rfl
                | with_reducible refine OKeeps.map (fun _ => ?_) | (with_reducible refine Keeps.mk' ?_ ?_ ?_ ?_ ?_ ?_ ?_ ?_)

theorem State.writeSpill_keeps (s : State) (site q line : Nat) (t : Token) : Keeps 0x2004 s (State.writeSpill s site q line t) := by
  unfold State.writeSpill
  try simp -proj -iota -beta -eta only []
  repeat' first | exact .inl rfl | with_reducible exact .inr rfl | with_reducible apply And.intro
                | with_reducible exact clk_same rfl rfl rfl | with_reducible exact ⟨le_rfl, fun h => h⟩ | with_reducible exact fun h => h
                | with_reducible exact Keeps.refl _ | with_reducible refine (State.bumpSite_keeps ..).after ?_ rfl
                | with_reducible refine (State.putScratch_keeps ..).after ?_ rfl
                | with_reducible refine Keeps.foldl _ _ _ _ (fun s x => ?_) ?_ | (with_reducible refine Keeps.mk' ?_ ?_ ?_ ?_ ?_ ?_ ?_ ?_)

theorem State.intoSpill_keeps (s : State) (site ring : Nat) (g : RingRun) (t : Tmpl) (k : Token) : OKeeps 0x2004 s (State.intoSpill s site ring g t k) := by
  unfold State.intoSpill
  try simp -proj -iota -beta -eta only []
  repeat' first | exact .inl rfl | with_reducible exact .inr rfl | with_reducible apply And.intro
                | with_reducible exact clk_same rfl rfl rfl | with_reducible exact ⟨le_rfl, fun h => h⟩ | with_reducible exact fun h => h
                | with_reducible exact Keeps.refl _ | with_reducible refine (State.bumpSite_keeps ..).after ?_ rfl
                | with_reducible refine (State.setRng_keeps ..).after ?_ rfl
                | with_reducible refine (State.writeSpill_keeps ..).after ?_ rfl
                | with_reducible refine OKeeps.ite (fun _ => ?_) (fun _ => ?_) | with_reducible exact OKeeps.none
                | with_reducible refine OKeeps.some ?_ | (with_reducible refine Keeps.mk' ?_ ?_ ?_ ?_ ?_ ?_ ?_ ?_)

theorem State.releaseTok_keeps (s : State) (r : StRef) (ip : InPort) (order : Nat) : Keeps 0x2000 s (State.releaseTok s r ip order) := by
  unfold State.releaseTok
  try simp -proj -iota -beta -eta only []
  repeat' first | with_reducible exact Keeps.refl _ | with_reducible refine (State.setRng_keeps ..).after ?_ rfl
                | with_reducible refine (State.setStore_keeps ..).after ?_ rfl
                | with_reducible refine (State.indexAll_keeps ..).after ?_ rfl | with_reducible refine Keeps.ite (fun _ => ?_) (fun _ => ?_)
                | split

theorem State.useTok_keeps (s : State) (r : StRef) (ip : InPort) (order : Nat) : Keeps 0x2000 s (State.useTok s r ip order) := by
  unfold State.useTok
  try simp -proj -iota -beta -eta only []
  repeat' first | with_reducible exact Keeps.refl _ | with_reducible refine (State.setRng_keeps ..).after ?_ rfl
                | with_reducible refine (State.releaseTok_keeps ..).after ?_ rfl
                | with_reducible refine Keeps.ite (fun _ => ?_) (fun _ => ?_) | split

theorem State.send_keeps (s : State) (slot : Nat) (src : Option (Nat × Nat)) (site ring : Nat) (k : Token) : Keeps 0x2000 s (State.send s slot src site ring k) := by
  unfold State.send
  try simp -proj -iota -beta -eta only []
  repeat' first | exact .inl rfl | with_reducible exact .inr rfl | with_reducible apply And.intro
                | with_reducible exact clk_same rfl rfl rfl | with_reducible exact ⟨le_rfl, fun h => h⟩ | with_reducible exact fun h => h
                | with_reducible exact Keeps.refl _ | with_reducible refine (State.setRng_keeps ..).after ?_ rfl | split
                | (with_reducible refine Keeps.mk' ?_ ?_ ?_ ?_ ?_ ?_ ?_ ?_)

theorem State.output_keeps (s : State) (r : StRef) (q : Nat) (k : Token) : Keeps 0x2000 s (State.output s r q k) := by
  unfold State.output
  try simp -proj -iota -beta -eta only []
  repeat' first | with_reducible exact Keeps.refl _ | with_reducible refine (State.setRun_keeps ..).after ?_ rfl
                | with_reducible refine (State.send_keeps ..).after ?_ rfl | with_reducible refine Keeps.ite (fun _ => ?_) (fun _ => ?_)
                | split

theorem State.pumpPort_keeps (s : State) (r : StRef) (site ring : Nat) : Keeps 0x2000 s (State.pumpPort s r site ring) := by
  unfold State.pumpPort
  try simp -proj -iota -beta -eta only []
  repeat' first | with_reducible exact Keeps.refl _ | with_reducible refine (State.setRun_keeps ..).after ?_ rfl
                | with_reducible refine (State.send_keeps ..).after ?_ rfl | with_reducible refine Keeps.ite (fun _ => ?_) (fun _ => ?_)
                | with_reducible refine Keeps.foldl _ _ _ _ (fun s x => ?_) ?_ | split

theorem State.pump_keeps (s : State) (site ring : Nat) : Keeps 0x2000 s (State.pump s site ring) := by
  unfold State.pump
  try simp -proj -iota -beta -eta only []
  repeat' first | with_reducible exact Keeps.refl _ | with_reducible refine (State.pumpPort_keeps ..).after ?_ rfl
                | with_reducible refine Keeps.ite (fun _ => ?_) (fun _ => ?_) | with_reducible refine Keeps.foldl _ _ _ _ (fun s x => ?_) ?_
                | split

theorem State.pumpSpills_keeps (s : State) (site : Nat) : Keeps 0x2000 s (State.pumpSpills s site) := by
  unfold State.pumpSpills
  try simp -proj -iota -beta -eta only []
  repeat' first | with_reducible exact Keeps.refl _ | with_reducible refine (State.pump_keeps ..).after ?_ rfl
                | with_reducible refine Keeps.ite (fun _ => ?_) (fun _ => ?_) | with_reducible refine Keeps.foldl _ _ _ _ (fun s x => ?_) ?_
                | split

theorem State.outputAll_keeps (s : State) (r : StRef) (e : Entry) (t count : Nat) (pay : Payload) (step : Option Nat) (cols : Nat) : Keeps 0x2000 s (State.outputAll s r e t count pay step cols) := by
  unfold State.outputAll
  try simp -proj -iota -beta -eta only []
  repeat' first | with_reducible exact Keeps.refl _ | with_reducible refine (State.output_keeps ..).after ?_ rfl
                | with_reducible refine Keeps.foldl _ _ _ _ (fun s x => ?_) ?_ | split

theorem State.progress_keeps (s : State) (n : Nat) : Keeps 0x1004 s (State.progress s n) := by
  unfold State.progress
  try simp -proj -iota -beta -eta only []
  repeat' first | exact .inl rfl | with_reducible exact .inr rfl | with_reducible apply And.intro
                | with_reducible exact clk_same rfl rfl rfl | with_reducible exact ⟨le_rfl, fun h => h⟩ | with_reducible exact fun h => h
                | with_reducible exact Keeps.refl _ | with_reducible refine (State.setSlot_keeps ..).after ?_ rfl
                | with_reducible refine Keeps.ite (fun _ => ?_) (fun _ => ?_) | (with_reducible refine Keeps.mk' ?_ ?_ ?_ ?_ ?_ ?_ ?_ ?_)

/-! ### Match -/

theorem State.setArr_keeps (s : State) (site a : Nat) (x : ArrayRun) : Keeps 0x2000 s (State.setArr s site a x) := by
  unfold State.setArr
  try simp -proj -iota -beta -eta only []
  repeat' first | exact .inl rfl | with_reducible exact .inr rfl | with_reducible apply And.intro
                | with_reducible exact clk_same rfl rfl rfl | with_reducible exact ⟨le_rfl, fun h => h⟩ | with_reducible exact fun h => h
                | with_reducible exact Keeps.refl _ | (with_reducible refine Keeps.mk' ?_ ?_ ?_ ?_ ?_ ?_ ?_ ?_)

theorem State.setPanel_keeps (s : State) (site ctx reg : Nat) (x : PanelRun) : Keeps 0x2000 s (State.setPanel s site ctx reg x) := by
  unfold State.setPanel
  try simp -proj -iota -beta -eta only []
  repeat' first | exact .inl rfl | with_reducible exact .inr rfl | with_reducible apply And.intro
                | with_reducible exact clk_same rfl rfl rfl | with_reducible exact ⟨le_rfl, fun h => h⟩ | with_reducible exact fun h => h
                | with_reducible exact Keeps.refl _ | (with_reducible refine Keeps.mk' ?_ ?_ ?_ ?_ ?_ ?_ ?_ ?_)

theorem State.countCtx_keeps (s : State) (r : StRef) (n : Nat) : Keeps 0x4 s (State.countCtx s r n) := by
  unfold State.countCtx
  try simp -proj -iota -beta -eta only []
  repeat' first | with_reducible exact Keeps.refl _ | with_reducible refine (State.bumpCtx_keeps ..).after ?_ rfl

/-! ### MillOps -/

theorem State.setTails_keeps (s : State) (m : Nat) (ts : List (Nat × Tail)) : Keeps 0x2000 s (State.setTails s m ts) := by
  unfold State.setTails
  try simp -proj -iota -beta -eta only []
  repeat' first | exact .inl rfl | with_reducible exact .inr rfl | with_reducible apply And.intro
                | with_reducible exact clk_same rfl rfl rfl | with_reducible exact ⟨le_rfl, fun h => h⟩ | with_reducible exact fun h => h
                | with_reducible exact Keeps.refl _ | (with_reducible refine Keeps.mk' ?_ ?_ ?_ ?_ ?_ ?_ ?_ ?_)

theorem State.bumpMill_keeps (s : State) (m o : Nat) (n : Nat) : Keeps 0x4 s (State.bumpMill s m o n) := by
  unfold State.bumpMill
  try simp -proj -iota -beta -eta only []
  repeat' first | with_reducible exact Keeps.refl _ | with_reducible refine (State.bump_keeps ..).after ?_ rfl

theorem State.closeTail_keeps (s : State) (a : Nat) (t : Tail) : Keeps 0x22c04 s (State.closeTail s a t) := by
  unfold State.closeTail
  try simp -proj -iota -beta -eta only []
  repeat' first | with_reducible exact Keeps.refl _ | with_reducible refine (State.hbmWrite_keeps ..).after ?_ rfl
                | with_reducible refine (State.setTails_keeps ..).after ?_ rfl

theorem State.keepTail_keeps (s : State) (a : Nat) (t : Tail) : Keeps 0x22c04 s (State.keepTail s a t) := by
  unfold State.keepTail
  try simp -proj -iota -beta -eta only []
  repeat' first | with_reducible exact Keeps.refl _ | with_reducible refine (State.setTails_keeps ..).after ?_ rfl
                | with_reducible refine (State.bumpMill_keeps ..).after ?_ rfl
                | with_reducible refine (State.closeTail_keeps ..).after ?_ rfl
                | with_reducible refine Keeps.ite (fun _ => ?_) (fun _ => ?_) | split

theorem State.flushTails_keeps (s : State) (n : Nat) : Keeps 0x22c04 s (State.flushTails s n) := by
  unfold State.flushTails
  try simp -proj -iota -beta -eta only []
  repeat' first | with_reducible exact Keeps.refl _ | with_reducible refine (State.closeTail_keeps ..).after ?_ rfl
                | with_reducible refine Keeps.foldl _ _ _ _ (fun s x => ?_) ?_

theorem State.canaryClose_keeps (s : State) (c : Canary) (d : OutConv) (station : Nat) (slot : Fin 8) (tensor : Nat) : Keeps 0x20364 s (State.canaryClose s c d station slot tensor).1 := by
  unfold State.canaryClose
  try simp -proj -iota -beta -eta only []
  repeat' first | with_reducible exact Keeps.refl _ | with_reducible refine (State.raise_keeps ..).after ?_ rfl
                | with_reducible refine Keeps.ite (fun _ => ?_) (fun _ => ?_) | with_reducible refine Keeps.foldl _ _ _ _ (fun s x => ?_) ?_

/-! ### FlowOps -/

theorem State.releaseWindows_keeps (s : State) (n site : Nat) : Keeps 0x2001 s (State.releaseWindows s n site) := by
  unfold State.releaseWindows
  try simp -proj -iota -beta -eta only []
  repeat' first | exact .inl rfl | with_reducible exact .inr rfl | with_reducible apply And.intro
                | with_reducible exact clk_same rfl rfl rfl | with_reducible exact ⟨le_rfl, fun h => h⟩ | with_reducible exact fun h => h
                | with_reducible exact Keeps.refl _ | with_reducible refine (State.setRf_keeps ..).after ?_ rfl
                | with_reducible refine Keeps.ite (fun _ => ?_) (fun _ => ?_) | with_reducible refine Keeps.foldl _ _ _ _ (fun s x => ?_) ?_
                | (with_reducible refine Keeps.mk' ?_ ?_ ?_ ?_ ?_ ?_ ?_ ?_)

theorem State.releaseCtx_keeps (s : State) (r : StRef) : Keeps 0x2001 s (State.releaseCtx s r) := by
  unfold State.releaseCtx
  try simp -proj -iota -beta -eta only []
  repeat' first | exact .inl rfl | with_reducible exact .inr rfl | with_reducible apply And.intro
                | with_reducible exact clk_same rfl rfl rfl | with_reducible exact ⟨le_rfl, fun h => h⟩ | with_reducible exact fun h => h
                | with_reducible exact Keeps.refl _ | with_reducible refine (State.setRf_keeps ..).after ?_ rfl
                | with_reducible refine (State.setRun_keeps ..).after ?_ rfl | with_reducible refine (State.setRng_keeps ..).after ?_ rfl
                | with_reducible refine (State.setStore_keeps ..).after ?_ rfl | with_reducible refine (State.setArr_keeps ..).after ?_ rfl
                | with_reducible refine (State.setPanel_keeps ..).after ?_ rfl | with_reducible refine Keeps.ite (fun _ => ?_) (fun _ => ?_)
                | with_reducible refine Keeps.foldl _ _ _ _ (fun s x => ?_) ?_ | split
                | (with_reducible refine Keeps.mk' ?_ ?_ ?_ ?_ ?_ ?_ ?_ ?_)

theorem State.sendLease_keeps (s : State) (dst fjob rslot op layer shard version : Nat) : Keeps 0x24004 s (State.sendLease s dst fjob rslot op layer shard version) := by
  unfold State.sendLease
  try simp -proj -iota -beta -eta only []
  repeat' first | with_reducible exact Keeps.refl _ | with_reducible refine (State.sendPacket_keeps ..).after ?_ rfl

theorem State.closeLease_keeps (s : State) (p : Lease → Bool) : Keeps 0x2000 s (State.closeLease s p) := by
  unfold State.closeLease
  try simp -proj -iota -beta -eta only []
  repeat' first | exact .inl rfl | with_reducible exact .inr rfl | with_reducible apply And.intro
                | with_reducible exact clk_same rfl rfl rfl | with_reducible exact ⟨le_rfl, fun h => h⟩ | with_reducible exact fun h => h
                | with_reducible exact Keeps.refl _ | (with_reducible refine Keeps.mk' ?_ ?_ ?_ ?_ ?_ ?_ ?_ ?_)

theorem State.tellClose_keeps (s : State) (r : Retained) : Keeps 0x26004 s (State.tellClose s r) := by
  unfold State.tellClose
  try simp -proj -iota -beta -eta only []
  repeat' first | with_reducible exact Keeps.refl _ | with_reducible refine (State.sendLease_keeps ..).after ?_ rfl
                | with_reducible refine (State.closeLease_keeps ..).after ?_ rfl
                | with_reducible refine Keeps.ite (fun _ => ?_) (fun _ => ?_) | split

theorem State.closeRetained_keeps (s : State) (p : Retained → Bool) : Keeps 0x26004 s (State.closeRetained s p) := by
  unfold State.closeRetained
  try simp -proj -iota -beta -eta only []
  repeat' first | exact .inl rfl | with_reducible exact .inr rfl | with_reducible apply And.intro
                | with_reducible exact clk_same rfl rfl rfl | with_reducible exact ⟨le_rfl, fun h => h⟩ | with_reducible exact fun h => h
                | with_reducible exact Keeps.refl _ | with_reducible refine (State.tellClose_keeps ..).after ?_ rfl
                | with_reducible refine Keeps.foldl _ _ _ _ (fun s x => ?_) ?_ | (with_reducible refine Keeps.mk' ?_ ?_ ?_ ?_ ?_ ?_ ?_ ?_)

theorem State.releaseSlot_keeps (s : State) (n : Nat) : Keeps 0x27f05 s (State.releaseSlot s n) := by
  unfold State.releaseSlot
  try simp -proj -iota -beta -eta only []
  repeat' first | exact .inl rfl | with_reducible exact .inr rfl | with_reducible apply And.intro
                | with_reducible exact clk_same rfl rfl rfl | with_reducible exact ⟨le_rfl, fun h => h⟩ | with_reducible exact fun h => h
                | with_reducible exact Keeps.refl _ | with_reducible refine (State.setSlot_keeps ..).after ?_ rfl
                | with_reducible refine (State.failBarriers_keeps ..).after ?_ rfl
                | with_reducible refine (State.flushTails_keeps ..).after ?_ rfl
                | with_reducible refine (State.releaseWindows_keeps ..).after ?_ rfl
                | with_reducible refine (State.releaseCtx_keeps ..).after ?_ rfl
                | with_reducible refine (State.closeRetained_keeps ..).after ?_ rfl
                | with_reducible refine Keeps.foldl _ _ _ _ (fun s x => ?_) ?_ | (with_reducible refine Keeps.mk' ?_ ?_ ?_ ?_ ?_ ?_ ?_ ?_)

theorem State.useBanks_keeps (s : State) (site : Nat) (bs : List Nat) : Keeps 0x2004 s (State.useBanks s site bs) := by
  unfold State.useBanks
  try simp -proj -iota -beta -eta only []
  repeat' first | exact .inl rfl | with_reducible exact .inr rfl | with_reducible apply And.intro
                | with_reducible exact clk_same rfl rfl rfl | with_reducible exact ⟨le_rfl, fun h => h⟩ | with_reducible exact fun h => h
                | with_reducible exact Keeps.refl _ | with_reducible refine (State.setBank_keeps ..).after ?_ rfl
                | with_reducible refine (State.accessBanks_keeps ..).after ?_ rfl
                | with_reducible refine Keeps.ite (fun _ => ?_) (fun _ => ?_) | with_reducible refine Keeps.foldl _ _ _ _ (fun s x => ?_) ?_
                | (with_reducible refine Keeps.mk' ?_ ?_ ?_ ?_ ?_ ?_ ?_ ?_)

theorem State.scrubPage_keeps (s : State) (site pg : Nat) : Keeps 0x2004 s (State.scrubPage s site pg) := by
  unfold State.scrubPage
  try simp -proj -iota -beta -eta only []
  repeat' first | exact .inl rfl | with_reducible exact .inr rfl | with_reducible apply And.intro
                | with_reducible exact clk_same rfl rfl rfl | with_reducible exact ⟨le_rfl, fun h => h⟩ | with_reducible exact fun h => h
                | with_reducible exact Keeps.refl _ | with_reducible refine (State.bumpSite_keeps ..).after ?_ rfl
                | with_reducible refine (State.useBanks_keeps ..).after ?_ rfl | split
                | (with_reducible refine Keeps.mk' ?_ ?_ ?_ ?_ ?_ ?_ ?_ ?_)

theorem State.scrubPart_keeps (s : State) (p : Part) : Keeps 0x2000 s (State.scrubPart s p) := by
  unfold State.scrubPart
  try simp -proj -iota -beta -eta only []
  repeat' first | exact .inl rfl | with_reducible exact .inr rfl | with_reducible apply And.intro
                | with_reducible exact clk_same rfl rfl rfl | with_reducible exact ⟨le_rfl, fun h => h⟩ | with_reducible exact fun h => h
                | with_reducible exact Keeps.refl _ | (with_reducible refine Keeps.mk' ?_ ?_ ?_ ?_ ?_ ?_ ?_ ?_)

theorem State.killDrop_keeps (s : State) (f : Flight) : Keeps 0x4 s (State.killDrop s f) := by
  unfold State.killDrop
  try simp -proj -iota -beta -eta only []
  repeat' first | with_reducible exact Keeps.refl _ | with_reducible refine (State.bumpCtx_keeps ..).after ?_ rfl

theorem State.scrubSlot_keeps (s : State) (n : Nat) : Keeps 0x2004 s (State.scrubSlot s n) := by
  unfold State.scrubSlot
  try simp -proj -iota -beta -eta only []
  repeat' first | exact .inl rfl | with_reducible exact .inr rfl | with_reducible apply And.intro
                | with_reducible exact clk_same rfl rfl rfl | with_reducible exact ⟨le_rfl, fun h => h⟩ | with_reducible exact fun h => h
                | with_reducible exact Keeps.refl _ | with_reducible refine (State.scrubPage_keeps ..).after ?_ rfl
                | with_reducible refine (State.scrubPart_keeps ..).after ?_ rfl
                | with_reducible refine (State.killDrop_keeps ..).after ?_ rfl
                | with_reducible refine Keeps.foldl _ _ _ _ (fun s x => ?_) ?_ | split
                | (with_reducible refine Keeps.mk' ?_ ?_ ?_ ?_ ?_ ?_ ?_ ?_)

theorem State.flowReset_keeps (s : State) : Keeps 0x2000 s (State.flowReset s) := by
  unfold State.flowReset
  try simp -proj -iota -beta -eta only []
  repeat' first | exact .inl rfl | with_reducible exact .inr rfl | with_reducible apply And.intro
                | with_reducible exact clk_same rfl rfl rfl | with_reducible exact ⟨le_rfl, fun h => h⟩ | with_reducible exact fun h => h
                | with_reducible exact Keeps.refl _ | (with_reducible refine Keeps.mk' ?_ ?_ ?_ ?_ ?_ ?_ ?_ ?_)

/-- A record update of the dataflow alone. -/
theorem Keeps.setFlow {p : Nat} {s u : State} {x : FlowState} (h : Keeps p s u) (hp : p.testBit 13 = true) :
    Keeps p s { u with flow := x } :=
  Keeps.mk' h ⟨le_rfl, fun h => h⟩ (fun h => h) (fun h => h) (fun h => h) (fun h => h) (fun h => h)
    (Within.ofAny fun f => by cases f <;> first | exact .inl hp | exact .inr rfl)

theorem State.siteZero_keeps (s : State) (k : Nat) : Keeps 0x2004 s (State.siteZero s k) := by
  have h : Keeps 0x2004 s ((List.range 512).foldl (fun s pg => s.scrubPage k pg) s) :=
    Keeps.foldl _ _ _ _ (fun s x => State.scrubPage_keeps _ _ _) (Keeps.refl _)
  exact h.setFlow rfl

theorem State.banksEnter_keeps (s : State) (k : Nat) : Keeps 0x4 s (State.banksEnter s k) := by
  unfold State.banksEnter
  try simp -proj -iota -beta -eta only []
  repeat' first | with_reducible exact Keeps.refl _ | with_reducible refine (State.bumpSite_keeps ..).after ?_ rfl
                | with_reducible refine Keeps.ite (fun _ => ?_) (fun _ => ?_)

theorem State.flowSleep_keeps (s : State) (level : Nat) : Keeps 0x4 s (State.flowSleep s level) := by
  unfold State.flowSleep
  try simp -proj -iota -beta -eta only []
  repeat' first | with_reducible exact Keeps.refl _ | with_reducible refine (State.banksEnter_keeps ..).after ?_ rfl
                | with_reducible refine Keeps.ite (fun _ => ?_) (fun _ => ?_) | with_reducible refine Keeps.foldl _ _ _ _ (fun s x => ?_) ?_

theorem State.flowWake_keeps (s0 : State) : Keeps 0x27f64 s0 (State.flowWake s0) := by
  unfold State.flowWake
  try simp -proj -iota -beta -eta only []
  repeat' first | exact .inl rfl | with_reducible exact .inr rfl | with_reducible apply And.intro
                | with_reducible exact clk_same rfl rfl rfl | with_reducible exact ⟨le_rfl, fun h => h⟩ | with_reducible exact fun h => h
                | with_reducible exact Keeps.refl _ | with_reducible refine Keeps.ite (fun _ => ?_) (fun _ => ?_) | split
                | (with_reducible refine Keeps.mk' ?_ ?_ ?_ ?_ ?_ ?_ ?_ ?_)

theorem State.tickSlot_keeps (s : State) (c n : Nat) : Keeps 0x4 s (State.tickSlot s c n) := by
  unfold State.tickSlot
  try simp -proj -iota -beta -eta only []
  repeat' first | with_reducible exact Keeps.refl _ | with_reducible refine (State.bump_keeps ..).after ?_ rfl
                | with_reducible refine (State.bumpSite_keeps ..).after ?_ rfl
                | with_reducible refine (State.countCtx_keeps ..).after ?_ rfl | with_reducible refine Keeps.ite (fun _ => ?_) (fun _ => ?_)
                | with_reducible refine Keeps.foldl _ _ _ _ (fun s x => ?_) ?_

theorem State.flowTick_keeps (s0 : State) (c : Nat) : Keeps 0x4 s0 (State.flowTick s0 c) := by
  unfold State.flowTick
  try simp -proj -iota -beta -eta only []
  repeat' first | with_reducible exact Keeps.refl _ | with_reducible refine (State.bump_keeps ..).after ?_ rfl
                | with_reducible refine (State.bumpMill_keeps ..).after ?_ rfl
                | with_reducible refine (State.tickSlot_keeps ..).after ?_ rfl | with_reducible refine Keeps.ite (fun _ => ?_) (fun _ => ?_)
                | with_reducible refine Keeps.foldl _ _ _ _ (fun s x => ?_) ?_

/-! ### Layers -/

theorem State.refuseTable_keeps (s : State) (n : Nat) (f : TableFail) : Keeps 0x21365 s (State.refuseTable s n f) := by
  unfold State.refuseTable
  try simp -proj -iota -beta -eta only []
  repeat' first | with_reducible exact Keeps.refl _ | with_reducible refine (State.setRf_keeps ..).after ?_ rfl
                | with_reducible refine (State.setSlot_keeps ..).after ?_ rfl | with_reducible refine (State.raise_keeps ..).after ?_ rfl

theorem State.spansRead_keeps (s : State) (xs : List (Nat × Nat)) : Keeps 0x20804 s (State.spansRead s xs) := by
  unfold State.spansRead
  try simp -proj -iota -beta -eta only []
  repeat' first | with_reducible exact Keeps.refl _ | with_reducible refine (State.hbmRead_keeps ..).after ?_ rfl
                | with_reducible refine Keeps.foldl _ _ _ _ (fun s x => ?_) ?_

theorem State.endTableCheck_keeps (s : State) (n : Nat) : Keeps 0x21365 s (State.endTableCheck s n) := by
  unfold State.endTableCheck
  try simp -proj -iota -beta -eta only []
  repeat' first | with_reducible exact Keeps.refl _ | with_reducible refine (State.setRf_keeps ..).after ?_ rfl
                | with_reducible refine (State.setSlot_keeps ..).after ?_ rfl
                | with_reducible refine (State.refuseTable_keeps ..).after ?_ rfl | split

theorem State.dropSluice_keeps (s : State) (n : Nat) : Keeps 0x1001 s (State.dropSluice s n) := by
  unfold State.dropSluice
  try simp -proj -iota -beta -eta only []
  repeat' first | with_reducible exact Keeps.refl _ | with_reducible refine (State.setRf_keeps ..).after ?_ rfl
                | with_reducible refine (State.setSlot_keeps ..).after ?_ rfl

theorem State.refuseSluice_keeps (s : State) (n i : Nat) : Keeps 0x21365 s (State.refuseSluice s n i) := by
  unfold State.refuseSluice
  try simp -proj -iota -beta -eta only []
  repeat' first | with_reducible exact Keeps.refl _ | with_reducible refine (State.raise_keeps ..).after ?_ rfl
                | with_reducible refine (State.dropSluice_keeps ..).after ?_ rfl

theorem State.checkSluice_keeps (s : State) (n : Nat) : Keeps 0x27b65 s (State.checkSluice s n) := by
  unfold State.checkSluice
  try simp -proj -iota -beta -eta only []
  repeat' first | with_reducible exact Keeps.refl _ | with_reducible refine (State.setSlot_keeps ..).after ?_ rfl
                | with_reducible refine (State.hbmUe_keeps ..).after ?_ rfl | with_reducible refine (State.sealStop_keeps ..).after ?_ rfl
                | with_reducible refine (State.spansRead_keeps ..).after ?_ rfl
                | with_reducible refine (State.dropSluice_keeps ..).after ?_ rfl
                | with_reducible refine (State.refuseSluice_keeps ..).after ?_ rfl | split

theorem State.recheckTables_keeps (s : State) (n : Nat) : Keeps 0x21365 s (State.recheckTables s n) := by
  unfold State.recheckTables
  try simp -proj -iota -beta -eta only []
  repeat' first | with_reducible exact Keeps.refl _ | with_reducible refine (State.refuseTable_keeps ..).after ?_ rfl
                | with_reducible refine (State.refuseSluice_keeps ..).after ?_ rfl | split

/-! ### FabOps -/

theorem State.startPort_keeps (s : State) (p : Nat) : Keeps 0x4000 s (State.startPort s p) := by
  unfold State.startPort
  try simp -proj -iota -beta -eta only []
  repeat' first | with_reducible exact Keeps.refl _ | with_reducible refine (State.setPort_keeps ..).after ?_ rfl
                | with_reducible refine Keeps.ite (fun _ => ?_) (fun _ => ?_)

theorem State.portModeSet_keeps (s : State) (p w : Nat) : Keeps 0x4001 s (State.portModeSet s p w) := by
  unfold State.portModeSet
  try simp -proj -iota -beta -eta only []
  repeat' first | with_reducible exact Keeps.refl _ | with_reducible refine (State.setReg_keeps ..).after ?_ rfl
                | with_reducible refine (State.setPort_keeps ..).after ?_ rfl
                | with_reducible refine (State.startPort_keeps ..).after ?_ rfl
                | with_reducible refine Keeps.ite (fun _ => ?_) (fun _ => ?_)

theorem State.fabPowerOn_keeps (s : State) : Keeps 0x4041 s (State.fabPowerOn s) := by
  unfold State.fabPowerOn
  try simp -proj -iota -beta -eta only []
  repeat' first | exact .inl rfl | with_reducible exact .inr rfl | with_reducible apply And.intro
                | with_reducible exact clk_same rfl rfl rfl | with_reducible exact ⟨le_rfl, fun h => h⟩ | with_reducible exact fun h => h
                | with_reducible exact Keeps.refl _ | with_reducible refine (State.setReg_keeps ..).after ?_ rfl
                | with_reducible refine Keeps.foldl _ _ _ _ (fun s x => ?_) ?_ | (with_reducible refine Keeps.mk' ?_ ?_ ?_ ?_ ?_ ?_ ?_ ?_)

theorem State.fabBoot_keeps (s : State) : Keeps 0x4001 s (State.fabBoot s) := by
  unfold State.fabBoot
  try simp -proj -iota -beta -eta only []
  repeat' first | with_reducible exact Keeps.refl _ | with_reducible refine (State.setRf_keeps ..).after ?_ rfl
                | with_reducible refine (State.portModeSet_keeps ..).after ?_ rfl
                | with_reducible refine Keeps.ite (fun _ => ?_) (fun _ => ?_) | with_reducible refine Keeps.foldl _ _ _ _ (fun s x => ?_) ?_

theorem State.toMgr_keeps (s : State) (m : Mgmt) : Keeps 0x20000 s (State.toMgr s m) := by
  unfold State.toMgr
  try simp -proj -iota -beta -eta only []
  repeat' first | with_reducible exact Keeps.refl _ | with_reducible refine (State.emit_keeps ..).after ?_ rfl

theorem State.fabReset_keeps (s : State) : Keeps 0x24000 s (State.fabReset s) := by
  unfold State.fabReset
  try simp -proj -iota -beta -eta only []
  repeat' first | exact .inl rfl | with_reducible exact .inr rfl | with_reducible apply And.intro
                | with_reducible exact clk_same rfl rfl rfl | with_reducible exact ⟨le_rfl, fun h => h⟩ | with_reducible exact fun h => h
                | with_reducible exact Keeps.refl _ | with_reducible refine (State.toMgr_keeps ..).after ?_ rfl
                | (with_reducible refine Keeps.mk' ?_ ?_ ?_ ?_ ?_ ?_ ?_ ?_)

theorem State.fabTransit_keeps (s : State) (allow : Bool) : Keeps 0x24000 s (State.fabTransit s allow) := by
  unfold State.fabTransit
  try simp -proj -iota -beta -eta only []
  repeat' first | exact .inl rfl | with_reducible exact .inr rfl | with_reducible apply And.intro
                | with_reducible exact clk_same rfl rfl rfl | with_reducible exact ⟨le_rfl, fun h => h⟩ | with_reducible exact fun h => h
                | with_reducible exact Keeps.refl _ | with_reducible refine (State.toMgr_keeps ..).after ?_ rfl
                | (with_reducible refine Keeps.mk' ?_ ?_ ?_ ?_ ?_ ?_ ?_ ?_)

theorem State.setRxChan_keeps (s : State) (peer chan : Nat) (c : RxChan) : Keeps 0x4000 s (State.setRxChan s peer chan c) := by
  unfold State.setRxChan
  try simp -proj -iota -beta -eta only []
  repeat' first | exact .inl rfl | with_reducible exact .inr rfl | with_reducible apply And.intro
                | with_reducible exact clk_same rfl rfl rfl | with_reducible exact ⟨le_rfl, fun h => h⟩ | with_reducible exact fun h => h
                | with_reducible exact Keeps.refl _ | (with_reducible refine Keeps.mk' ?_ ?_ ?_ ?_ ?_ ?_ ?_ ?_)

theorem State.sendAck_keeps (s : State) (peer chan : Nat) : Keeps 0x24004 s (State.sendAck s peer chan) := by
  unfold State.sendAck
  try simp -proj -iota -beta -eta only []
  repeat' first | with_reducible exact Keeps.refl _ | with_reducible refine (State.forward_keeps ..).after ?_ rfl
                | with_reducible refine (State.setRxChan_keeps ..).after ?_ rfl

theorem State.dropRx_keeps (s : State) (r : RxPacket) : Keeps 0x4000 s (State.dropRx s r) := by
  unfold State.dropRx
  try simp -proj -iota -beta -eta only []
  repeat' first | exact .inl rfl | with_reducible exact .inr rfl | with_reducible apply And.intro
                | with_reducible exact clk_same rfl rfl rfl | with_reducible exact ⟨le_rfl, fun h => h⟩ | with_reducible exact fun h => h
                | with_reducible exact Keeps.refl _ | (with_reducible refine Keeps.mk' ?_ ?_ ?_ ?_ ?_ ?_ ?_ ?_)

theorem State.deliver_keeps (s : State) (r : RxPacket) : Keeps 0x24004 s (State.deliver s r) := by
  unfold State.deliver
  try simp -proj -iota -beta -eta only []
  repeat' first | with_reducible exact Keeps.refl _ | with_reducible refine (State.setRxChan_keeps ..).after ?_ rfl
                | with_reducible refine (State.sendAck_keeps ..).after ?_ rfl | with_reducible refine (State.dropRx_keeps ..).after ?_ rfl
                | with_reducible refine Keeps.ite (fun _ => ?_) (fun _ => ?_)

theorem State.sendError_keeps (s : State) (k : Packet) (status : Nat) : Keeps 0x24004 s (State.sendError s k status) := by
  unfold State.sendError
  try simp -proj -iota -beta -eta only []
  repeat' first | with_reducible exact Keeps.refl _ | with_reducible refine (State.sendPacket_keeps ..).after ?_ rfl

theorem State.remoteError_keeps (s : State) (n : Fin 8) (peer status : Nat) : Keeps 0x27364 s (State.remoteError s n peer status) := by
  unfold State.remoteError
  try simp -proj -iota -beta -eta only []
  repeat' first | with_reducible exact Keeps.refl _ | with_reducible refine (State.jobFaultWith_keeps ..).after ?_ rfl

theorem State.chooseParent_keeps (s : State) : Keeps 0x4014 s (State.chooseParent s) := by
  unfold State.chooseParent
  try simp -proj -iota -beta -eta only []
  repeat' first | exact .inl rfl | with_reducible exact .inr rfl | with_reducible apply And.intro
                | with_reducible exact clk_same rfl rfl rfl | with_reducible exact ⟨le_rfl, fun h => h⟩ | with_reducible exact fun h => h
                | with_reducible exact Keeps.refl _ | with_reducible refine (State.bump_keeps ..).after ?_ rfl
                | with_reducible refine Keeps.ite (fun _ => ?_) (fun _ => ?_) | split
                | (with_reducible refine Keeps.mk' ?_ ?_ ?_ ?_ ?_ ?_ ?_ ?_)

theorem State.syncHold_keeps (s : State) : Keeps 0x4014 s (State.syncHold s) := by
  unfold State.syncHold
  try simp -proj -iota -beta -eta only []
  repeat' first | with_reducible exact Keeps.refl _ | with_reducible refine (State.chooseParent_keeps ..).after ?_ rfl
                | with_reducible refine Keeps.ite (fun _ => ?_) (fun _ => ?_)

theorem State.fabReadSide_keeps (s : State) (off : Nat) : Keeps 0x4000 s (State.fabReadSide s off) := by
  unfold State.fabReadSide
  try simp -proj -iota -beta -eta only []
  repeat' first | with_reducible exact Keeps.refl _ | with_reducible refine (State.setPort_keeps ..).after ?_ rfl
                | with_reducible refine Keeps.ite (fun _ => ?_) (fun _ => ?_)

/-! ### Manager -/

theorem State.resetPeer_keeps (s : State) (peer : Nat) : Keeps 0x4000 s (State.resetPeer s peer) := by
  unfold State.resetPeer
  try simp -proj -iota -beta -eta only []
  repeat' first | exact .inl rfl | with_reducible exact .inr rfl | with_reducible apply And.intro
                | with_reducible exact clk_same rfl rfl rfl | with_reducible exact ⟨le_rfl, fun h => h⟩ | with_reducible exact fun h => h
                | with_reducible exact Keeps.refl _ | (with_reducible refine Keeps.mk' ?_ ?_ ?_ ?_ ?_ ?_ ?_ ?_)

theorem State.peerGone_keeps (s : State) (peer : Nat) : Keeps 0x27364 s (State.peerGone s peer) := by
  unfold State.peerGone
  try simp -proj -iota -beta -eta only []
  repeat' first | with_reducible exact Keeps.refl _ | with_reducible refine (State.jobFault_keeps ..).after ?_ rfl
                | with_reducible refine (State.resetPeer_keeps ..).after ?_ rfl
                | with_reducible refine Keeps.foldl _ _ _ _ (fun s x => ?_) ?_

theorem State.reviewElection_keeps (s : State) : Keeps 0x4000 s (State.reviewElection s) := by
  unfold State.reviewElection
  try simp -proj -iota -beta -eta only []
  repeat' first | exact .inl rfl | with_reducible exact .inr rfl | with_reducible apply And.intro
                | with_reducible exact clk_same rfl rfl rfl | with_reducible exact ⟨le_rfl, fun h => h⟩ | with_reducible exact fun h => h
                | with_reducible exact Keeps.refl _ | with_reducible refine Keeps.ite (fun _ => ?_) (fun _ => ?_)
                | (with_reducible refine Keeps.mk' ?_ ?_ ?_ ?_ ?_ ?_ ?_ ?_)

theorem State.reportLinks_keeps (s : State) : Keeps 0x20000 s (State.reportLinks s) := by
  unfold State.reportLinks
  try simp -proj -iota -beta -eta only []
  repeat' first | with_reducible exact Keeps.refl _ | with_reducible refine (State.toMgr_keeps ..).after ?_ rfl

theorem State.setMember_keeps (s : State) (m : Member) : Keeps 0x4000 s (State.setMember s m) := by
  unfold State.setMember
  try simp -proj -iota -beta -eta only []
  repeat' first | exact .inl rfl | with_reducible exact .inr rfl | with_reducible apply And.intro
                | with_reducible exact clk_same rfl rfl rfl | with_reducible exact ⟨le_rfl, fun h => h⟩ | with_reducible exact fun h => h
                | with_reducible exact Keeps.refl _ | with_reducible refine Keeps.ite (fun _ => ?_) (fun _ => ?_)
                | (with_reducible refine Keeps.mk' ?_ ?_ ?_ ?_ ?_ ?_ ?_ ?_)

theorem State.giveAddr_keeps (s : State) (r : Report) (a : Nat) : Keeps 0x24000 s (State.giveAddr s r a) := by
  unfold State.giveAddr
  try simp -proj -iota -beta -eta only []
  repeat' first | exact .inl rfl | with_reducible exact .inr rfl | with_reducible apply And.intro
                | with_reducible exact clk_same rfl rfl rfl | with_reducible exact ⟨le_rfl, fun h => h⟩ | with_reducible exact fun h => h
                | with_reducible exact Keeps.refl _ | with_reducible refine (State.emit_keeps ..).after ?_ rfl
                | with_reducible refine (State.setMember_keeps ..).after ?_ rfl
                | with_reducible refine Keeps.ite (fun _ => ?_) (fun _ => ?_) | split
                | (with_reducible refine Keeps.mk' ?_ ?_ ?_ ?_ ?_ ?_ ?_ ?_)

theorem State.assignAll_keeps (s : State) (rs : List Report) : Keeps 0x24000 s (State.assignAll s rs) := by
  unfold State.assignAll
  dsimp only
  repeat' first | with_reducible exact Keeps.refl _ | with_reducible refine (State.giveAddr_keeps ..).after ?_ rfl
                | with_reducible refine Keeps.foldlP _ _ _ _ (fun _ _ => ?_) ?_ | split

theorem State.moveTo_keeps (s : State) (e : Nat) : Keeps 0x24000 s (State.moveTo s e) := by
  unfold State.moveTo
  try simp -proj -iota -beta -eta only []
  repeat' first | exact .inl rfl | with_reducible exact .inr rfl | with_reducible apply And.intro
                | with_reducible exact clk_same rfl rfl rfl | with_reducible exact ⟨le_rfl, fun h => h⟩ | with_reducible exact fun h => h
                | with_reducible exact Keeps.refl _ | with_reducible refine (State.emit_keeps ..).after ?_ rfl
                | with_reducible refine Keeps.ite (fun _ => ?_) (fun _ => ?_) | with_reducible refine Keeps.foldl _ _ _ _ (fun s x => ?_) ?_
                | split | (with_reducible refine Keeps.mk' ?_ ?_ ?_ ?_ ?_ ?_ ?_ ?_)

theorem State.depart_keeps (s : State) (p : Member → Bool) : Keeps 0x27364 s (State.depart s p) := by
  unfold State.depart
  try simp -proj -iota -beta -eta only []
  repeat' first | with_reducible exact Keeps.refl _ | with_reducible refine (State.emit_keeps ..).after ?_ rfl
                | with_reducible refine (State.peerGone_keeps ..).after ?_ rfl
                | with_reducible refine (State.setMember_keeps ..).after ?_ rfl
                | with_reducible refine Keeps.foldl _ _ _ _ (fun s x => ?_) ?_ | split

theorem State.lose_keeps (s : State) (p : Member → Bool) : Keeps 0x27364 s (State.lose s p) := by
  unfold State.lose
  try simp -proj -iota -beta -eta only []
  repeat' first | with_reducible exact Keeps.refl _ | with_reducible refine (State.moveTo_keeps ..).after ?_ rfl
                | with_reducible refine (State.depart_keeps ..).after ?_ rfl

theorem State.linkLost_keeps (s : State) : Keeps 0x27364 s (State.linkLost s) := by
  unfold State.linkLost
  try simp -proj -iota -beta -eta only []
  repeat' first | with_reducible exact Keeps.refl _ | with_reducible refine (State.reportLinks_keeps ..).after ?_ rfl
                | with_reducible refine (State.lose_keeps ..).after ?_ rfl | with_reducible refine Keeps.ite (fun _ => ?_) (fun _ => ?_)

theorem State.loseNeighbours_keeps (s : State) (p : Nat) (gone : Neighbour → Bool) : Keeps 0x27364 s (State.loseNeighbours s p gone) := by
  unfold State.loseNeighbours
  try simp -proj -iota -beta -eta only []
  repeat' first | with_reducible exact Keeps.refl _ | with_reducible refine (State.setPort_keeps ..).after ?_ rfl
                | with_reducible refine (State.reviewElection_keeps ..).after ?_ rfl
                | with_reducible refine (State.linkLost_keeps ..).after ?_ rfl | with_reducible refine Keeps.ite (fun _ => ?_) (fun _ => ?_)

/-! ### Mill -/

theorem State.setBuf_keeps (s : State) (m : Nat) (rs : List Run) : Keeps 0x2000 s (State.setBuf s m rs) := by
  unfold State.setBuf
  try simp -proj -iota -beta -eta only []
  repeat' first | exact .inl rfl | with_reducible exact .inr rfl | with_reducible apply And.intro
                | with_reducible exact clk_same rfl rfl rfl | with_reducible exact ⟨le_rfl, fun h => h⟩ | with_reducible exact fun h => h
                | with_reducible exact Keeps.refl _ | (with_reducible refine Keeps.mk' ?_ ?_ ?_ ?_ ?_ ?_ ?_ ?_)

theorem State.dropStopped_keeps (s : State) (m : Nat) : Keeps 0x2000 s (State.dropStopped s m) := by
  unfold State.dropStopped
  try simp -proj -iota -beta -eta only []
  repeat' first | with_reducible exact Keeps.refl _ | with_reducible refine (State.setBuf_keeps ..).after ?_ rfl

theorem State.runInvalid_keeps (s : State) (m slot layer item reason : Nat) : Keeps 0x27364 s (State.runInvalid s m slot layer item reason) := by
  unfold State.runInvalid
  try simp -proj -iota -beta -eta only []
  repeat' first | with_reducible exact Keeps.refl _ | with_reducible refine (State.jobFault_keeps ..).after ?_ rfl

theorem State.rejectRun_keeps (s : State) (m slot layer item reason : Nat) : Keeps 0x27364 s (State.rejectRun s m slot layer item reason) := by
  unfold State.rejectRun
  try simp -proj -iota -beta -eta only []
  repeat' first | with_reducible exact Keeps.refl _ | with_reducible refine (State.bumpMill_keeps ..).after ?_ rfl
                | with_reducible refine (State.runInvalid_keeps ..).after ?_ rfl

theorem State.addSquares_keeps (s : State) (m : Nat) (r : Run) (gs : List Word) : Keeps 0x1000 s (State.addSquares s m r gs) := by
  unfold State.addSquares
  try simp -proj -iota -beta -eta only []
  repeat' first | with_reducible exact Keeps.refl _ | with_reducible refine (State.setSlot_keeps ..).after ?_ rfl

theorem State.markApplied_keeps (s : State) (r : Run) : Keeps 0x1000 s (State.markApplied s r) := by
  unfold State.markApplied
  try simp -proj -iota -beta -eta only []
  repeat' first | with_reducible exact Keeps.refl _ | with_reducible refine (State.setSlot_keeps ..).after ?_ rfl

theorem State.ruleCanary_keeps (s : State) (n : Nat) (l : Layer) (u : Rule) (counts : List Nat) : Keeps 0x22364 s (State.ruleCanary s n l u counts) := by
  unfold State.ruleCanary
  try simp -proj -iota -beta -eta only []
  repeat' first | exact .inl rfl | with_reducible exact .inr rfl | with_reducible apply And.intro
                | with_reducible exact clk_same rfl rfl rfl | with_reducible exact ⟨le_rfl, fun h => h⟩ | with_reducible exact fun h => h
                | with_reducible exact Keeps.refl _ | with_reducible refine (State.canaryClose_keeps ..).after ?_ rfl
                | (with_reducible refine Keeps.mk' ?_ ?_ ?_ ?_ ?_ ?_ ?_ ?_)

theorem State.setGranMarks_keeps (s : State) (a : Nat) (c : List Nat) : Keeps 0x2000 s (State.setGranMarks s a c) := by
  unfold State.setGranMarks
  try simp -proj -iota -beta -eta only []
  repeat' first | exact .inl rfl | with_reducible exact .inr rfl | with_reducible apply And.intro
                | with_reducible exact clk_same rfl rfl rfl | with_reducible exact ⟨le_rfl, fun h => h⟩ | with_reducible exact fun h => h
                | with_reducible exact Keeps.refl _ | (with_reducible refine Keeps.mk' ?_ ?_ ?_ ?_ ?_ ?_ ?_ ?_)

theorem State.revoke_keeps (s : State) (p : Retained → Bool) : Keeps 0x2000 s (State.revoke s p) := by
  unfold State.revoke
  try simp -proj -iota -beta -eta only []
  repeat' first | exact .inl rfl | with_reducible exact .inr rfl | with_reducible apply And.intro
                | with_reducible exact clk_same rfl rfl rfl | with_reducible exact ⟨le_rfl, fun h => h⟩ | with_reducible exact fun h => h
                | with_reducible exact Keeps.refl _ | (with_reducible refine Keeps.mk' ?_ ?_ ?_ ?_ ?_ ?_ ?_ ?_)

theorem State.endLeases_keeps (s : State) (m : Nat) (r : Run) (shard : Nat) : Keeps 0x26364 s (State.endLeases s m r shard) := by
  unfold State.endLeases
  try simp -proj -iota -beta -eta only []
  repeat' first | with_reducible exact Keeps.refl _ | with_reducible refine (State.bump_keeps ..).after ?_ rfl
                | with_reducible refine (State.raise_keeps ..).after ?_ rfl | with_reducible refine (State.sendLease_keeps ..).after ?_ rfl
                | with_reducible refine (State.closeLease_keeps ..).after ?_ rfl
                | with_reducible refine (State.revoke_keeps ..).after ?_ rfl | with_reducible refine Keeps.ite (fun _ => ?_) (fun _ => ?_)
                | with_reducible refine Keeps.foldl _ _ _ _ (fun s x => ?_) ?_

theorem State.stateVersion_keeps (s : State) (m gran : Nat) (r : Run) (t : Tail) : Keeps 0x27364 s (State.stateVersion s m gran r t) := by
  unfold State.stateVersion
  try simp -proj -iota -beta -eta only []
  repeat' first | with_reducible exact Keeps.refl _ | with_reducible refine (State.jobFault_keeps ..).after ?_ rfl

theorem State.commitRun_keeps (s : State) (m : Nat) (p : RunPlace) (r : Run) (t : Tail) (a : Applied) : Keeps 0x27f64 s (State.commitRun s m p r t a) := by
  unfold State.commitRun
  try simp -proj -iota -beta -eta only []
  repeat' first | with_reducible exact Keeps.refl _ | with_reducible refine (State.hbmWrite_keeps ..).after ?_ rfl
                | with_reducible refine (State.progress_keeps ..).after ?_ rfl
                | with_reducible refine (State.bumpMill_keeps ..).after ?_ rfl
                | with_reducible refine (State.closeTail_keeps ..).after ?_ rfl
                | with_reducible refine (State.keepTail_keeps ..).after ?_ rfl
                | with_reducible refine (State.addSquares_keeps ..).after ?_ rfl
                | with_reducible refine (State.markApplied_keeps ..).after ?_ rfl
                | with_reducible refine (State.ruleCanary_keeps ..).after ?_ rfl
                | with_reducible refine (State.setGranMarks_keeps ..).after ?_ rfl
                | with_reducible refine (State.endLeases_keeps ..).after ?_ rfl
                | with_reducible refine Keeps.ite (fun _ => ?_) (fun _ => ?_)

theorem State.computeRun_keeps (s : State) (m : Nat) (p : RunPlace) (r : Run) (t : Tail) (q : StepParam) (res : Residue) : Keeps 0x27f64 s (State.computeRun s m p r t q res) := by
  unfold State.computeRun
  try simp -proj -iota -beta -eta only []
  repeat' first | with_reducible exact Keeps.refl _ | with_reducible refine (State.hbmRead_keeps ..).after ?_ rfl
                | with_reducible refine (State.jobFault_keeps ..).after ?_ rfl | with_reducible refine (State.hbmUe_keeps ..).after ?_ rfl
                | with_reducible refine (State.bumpMill_keeps ..).after ?_ rfl
                | with_reducible refine (State.commitRun_keeps ..).after ?_ rfl
                | with_reducible refine Keeps.ite (fun _ => ?_) (fun _ => ?_) | split

theorem State.applyOne_keeps (s : State) (m : Nat) (r : Run) (res : Residue) : Keeps 0x27f64 s (State.applyOne s m r res) := by
  unfold State.applyOne
  try simp -proj -iota -beta -eta only []
  repeat' first | with_reducible exact Keeps.refl _ | with_reducible refine (State.hbmRead_keeps ..).after ?_ rfl
                | with_reducible refine (State.hbmUe_keeps ..).after ?_ rfl | with_reducible refine (State.sealStop_keeps ..).after ?_ rfl
                | with_reducible refine (State.rejectRun_keeps ..).after ?_ rfl
                | with_reducible refine (State.stateVersion_keeps ..).after ?_ rfl
                | with_reducible refine (State.computeRun_keeps ..).after ?_ rfl
                | with_reducible refine Keeps.ite (fun _ => ?_) (fun _ => ?_) | split

/-! ### Vector -/

theorem State.setRow_keeps (s : State) (site i : Nat) (v : Word × Word) : Keeps 0x2000 s (State.setRow s site i v) := by
  unfold State.setRow
  try simp -proj -iota -beta -eta only []
  repeat' first | exact .inl rfl | with_reducible exact .inr rfl | with_reducible apply And.intro
                | with_reducible exact clk_same rfl rfl rfl | with_reducible exact ⟨le_rfl, fun h => h⟩ | with_reducible exact fun h => h
                | with_reducible exact Keeps.refl _ | (with_reducible refine Keeps.mk' ?_ ?_ ?_ ?_ ?_ ?_ ?_ ?_)

theorem State.setRowAdds_keeps (s : State) (site i : Nat) (v : RowAdds) : Keeps 0x2000 s (State.setRowAdds s site i v) := by
  unfold State.setRowAdds
  try simp -proj -iota -beta -eta only []
  repeat' first | exact .inl rfl | with_reducible exact .inr rfl | with_reducible apply And.intro
                | with_reducible exact clk_same rfl rfl rfl | with_reducible exact ⟨le_rfl, fun h => h⟩ | with_reducible exact fun h => h
                | with_reducible exact Keeps.refl _ | (with_reducible refine Keeps.mk' ?_ ?_ ?_ ?_ ?_ ?_ ?_ ?_)

theorem State.putRow_keeps (s : State) (r : StRef) (c row : Nat) (v : Word × Word) (a : RowAdds) : Keeps 0x2000 s (State.putRow s r c row v a) := by
  unfold State.putRow
  try simp -proj -iota -beta -eta only []
  repeat' first | with_reducible exact Keeps.refl _ | with_reducible refine (State.setRow_keeps ..).after ?_ rfl
                | with_reducible refine (State.setRowAdds_keeps ..).after ?_ rfl | split

theorem State.runLine_keeps (s : State) (r : StRef) (p : List VInstr) (start : Bool) (tag row : Nat) (tile : List Word) : Keeps 0x2000 s (State.runLine s r p start tag row tile).1 := by
  unfold State.runLine
  try simp -proj -iota -beta -eta only []
  repeat' first | with_reducible exact Keeps.refl _ | with_reducible refine (State.putRow_keeps ..).after ?_ rfl
                | with_reducible refine Keeps.foldl _ _ _ _ (fun s x => ?_) ?_

theorem State.runLines_keeps (s : State) (r : StRef) (p : List VInstr) (start : Bool) (tag : Nat) (lines : List (Nat × List Word)) :
    Keeps 0x2000 s (State.runLines s r p start tag lines).1 := by
  unfold State.runLines
  have h : ∀ (l : List (Nat × List Word)) (acc : (State × List (List (Nat × List Word)) × List (List Word)) × Option Nat),
      Keeps 0x2000 s acc.1.1 → Keeps 0x2000 s (l.foldl (fun (acc : (State × List (List (Nat × List Word)) × List (List Word)) × Option Nat) l =>
        let x := acc.1.1.runLine r p (start && acc.2 != some l.1) tag l.1 l.2
        ((x.1, acc.1.2.1 ++ [x.2.conv], acc.1.2.2 ++ [x.2.last]), some l.1)) acc).1.1 := by
    intro l
    induction l with
    | nil => exact fun _ h => h
    | cons x l ih => exact fun acc h => ih _ ((State.runLine_keeps ..).after h rfl)
  exact h lines _ (Keeps.refl _)

theorem State.countMarks_keeps (s : State) (r : StRef) (t : Nat) (d : OutConv) (ms : List Mark) : Keeps 0x2000 s (State.countMarks s r t d ms) := by
  unfold State.countMarks
  try simp -proj -iota -beta -eta only []
  repeat' first | with_reducible exact Keeps.refl _ | with_reducible refine (State.setRun_keeps ..).after ?_ rfl
                | with_reducible refine Keeps.ite (fun _ => ?_) (fun _ => ?_)

theorem State.outputRows_keeps (s : State) (r : StRef) (ports : List Nat) (tag count : Nat) (step : Option Nat) (isInt : Bool) (rowsOf : Nat → List (List Word)) : Keeps 0x2000 s (State.outputRows s r ports tag count step isInt rowsOf) := by
  unfold State.outputRows
  try simp -proj -iota -beta -eta only []
  repeat' first | with_reducible exact Keeps.refl _ | with_reducible refine (State.output_keeps ..).after ?_ rfl
                | with_reducible refine (State.countMarks_keeps ..).after ?_ rfl
                | with_reducible refine Keeps.foldl _ _ _ _ (fun s x => ?_) ?_ | split

/-! ### Sluice -/

theorem State.sendRed_keeps (s : State) (dst fjob id layer run step cnt : Nat) (bf16 : Bool) (vals : List Byte) : Keeps 0x24004 s (State.sendRed s dst fjob id layer run step cnt bf16 vals) := by
  unfold State.sendRed
  try simp -proj -iota -beta -eta only []
  repeat' first | with_reducible exact Keeps.refl _ | with_reducible refine (State.sendPacket_keeps ..).after ?_ rfl

theorem State.redRun_keeps (s : State) (c : Nat) (id op layer : Nat) (h : HoistTable) (l : Layer) (y : RedIn) : Keeps 0x27364 s (State.redRun s c id op layer h l y) := by
  unfold State.redRun
  try simp -proj -iota -beta -eta only []
  repeat' first | with_reducible exact Keeps.refl _ | with_reducible refine (State.bumpFab_keeps ..).after ?_ rfl
                | with_reducible refine (State.setSluice_keeps ..).after ?_ rfl
                | with_reducible refine (State.jobFault_keeps ..).after ?_ rfl | with_reducible refine (State.sendRed_keeps ..).after ?_ rfl
                | with_reducible refine Keeps.ite (fun _ => ?_) (fun _ => ?_) | split

theorem State.setMisses_keeps (s : State) (src : Option Nat) (chan seq n : Nat) : Keeps 0x2000 s (State.setMisses s src chan seq n) := by
  unfold State.setMisses
  try simp -proj -iota -beta -eta only []
  repeat' first | exact .inl rfl | with_reducible exact .inr rfl | with_reducible apply And.intro
                | with_reducible exact clk_same rfl rfl rfl | with_reducible exact ⟨le_rfl, fun h => h⟩ | with_reducible exact fun h => h
                | with_reducible exact Keeps.refl _ | split | (with_reducible refine Keeps.mk' ?_ ?_ ?_ ?_ ?_ ?_ ?_ ?_)

theorem State.redMiss_keeps (s : State) (c sender seq : Nat) : Keeps 0x20364 s (State.redMiss s c sender seq) := by
  unfold State.redMiss
  try simp -proj -iota -beta -eta only []
  repeat' first | with_reducible exact Keeps.refl _ | with_reducible refine (State.ev_keeps ..).after ?_ rfl
                | with_reducible refine (State.bumpFab_keeps ..).after ?_ rfl

theorem State.redFatal_keeps (s : State) (n c sender seq : Nat) : Keeps 0x27364 s (State.redFatal s n c sender seq) := by
  unfold State.redFatal
  try simp -proj -iota -beta -eta only []
  repeat' first | with_reducible exact Keeps.refl _ | with_reducible refine (State.jobFault_keeps ..).after ?_ rfl
                | with_reducible refine (State.redMiss_keeps ..).after ?_ rfl

theorem State.redTake_keeps (s : State) (fault : Bool) (r : RxPacket) : OKeeps 0x27364 s (State.redTake s fault r) := by
  unfold State.redTake
  try simp -proj -iota -beta -eta only []
  repeat' first | with_reducible exact Keeps.refl _ | with_reducible refine (State.setSluice_keeps ..).after ?_ rfl
                | with_reducible refine (State.dropRx_keeps ..).after ?_ rfl | with_reducible refine (State.deliver_keeps ..).after ?_ rfl
                | with_reducible refine (State.sendError_keeps ..).after ?_ rfl | with_reducible refine (State.redRun_keeps ..).after ?_ rfl
                | with_reducible refine (State.setMisses_keeps ..).after ?_ rfl
                | with_reducible refine (State.redMiss_keeps ..).after ?_ rfl | with_reducible refine Keeps.ite (fun _ => ?_) (fun _ => ?_)
                | with_reducible refine Keeps.foldl _ _ _ _ (fun s x => ?_) ?_
                | with_reducible refine OKeeps.ite (fun _ => ?_) (fun _ => ?_) | with_reducible exact OKeeps.none
                | with_reducible refine OKeeps.some ?_ | split

theorem State.sentOne_keeps (s : State) (r : Run) (id : Nat) : Keeps 0x3000 s (State.sentOne s r id) := by
  unfold State.sentOne
  try simp -proj -iota -beta -eta only []
  repeat' first | exact .inl rfl | with_reducible exact .inr rfl | with_reducible apply And.intro
                | with_reducible exact clk_same rfl rfl rfl | with_reducible exact ⟨le_rfl, fun h => h⟩ | with_reducible exact fun h => h
                | with_reducible exact Keeps.refl _ | with_reducible refine (State.setSlot_keeps ..).after ?_ rfl
                | (with_reducible refine Keeps.mk' ?_ ?_ ?_ ?_ ?_ ?_ ?_ ?_)

theorem State.contribLocal_keeps (s : State) (fault : Bool) (r : Run) (k : Contribution) : OKeeps 0x27364 s (State.contribLocal s fault r k) := by
  unfold State.contribLocal
  try simp -proj -iota -beta -eta only []
  repeat' first | with_reducible exact Keeps.refl _ | with_reducible refine (State.setSluice_keeps ..).after ?_ rfl
                | with_reducible refine (State.redRun_keeps ..).after ?_ rfl | with_reducible refine (State.setMisses_keeps ..).after ?_ rfl
                | with_reducible refine (State.redMiss_keeps ..).after ?_ rfl | with_reducible refine (State.sentOne_keeps ..).after ?_ rfl
                | with_reducible refine OKeeps.ite (fun _ => ?_) (fun _ => ?_) | with_reducible exact OKeeps.none
                | with_reducible refine OKeeps.some ?_ | split

theorem State.contribOne_keeps (s : State) (fault : Bool) (r : Run) : OKeeps 0x27364 s (State.contribOne s fault r) := by
  unfold State.contribOne
  try simp -proj -iota -beta -eta only []
  repeat' first | exact .inl rfl | with_reducible exact .inr rfl | with_reducible apply And.intro
                | with_reducible exact clk_same rfl rfl rfl | with_reducible exact ⟨le_rfl, fun h => h⟩ | with_reducible exact fun h => h
                | with_reducible exact Keeps.refl _ | with_reducible refine (State.sendRed_keeps ..).after ?_ rfl
                | with_reducible refine (State.sentOne_keeps ..).after ?_ rfl
                | with_reducible refine (State.contribLocal_keeps ..).of ?_ rfl
                | with_reducible refine OKeeps.ite (fun _ => ?_) (fun _ => ?_) | with_reducible exact OKeeps.none
                | with_reducible refine OKeeps.some ?_ | split | (with_reducible refine Keeps.mk' ?_ ?_ ?_ ?_ ?_ ?_ ?_ ?_)

/-! ### Clock -/

theorem State.writeVolt_keeps (s : State) (mv : Nat) : Keeps 0x20010 s (State.writeVolt s mv) := by
  unfold State.writeVolt
  try simp -proj -iota -beta -eta only []
  repeat' first | exact .inl rfl | with_reducible exact .inr rfl | with_reducible apply And.intro
                | with_reducible exact clk_same rfl rfl rfl | with_reducible exact ⟨le_rfl, fun h => h⟩ | with_reducible exact fun h => h
                | with_reducible exact Keeps.refl _ | with_reducible refine (State.emit_keeps ..).after ?_ rfl
                | (with_reducible refine Keeps.mk' ?_ ?_ ?_ ?_ ?_ ?_ ?_ ?_)

theorem State.lowerVolt_keeps (s : State) : Keeps 0x20010 s (State.lowerVolt s) := by
  unfold State.lowerVolt
  try simp -proj -iota -beta -eta only []
  repeat' first | with_reducible exact Keeps.refl _ | with_reducible refine (State.writeVolt_keeps ..).after ?_ rfl
                | with_reducible refine Keeps.ite (fun _ => ?_) (fun _ => ?_)

theorem State.wantedStep_le (s : State) : s.wantedStep ≤ 3 := by
  unfold State.wantedStep State.stepNoSag
  repeat' split
  all_goals omega

theorem State.reviewClock_keeps (s : State) : Keeps 0x20010 s (State.reviewClock s) := by
  unfold State.reviewClock
  have hw := s.wantedStep_le
  try simp -proj -iota -beta -eta only []
  repeat' first | exact .inl rfl | with_reducible exact .inr rfl | with_reducible apply And.intro
                | with_reducible exact ⟨le_rfl, fun h => h⟩ | with_reducible exact fun h => h | with_reducible exact Keeps.refl _
                | with_reducible assumption | with_reducible refine (State.writeVolt_keeps ..).after ?_ rfl
                | with_reducible refine (State.lowerVolt_keeps ..).after ?_ rfl | with_reducible refine Keeps.ite (fun _ => ?_) (fun _ => ?_)
                | split | (with_reducible refine Keeps.mk' ?_ ?_ ?_ ?_ ?_ ?_ ?_ ?_)
                | (rintro ⟨h1, h2, h3⟩; refine ⟨?_, ?_, ?_⟩ <;> first | exact h1 | exact h2 | exact h3 | exact h3 _ ‹_› | exact Nat.zero_le _ | (intro w e; cases e))
  all_goals
    rintro ⟨h1, h2, h3⟩
    refine ⟨?_, ?_, ?_⟩ <;> first | exact h1 | exact h2 | exact hw | exact h3 | (intro w e; cases e; exact hw) | (intro w e; cases e)

theorem State.wake_keeps (s : State) (c : WakeCause) : Keeps 0x24024 s (State.wake s c) := by
  unfold State.wake
  try simp -proj -iota -beta -eta only []
  repeat' first | exact .inl rfl | with_reducible exact .inr rfl | with_reducible apply And.intro
                | with_reducible exact clk_same rfl rfl rfl | with_reducible exact ⟨le_rfl, fun h => h⟩ | with_reducible exact fun h => h
                | with_reducible exact Keeps.refl _ | with_reducible refine (State.bump_keeps ..).after ?_ rfl
                | with_reducible refine (State.fabTransit_keeps ..).after ?_ rfl
                | with_reducible refine Keeps.ite (fun _ => ?_) (fun _ => ?_) | (with_reducible refine Keeps.mk' ?_ ?_ ?_ ?_ ?_ ?_ ?_ ?_)

theorem State.settlePower_keeps (s : State) : Keeps 0x20304 s (State.settlePower s) := by
  unfold State.settlePower
  try simp -proj -iota -beta -eta only []
  repeat' first | with_reducible exact Keeps.refl _ | with_reducible refine (State.complete_keeps ..).after ?_ rfl
                | with_reducible refine Keeps.ite (fun _ => ?_) (fun _ => ?_) | with_reducible refine Keeps.foldl _ _ _ _ (fun s x => ?_) ?_
                | split

theorem State.startNv_keeps (s : State) (op : NvOp) : Keeps 0x203e4 s (State.startNv s op) := by
  unfold State.startNv
  try simp -proj -iota -beta -eta only []
  repeat' first | exact .inl rfl | with_reducible exact .inr rfl | with_reducible apply And.intro
                | with_reducible exact clk_same rfl rfl rfl | with_reducible exact ⟨le_rfl, fun h => h⟩ | with_reducible exact fun h => h
                | with_reducible exact Keeps.refl _ | with_reducible refine (State.ev_keeps ..).after ?_ rfl | split
                | (with_reducible refine Keeps.mk' ?_ ?_ ?_ ?_ ?_ ?_ ?_ ?_) | exact ⟨Nat.le_max_left _ _, fun h => h⟩

theorem State.requestNv_keeps (s : State) (op : NvOp) : Keeps 0x20 s (State.requestNv s op) := by
  unfold State.requestNv
  try simp -proj -iota -beta -eta only []
  repeat' first | exact .inl rfl | with_reducible exact .inr rfl | with_reducible apply And.intro
                | with_reducible exact clk_same rfl rfl rfl | with_reducible exact ⟨le_rfl, fun h => h⟩ | with_reducible exact fun h => h
                | with_reducible exact Keeps.refl _ | (with_reducible refine Keeps.mk' ?_ ?_ ?_ ?_ ?_ ?_ ?_ ?_)

theorem State.nvTick_keeps (s : State) : Keeps 0x203e4 s (State.nvTick s) := by
  unfold State.nvTick
  try simp -proj -iota -beta -eta only []
  repeat' first | exact .inl rfl | with_reducible exact .inr rfl | with_reducible apply And.intro
                | with_reducible exact clk_same rfl rfl rfl | with_reducible exact ⟨le_rfl, fun h => h⟩ | with_reducible exact fun h => h
                | with_reducible exact Keeps.refl _ | with_reducible refine (State.startNv_keeps ..).after ?_ rfl
                | with_reducible refine Keeps.ite (fun _ => ?_) (fun _ => ?_) | with_reducible refine Keeps.foldl _ _ _ _ (fun s x => ?_) ?_
                | (with_reducible refine Keeps.mk' ?_ ?_ ?_ ?_ ?_ ?_ ?_ ?_)

theorem State.moveDeadlines_keeps (s : State) (d : BitVec 64) : Keeps 0x2300 s (State.moveDeadlines s d) := by
  unfold State.moveDeadlines
  try simp -proj -iota -beta -eta only []
  repeat' first | exact .inl rfl | with_reducible exact .inr rfl | with_reducible apply And.intro
                | with_reducible exact clk_same rfl rfl rfl | with_reducible exact ⟨le_rfl, fun h => h⟩ | with_reducible exact fun h => h
                | with_reducible exact Keeps.refl _ | (with_reducible refine Keeps.mk' ?_ ?_ ?_ ?_ ?_ ?_ ?_ ?_)

theorem State.stepTally_keeps (s : State) (d : BitVec 64) : Keeps 0x22374 s (State.stepTally s d) := by
  unfold State.stepTally
  try simp -proj -iota -beta -eta only []
  repeat' first | exact .inl rfl | with_reducible exact .inr rfl | with_reducible apply And.intro
                | with_reducible exact clk_same rfl rfl rfl | with_reducible exact ⟨le_rfl, fun h => h⟩ | with_reducible exact fun h => h
                | with_reducible exact Keeps.refl _ | with_reducible refine (State.bump_keeps ..).after ?_ rfl
                | with_reducible refine (State.ev_keeps ..).after ?_ rfl | with_reducible refine (State.moveDeadlines_keeps ..).after ?_ rfl
                | (with_reducible refine Keeps.mk' ?_ ?_ ?_ ?_ ?_ ?_ ?_ ?_)

theorem State.tallySetHi_keeps (s : State) (hi : Nat) : Keeps 0x22374 s (State.tallySetHi s hi) := by
  unfold State.tallySetHi
  try simp -proj -iota -beta -eta only []
  repeat' first | with_reducible exact Keeps.refl _ | with_reducible refine (State.busyWrite_keeps ..).after ?_ rfl
                | with_reducible refine (State.stepTally_keeps ..).after ?_ rfl
                | with_reducible refine Keeps.ite (fun _ => ?_) (fun _ => ?_)

theorem State.fabTick_keeps (s : State) (c : Nat) : Keeps 0x4 s (State.fabTick s c) := by
  unfold State.fabTick
  try simp -proj -iota -beta -eta only []
  repeat' first | with_reducible exact Keeps.refl _ | with_reducible refine (State.bumpPort_keeps ..).after ?_ rfl
                | with_reducible refine (State.bumpFab_keeps ..).after ?_ rfl | with_reducible refine Keeps.ite (fun _ => ?_) (fun _ => ?_)
                | with_reducible refine Keeps.foldl _ _ _ _ (fun s x => ?_) ?_

theorem State.mctpTick_keeps (s : State) : Keeps 0x60080 s (State.mctpTick s) := by
  unfold State.mctpTick
  split
  · exact Keeps.refl _
  rename_i m rest _
  split
  · have h : Keeps 0x60080 s { s.draw with sec := { s.sec with mctp := rest } } :=
      ⟨Within.ofAny fun f => by cases f <;> first | exact .inl rfl | exact .inr rfl, rfl, ⟨le_rfl, fun h => h⟩, fun h => h, fun h => h, fun h => h, fun h => h, fun h => h⟩
    have h1 : Keeps 0x60080 s (({ s.draw with sec := { s.sec with mctp := rest } } : State).emit (.mctp s.ras.flash.i3c m)) :=
      (State.emit_keeps ..).after h rfl
    exact Keeps.ite (fun _ => (State.emit_keeps ..).after h1 rfl) (fun _ => h1)
  · exact (State.draw_keeps _).mono rfl

theorem State.tick_keeps (s : State) : Keeps 0x603f4 s (State.tick s) := by
  unfold State.tick
  try simp -proj -iota -beta -eta only []
  repeat' first | exact .inl rfl | with_reducible exact .inr rfl | with_reducible apply And.intro
                | with_reducible exact clk_same rfl rfl rfl | with_reducible exact ⟨le_rfl, fun h => h⟩ | with_reducible exact fun h => h
                | with_reducible exact Keeps.refl _ | with_reducible refine (State.flowTick_keeps ..).after ?_ rfl
                | with_reducible refine (State.nvTick_keeps ..).after ?_ rfl | with_reducible refine (State.fabTick_keeps ..).after ?_ rfl
                | with_reducible refine (State.mctpTick_keeps ..).after ?_ rfl | with_reducible refine Keeps.ite (fun _ => ?_) (fun _ => ?_)
                | (with_reducible refine Keeps.mk' ?_ ?_ ?_ ?_ ?_ ?_ ?_ ?_)

/-! ### Power -/

theorem State.fatal_keeps (s : State) (code loc sub arg0 : Nat) : Keeps 0x27364 s (State.fatal s code loc sub arg0) := by
  unfold State.fatal
  try simp -proj -iota -beta -eta only []
  repeat' first | exact .inl rfl | with_reducible exact .inr rfl | with_reducible apply And.intro
                | with_reducible exact clk_same rfl rfl rfl | with_reducible exact ⟨le_rfl, fun h => h⟩ | with_reducible exact fun h => h
                | with_reducible exact Keeps.refl _ | with_reducible refine (State.ev_keeps ..).after ?_ rfl
                | with_reducible refine (State.stopSlot_keeps ..).after ?_ rfl
                | with_reducible refine Keeps.foldl _ _ _ _ (fun s x => ?_) ?_ | (with_reducible refine Keeps.mk' ?_ ?_ ?_ ?_ ?_ ?_ ?_ ?_)

theorem State.throttleEvent_keeps (s : State) (step : Nat) : Keeps 0x24364 s (State.throttleEvent s step) := by
  unfold State.throttleEvent
  try simp -proj -iota -beta -eta only []
  repeat' first | with_reducible exact Keeps.refl _ | with_reducible refine (State.ev_keeps ..).after ?_ rfl
                | with_reducible refine (State.wake_keeps ..).after ?_ rfl

theorem State.trip_keeps (s : State) (hottest : Nat) : Keeps 0x27374 s (State.trip s hottest) := by
  unfold State.trip
  try simp -proj -iota -beta -eta only []
  repeat' first | exact .inl rfl | with_reducible exact .inr rfl | with_reducible apply And.intro
                | with_reducible exact clk_same rfl rfl rfl | with_reducible exact ⟨le_rfl, fun h => h⟩ | with_reducible exact fun h => h
                | with_reducible exact Keeps.refl _ | with_reducible refine (State.emit_keeps ..).after ?_ rfl
                | with_reducible refine (State.bump_keeps ..).after ?_ rfl | with_reducible refine (State.ev_keeps ..).after ?_ rfl
                | with_reducible refine (State.jobFault_keeps ..).after ?_ rfl
                | with_reducible refine (State.reviewClock_keeps ..).after ?_ rfl
                | with_reducible refine Keeps.ite (fun _ => ?_) (fun _ => ?_) | with_reducible refine Keeps.foldl _ _ _ _ (fun s x => ?_) ?_
                | (with_reducible refine Keeps.mk' ?_ ?_ ?_ ?_ ?_ ?_ ?_ ?_)

theorem State.sampleHeat_keeps (r : Sensors) (s : State) : Keeps 0x24374 s (State.sampleHeat r s) := by
  unfold State.sampleHeat
  try simp -proj -iota -beta -eta only []
  repeat' first | exact .inl rfl | with_reducible exact .inr rfl | with_reducible apply And.intro
                | with_reducible exact clk_same rfl rfl rfl | with_reducible exact ⟨le_rfl, fun h => h⟩ | with_reducible exact fun h => h
                | with_reducible exact Keeps.refl _ | with_reducible refine (State.bump_keeps ..).after ?_ rfl
                | with_reducible refine (State.throttleEvent_keeps ..).after ?_ rfl
                | with_reducible refine Keeps.ite (fun _ => ?_) (fun _ => ?_) | (with_reducible refine Keeps.mk' ?_ ?_ ?_ ?_ ?_ ?_ ?_ ?_)

theorem State.sampleWatts_keeps (r : Sensors) (s : State) : Keeps 0x24374 s (State.sampleWatts r s) := by
  unfold State.sampleWatts
  try simp -proj -iota -beta -eta only []
  repeat' first | exact .inl rfl | with_reducible exact .inr rfl | with_reducible apply And.intro
                | with_reducible exact clk_same rfl rfl rfl | with_reducible exact ⟨le_rfl, fun h => h⟩ | with_reducible exact fun h => h
                | with_reducible exact Keeps.refl _ | with_reducible refine (State.bump_keeps ..).after ?_ rfl
                | with_reducible refine (State.throttleEvent_keeps ..).after ?_ rfl
                | with_reducible refine Keeps.ite (fun _ => ?_) (fun _ => ?_) | (with_reducible refine Keeps.mk' ?_ ?_ ?_ ?_ ?_ ?_ ?_ ?_)

theorem State.sampleRegulator_keeps (r : Sensors) (s : State) : Keeps 0x24374 s (State.sampleRegulator r s) := by
  unfold State.sampleRegulator
  try simp -proj -iota -beta -eta only []
  repeat' first | exact .inl rfl | with_reducible exact .inr rfl | with_reducible apply And.intro
                | with_reducible exact clk_same rfl rfl rfl | with_reducible exact ⟨le_rfl, fun h => h⟩ | with_reducible exact fun h => h
                | with_reducible exact Keeps.refl _ | with_reducible refine (State.bump_keeps ..).after ?_ rfl
                | with_reducible refine (State.throttleEvent_keeps ..).after ?_ rfl
                | with_reducible refine Keeps.ite (fun _ => ?_) (fun _ => ?_) | (with_reducible refine Keeps.mk' ?_ ?_ ?_ ?_ ?_ ?_ ?_ ?_)

theorem State.sampleTrip_keeps (r : Sensors) (s : State) : Keeps 0x27374 s (State.sampleTrip r s) := by
  unfold State.sampleTrip
  try simp -proj -iota -beta -eta only []
  repeat' first | exact .inl rfl | with_reducible exact .inr rfl | with_reducible apply And.intro
                | with_reducible exact clk_same rfl rfl rfl | with_reducible exact ⟨le_rfl, fun h => h⟩ | with_reducible exact fun h => h
                | with_reducible exact Keeps.refl _ | with_reducible refine (State.emit_keeps ..).after ?_ rfl
                | with_reducible refine (State.trip_keeps ..).after ?_ rfl | with_reducible refine Keeps.ite (fun _ => ?_) (fun _ => ?_)
                | split | (with_reducible refine Keeps.mk' ?_ ?_ ?_ ?_ ?_ ?_ ?_ ?_)

theorem State.enterIdle_keeps (s : State) (n : Nat) : Keeps 0x24 s (State.enterIdle s n) := by
  unfold State.enterIdle
  try simp -proj -iota -beta -eta only []
  repeat' first | exact .inl rfl | with_reducible exact .inr rfl | with_reducible apply And.intro
                | with_reducible exact clk_same rfl rfl rfl | with_reducible exact ⟨le_rfl, fun h => h⟩ | with_reducible exact fun h => h
                | with_reducible exact Keeps.refl _ | with_reducible refine (State.bump_keeps ..).after ?_ rfl
                | with_reducible refine (State.flowSleep_keeps ..).after ?_ rfl | (with_reducible refine Keeps.mk' ?_ ?_ ?_ ?_ ?_ ?_ ?_ ?_)

/-! ### Kill -/

theorem State.copyAborted_keeps (s : State) (d : Started) : Keeps 0x22364 s (State.copyAborted s d) := by
  unfold State.copyAborted
  try simp -proj -iota -beta -eta only []
  repeat' first | with_reducible exact Keeps.refl _ | with_reducible refine (State.raise_keeps ..).after ?_ rfl
                | with_reducible refine (State.send_keeps ..).after ?_ rfl | with_reducible refine Keeps.ite (fun _ => ?_) (fun _ => ?_)
                | split

theorem State.preempt_keeps (s : State) (d : Started) : Keeps 0x22364 s (State.preempt s d) := by
  unfold State.preempt
  try simp -proj -iota -beta -eta only []
  repeat' first | with_reducible exact Keeps.refl _ | with_reducible refine (State.complete_keeps ..).after ?_ rfl
                | with_reducible refine (State.copyAborted_keeps ..).after ?_ rfl

theorem State.preemptSlot_keeps (s : State) (n : Nat) : Keeps 0x22364 s (State.preemptSlot s n) := by
  unfold State.preemptSlot
  try simp -proj -iota -beta -eta only []
  repeat' first | with_reducible exact Keeps.refl _ | with_reducible refine (State.preempt_keeps ..).after ?_ rfl
                | with_reducible refine Keeps.ite (fun _ => ?_) (fun _ => ?_) | with_reducible refine Keeps.foldl _ _ _ _ (fun s x => ?_) ?_

theorem State.resetTies_keeps (s : State) : Keeps 0x20364 s (State.resetTies s) := by
  unfold State.resetTies
  try simp -proj -iota -beta -eta only []
  repeat' first | with_reducible exact Keeps.refl _ | with_reducible refine (State.orderLost_keeps ..).after ?_ rfl
                | with_reducible refine Keeps.ite (fun _ => ?_) (fun _ => ?_) | with_reducible refine Keeps.foldl _ _ _ _ (fun s x => ?_) ?_

theorem State.powerTies_keeps (s : State) : Keeps 0x20364 s (State.powerTies s) := by
  unfold State.powerTies
  try simp -proj -iota -beta -eta only []
  repeat' first | with_reducible exact Keeps.refl _ | with_reducible refine (State.complete_keeps ..).after ?_ rfl
                | with_reducible refine (State.orderLost_keeps ..).after ?_ rfl
                | with_reducible refine Keeps.ite (fun _ => ?_) (fun _ => ?_) | with_reducible refine Keeps.foldl _ _ _ _ (fun s x => ?_) ?_
                | split

theorem State.loseTies_keeps (s : State) (n : Nat) (tied : List (Fin 32)) (master : Nat) : Keeps 0x22364 s (State.loseTies s n tied master) := by
  unfold State.loseTies
  try simp -proj -iota -beta -eta only []
  repeat' first | with_reducible exact Keeps.refl _ | with_reducible refine (State.orderLost_keeps ..).after ?_ rfl
                | with_reducible refine (State.preempt_keeps ..).after ?_ rfl | with_reducible refine Keeps.ite (fun _ => ?_) (fun _ => ?_)
                | with_reducible refine Keeps.foldl _ _ _ _ (fun s x => ?_) ?_

theorem State.killStart_keeps (s : State) (n : Nat) : Keeps 0x27f65 s (State.killStart s n) := by
  unfold State.killStart
  try simp -proj -iota -beta -eta only []
  repeat' first | with_reducible exact Keeps.refl _ | with_reducible refine (State.setSlot_keeps ..).after ?_ rfl
                | with_reducible refine (State.releaseSlot_keeps ..).after ?_ rfl
                | with_reducible refine (State.preemptSlot_keeps ..).after ?_ rfl
                | with_reducible refine Keeps.ite (fun _ => ?_) (fun _ => ?_)

theorem State.scrubRegions_keeps (s : State) (v : Survey) : Keeps 0x20c04 s (State.scrubRegions s v) := by
  unfold State.scrubRegions
  try simp -proj -iota -beta -eta only []
  repeat' first | with_reducible exact Keeps.refl _ | with_reducible refine (State.hbmZero_keeps ..).after ?_ rfl
                | with_reducible refine Keeps.foldl _ _ _ _ (fun s x => ?_) ?_

theorem State.killFinish_keeps (s : State) (n : Nat) : Keeps 0x23c05 s (State.killFinish s n) := by
  unfold State.killFinish
  try simp -proj -iota -beta -eta only []
  repeat' first | exact .inl rfl | with_reducible exact .inr rfl | with_reducible apply And.intro
                | with_reducible exact clk_same rfl rfl rfl | with_reducible exact ⟨le_rfl, fun h => h⟩ | with_reducible exact fun h => h
                | with_reducible exact Keeps.refl _ | with_reducible refine (State.setRf_keeps ..).after ?_ rfl
                | with_reducible refine (State.setSlot_keeps ..).after ?_ rfl
                | with_reducible refine (State.scrubSlot_keeps ..).after ?_ rfl
                | with_reducible refine (State.scrubRegions_keeps ..).after ?_ rfl | split
                | (with_reducible refine Keeps.mk' ?_ ?_ ?_ ?_ ?_ ?_ ?_ ?_)

theorem State.killAll_keeps (s : State) : Keeps 0x27f65 s (State.killAll s) := by
  unfold State.killAll
  try simp -proj -iota -beta -eta only []
  repeat' first | with_reducible exact Keeps.refl _ | with_reducible refine (State.killStart_keeps ..).after ?_ rfl
                | with_reducible refine Keeps.foldl _ _ _ _ (fun s x => ?_) ?_

theorem State.freeSealed_keeps (s : State) (r : Nat) : Keeps 0x20c84 s (State.freeSealed s r) := by
  unfold State.freeSealed
  try simp -proj -iota -beta -eta only []
  repeat' first | exact .inl rfl | with_reducible exact .inr rfl | with_reducible apply And.intro
                | with_reducible exact clk_same rfl rfl rfl | with_reducible exact ⟨le_rfl, fun h => h⟩ | with_reducible exact fun h => h
                | with_reducible exact Keeps.refl _ | with_reducible refine (State.hbmZero_keeps ..).after ?_ rfl | split
                | (with_reducible refine Keeps.mk' ?_ ?_ ?_ ?_ ?_ ?_ ?_ ?_)

theorem State.releaseSealed_keeps (s : State) (r : Nat) : Keeps 0x80 s (State.releaseSealed s r) := by
  unfold State.releaseSealed
  try simp -proj -iota -beta -eta only []
  repeat' first | exact .inl rfl | with_reducible exact .inr rfl | with_reducible apply And.intro
                | with_reducible exact clk_same rfl rfl rfl | with_reducible exact ⟨le_rfl, fun h => h⟩ | with_reducible exact fun h => h
                | with_reducible exact Keeps.refl _ | split | (with_reducible refine Keeps.mk' ?_ ?_ ?_ ?_ ?_ ?_ ?_ ?_)

theorem State.releaseSealedWhere_keeps (s : State) (p : Sealed → Bool) : Keeps 0x80 s (State.releaseSealedWhere s p) := by
  unfold State.releaseSealedWhere
  try simp -proj -iota -beta -eta only []
  repeat' first | exact .inl rfl | with_reducible exact .inr rfl | with_reducible apply And.intro
                | with_reducible exact clk_same rfl rfl rfl | with_reducible exact ⟨le_rfl, fun h => h⟩ | with_reducible exact fun h => h
                | with_reducible exact Keeps.refl _ | (with_reducible refine Keeps.mk' ?_ ?_ ?_ ?_ ?_ ?_ ?_ ?_)

theorem State.fenceSite_keeps (s : State) (k : Nat) (cause : FenceCause) : Keeps 0x27364 s (State.fenceSite s k cause) := by
  unfold State.fenceSite
  try simp -proj -iota -beta -eta only []
  repeat' first | exact .inl rfl | with_reducible exact .inr rfl | with_reducible apply And.intro
                | with_reducible exact clk_same rfl rfl rfl | with_reducible exact ⟨le_rfl, fun h => h⟩ | with_reducible exact fun h => h
                | with_reducible exact Keeps.refl _ | with_reducible refine (State.bump_keeps ..).after ?_ rfl
                | with_reducible refine (State.raise_keeps ..).after ?_ rfl | with_reducible refine (State.stopSlot_keeps ..).after ?_ rfl
                | with_reducible refine (State.requestNv_keeps ..).after ?_ rfl
                | with_reducible refine Keeps.ite (fun _ => ?_) (fun _ => ?_) | with_reducible refine Keeps.foldl _ _ _ _ (fun s x => ?_) ?_
                | split | (with_reducible refine Keeps.mk' ?_ ?_ ?_ ?_ ?_ ?_ ?_ ?_)

theorem State.sramSeen_keeps (s : State) (site : Nat) : Keeps 0x27364 s (State.sramSeen s site) := by
  unfold State.sramSeen
  try simp -proj -iota -beta -eta only []
  repeat' first | exact .inl rfl | with_reducible exact .inr rfl | with_reducible apply And.intro
                | with_reducible exact clk_same rfl rfl rfl | with_reducible exact ⟨le_rfl, fun h => h⟩ | with_reducible exact fun h => h
                | with_reducible exact Keeps.refl _ | with_reducible refine (State.fenceSite_keeps ..).after ?_ rfl
                | with_reducible refine Keeps.ite (fun _ => ?_) (fun _ => ?_) | (with_reducible refine Keeps.mk' ?_ ?_ ?_ ?_ ?_ ?_ ?_ ?_)

theorem State.sramUe_keeps (s : State) (n : Fin 8) (site : Nat) (st : SramStruct) (word : Nat) : Keeps 0x27364 s (State.sramUe s n site st word) := by
  unfold State.sramUe
  try simp -proj -iota -beta -eta only []
  repeat' first | with_reducible exact Keeps.refl _ | with_reducible refine (State.jobFault_keeps ..).after ?_ rfl
                | with_reducible refine (State.sramSeen_keeps ..).after ?_ rfl

/-! ### Walk -/

theorem State.setStream_keeps (s : State) (slot tmpl : Nat) (x : StreamRun) : Keeps 0x2000 s (State.setStream s slot tmpl x) := by
  unfold State.setStream
  try simp -proj -iota -beta -eta only []
  repeat' first | exact .inl rfl | with_reducible exact .inr rfl | with_reducible apply And.intro
                | with_reducible exact clk_same rfl rfl rfl | with_reducible exact ⟨le_rfl, fun h => h⟩ | with_reducible exact fun h => h
                | with_reducible exact Keeps.refl _ | (with_reducible refine Keeps.mk' ?_ ?_ ?_ ?_ ?_ ?_ ?_ ?_)

theorem State.takeRearm_keeps (s : State) (r : StRef) (e : Entry) : Keeps 0x2000 s (State.takeRearm s r e) := by
  unfold State.takeRearm
  try simp -proj -iota -beta -eta only []
  repeat' first | with_reducible exact Keeps.refl _ | with_reducible refine (State.setStream_keeps ..).after ?_ rfl
                | with_reducible refine Keeps.ite (fun _ => ?_) (fun _ => ?_) | split

theorem State.boundFault_keeps (s : State) (r : StRef) (f : Nat × Int) : Keeps 0x27364 s (State.boundFault s r f) := by
  unfold State.boundFault
  try simp -proj -iota -beta -eta only []
  repeat' first | with_reducible exact Keeps.refl _ | with_reducible refine (State.jobFault_keeps ..).after ?_ rfl
                | with_reducible refine (State.bumpSite_keeps ..).after ?_ rfl

theorem State.setCoal_keeps (s : State) (r : StRef) (c : CoalRun) : Keeps 0x2000 s (State.setCoal s r c) := by
  unfold State.setCoal
  try simp -proj -iota -beta -eta only []
  repeat' first | exact .inl rfl | with_reducible exact .inr rfl | with_reducible apply And.intro
                | with_reducible exact clk_same rfl rfl rfl | with_reducible exact ⟨le_rfl, fun h => h⟩ | with_reducible exact fun h => h
                | with_reducible exact Keeps.refl _ | (with_reducible refine Keeps.mk' ?_ ?_ ?_ ?_ ?_ ?_ ?_ ?_)

theorem State.spadUe_keeps (s : State) (word : Nat) : Keeps 0x27364 s (State.spadUe s word) := by
  unfold State.spadUe
  try simp -proj -iota -beta -eta only []
  repeat' first | with_reducible exact Keeps.refl _ | with_reducible refine (State.raise_keeps ..).after ?_ rfl
                | with_reducible refine (State.sramSeen_keeps ..).after ?_ rfl | with_reducible refine (State.sramUe_keeps ..).after ?_ rfl
                | split

theorem State.bankWrite_keeps (s : State) (site : Nat) (bs : List (Nat × Byte)) : Keeps 0x27364 s (State.bankWrite s site bs) := by
  unfold State.bankWrite
  try simp -proj -iota -beta -eta only []
  repeat' first | exact .inl rfl | with_reducible exact .inr rfl | with_reducible apply And.intro
                | with_reducible exact clk_same rfl rfl rfl | with_reducible exact ⟨le_rfl, fun h => h⟩ | with_reducible exact fun h => h
                | with_reducible exact Keeps.refl _ | with_reducible refine (State.bumpSite_keeps ..).after ?_ rfl
                | with_reducible refine (State.setScratchByte_keeps ..).after ?_ rfl
                | with_reducible refine (State.spadUe_keeps ..).after ?_ rfl | with_reducible refine Keeps.ite (fun _ => ?_) (fun _ => ?_)
                | with_reducible refine Keeps.foldl _ _ _ _ (fun s x => ?_) ?_ | split
                | (with_reducible refine Keeps.mk' ?_ ?_ ?_ ?_ ?_ ?_ ?_ ?_)

theorem State.flushCoal_keeps (s : State) (r : StRef) : Keeps 0x27364 s (State.flushCoal s r) := by
  unfold State.flushCoal
  try simp -proj -iota -beta -eta only []
  repeat' first | with_reducible exact Keeps.refl _ | with_reducible refine (State.setCoal_keeps ..).after ?_ rfl
                | with_reducible refine (State.bankWrite_keeps ..).after ?_ rfl | split

theorem State.gatherLine_keeps (s : State) (r : StRef) (line : Nat) (bs : List (Nat × Byte)) : Keeps 0x27364 s (State.gatherLine s r line bs) := by
  unfold State.gatherLine
  try simp -proj -iota -beta -eta only []
  repeat' first | with_reducible exact Keeps.refl _ | with_reducible refine (State.setCoal_keeps ..).after ?_ rfl
                | with_reducible refine (State.flushCoal_keeps ..).after ?_ rfl
                | with_reducible refine Keeps.ite (fun _ => ?_) (fun _ => ?_) | split

theorem State.walkWrite_keeps (s : State) (r : StRef) (d : AgDesc) (bs : List (Nat × Byte)) : Keeps 0x27364 s (State.walkWrite s r d bs) := by
  unfold State.walkWrite
  try simp -proj -iota -beta -eta only []
  repeat' first | with_reducible exact Keeps.refl _ | with_reducible refine (State.bumpSite_keeps ..).after ?_ rfl
                | with_reducible refine (State.bankWrite_keeps ..).after ?_ rfl
                | with_reducible refine (State.gatherLine_keeps ..).after ?_ rfl
                | with_reducible refine Keeps.ite (fun _ => ?_) (fun _ => ?_) | with_reducible refine Keeps.foldl _ _ _ _ (fun s x => ?_) ?_

theorem State.walkRead_keeps (s : State) (r : StRef) (d : AgDesc) (lines : List Nat) : Keeps 0x2004 s (State.walkRead s r d lines) := by
  unfold State.walkRead
  try simp -proj -iota -beta -eta only []
  repeat' first | with_reducible exact Keeps.refl _ | with_reducible refine (State.bumpSite_keeps ..).after ?_ rfl
                | with_reducible refine (State.setCoal_keeps ..).after ?_ rfl | with_reducible refine Keeps.ite (fun _ => ?_) (fun _ => ?_)

theorem State.countRead_keeps (s : State) (r : StRef) (t : Tmpl) (d : AgDesc) (w : WalkTile) : Keeps 0x22804 s (State.countRead s r t d w) := by
  unfold State.countRead
  try simp -proj -iota -beta -eta only []
  repeat' first | with_reducible exact Keeps.refl _ | with_reducible refine (State.touchLine_keeps ..).after ?_ rfl
                | with_reducible refine (State.bumpSite_keeps ..).after ?_ rfl
                | with_reducible refine (State.walkRead_keeps ..).after ?_ rfl | with_reducible refine Keeps.ite (fun _ => ?_) (fun _ => ?_)
                | with_reducible refine Keeps.foldl _ _ _ _ (fun s x => ?_) ?_ | split

theorem State.writeHbmTile_keeps (s : State) (t : Tmpl) (d : AgDesc) (w : WalkTile) (bs : List Byte) (base : Nat) : Keeps 0x27f64 s (State.writeHbmTile s t d w bs base) := by
  unfold State.writeHbmTile
  try simp -proj -iota -beta -eta only []
  repeat' first | exact .inl rfl | with_reducible exact .inr rfl | with_reducible apply And.intro
                | with_reducible exact clk_same rfl rfl rfl | with_reducible exact ⟨le_rfl, fun h => h⟩ | with_reducible exact fun h => h
                | with_reducible exact Keeps.refl _ | with_reducible refine (State.putBytes_keeps ..).after ?_ rfl
                | with_reducible refine (State.touchLine_keeps ..).after ?_ rfl | with_reducible refine (State.hbmUe_keeps ..).after ?_ rfl
                | with_reducible refine Keeps.ite (fun _ => ?_) (fun _ => ?_) | with_reducible refine Keeps.foldl _ _ _ _ (fun s x => ?_) ?_
                | with_reducible refine Keeps.foldlP _ _ _ _ (fun _ _ => ?_) ?_ | split
                | (with_reducible refine Keeps.mk' ?_ ?_ ?_ ?_ ?_ ?_ ?_ ?_)

theorem State.writeSpadTile_keeps (s : State) (r : StRef) (d : AgDesc) (w : WalkTile) (bs : List Byte) : Keeps 0x27364 s (State.writeSpadTile s r d w bs) := by
  unfold State.writeSpadTile
  try simp -proj -iota -beta -eta only []
  repeat' first | with_reducible exact Keeps.refl _ | with_reducible refine (State.walkWrite_keeps ..).after ?_ rfl
                | with_reducible refine Keeps.ite (fun _ => ?_) (fun _ => ?_) | with_reducible refine Keeps.foldl _ _ _ _ (fun s x => ?_) ?_
                | split

theorem State.writeTile_keeps (s : State) (r : StRef) (t : Tmpl) (d : AgDesc) (w : WalkTile) (bs : List Byte) : Keeps 0x27f64 s (State.writeTile s r t d w bs) := by
  unfold State.writeTile
  try simp -proj -iota -beta -eta only []
  repeat' first | with_reducible exact Keeps.refl _ | with_reducible refine (State.bumpSite_keeps ..).after ?_ rfl
                | with_reducible refine (State.writeHbmTile_keeps ..).after ?_ rfl
                | with_reducible refine (State.writeSpadTile_keeps ..).after ?_ rfl
                | with_reducible refine Keeps.ite (fun _ => ?_) (fun _ => ?_) | split

/-! ### Fire -/

theorem State.walkDone_keeps (s : State) (r : StRef) (e : Entry) : Keeps 0x2000 s (State.walkDone s r e) := by
  unfold State.walkDone
  try simp -proj -iota -beta -eta only []
  repeat' first | with_reducible exact Keeps.refl _ | with_reducible refine (State.setStream_keeps ..).after ?_ rfl
                | with_reducible refine (State.takeRearm_keeps ..).after ?_ rfl
                | with_reducible refine Keeps.ite (fun _ => ?_) (fun _ => ?_) | split

theorem State.advance_keeps (s : State) (r : StRef) (entry : Nat) (e : Entry) (tag : Nat) (step : Option Nat) : Keeps 0x2000 s (State.advance s r entry e tag step) := by
  unfold State.advance
  try simp -proj -iota -beta -eta only []
  repeat' first | with_reducible exact Keeps.refl _ | with_reducible refine (State.setRun_keeps ..).after ?_ rfl
                | with_reducible refine (State.walkDone_keeps ..).after ?_ rfl | with_reducible refine Keeps.ite (fun _ => ?_) (fun _ => ?_)

theorem State.contribute_keeps (s : State) (r : StRef) (entry : Nat) (e : Entry) (tag step : Nat) : Keeps 0x2000 s (State.contribute s r entry e tag step) := by
  unfold State.contribute
  try simp -proj -iota -beta -eta only []
  repeat' first | with_reducible exact Keeps.refl _ | with_reducible refine (State.setRun_keeps ..).after ?_ rfl
                | with_reducible refine Keeps.ite (fun _ => ?_) (fun _ => ?_)

theorem State.endReduction_keeps (s : State) (r : StRef) (entry : Nat) (e : Entry) (tag step : Nat) (run : Option Nat) : Keeps 0x2000 s (State.endReduction s r entry e tag step run) := by
  unfold State.endReduction
  try simp -proj -iota -beta -eta only []
  repeat' first | with_reducible exact Keeps.refl _ | with_reducible refine (State.setRun_keeps ..).after ?_ rfl
                | with_reducible refine (State.output_keeps ..).after ?_ rfl | with_reducible refine Keeps.ite (fun _ => ?_) (fun _ => ?_)
                | with_reducible refine Keeps.foldl _ _ _ _ (fun s x => ?_) ?_ | split

theorem State.useShared_keeps (s : State) (r : StRef) (e : Entry) (tag : Nat) (last : Bool) : Keeps 0x2000 s (State.useShared s r e tag last) := by
  unfold State.useShared
  try simp -proj -iota -beta -eta only []
  repeat' first | with_reducible exact Keeps.refl _ | with_reducible refine (State.releaseTok_keeps ..).after ?_ rfl
                | with_reducible refine (State.useTok_keeps ..).after ?_ rfl | with_reducible refine Keeps.ite (fun _ => ?_) (fun _ => ?_)
                | with_reducible refine Keeps.foldl _ _ _ _ (fun s x => ?_) ?_ | split

theorem State.skipTile_keeps (s : State) (r : StRef) (entry : Nat) (e : Entry) (tag : Nat) (run : Option Nat) : Keeps 0x2004 s (State.skipTile s r entry e tag run) := by
  unfold State.skipTile
  try simp -proj -iota -beta -eta only []
  repeat' first | with_reducible exact Keeps.refl _ | with_reducible refine (State.bumpCtx_keeps ..).after ?_ rfl
                | with_reducible refine (State.advance_keeps ..).after ?_ rfl
                | with_reducible refine (State.endReduction_keeps ..).after ?_ rfl
                | with_reducible refine (State.useShared_keeps ..).after ?_ rfl

theorem State.countClamp_keeps (s : State) (r : StRef) (entry : Nat) (e : Entry) (h : Option Held) : Keeps 0x2004 s (State.countClamp s r entry e h) := by
  unfold State.countClamp
  try simp -proj -iota -beta -eta only []
  repeat' first | with_reducible exact Keeps.refl _ | with_reducible refine (State.setRun_keeps ..).after ?_ rfl
                | with_reducible refine (State.bumpCtx_keeps ..).after ?_ rfl | with_reducible refine Keeps.ite (fun _ => ?_) (fun _ => ?_)
                | split

theorem State.consume_keeps (s : State) (r : StRef) (e : Entry) (f : Firing) (last : Bool) : Keeps 0x2000 s (State.consume s r e f last) := by
  unfold State.consume
  try simp -proj -iota -beta -eta only []
  repeat' first | with_reducible exact Keeps.refl _ | with_reducible refine (State.releaseTok_keeps ..).after ?_ rfl
                | with_reducible refine (State.useTok_keeps ..).after ?_ rfl | with_reducible refine (State.setPanel_keeps ..).after ?_ rfl
                | with_reducible refine Keeps.ite (fun _ => ?_) (fun _ => ?_) | with_reducible refine Keeps.foldl _ _ _ _ (fun s x => ?_) ?_
                | split

theorem State.generatorBanks_keeps (s : State) (r : StRef) (bs : List Nat) : Keeps 0x2004 s (State.generatorBanks s r bs).1 := by
  unfold State.generatorBanks
  try simp -proj -iota -beta -eta only []
  repeat' first | with_reducible exact Keeps.refl _ | with_reducible refine (State.setRun_keeps ..).after ?_ rfl
                | with_reducible refine (State.accessBanks_keeps ..).after ?_ rfl | split

theorem State.skipEmpty_keeps (s : State) (r : StRef) (e : Entry) (f : Firing) (d : AgDesc) (w : WalkTile) : Keeps 0x2004 s (State.skipEmpty s r e f d w) := by
  unfold State.skipEmpty
  try simp -proj -iota -beta -eta only []
  repeat' first | with_reducible exact Keeps.refl _ | with_reducible refine (State.bumpSite_keeps ..).after ?_ rfl
                | with_reducible refine (State.bumpCtx_keeps ..).after ?_ rfl | with_reducible refine (State.advance_keeps ..).after ?_ rfl
                | with_reducible refine (State.consume_keeps ..).after ?_ rfl
                | with_reducible refine (State.generatorBanks_keeps ..).after ?_ rfl
                | with_reducible refine Keeps.ite (fun _ => ?_) (fun _ => ?_)

theorem State.accWrite_keeps (s : State) (site a tile : Nat) (vs : List Word) : Keeps 0x2000 s (State.accWrite s site a tile vs) := by
  unfold State.accWrite
  try simp -proj -iota -beta -eta only []
  repeat' first | exact .inl rfl | with_reducible exact .inr rfl | with_reducible apply And.intro
                | with_reducible exact clk_same rfl rfl rfl | with_reducible exact ⟨le_rfl, fun h => h⟩ | with_reducible exact fun h => h
                | with_reducible exact Keeps.refl _ | (with_reducible refine Keeps.mk' ?_ ?_ ?_ ?_ ?_ ?_ ?_ ?_)

theorem State.accStore_keeps (s : State) (site a tile : Nat) (vs : List Word) : Keeps 0x2000 s (State.accStore s site a tile vs) := by
  unfold State.accStore
  try simp -proj -iota -beta -eta only []
  repeat' first | with_reducible exact Keeps.refl _ | with_reducible refine (State.accWrite_keeps ..).after ?_ rfl
                | with_reducible refine Keeps.foldl _ _ _ _ (fun s x => ?_) ?_

theorem State.giveArray_keeps (s : State) (r : StRef) (a cyc : Nat) (w : TileWork) : Keeps 0x2004 s (State.giveArray s r a cyc w) := by
  unfold State.giveArray
  try simp -proj -iota -beta -eta only []
  repeat' first | with_reducible exact Keeps.refl _ | with_reducible refine (State.bumpSite_keeps ..).after ?_ rfl
                | with_reducible refine (State.setArr_keeps ..).after ?_ rfl | with_reducible refine Keeps.ite (fun _ => ?_) (fun _ => ?_)

theorem State.countFill_keeps (s : State) (r : StRef) (cyc : Nat) : Keeps 0x4 s (State.countFill s r cyc) := by
  unfold State.countFill
  try simp -proj -iota -beta -eta only []
  repeat' first | with_reducible exact Keeps.refl _ | with_reducible refine (State.bumpSite_keeps ..).after ?_ rfl
                | with_reducible refine Keeps.ite (fun _ => ?_) (fun _ => ?_)

theorem State.takeLane_keeps (s : State) (site t n : Nat) : Keeps 0x2000 s (State.takeLane s site t n) := by
  unfold State.takeLane
  try simp -proj -iota -beta -eta only []
  repeat' first | exact .inl rfl | with_reducible exact .inr rfl | with_reducible apply And.intro
                | with_reducible exact clk_same rfl rfl rfl | with_reducible exact ⟨le_rfl, fun h => h⟩ | with_reducible exact fun h => h
                | with_reducible exact Keeps.refl _ | (with_reducible refine Keeps.mk' ?_ ?_ ?_ ?_ ?_ ?_ ?_ ?_)

theorem State.fireProduct_keeps (s : State) (r : StRef) (e : Entry) (f : Firing) (i : Issue) : Keeps 0x2004 s (State.fireProduct s r e f i) := by
  unfold State.fireProduct
  try simp -proj -iota -beta -eta only []
  repeat' first | with_reducible exact Keeps.refl _ | with_reducible refine (State.setRun_keeps ..).after ?_ rfl
                | with_reducible refine (State.bumpSite_keeps ..).after ?_ rfl
                | with_reducible refine (State.contribute_keeps ..).after ?_ rfl
                | with_reducible refine (State.giveArray_keeps ..).after ?_ rfl
                | with_reducible refine (State.countFill_keeps ..).after ?_ rfl
                | with_reducible refine Keeps.foldl _ _ _ _ (fun s x => ?_) ?_ | split

theorem State.fusedArray_keeps (s : State) (r : StRef) (e : Entry) (f : Firing) (i : Issue) (a n : Nat) (start last : Bool) : Keeps 0x2004 s (State.fusedArray s r e f i a n start last).1 := by
  unfold State.fusedArray
  try simp -proj -iota -beta -eta only []
  repeat' first | with_reducible exact Keeps.refl _ | with_reducible refine (State.bumpSite_keeps ..).after ?_ rfl
                | with_reducible refine (State.putRow_keeps ..).after ?_ rfl | with_reducible refine (State.runLine_keeps ..).after ?_ rfl
                | with_reducible refine (State.countMarks_keeps ..).after ?_ rfl
                | with_reducible refine Keeps.foldlP _ _ _ _ (fun _ _ => ?_) ?_ | split

theorem State.openBoundary_keeps (s : State) (r : StRef) (step : Option Nat) : Keeps 0x2000 s (State.openBoundary s r step) := by
  unfold State.openBoundary
  try simp -proj -iota -beta -eta only []
  repeat' first | with_reducible exact Keeps.refl _ | with_reducible refine (State.setRun_keeps ..).after ?_ rfl

theorem State.fireFused_keeps (s : State) (r : StRef) (e : Entry) (f : Firing) (i : Issue) : Keeps 0x2004 s (State.fireFused s r e f i) := by
  unfold State.fireFused
  try simp -proj -iota -beta -eta only []
  repeat' first | with_reducible exact Keeps.refl _ | with_reducible refine (State.contribute_keeps ..).after ?_ rfl
                | with_reducible refine (State.giveArray_keeps ..).after ?_ rfl
                | with_reducible refine (State.countFill_keeps ..).after ?_ rfl
                | with_reducible refine (State.takeLane_keeps ..).after ?_ rfl
                | with_reducible refine (State.fusedArray_keeps ..).after ?_ rfl
                | with_reducible refine (State.openBoundary_keeps ..).after ?_ rfl
                | with_reducible refine Keeps.foldl _ _ _ _ (fun s x => ?_) ?_

theorem State.vectorOut_keeps (s : State) (r : StRef) (e : Entry) (f : Firing) (i : Issue) (prog : List VInstr) (start : Bool) (rows : List (List Word)) : Keeps 0x2000 s (State.vectorOut s r e f i prog start rows) := by
  unfold State.vectorOut
  try simp -proj -iota -beta -eta only []
  repeat' first | with_reducible exact Keeps.refl _ | with_reducible refine (State.runLines_keeps ..).after ?_ rfl
                | with_reducible refine (State.outputRows_keeps ..).after ?_ rfl
                | with_reducible refine (State.takeLane_keeps ..).after ?_ rfl
                | with_reducible refine (State.openBoundary_keeps ..).after ?_ rfl

theorem State.fireSelect_keeps (s : State) (r : StRef) (e : Entry) (f : Firing) (i : Issue) (pred : Bool) : Keeps 0x2000 s (State.fireSelect s r e f i pred) := by
  unfold State.fireSelect
  try simp -proj -iota -beta -eta only []
  repeat' first | with_reducible exact Keeps.refl _ | with_reducible refine (State.outputAll_keeps ..).after ?_ rfl
                | with_reducible refine (State.openBoundary_keeps ..).after ?_ rfl | split

theorem State.fireUpdate_keeps (s : State) (r : StRef) (e : Entry) (f : Firing) (i : Issue) : Keeps 0x2000 s (State.fireUpdate s r e f i) := by
  unfold State.fireUpdate
  try simp -proj -iota -beta -eta only []
  repeat' first | with_reducible exact Keeps.refl _ | with_reducible refine (State.outputRows_keeps ..).after ?_ rfl
                | with_reducible refine (State.takeLane_keeps ..).after ?_ rfl
                | with_reducible refine (State.openBoundary_keeps ..).after ?_ rfl

theorem State.fireRead_keeps (s : State) (r : StRef) (e : Entry) (f : Firing) (i : Issue) (t : Tmpl) (d : AgDesc) (w : WalkTile) : Keeps 0x27b64 s (State.fireRead s r e f i t d w) := by
  unfold State.fireRead
  try simp -proj -iota -beta -eta only []
  repeat' first | with_reducible exact Keeps.refl _ | with_reducible refine (State.hbmUe_keeps ..).after ?_ rfl
                | with_reducible refine (State.outputAll_keeps ..).after ?_ rfl | with_reducible refine (State.spadUe_keeps ..).after ?_ rfl
                | with_reducible refine (State.countRead_keeps ..).after ?_ rfl
                | with_reducible refine (State.openBoundary_keeps ..).after ?_ rfl | split

theorem State.sinkTile_keeps (s : State) (r : StRef) (e : Entry) (f : Firing) (t : Tmpl) (d : AgDesc) (w : WalkTile) (p : Nat × InPort) : Keeps 0x27f64 s (State.sinkTile s r e f t d w p).1 := by
  unfold State.sinkTile
  try simp -proj -iota -beta -eta only []
  repeat' first | exact .inl rfl | with_reducible exact .inr rfl | with_reducible apply And.intro
                | with_reducible exact clk_same rfl rfl rfl | with_reducible exact ⟨le_rfl, fun h => h⟩ | with_reducible exact fun h => h
                | with_reducible exact Keeps.refl _ | with_reducible refine (State.writeTile_keeps ..).after ?_ rfl | split
                | (with_reducible refine Keeps.mk' ?_ ?_ ?_ ?_ ?_ ?_ ?_ ?_)

theorem State.fireSink_keeps (s : State) (r : StRef) (e : Entry) (f : Firing) (i : Issue) (t : Tmpl) (d : AgDesc) (w : WalkTile) : Keeps 0x27f64 s (State.fireSink s r e f i t d w) := by
  unfold State.fireSink
  try simp -proj -iota -beta -eta only []
  repeat' first | with_reducible exact Keeps.refl _ | with_reducible refine (State.setRun_keeps ..).after ?_ rfl
                | with_reducible refine (State.openBoundary_keeps ..).after ?_ rfl
                | with_reducible refine (State.sinkTile_keeps ..).after ?_ rfl | split

theorem State.noteStaged_keeps (s : State) (r : StRef) (t : Tmpl) (d : AgDesc) (w : WalkTile) : Keeps 0x2000 s (State.noteStaged s r t d w) := by
  unfold State.noteStaged
  try simp -proj -iota -beta -eta only []
  repeat' first | exact .inl rfl | with_reducible exact .inr rfl | with_reducible apply And.intro
                | with_reducible exact clk_same rfl rfl rfl | with_reducible exact ⟨le_rfl, fun h => h⟩ | with_reducible exact fun h => h
                | with_reducible exact Keeps.refl _ | (with_reducible refine Keeps.mk' ?_ ?_ ?_ ?_ ?_ ?_ ?_ ?_)

theorem State.walkError_keeps (s : State) (r : StRef) (e : Entry) (f : Firing) (i : Issue) : Keeps 0x2000 s (State.walkError s r e f i) := by
  unfold State.walkError
  try simp -proj -iota -beta -eta only []
  repeat' first | with_reducible exact Keeps.refl _ | with_reducible refine (State.outputAll_keeps ..).after ?_ rfl

theorem State.walkGo_keeps (s : State) (r : StRef) (e : Entry) (f : Firing) (i : Issue) (t : Tmpl) (d : AgDesc) (w : WalkTile × Option (Nat × Int)) : Keeps 0x27f64 s (State.walkGo s r e f i t d w) := by
  unfold State.walkGo
  try simp -proj -iota -beta -eta only []
  repeat' first | with_reducible exact Keeps.refl _ | with_reducible refine (State.boundFault_keeps ..).after ?_ rfl
                | with_reducible refine (State.countRead_keeps ..).after ?_ rfl
                | with_reducible refine (State.fireRead_keeps ..).after ?_ rfl
                | with_reducible refine (State.sinkTile_keeps ..).after ?_ rfl
                | with_reducible refine (State.fireSink_keeps ..).after ?_ rfl
                | with_reducible refine (State.noteStaged_keeps ..).after ?_ rfl
                | with_reducible refine (State.walkError_keeps ..).after ?_ rfl
                | with_reducible refine Keeps.ite (fun _ => ?_) (fun _ => ?_) | split

theorem State.fireWalk_keeps (s : State) (r : StRef) (e : Entry) (f : Firing) (i : Issue) :
    OKeeps 0x27f64 s (s.fireWalk r e f i).1 ∧ Keeps 0x27f64 s (s.fireWalk r e f i).2 := by
  have hr : Keeps 0x27f64 s s := Keeps.refl s
  have hw : ∀ u, Keeps 0x27f64 s u → OKeeps 0x27f64 s (some (u.walkError r e f i)) := fun u h => OKeeps.some ((State.walkError_keeps ..).after h rfl)
  have hg : ∀ u l, Keeps 0x27f64 s u → Keeps 0x27f64 s (u.generatorBanks r l).1 := fun u l h => (State.generatorBanks_keeps ..).after h rfl
  have hs : ∀ u d x, Keeps 0x27f64 s u → Keeps 0x27f64 s (u.setRun d x) := fun u d x h => (State.setRun_keeps ..).after h rfl
  unfold State.fireWalk
  split
  rotate_left
  · exact ⟨hw _ hr, hr⟩
  rename_i t d _ _
  simp -proj -iota -beta -eta only []
  split
  · exact ⟨hw _ ((State.boundFault_keeps ..).mono rfl), hr⟩
  split
  · exact ⟨OKeeps.none, hg _ _ hr⟩
  split
  · exact ⟨hw _ ((State.spadUe_keeps ..).after ((State.bumpSite_keeps ..).after (hg _ _ hr) rfl) rfl), hr⟩
  split
  · exact ⟨hw _ ((State.sealStop_keeps ..).mono rfl), hr⟩
  split
  · exact ⟨OKeeps.none, hr⟩
  split
  · exact ⟨OKeeps.none, hs _ _ _ hr⟩
  have hc : Keeps 0x27f64 s (if r.st.kind = 7 ∧ t.sinkTo ≠ 0 then s.generatorBanks r (s.listBank r d (s.walkTile r e d i))
      else (s.generatorBanks r (s.listBank r d (s.walkTile r e d i))).1.generatorBanks r
        (s.tileBanks r t d (s.walkPart r t d (s.walkTile r e d i)).1)).1 := by
    split
    · exact hg _ _ hr
    · exact hg _ _ (hg _ _ hr)
  revert hc
  generalize (if r.st.kind = 7 ∧ t.sinkTo ≠ 0 then s.generatorBanks r (s.listBank r d (s.walkTile r e d i))
      else (s.generatorBanks r (s.listBank r d (s.walkTile r e d i))).1.generatorBanks r
        (s.tileBanks r t d (s.walkPart r t d (s.walkTile r e d i)).1)) = c
  intro hc
  split
  · exact ⟨OKeeps.none, hs _ _ _ hc⟩
  · exact ⟨OKeeps.some ((State.walkGo_keeps ..).after hc rfl), hr⟩

theorem State.settle_keeps (s : State) (r : StRef) (lo n : Nat) : Keeps 0x2000 s (State.settle s r lo n) := by
  unfold State.settle
  try simp -proj -iota -beta -eta only []
  repeat' first | with_reducible exact Keeps.refl _ | with_reducible refine (State.setArr_keeps ..).after ?_ rfl
                | with_reducible refine (State.accStore_keeps ..).after ?_ rfl | with_reducible refine Keeps.ite (fun _ => ?_) (fun _ => ?_)
                | with_reducible refine Keeps.foldl _ _ _ _ (fun s x => ?_) ?_ | split

theorem State.flushStationary_keeps (s0 : State) (r : StRef) (entry : Nat) (e : Entry) (tag : Nat) (step : Option Nat) : Keeps 0x2000 s0 (State.flushStationary s0 r entry e tag step) := by
  unfold State.flushStationary
  try simp -proj -iota -beta -eta only []
  repeat' first | with_reducible exact Keeps.refl _ | with_reducible refine (State.setRun_keeps ..).after ?_ rfl
                | with_reducible refine (State.output_keeps ..).after ?_ rfl
                | with_reducible refine (State.openBoundary_keeps ..).after ?_ rfl
                | with_reducible refine (State.settle_keeps ..).after ?_ rfl | with_reducible refine Keeps.foldl _ _ _ _ (fun s x => ?_) ?_
                | split

theorem State.fired_keeps (s : State) (r : StRef) (e : Entry) (f : Firing) (i : Issue) (ctr : Nat) : Keeps 0x43004 s (State.fired s r e f i ctr) := by
  unfold State.fired
  try simp -proj -iota -beta -eta only []
  repeat' first | with_reducible exact Keeps.refl _ | with_reducible refine (State.draw_keeps ..).after ?_ rfl
                | with_reducible refine (State.setRun_keeps ..).after ?_ rfl | with_reducible refine (State.bumpCtx_keeps ..).after ?_ rfl
                | with_reducible refine (State.progress_keeps ..).after ?_ rfl | with_reducible refine (State.advance_keeps ..).after ?_ rfl
                | with_reducible refine (State.endReduction_keeps ..).after ?_ rfl
                | with_reducible refine (State.consume_keeps ..).after ?_ rfl

theorem State.plantErrors_keeps (s : State) (r : StRef) (x : FireErrors) : Keeps 0x22844 s (State.plantErrors s r x) := by
  unfold State.plantErrors
  try simp -proj -iota -beta -eta only []
  repeat' first | exact .inl rfl | with_reducible exact .inr rfl | with_reducible apply And.intro
                | with_reducible exact clk_same rfl rfl rfl | with_reducible exact ⟨le_rfl, fun h => h⟩ | with_reducible exact fun h => h
                | with_reducible exact Keeps.refl _ | with_reducible refine (State.ceSite_keeps ..).after ?_ rfl
                | with_reducible refine (State.foundErrors_keeps ..).after ?_ rfl
                | with_reducible refine (State.bumpSite_keeps ..).after ?_ rfl | (with_reducible refine Keeps.mk' ?_ ?_ ?_ ?_ ?_ ?_ ?_ ?_)

theorem State.rowUe_keeps (s : State) (r : StRef) (x : FireErrors) : Keeps 0x27364 s (State.rowUe s r x) := by
  unfold State.rowUe
  try simp -proj -iota -beta -eta only []
  repeat' first | with_reducible exact Keeps.refl _ | with_reducible refine (State.sramUe_keeps ..).after ?_ rfl | split

theorem State.accErrors_keeps (s : State) (r : StRef) (read : Bool) (x : FireErrors) : Keeps 0x27364 s (State.accErrors s r read x) := by
  unfold State.accErrors
  try simp -proj -iota -beta -eta only []
  repeat' first | with_reducible exact Keeps.refl _ | with_reducible refine (State.ceSite_keeps ..).after ?_ rfl
                | with_reducible refine (State.bumpSite_keeps ..).after ?_ rfl | with_reducible refine (State.sramUe_keeps ..).after ?_ rfl
                | with_reducible refine Keeps.ite (fun _ => ?_) (fun _ => ?_) | split

theorem State.deliverNull_keeps (s : State) (r : StRef) (e : Entry) (f : Firing) (i : Issue) : Keeps 0x2004 s (State.deliverNull s r e f i) := by
  unfold State.deliverNull
  try simp -proj -iota -beta -eta only []
  repeat' first | with_reducible exact Keeps.refl _ | with_reducible refine (State.giveArray_keeps ..).after ?_ rfl
                | with_reducible refine (State.vectorOut_keeps ..).after ?_ rfl
                | with_reducible refine Keeps.ite (fun _ => ?_) (fun _ => ?_) | with_reducible refine Keeps.foldl _ _ _ _ (fun s x => ?_) ?_

theorem State.fireNull_keeps (s : State) (r : StRef) (e : Entry) (f : Firing) (i : Issue) : Keeps 0x2004 s (State.fireNull s r e f i) := by
  unfold State.fireNull
  try simp -proj -iota -beta -eta only []
  repeat' first | with_reducible exact Keeps.refl _ | with_reducible refine (State.outputAll_keeps ..).after ?_ rfl
                | with_reducible refine (State.contribute_keeps ..).after ?_ rfl
                | with_reducible refine (State.flushStationary_keeps ..).after ?_ rfl
                | with_reducible refine (State.deliverNull_keeps ..).after ?_ rfl
                | with_reducible refine Keeps.ite (fun _ => ?_) (fun _ => ?_)

/-! ### Cage -/

theorem State.begin_keeps (s : State) (spec : CmdSpec) (d : Desc) (kind : StartedKind) : Keeps 0x224 s (State.begin s spec d kind).1 := by
  unfold State.begin
  try simp -proj -iota -beta -eta only []
  repeat' first | exact .inl rfl | with_reducible exact .inr rfl | with_reducible apply And.intro
                | with_reducible exact clk_same rfl rfl rfl | with_reducible exact ⟨le_rfl, fun h => h⟩ | with_reducible exact fun h => h
                | with_reducible exact Keeps.refl _ | with_reducible refine (State.bump_keeps ..).after ?_ rfl
                | with_reducible refine (State.setRing_keeps ..).after ?_ rfl | (with_reducible refine Keeps.mk' ?_ ?_ ?_ ?_ ?_ ?_ ?_ ?_)

theorem State.startCmd_keeps {p : Nat} (hp : Nat.land 0x20324 p = 0x20324) (s : State) (spec : CmdSpec) (d : Desc) (extra : Bool)
    (kind : StartedKind) (body : State → Started → State) (hb : ∀ s st, Keeps p s (body s st)) :
    Keeps p s (State.startCmd s spec d extra kind body) := by
  unfold State.startCmd
  try simp -proj -iota -beta -eta only []
  repeat' first | with_reducible exact Keeps.refl _ | with_reducible refine Keeps.ite (fun _ => ?_) (fun _ => ?_)
                | with_reducible refine ((State.complete_keeps ..).mono (p := 0x20324) rfl).after ?_ hp
                | with_reducible refine ((State.begin_keeps ..).mono (p := 0x20324) rfl).after ?_ hp
                | refine (hb _ _).after ?_ (land_self p)

theorem State.hostLost_keeps (s : State) : Keeps 0x20364 s (State.hostLost s) := by
  unfold State.hostLost
  try simp -proj -iota -beta -eta only []
  repeat' first | with_reducible exact Keeps.refl _ | with_reducible refine (State.bump_keeps ..).after ?_ rfl
                | with_reducible refine (State.ev_keeps ..).after ?_ rfl

theorem State.lossIdle_keeps (s : State) : Keeps 0x24 s (State.lossIdle s) := by
  unfold State.lossIdle
  try simp -proj -iota -beta -eta only []
  repeat' first | with_reducible exact Keeps.refl _ | with_reducible refine (State.enterIdle_keeps ..).after ?_ rfl
                | with_reducible refine Keeps.ite (fun _ => ?_) (fun _ => ?_)

theorem State.lossScrubbed_keeps (s : State) : Keeps 0x20364 s (State.lossScrubbed s) := by
  unfold State.lossScrubbed
  try simp -proj -iota -beta -eta only []
  repeat' first | exact .inl rfl | with_reducible exact .inr rfl | with_reducible apply And.intro
                | with_reducible exact clk_same rfl rfl rfl | with_reducible exact ⟨le_rfl, fun h => h⟩ | with_reducible exact fun h => h
                | with_reducible exact Keeps.refl _ | with_reducible refine (State.hostLost_keeps ..).after ?_ rfl
                | with_reducible refine (State.lossIdle_keeps ..).after ?_ rfl | with_reducible refine Keeps.ite (fun _ => ?_) (fun _ => ?_)
                | (with_reducible refine Keeps.mk' ?_ ?_ ?_ ?_ ?_ ?_ ?_ ?_)

theorem State.stopRing_keeps (s : State) (k : Nat) (c : RingCause) : Keeps 0x20364 s (State.stopRing s k c) := by
  unfold State.stopRing
  try simp -proj -iota -beta -eta only []
  repeat' first | with_reducible exact Keeps.refl _ | with_reducible refine (State.setRing_keeps ..).after ?_ rfl
                | with_reducible refine (State.ev_keeps ..).after ?_ rfl | with_reducible refine Keeps.ite (fun _ => ?_) (fun _ => ?_)

theorem State.takeTail_keeps (s : State) (k : Nat) (line : List Byte) : Keeps 0x20364 s (State.takeTail s k line) := by
  unfold State.takeTail
  try simp -proj -iota -beta -eta only []
  repeat' first | with_reducible exact Keeps.refl _ | with_reducible refine (State.setRing_keeps ..).after ?_ rfl
                | with_reducible refine (State.stopRing_keeps ..).after ?_ rfl | with_reducible refine Keeps.ite (fun _ => ?_) (fun _ => ?_)

theorem State.stopEvq_keeps (s : State) : Keeps 0x20365 s (State.stopEvq s) := by
  unfold State.stopEvq
  try simp -proj -iota -beta -eta only []
  repeat' first | exact .inl rfl | with_reducible exact .inr rfl | with_reducible apply And.intro
                | with_reducible exact clk_same rfl rfl rfl | with_reducible exact ⟨le_rfl, fun h => h⟩ | with_reducible exact fun h => h
                | with_reducible exact Keeps.refl _ | with_reducible refine (State.setRf_keeps ..).after ?_ rfl
                | with_reducible refine (State.ev_keeps ..).after ?_ rfl | (with_reducible refine Keeps.mk' ?_ ?_ ?_ ?_ ?_ ?_ ?_ ?_)

theorem State.ringCtlWrite_keeps (s : State) (k w : Nat) (line : List Byte) : Keeps 0x20365 s (State.ringCtlWrite s k w line) := by
  unfold State.ringCtlWrite
  try simp -proj -iota -beta -eta only []
  repeat' first | with_reducible exact Keeps.refl _ | with_reducible refine (State.setReg_keeps ..).after ?_ rfl
                | with_reducible refine (State.setRing_keeps ..).after ?_ rfl
                | with_reducible refine (State.busyWrite_keeps ..).after ?_ rfl
                | with_reducible refine (State.takeTail_keeps ..).after ?_ rfl | with_reducible refine Keeps.ite (fun _ => ?_) (fun _ => ?_)

theorem State.evqWriteReg_keeps (s : State) (w : Nat) : Keeps 0x20365 s (State.evqWriteReg s w) := by
  unfold State.evqWriteReg
  try simp -proj -iota -beta -eta only []
  repeat' first | exact .inl rfl | with_reducible exact .inr rfl | with_reducible apply And.intro
                | with_reducible exact clk_same rfl rfl rfl | with_reducible exact ⟨le_rfl, fun h => h⟩ | with_reducible exact fun h => h
                | with_reducible exact Keeps.refl _ | with_reducible refine (State.setReg_keeps ..).after ?_ rfl
                | with_reducible refine (State.busyWrite_keeps ..).after ?_ rfl
                | with_reducible refine Keeps.ite (fun _ => ?_) (fun _ => ?_) | split
                | (with_reducible refine Keeps.mk' ?_ ?_ ?_ ?_ ?_ ?_ ?_ ?_)

theorem State.flushHeld_keeps (s : State) : Keeps 0x20304 s (State.flushHeld s) := by
  unfold State.flushHeld
  try simp -proj -iota -beta -eta only []
  repeat' first | exact .inl rfl | with_reducible exact .inr rfl | with_reducible apply And.intro
                | with_reducible exact clk_same rfl rfl rfl | with_reducible exact ⟨le_rfl, fun h => h⟩ | with_reducible exact fun h => h
                | with_reducible exact Keeps.refl _ | with_reducible refine (State.bump_keeps ..).after ?_ rfl
                | with_reducible refine (State.evLose_keeps ..).after ?_ rfl | with_reducible refine (State.evWrite_keeps ..).after ?_ rfl
                | with_reducible refine (State.postRecord_keeps ..).after ?_ rfl
                | with_reducible refine (State.unpost_keeps ..).after ?_ rfl | with_reducible refine Keeps.ite (fun _ => ?_) (fun _ => ?_)
                | with_reducible refine Keeps.foldl _ _ _ _ (fun s x => ?_) ?_ | split
                | (with_reducible refine Keeps.mk' ?_ ?_ ?_ ?_ ?_ ?_ ?_ ?_) | exact fun _ => Nat.zero_le _

theorem State.withCxl_keeps (s : State) (c : CxlState) (hc : s.cxl.atc.length ≤ 1024 → c.atc.length ≤ 1024) :
    Keeps 0x20304 s (State.withCxl s c) := by
  unfold State.withCxl
  have h : Keeps 0x20304 s { s with cxl := c } :=
    ⟨Within.ofAny fun f => by cases f <;> first | exact .inl rfl | exact .inr rfl, rfl, ⟨le_rfl, fun h => h⟩, fun h => h, fun h => h, fun h => h, fun h => h, hc⟩
  exact Keeps.ite (fun _ => (State.flushHeld_keeps _).after h rfl) (fun _ => h)

theorem State.setBusMaster_keeps (s : State) (b : Bool) : Keeps 0x20304 s (State.setBusMaster s b) := by
  unfold State.setBusMaster
  try simp -proj -iota -beta -eta only []
  repeat' first | with_reducible exact Keeps.refl _ | (with_reducible refine (State.withCxl_keeps _ _ ?hc).after ?_ rfl; case hc => exact fun h => h)

theorem State.setCacheEnable_keeps (s : State) (b : Bool) (lines : List (Nat × List Byte)) : Keeps 0x20364 s (State.setCacheEnable s b lines) := by
  unfold State.setCacheEnable
  try simp -proj -iota -beta -eta only []
  repeat' first | exact .inl rfl | with_reducible exact .inr rfl | with_reducible apply And.intro
                | with_reducible exact clk_same rfl rfl rfl | with_reducible exact ⟨le_rfl, fun h => h⟩ | with_reducible exact fun h => h
                | with_reducible exact Keeps.refl _ | with_reducible refine (State.takeTail_keeps ..).after ?_ rfl
                | with_reducible refine Keeps.ite (fun _ => ?_) (fun _ => ?_) | with_reducible refine Keeps.foldl _ _ _ _ (fun s x => ?_) ?_
                | (with_reducible refine Keeps.mk' ?_ ?_ ?_ ?_ ?_ ?_ ?_ ?_)

/-! ### Ras -/

theorem State.setUnit_keeps (s : State) (k : Nat) (u : UnitState) : Keeps 0x40 s (State.setUnit s k u) := by
  unfold State.setUnit
  try simp -proj -iota -beta -eta only []
  repeat' first | exact .inl rfl | with_reducible exact .inr rfl | with_reducible apply And.intro
                | with_reducible exact clk_same rfl rfl rfl | with_reducible exact ⟨le_rfl, fun h => h⟩ | with_reducible exact fun h => h
                | with_reducible exact Keeps.refl _ | (with_reducible refine Keeps.mk' ?_ ?_ ?_ ?_ ?_ ?_ ?_ ?_)

theorem State.unitDone_keeps (s : State) (r : UnitResult) : Keeps 0x40 s (State.unitDone s r) := by
  unfold State.unitDone
  try simp -proj -iota -beta -eta only []
  repeat' first | exact .inl rfl | with_reducible exact .inr rfl | with_reducible apply And.intro
                | with_reducible exact clk_same rfl rfl rfl | with_reducible exact ⟨le_rfl, fun h => h⟩ | with_reducible exact fun h => h
                | with_reducible exact Keeps.refl _ | (with_reducible refine Keeps.mk' ?_ ?_ ?_ ?_ ?_ ?_ ?_ ?_)

theorem State.mapChanged_keeps (s : State) : Keeps 0x60 s (State.mapChanged s) := by
  unfold State.mapChanged
  try simp -proj -iota -beta -eta only []
  repeat' first | exact .inl rfl | with_reducible exact .inr rfl | with_reducible apply And.intro
                | with_reducible exact clk_same rfl rfl rfl | with_reducible exact ⟨le_rfl, fun h => h⟩ | with_reducible exact fun h => h
                | with_reducible exact Keeps.refl _ | with_reducible refine (State.requestNv_keeps ..).after ?_ rfl
                | (with_reducible refine Keeps.mk' ?_ ?_ ?_ ?_ ?_ ?_ ?_ ?_)

theorem State.unitMoved_keeps (s : State) (k : Nat) : Keeps 0x40 s (State.unitMoved s k) := by
  unfold State.unitMoved
  try simp -proj -iota -beta -eta only []
  repeat' first | exact .inl rfl | with_reducible exact .inr rfl | with_reducible apply And.intro
                | with_reducible exact clk_same rfl rfl rfl | with_reducible exact ⟨le_rfl, fun h => h⟩ | with_reducible exact fun h => h
                | with_reducible exact Keeps.refl _ | (with_reducible refine Keeps.mk' ?_ ?_ ?_ ?_ ?_ ?_ ?_ ?_)

theorem State.unitReturn_keeps (s : State) (k : Nat) : Keeps 0x40 s (State.unitReturn s k) := by
  unfold State.unitReturn
  try simp -proj -iota -beta -eta only []
  repeat' first | exact .inl rfl | with_reducible exact .inr rfl | with_reducible apply And.intro
                | with_reducible exact clk_same rfl rfl rfl | with_reducible exact ⟨le_rfl, fun h => h⟩ | with_reducible exact fun h => h
                | with_reducible exact Keeps.refl _ | with_reducible refine (State.setUnit_keeps ..).after ?_ rfl
                | with_reducible refine (State.unitDone_keeps ..).after ?_ rfl
                | with_reducible refine (State.unitMoved_keeps ..).after ?_ rfl
                | with_reducible refine Keeps.ite (fun _ => ?_) (fun _ => ?_) | (with_reducible refine Keeps.mk' ?_ ?_ ?_ ?_ ?_ ?_ ?_ ?_)

theorem State.unitRestore_keeps (s : State) (k : Nat) : Keeps 0x20364 s (State.unitRestore s k) := by
  unfold State.unitRestore
  try simp -proj -iota -beta -eta only []
  repeat' first | with_reducible exact Keeps.refl _ | with_reducible refine (State.ev_keeps ..).after ?_ rfl
                | with_reducible refine (State.setUnit_keeps ..).after ?_ rfl | with_reducible refine (State.unitDone_keeps ..).after ?_ rfl
                | with_reducible refine (State.mapChanged_keeps ..).after ?_ rfl
                | with_reducible refine (State.unitMoved_keeps ..).after ?_ rfl
                | with_reducible refine Keeps.ite (fun _ => ?_) (fun _ => ?_)

theorem State.unitCmd_keeps (s : State) : Keeps 0x27364 s (State.unitCmd s) := by
  unfold State.unitCmd
  try simp -proj -iota -beta -eta only []
  repeat' first | with_reducible exact Keeps.refl _ | with_reducible refine (State.fenceSite_keeps ..).after ?_ rfl
                | with_reducible refine (State.unitDone_keeps ..).after ?_ rfl
                | with_reducible refine (State.unitReturn_keeps ..).after ?_ rfl
                | with_reducible refine (State.unitRestore_keeps ..).after ?_ rfl
                | with_reducible refine Keeps.ite (fun _ => ?_) (fun _ => ?_)

theorem State.reportCrossed_keeps (s : State) (unit : Nat) (xs : List (Nat × Nat)) : Keeps 0x20364 s (State.reportCrossed s unit xs) := by
  unfold State.reportCrossed
  try simp -proj -iota -beta -eta only []
  repeat' first | with_reducible exact Keeps.refl _ | with_reducible refine (State.ev_keeps ..).after ?_ rfl
                | with_reducible refine Keeps.foldl _ _ _ _ (fun s x => ?_) ?_

theorem State.runImage_keeps (s : State) (img : List Byte) (host : Bool) : Keeps 0x40a1 s (State.runImage s img host) := by
  unfold State.runImage
  try simp -proj -iota -beta -eta only []
  repeat' first | exact .inl rfl | with_reducible exact .inr rfl | with_reducible apply And.intro
                | with_reducible exact clk_same rfl rfl rfl | with_reducible exact ⟨le_rfl, fun h => h⟩ | with_reducible exact fun h => h
                | with_reducible exact Keeps.refl _ | with_reducible refine (State.fabBoot_keeps ..).after ?_ rfl
                | (with_reducible refine Keeps.mk' ?_ ?_ ?_ ?_ ?_ ?_ ?_ ?_)

theorem State.stageImage_keeps (s : State) (img : List Byte) : Keeps 0x20364 s (State.stageImage s img) := by
  unfold State.stageImage
  try simp -proj -iota -beta -eta only []
  repeat' first | exact .inl rfl | with_reducible exact .inr rfl | with_reducible apply And.intro
                | with_reducible exact clk_same rfl rfl rfl | with_reducible exact ⟨le_rfl, fun h => h⟩ | with_reducible exact fun h => h
                | with_reducible exact Keeps.refl _ | with_reducible refine (State.ev_keeps ..).after ?_ rfl
                | with_reducible refine (State.requestNv_keeps ..).after ?_ rfl
                | with_reducible refine Keeps.ite (fun _ => ?_) (fun _ => ?_) | (with_reducible refine Keeps.mk' ?_ ?_ ?_ ?_ ?_ ?_ ?_ ?_)

theorem State.fwStage_keeps (s : State) : Keeps 0x243e5 s (State.fwStage s) := by
  unfold State.fwStage
  try simp -proj -iota -beta -eta only []
  repeat' first | exact .inl rfl | with_reducible exact .inr rfl | with_reducible apply And.intro
                | with_reducible exact clk_same rfl rfl rfl | with_reducible exact ⟨le_rfl, fun h => h⟩ | with_reducible exact fun h => h
                | with_reducible exact Keeps.refl _ | with_reducible refine (State.runImage_keeps ..).after ?_ rfl
                | with_reducible refine (State.stageImage_keeps ..).after ?_ rfl
                | with_reducible refine Keeps.ite (fun _ => ?_) (fun _ => ?_) | (with_reducible refine Keeps.mk' ?_ ?_ ?_ ?_ ?_ ?_ ?_ ?_)

theorem State.holdMctp_keeps (s : State) (m : MctpMsg) : Keeps 0x20080 s (State.holdMctp s m) := by
  unfold State.holdMctp
  try simp -proj -iota -beta -eta only []
  repeat' first | exact .inl rfl | with_reducible exact .inr rfl | with_reducible apply And.intro
                | with_reducible exact clk_same rfl rfl rfl | with_reducible exact ⟨le_rfl, fun h => h⟩ | with_reducible exact fun h => h
                | with_reducible exact Keeps.refl _ | with_reducible refine (State.emit_keeps ..).after ?_ rfl
                | with_reducible refine Keeps.ite (fun _ => ?_) (fun _ => ?_) | (with_reducible refine Keeps.mk' ?_ ?_ ?_ ?_ ?_ ?_ ?_ ?_)

theorem State.fwCommit_keeps (s : State) : Keeps 0x20 s (State.fwCommit s) := by
  unfold State.fwCommit
  try simp -proj -iota -beta -eta only []
  repeat' first | with_reducible exact Keeps.refl _ | with_reducible refine (State.requestNv_keeps ..).after ?_ rfl
                | with_reducible refine Keeps.ite (fun _ => ?_) (fun _ => ?_)

theorem State.fwRecover_keeps (s : State) : Keeps 0x20 s (State.fwRecover s) := by
  unfold State.fwRecover
  try simp -proj -iota -beta -eta only []
  repeat' first | exact .inl rfl | with_reducible exact .inr rfl | with_reducible apply And.intro
                | with_reducible exact clk_same rfl rfl rfl | with_reducible exact ⟨le_rfl, fun h => h⟩ | with_reducible exact fun h => h
                | with_reducible exact Keeps.refl _ | with_reducible refine Keeps.ite (fun _ => ?_) (fun _ => ?_)
                | (with_reducible refine Keeps.mk' ?_ ?_ ?_ ?_ ?_ ?_ ?_ ?_)

/-! ### Cxl -/

theorem State.tdiError_keeps (s : State) (item : Nat) : Keeps 0x27fe5 s (State.tdiError s item) := by
  unfold State.tdiError
  try simp -proj -iota -beta -eta only []
  repeat' first | exact .inl rfl | with_reducible exact .inr rfl | with_reducible apply And.intro
                | with_reducible exact clk_same rfl rfl rfl | with_reducible exact ⟨le_rfl, fun h => h⟩ | with_reducible exact fun h => h
                | with_reducible exact Keeps.refl _ | with_reducible refine (State.ev_keeps ..).after ?_ rfl
                | with_reducible refine (State.killAll_keeps ..).after ?_ rfl
                | with_reducible refine (State.releaseSealedWhere_keeps ..).after ?_ rfl
                | with_reducible refine Keeps.ite (fun _ => ?_) (fun _ => ?_) | (with_reducible refine Keeps.mk' ?_ ?_ ?_ ?_ ?_ ?_ ?_ ?_)

theorem State.lockedChange_keeps (s s' : State) (item : Nat) : Keeps 0x27fe5 s' (State.lockedChange s s' item) := by
  unfold State.lockedChange
  try simp -proj -iota -beta -eta only []
  repeat' first | with_reducible exact Keeps.refl _ | with_reducible refine (State.tdiError_keeps ..).after ?_ rfl
                | with_reducible refine Keeps.ite (fun _ => ?_) (fun _ => ?_)

theorem State.zeroUnsealed_keeps (s : State) : Keeps 0x20c04 s (State.zeroUnsealed s) := by
  unfold State.zeroUnsealed
  try simp -proj -iota -beta -eta only []
  repeat' first | with_reducible exact Keeps.refl _ | with_reducible assumption
                | with_reducible refine (State.hbmZero_keeps ..).after ?_ rfl | with_reducible refine Keeps.ite (fun _ => ?_) (fun _ => ?_)
                | with_reducible refine Keeps.foldl _ _ _ _ (fun s x => ?_) ?_
                | with_reducible refine Keeps.foldlP _ _ _ _ (fun _ _ => ?_) ?_ | with_reducible refine Keeps.getD' ?_ ?_ | split

theorem State.setIde_keeps (s : State) (st : IdeStream) (k : IdeKeys) : Keeps 0x100 s (State.setIde s st k) := by
  unfold State.setIde
  try simp -proj -iota -beta -eta only []
  repeat' first | exact .inl rfl | with_reducible exact .inr rfl | with_reducible apply And.intro
                | with_reducible exact clk_same rfl rfl rfl | with_reducible exact ⟨le_rfl, fun h => h⟩ | with_reducible exact fun h => h
                | with_reducible exact Keeps.refl _ | (with_reducible refine Keeps.mk' ?_ ?_ ?_ ?_ ?_ ?_ ?_ ?_)

theorem State.endWaiter_keeps (s : State) (detail page : Nat) (w : Waiter) : Keeps 0x20fe4 s (State.endWaiter s detail page w) := by
  unfold State.endWaiter
  try simp -proj -iota -beta -eta only []
  repeat' first | with_reducible exact Keeps.refl _ | with_reducible refine (State.complete_keeps ..).after ?_ rfl
                | with_reducible refine (State.setKind_keeps ..).after ?_ rfl
                | with_reducible refine (State.freeSealed_keeps ..).after ?_ rfl
                | with_reducible refine (State.stopRing_keeps ..).after ?_ rfl | with_reducible refine Keeps.ite (fun _ => ?_) (fun _ => ?_)
                | split

theorem State.resumeWaiter_keeps (s : State) (w : Waiter) : Keeps 0x200 s (State.resumeWaiter s w) := by
  unfold State.resumeWaiter
  try simp -proj -iota -beta -eta only []
  repeat' first | with_reducible exact Keeps.refl _ | with_reducible refine (State.setKind_keeps ..).after ?_ rfl | split

theorem State.issuePage_keeps (s : State) (pasid page : Nat) (w : Waiter) : Keeps 0x20104 s (State.issuePage s pasid page w) := by
  unfold State.issuePage
  try simp -proj -iota -beta -eta only []
  repeat' first | exact .inl rfl | with_reducible exact .inr rfl | with_reducible apply And.intro
                | with_reducible exact clk_same rfl rfl rfl | with_reducible exact ⟨le_rfl, fun h => h⟩ | with_reducible exact fun h => h
                | with_reducible exact Keeps.refl _ | with_reducible refine (State.emit_keeps ..).after ?_ rfl
                | with_reducible refine (State.bump_keeps ..).after ?_ rfl | with_reducible refine Keeps.ite (fun _ => ?_) (fun _ => ?_)
                | split | (with_reducible refine Keeps.mk' ?_ ?_ ?_ ?_ ?_ ?_ ?_ ?_)

theorem State.pageFault_keeps (s : State) (pasid page : Nat) (w : Waiter) : Keeps 0x20fe4 s (State.pageFault s pasid page w) := by
  unfold State.pageFault
  try simp -proj -iota -beta -eta only []
  repeat' first | with_reducible exact Keeps.refl _ | with_reducible refine (State.endWaiter_keeps ..).after ?_ rfl
                | with_reducible refine (State.issuePage_keeps ..).after ?_ rfl | split

theorem State.promotePages_keeps (s : State) : Keeps 0x20104 s (State.promotePages s) := by
  unfold State.promotePages
  try simp -proj -iota -beta -eta only []
  repeat' first | exact .inl rfl | with_reducible exact .inr rfl | with_reducible apply And.intro
                | with_reducible exact clk_same rfl rfl rfl | with_reducible exact ⟨le_rfl, fun h => h⟩ | with_reducible exact fun h => h
                | with_reducible exact Keeps.refl _ | with_reducible refine (State.issuePage_keeps ..).after ?_ rfl
                | with_reducible refine Keeps.foldl _ _ _ _ (fun s x => ?_) ?_ | (with_reducible refine Keeps.mk' ?_ ?_ ?_ ?_ ?_ ?_ ?_ ?_)

theorem State.dropPage_keeps (s : State) (pasid page : Nat) : Keeps 0x100 s (State.dropPage s pasid page) := by
  unfold State.dropPage
  try simp -proj -iota -beta -eta only []
  repeat' first | exact .inl rfl | with_reducible exact .inr rfl | with_reducible apply And.intro
                | with_reducible exact clk_same rfl rfl rfl | with_reducible exact ⟨le_rfl, fun h => h⟩ | with_reducible exact fun h => h
                | with_reducible exact Keeps.refl _ | (with_reducible refine Keeps.mk' ?_ ?_ ?_ ?_ ?_ ?_ ?_ ?_)

theorem State.setPri_keeps (s : State) (b : Bool) : Keeps 0x100 s (State.setPri s b) := by
  unfold State.setPri
  try simp -proj -iota -beta -eta only []
  repeat' first | exact .inl rfl | with_reducible exact .inr rfl | with_reducible apply And.intro
                | with_reducible exact clk_same rfl rfl rfl | with_reducible exact ⟨le_rfl, fun h => h⟩ | with_reducible exact fun h => h
                | with_reducible exact Keeps.refl _ | (with_reducible refine Keeps.mk' ?_ ?_ ?_ ?_ ?_ ?_ ?_ ?_)

theorem State.drainMsix_keeps (s : State) : Keeps 0x20100 s (State.drainMsix s) := by
  unfold State.drainMsix
  try simp -proj -iota -beta -eta only []
  repeat' first | exact .inl rfl | with_reducible exact .inr rfl | with_reducible apply And.intro
                | with_reducible exact clk_same rfl rfl rfl | with_reducible exact ⟨le_rfl, fun h => h⟩ | with_reducible exact fun h => h
                | with_reducible exact Keeps.refl _ | with_reducible refine (State.emit_keeps ..).after ?_ rfl
                | with_reducible refine Keeps.ite (fun _ => ?_) (fun _ => ?_) | with_reducible refine Keeps.foldl _ _ _ _ (fun s x => ?_) ?_
                | (with_reducible refine Keeps.mk' ?_ ?_ ?_ ?_ ?_ ?_ ?_ ?_)

theorem State.setMask_keeps (s : State) (v : Nat) (b : Bool) : Keeps 0x20100 s (State.setMask s v b) := by
  unfold State.setMask
  try simp -proj -iota -beta -eta only []
  repeat' first | exact .inl rfl | with_reducible exact .inr rfl | with_reducible apply And.intro
                | with_reducible exact clk_same rfl rfl rfl | with_reducible exact ⟨le_rfl, fun h => h⟩ | with_reducible exact fun h => h
                | with_reducible exact Keeps.refl _ | with_reducible refine (State.drainMsix_keeps ..).after ?_ rfl | split
                | (with_reducible refine Keeps.mk' ?_ ?_ ?_ ?_ ?_ ?_ ?_ ?_)

theorem State.applyItem_keeps (s : State) (i : ConfigItem) : Keeps 0x20365 s (State.applyItem s i).1 := by
  unfold State.applyItem
  try simp -proj -iota -beta -eta only []
  repeat' first | exact .inl rfl | with_reducible exact .inr rfl | with_reducible apply And.intro
                | with_reducible exact clk_same rfl rfl rfl | with_reducible exact ⟨le_rfl, fun h => h⟩ | with_reducible exact fun h => h
                | with_reducible exact Keeps.refl _ | with_reducible refine (State.setReg_keeps ..).after ?_ rfl
                | with_reducible refine (State.busyWrite_keeps ..).after ?_ rfl
                | (with_reducible refine (State.withCxl_keeps _ _ ?hc).after ?_ rfl; case hc => exact fun h => h)
                | with_reducible refine (State.setBusMaster_keeps ..).after ?_ rfl
                | with_reducible refine (State.setPri_keeps ..).after ?_ rfl | with_reducible refine (State.drainMsix_keeps ..).after ?_ rfl
                | with_reducible refine (State.setMask_keeps ..).after ?_ rfl | split
                | (with_reducible refine Keeps.mk' ?_ ?_ ?_ ?_ ?_ ?_ ?_ ?_)

theorem State.configDenied_keeps (s : State) : Keeps 0x20000 s (State.configDenied s) := by
  unfold State.configDenied
  try simp -proj -iota -beta -eta only []
  repeat' first | with_reducible exact Keeps.refl _ | with_reducible refine (State.emit_keeps ..).after ?_ rfl
                | with_reducible refine Keeps.ite (fun _ => ?_) (fun _ => ?_)

theorem State.linkDegraded_keeps (s : State) (l : LinkUp) : Keeps 0x20364 s (State.linkDegraded s l) := by
  unfold State.linkDegraded
  try simp -proj -iota -beta -eta only []
  repeat' first | with_reducible exact Keeps.refl _ | with_reducible refine (State.ev_keeps ..).after ?_ rfl
                | with_reducible refine Keeps.ite (fun _ => ?_) (fun _ => ?_)

/-! ### Security -/

theorem State.spdm_keeps (s : State) (m : Bool) (code : Nat) (body : List Byte) : Keeps 0x20080 s (State.spdm s m code body) := by
  unfold State.spdm
  try simp -proj -iota -beta -eta only []
  repeat' first | with_reducible exact Keeps.refl _ | with_reducible refine (State.emit_keeps ..).after ?_ rfl
                | with_reducible refine (State.holdMctp_keeps ..).after ?_ rfl | with_reducible refine Keeps.ite (fun _ => ?_) (fun _ => ?_)

theorem State.closeSession_keeps (s : State) (id : Nat) : Keeps 0x80 s (State.closeSession s id) := by
  unfold State.closeSession
  try simp -proj -iota -beta -eta only []
  repeat' first | exact .inl rfl | with_reducible exact .inr rfl | with_reducible apply And.intro
                | with_reducible exact clk_same rfl rfl rfl | with_reducible exact fun h => h | with_reducible exact Keeps.refl _
                | (with_reducible refine Keeps.mk' ?_ ?_ ?_ ?_ ?_ ?_ ?_ ?_) | exact ⟨le_rfl, fun h => (List.length_filter_le _ _).trans h⟩

theorem State.chalNew_keeps (s : State) : Keeps 0x40080 s (State.chalNew s) := by
  unfold State.chalNew
  try simp -proj -iota -beta -eta only []
  repeat' first | exact .inl rfl | with_reducible exact .inr rfl | with_reducible apply And.intro
                | with_reducible exact clk_same rfl rfl rfl | with_reducible exact ⟨le_rfl, fun h => h⟩ | with_reducible exact fun h => h
                | with_reducible exact Keeps.refl _ | with_reducible refine (State.draw_keeps ..).after ?_ rfl
                | (with_reducible refine Keeps.mk' ?_ ?_ ?_ ?_ ?_ ?_ ?_ ?_)

theorem State.stopBundles_keeps (s : State) : Keeps 0x20384 s (State.stopBundles s) := by
  unfold State.stopBundles
  try simp -proj -iota -beta -eta only []
  repeat' first | with_reducible exact Keeps.refl _ | with_reducible refine (State.complete_keeps ..).after ?_ rfl
                | with_reducible refine (State.releaseSealed_keeps ..).after ?_ rfl
                | with_reducible refine Keeps.ite (fun _ => ?_) (fun _ => ?_) | with_reducible refine Keeps.foldl _ _ _ _ (fun s x => ?_) ?_
                | split

theorem State.dbgSubmit_keeps (s : State) : Keeps 0x27fe5 s (State.dbgSubmit s) := by
  unfold State.dbgSubmit
  try simp -proj -iota -beta -eta only []
  repeat' first | exact .inl rfl | with_reducible exact .inr rfl | with_reducible apply And.intro
                | with_reducible exact clk_same rfl rfl rfl | with_reducible exact ⟨le_rfl, fun h => h⟩ | with_reducible exact fun h => h
                | with_reducible exact Keeps.refl _ | with_reducible refine (State.ev_keeps ..).after ?_ rfl
                | with_reducible refine (State.killAll_keeps ..).after ?_ rfl
                | with_reducible refine (State.releaseSealedWhere_keeps ..).after ?_ rfl
                | with_reducible refine (State.stopBundles_keeps ..).after ?_ rfl
                | with_reducible refine Keeps.ite (fun _ => ?_) (fun _ => ?_) | (with_reducible refine Keeps.mk' ?_ ?_ ?_ ?_ ?_ ?_ ?_ ?_)

theorem State.dbgCtlWrite_keeps (s : State) (w : Nat) : Keeps 0x67fe5 s (State.dbgCtlWrite s w) := by
  unfold State.dbgCtlWrite
  try simp -proj -iota -beta -eta only []
  repeat' first | with_reducible exact Keeps.refl _ | with_reducible refine (State.busyWrite_keeps ..).after ?_ rfl
                | with_reducible refine (State.chalNew_keeps ..).after ?_ rfl
                | with_reducible refine (State.dbgSubmit_keeps ..).after ?_ rfl
                | with_reducible refine Keeps.ite (fun _ => ?_) (fun _ => ?_)

theorem State.waitPage_keeps (s : State) (d : Started) (page : Nat) (kind : StartedKind) : Keeps 0x20fe4 s (State.waitPage s d page kind) := by
  unfold State.waitPage
  try simp -proj -iota -beta -eta only []
  repeat' first | with_reducible exact Keeps.refl _ | with_reducible refine (State.setKind_keeps ..).after ?_ rfl
                | with_reducible refine (State.pageFault_keeps ..).after ?_ rfl

theorem State.bundleCheckStart_keeps (s : State) (d : Started) (tee : Bool) (desc : List Byte) (view : HostView) : Keeps 0x20fe4 s (State.bundleCheckStart s d tee desc view) := by
  unfold State.bundleCheckStart
  try simp -proj -iota -beta -eta only []
  repeat' first | exact .inl rfl | with_reducible exact .inr rfl | with_reducible apply And.intro
                | with_reducible exact clk_same rfl rfl rfl | with_reducible exact ⟨le_rfl, fun h => h⟩ | with_reducible exact fun h => h
                | with_reducible exact Keeps.refl _ | with_reducible refine (State.complete_keeps ..).after ?_ rfl
                | with_reducible refine (State.setKind_keeps ..).after ?_ rfl | with_reducible refine (State.waitPage_keeps ..).after ?_ rfl
                | with_reducible refine Keeps.ite (fun _ => ?_) (fun _ => ?_) | split
                | (with_reducible refine Keeps.mk' ?_ ?_ ?_ ?_ ?_ ?_ ?_ ?_)

theorem State.bundleFinish_keeps (s : State) (d : Started) (j : BundleJob) (view : HostView) : Keeps 0x20fe4 s (State.bundleFinish s d j view) := by
  unfold State.bundleFinish
  try simp -proj -iota -beta -eta only []
  repeat' first | with_reducible exact Keeps.refl _ | with_reducible refine (State.complete_keeps ..).after ?_ rfl
                | with_reducible refine (State.hbmWrite_keeps ..).after ?_ rfl
                | with_reducible refine (State.freeSealed_keeps ..).after ?_ rfl
                | with_reducible refine (State.waitPage_keeps ..).after ?_ rfl | with_reducible refine Keeps.ite (fun _ => ?_) (fun _ => ?_)
                | split

/-! ### Reset -/

theorem State.powerOn_keeps (s : State) : Keeps 0x1ffff s (State.powerOn s) :=
  ⟨Within.ofAny fun f => by cases f <;> first | exact .inl rfl | exact .inr rfl, rfl, ⟨le_rfl, fun _ => Nat.zero_le _⟩, fun _ => rfl, fun _ => ⟨Nat.zero_le _, Nat.zero_le _, fun _ e => nomatch e⟩,
   fun _ => Nat.zero_le _, fun _ => Nat.zero_le _, fun _ => Nat.zero_le _⟩

theorem State.loseImage_keeps (s : State) : Keeps 0x40040 s (State.loseImage s) := by
  unfold State.loseImage
  try simp -proj -iota -beta -eta only []
  repeat' first | exact .inl rfl | with_reducible exact .inr rfl | with_reducible apply And.intro
                | with_reducible exact clk_same rfl rfl rfl | with_reducible exact ⟨le_rfl, fun h => h⟩ | with_reducible exact fun h => h
                | with_reducible exact Keeps.refl _ | with_reducible refine (State.draw_keeps ..).after ?_ rfl
                | with_reducible refine Keeps.ite (fun _ => ?_) (fun _ => ?_) | (with_reducible refine Keeps.mk' ?_ ?_ ?_ ?_ ?_ ?_ ?_ ?_)

theorem State.reportTrip_keeps (s : State) : Keeps 0x60 s (State.reportTrip s) := by
  unfold State.reportTrip
  try simp -proj -iota -beta -eta only []
  repeat' first | exact .inl rfl | with_reducible exact .inr rfl | with_reducible apply And.intro
                | with_reducible exact clk_same rfl rfl rfl | with_reducible exact ⟨le_rfl, fun h => h⟩ | with_reducible exact fun h => h
                | with_reducible exact Keeps.refl _ | with_reducible refine Keeps.ite (fun _ => ?_) (fun _ => ?_)
                | (with_reducible refine Keeps.mk' ?_ ?_ ?_ ?_ ?_ ?_ ?_ ?_)

theorem State.beginReset_keeps (s : State) (k : ResetKind) (memClear reboot : Bool) : Keeps 0x27f75 s (State.beginReset s k memClear reboot) := by
  unfold State.beginReset
  simp -proj -iota -beta -eta only []
  refine (State.reviewClock_keeps _).after ?_ rfl
  refine (State.killAll_keeps _).after (p := 0x27f75) ?_ rfl
  have h := (State.resetTies_keeps s).mono (p := 0x27f75) rfl
  revert h
  generalize s.resetTies = u
  intro h
  exact Keeps.after (q := 0x27f75) (t := u)
    ⟨Within.ofAny fun f => by cases f <;> first | exact .inl rfl | exact .inr rfl, rfl, ⟨le_rfl, fun h => h⟩, fun h => h, fun h => h, fun h => h,
      fun _ => Nat.zero_le _, fun h => h⟩ h rfl

theorem State.clearMemory_keeps (s : State) : Keeps 0x20c04 s (State.clearMemory s) := by
  unfold State.clearMemory
  try simp -proj -iota -beta -eta only []
  repeat' first | exact .inl rfl | with_reducible exact .inr rfl | with_reducible apply And.intro
                | with_reducible exact clk_same rfl rfl rfl | with_reducible exact ⟨le_rfl, fun h => h⟩ | with_reducible exact fun h => h
                | with_reducible exact hbm_set | with_reducible exact hbm_clear | with_reducible exact hbm_nil
                | with_reducible exact hbm_filter | with_reducible exact Keeps.refl _ | with_reducible assumption
                | with_reducible refine (State.zeroUnsealed_keeps ..).after ?_ rfl
                | with_reducible refine Keeps.ite (fun _ => ?_) (fun _ => ?_) | with_reducible refine Keeps.foldl _ _ _ _ (fun s x => ?_) ?_
                | with_reducible refine Keeps.foldlP _ _ _ _ (fun _ _ => ?_) ?_ | with_reducible refine Keeps.getD' ?_ ?_ | split
                | (with_reducible refine Keeps.mk' ?_ ?_ ?_ ?_ ?_ ?_ ?_ ?_) | exact ⟨Nat.le_max_left _ _, fun h => h⟩
                | exact ⟨le_rfl, fun h => (List.length_filter_le _ _).trans h⟩ | exact ⟨le_rfl, fun _ => Nat.zero_le _⟩
                | (rintro ⟨h1, h2, h3⟩; refine ⟨?_, ?_, ?_⟩ <;> first | exact h1 | exact h2 | exact h3 | exact h3 _ ‹_› | exact Nat.zero_le _ | (intro w e; cases e))
                | (refine ⟨le_rfl, fun _ => ?_⟩ <;> simp at * <;> omega) | exact fun h => (List.length_filter_le _ _).trans h
                | exact fun _ => Nat.zero_le _ | (intro _; simp at * <;> omega)

theorem State.afterReset_keeps (s : State) (p : ResetProgress) : Keeps 0x27fff s (State.afterReset s p) := by
  unfold State.afterReset
  simp -proj -iota -beta -eta only []
  refine (State.fabReset_keeps _).after ((State.reviewClock_keeps _).after ?_ rfl) rfl
  have h1 : Keeps 0x27fff s ((List.range 8).foldl State.killFinish (if s.cxl.hostLoss then s.hostLost else s)) :=
    Keeps.foldl _ _ _ _ (fun s x => (State.killFinish_keeps _ _).mono rfl)
      (Keeps.ite (fun _ => (State.hostLost_keeps _).mono rfl) (fun _ => Keeps.refl _))
  revert h1
  generalize (List.range 8).foldl State.killFinish (if s.cxl.hostLoss then s.hostLost else s) = u
  intro h1
  have h2 : Keeps 0x27fff s (if p.memClear then u.clearMemory else u).flowReset :=
    (State.flowReset_keeps _).after (Keeps.ite (fun _ => (State.clearMemory_keeps _).after h1 rfl) (fun _ => h1)) rfl
  revert h2
  generalize (if p.memClear then u.clearMemory else u).flowReset = v
  intro h2
  exact Keeps.after (q := 0x27fff) (t := v) ⟨Within.ofAny fun f => by cases f <;> first | exact .inl rfl | exact .inr rfl, rfl, ⟨le_rfl, fun _ => Nat.zero_le _⟩, fun h => h,
    fun h => h, fun h => h, fun _ => Nat.zero_le _, fun _ => Nat.zero_le _⟩ h2 rfl

theorem State.fwActivate_keeps (s : State) : Keeps 0x27f75 s (State.fwActivate s) := by
  unfold State.fwActivate
  try simp -proj -iota -beta -eta only []
  repeat' first | exact .inl rfl | with_reducible exact .inr rfl | with_reducible apply And.intro
                | with_reducible exact clk_same rfl rfl rfl | with_reducible exact ⟨le_rfl, fun h => h⟩ | with_reducible exact fun h => h
                | with_reducible exact Keeps.refl _ | with_reducible refine (State.beginReset_keeps ..).after ?_ rfl
                | with_reducible refine Keeps.ite (fun _ => ?_) (fun _ => ?_) | (with_reducible refine Keeps.mk' ?_ ?_ ?_ ?_ ?_ ?_ ?_ ?_)

theorem State.reboot_keeps (s : State) : Keeps 0x243e5 s (State.reboot s) := by
  unfold State.reboot
  try simp -proj -iota -beta -eta only []
  repeat' first | exact .inl rfl | with_reducible exact .inr rfl | with_reducible apply And.intro
                | with_reducible exact clk_same rfl rfl rfl | with_reducible exact ⟨le_rfl, fun h => h⟩ | with_reducible exact fun h => h
                | with_reducible exact Keeps.refl _ | with_reducible refine (State.ev_keeps ..).after ?_ rfl
                | with_reducible refine (State.runImage_keeps ..).after ?_ rfl | with_reducible refine Keeps.ite (fun _ => ?_) (fun _ => ?_)
                | (with_reducible refine Keeps.mk' ?_ ?_ ?_ ?_ ?_ ?_ ?_ ?_)

/-! ### HbmHost -/

theorem State.sealViolation_keeps (s : State) (region hpa : Nat) : Keeps 0x20b64 s (State.sealViolation s region hpa) := by
  unfold State.sealViolation
  try simp -proj -iota -beta -eta only []
  repeat' first | exact .inl rfl | with_reducible exact .inr rfl | with_reducible apply And.intro
                | with_reducible exact clk_same rfl rfl rfl | with_reducible exact ⟨le_rfl, fun h => h⟩ | with_reducible exact fun h => h
                | with_reducible exact Keeps.refl _ | with_reducible refine (State.bumpMem_keeps ..).after ?_ rfl
                | with_reducible refine (State.ev_keeps ..).after ?_ rfl | with_reducible refine Keeps.ite (fun _ => ?_) (fun _ => ?_)
                | (with_reducible refine Keeps.mk' ?_ ?_ ?_ ?_ ?_ ?_ ?_ ?_)

theorem State.hostReadLine_keeps (s : State) (hpa a : Nat) : Keeps 0x27b64 s (State.hostReadLine s hpa a) := by
  unfold State.hostReadLine
  try simp -proj -iota -beta -eta only []
  repeat' first | with_reducible exact Keeps.refl _ | with_reducible refine (State.emit_keeps ..).after ?_ rfl
                | with_reducible refine (State.bumpMem_keeps ..).after ?_ rfl | with_reducible refine (State.touchPc_keeps ..).after ?_ rfl
                | with_reducible refine (State.hbmUe_keeps ..).after ?_ rfl
                | with_reducible refine (State.sealViolation_keeps ..).after ?_ rfl
                | with_reducible refine Keeps.ite (fun _ => ?_) (fun _ => ?_) | split

theorem State.hostWriteLine_keeps (s : State) (hpa a : Nat) (data : List Byte) (mask : BitVec 64) : Keeps 0x27f64 s (State.hostWriteLine s hpa a data mask) := by
  unfold State.hostWriteLine
  try simp -proj -iota -beta -eta only []
  repeat' first | exact .inl rfl | with_reducible exact .inr rfl | with_reducible apply And.intro
                | with_reducible exact clk_same rfl rfl rfl | with_reducible exact ⟨le_rfl, fun h => h⟩ | with_reducible exact fun h => h
                | with_reducible exact Keeps.refl _ | with_reducible refine (State.bumpMem_keeps ..).after ?_ rfl
                | with_reducible refine (State.putBytes_keeps ..).after ?_ rfl | with_reducible refine (State.touchPc_keeps ..).after ?_ rfl
                | with_reducible refine (State.hbmUe_keeps ..).after ?_ rfl
                | with_reducible refine (State.sealViolation_keeps ..).after ?_ rfl
                | with_reducible refine Keeps.ite (fun _ => ?_) (fun _ => ?_) | split
                | (with_reducible refine Keeps.mk' ?_ ?_ ?_ ?_ ?_ ?_ ?_ ?_)

theorem State.hostMem_keeps (s : State) (h : HostMem) : Keeps 0x27f64 s (State.hostMem s h) := by
  unfold State.hostMem
  try simp -proj -iota -beta -eta only []
  repeat' first | exact .inl rfl | with_reducible exact .inr rfl | with_reducible apply And.intro
                | with_reducible exact clk_same rfl rfl rfl | with_reducible exact ⟨le_rfl, fun h => h⟩ | with_reducible exact fun h => h
                | with_reducible exact Keeps.refl _ | with_reducible refine (State.emit_keeps ..).after ?_ rfl
                | with_reducible refine (State.wake_keeps ..).after ?_ rfl
                | with_reducible refine (State.hostReadLine_keeps ..).after ?_ rfl
                | with_reducible refine (State.hostWriteLine_keeps ..).after ?_ rfl
                | with_reducible refine Keeps.ite (fun _ => ?_) (fun _ => ?_) | split
                | (with_reducible refine Keeps.mk' ?_ ?_ ?_ ?_ ?_ ?_ ?_ ?_)

theorem State.spadAccess_keeps (s0 : State) (w : BankWait) : Keeps 0x27364 s0 (State.spadAccess s0 w) := by
  unfold State.spadAccess
  try simp -proj -iota -beta -eta only []
  repeat' first | with_reducible exact Keeps.refl _ | with_reducible refine (State.emit_keeps ..).after ?_ rfl
                | with_reducible refine (State.ceSite_keeps ..).after ?_ rfl | with_reducible refine (State.bumpSite_keeps ..).after ?_ rfl
                | with_reducible refine (State.spadUe_keeps ..).after ?_ rfl | with_reducible refine (State.bankWrite_keeps ..).after ?_ rfl
                | with_reducible refine Keeps.ite (fun _ => ?_) (fun _ => ?_) | split

theorem State.setPc_keeps (s : State) (k : Nat) (p : PcState) : Keeps 0x800 s (State.setPc s k p) := by
  unfold State.setPc
  try simp -proj -iota -beta -eta only []
  repeat' first | exact .inl rfl | with_reducible exact .inr rfl | with_reducible apply And.intro
                | with_reducible exact clk_same rfl rfl rfl | with_reducible exact ⟨le_rfl, fun h => h⟩ | with_reducible exact fun h => h
                | with_reducible exact Keeps.refl _ | (with_reducible refine Keeps.mk' ?_ ?_ ?_ ?_ ?_ ?_ ?_ ?_)

/-! ### RegRead -/

theorem State.readSide_keeps (s : State) (off : Nat) : Keeps 0x4008 s (State.readSide s off) := by
  unfold State.readSide
  try simp -proj -iota -beta -eta only []
  repeat' first | exact .inl rfl | with_reducible exact .inr rfl | with_reducible apply And.intro
                | with_reducible exact clk_same rfl rfl rfl | with_reducible exact ⟨le_rfl, fun h => h⟩ | with_reducible exact fun h => h
                | with_reducible exact Keeps.refl _ | with_reducible refine (State.fabReadSide_keeps ..).after ?_ rfl
                | with_reducible refine Keeps.ite (fun _ => ?_) (fun _ => ?_) | (with_reducible refine Keeps.mk' ?_ ?_ ?_ ?_ ?_ ?_ ?_ ?_)

theorem State.nonTee_keeps (s : State) (tee : Bool) (off : Nat) : OKeeps 0x20104 s (State.nonTee s tee off) := by
  unfold State.nonTee
  try simp -proj -iota -beta -eta only []
  repeat' first | exact .inl rfl | with_reducible exact .inr rfl | with_reducible apply And.intro
                | with_reducible exact clk_same rfl rfl rfl | with_reducible exact ⟨le_rfl, fun h => h⟩ | with_reducible exact fun h => h
                | with_reducible exact Keeps.refl _ | with_reducible refine (State.emit_keeps ..).after ?_ rfl
                | with_reducible refine (State.bump_keeps ..).after ?_ rfl | with_reducible refine OKeeps.ite (fun _ => ?_) (fun _ => ?_)
                | with_reducible exact OKeeps.none | with_reducible refine OKeeps.some ?_
                | (with_reducible refine Keeps.mk' ?_ ?_ ?_ ?_ ?_ ?_ ?_ ?_)

theorem State.bar0Read_keeps (s : State) (off len : Nat) : Keeps 0x24008 s (State.bar0Read s off len) := by
  unfold State.bar0Read
  try simp -proj -iota -beta -eta only []
  repeat' first | with_reducible exact Keeps.refl _ | with_reducible refine (State.emit_keeps ..).after ?_ rfl
                | with_reducible refine (State.readSide_keeps ..).after ?_ rfl | with_reducible refine Keeps.ite (fun _ => ?_) (fun _ => ?_)
                | with_reducible refine Keeps.foldlP _ _ _ _ (fun _ _ => ?_) ?_ | split

theorem State.configRead_keeps (s : State) (off len : Nat) : Keeps 0x20000 s (State.configRead s off len) := by
  unfold State.configRead
  try simp -proj -iota -beta -eta only []
  repeat' first | with_reducible exact Keeps.refl _ | with_reducible refine (State.emit_keeps ..).after ?_ rfl
                | with_reducible refine Keeps.ite (fun _ => ?_) (fun _ => ?_)

theorem State.bar4Read_keeps (s : State) (off len : Nat) (tee : Bool) : Keeps 0x20104 s (State.bar4Read s off len tee) := by
  unfold State.bar4Read
  try simp -proj -iota -beta -eta only []
  repeat' first | with_reducible exact Keeps.refl _ | with_reducible refine (State.emit_keeps ..).after ?_ rfl
                | (with_reducible refine ((State.nonTee_keeps ..).get (by assumption)).after ?_ rfl)
                | with_reducible refine Keeps.ite (fun _ => ?_) (fun _ => ?_) | split

/-! ### RegWrite -/

theorem State.fieldWrite_keeps (s : State) (off w : Nat) : Keeps 0x20365 s (State.fieldWrite s off w) := by
  unfold State.fieldWrite
  try simp -proj -iota -beta -eta only []
  repeat' first | with_reducible exact Keeps.refl _ | with_reducible refine (State.setReg_keeps ..).after ?_ rfl
                | with_reducible refine (State.busyWrite_keeps ..).after ?_ rfl
                | with_reducible refine Keeps.ite (fun _ => ?_) (fun _ => ?_)

theorem State.heldWrite_keeps (s : State) (off w : Nat) : Keeps 0x20367 s (State.heldWrite s off w) := by
  unfold State.heldWrite
  try simp -proj -iota -beta -eta only []
  repeat' first | exact .inl rfl | with_reducible exact .inr rfl | with_reducible apply And.intro
                | with_reducible exact clk_same rfl rfl rfl | with_reducible exact ⟨le_rfl, fun h => h⟩ | with_reducible exact fun h => h
                | with_reducible exact Keeps.refl _ | with_reducible refine (State.setReg_keeps ..).after ?_ rfl
                | with_reducible refine (State.busyWrite_keeps ..).after ?_ rfl
                | with_reducible refine Keeps.ite (fun _ => ?_) (fun _ => ?_) | (with_reducible refine Keeps.mk' ?_ ?_ ?_ ?_ ?_ ?_ ?_ ?_)

theorem State.applyHeld_keeps (s : State) (k : Nat) : Keeps 0x3 s (State.applyHeld s k) := by
  unfold State.applyHeld
  try simp -proj -iota -beta -eta only []
  repeat' first | exact .inl rfl | with_reducible exact .inr rfl | with_reducible apply And.intro
                | with_reducible exact clk_same rfl rfl rfl | with_reducible exact ⟨le_rfl, fun h => h⟩ | with_reducible exact fun h => h
                | with_reducible exact Keeps.refl _ | with_reducible refine (State.setReg_keeps ..).after ?_ rfl
                | with_reducible refine Keeps.foldl _ _ _ _ (fun s x => ?_) ?_ | split
                | (with_reducible refine Keeps.mk' ?_ ?_ ?_ ?_ ?_ ?_ ?_ ?_)

theorem State.clearIf_keeps (s : State) (b : Bool) (lo hi : Nat) : Keeps 0xc s (State.clearIf s b lo hi) := by
  unfold State.clearIf
  try simp -proj -iota -beta -eta only []
  repeat' first | with_reducible exact Keeps.refl _ | with_reducible refine (State.clearCtrs_keeps ..).after ?_ rfl
                | with_reducible refine Keeps.ite (fun _ => ?_) (fun _ => ?_)

theorem State.memClear_keeps (s : State) : Keeps 0x80c s (State.memClear s) := by
  unfold State.memClear
  try simp -proj -iota -beta -eta only []
  repeat' first | exact .inl rfl | with_reducible exact .inr rfl | with_reducible apply And.intro
                | with_reducible exact clk_same rfl rfl rfl | with_reducible exact ⟨le_rfl, fun h => h⟩ | with_reducible exact fun h => h
                | with_reducible exact Keeps.refl _ | with_reducible refine (State.clearCtrs_keeps ..).after ?_ rfl
                | (with_reducible refine Keeps.mk' ?_ ?_ ?_ ?_ ?_ ?_ ?_ ?_)

theorem State.clockWrite_keeps (s : State) (off w : Nat) : Keeps 0x2637d s (State.clockWrite s off w) := by
  unfold State.clockWrite
  try simp -proj -iota -beta -eta only []
  repeat' first | exact .inl rfl | with_reducible exact .inr rfl | with_reducible apply And.intro
                | with_reducible exact clk_same rfl rfl rfl | with_reducible exact ⟨le_rfl, fun h => h⟩ | with_reducible exact fun h => h
                | with_reducible exact Keeps.refl _ | with_reducible refine (State.syncHold_keeps ..).after ?_ rfl
                | with_reducible refine (State.tallySetHi_keeps ..).after ?_ rfl
                | with_reducible refine (State.fieldWrite_keeps ..).after ?_ rfl
                | with_reducible refine (State.clearIf_keeps ..).after ?_ rfl | with_reducible refine Keeps.ite (fun _ => ?_) (fun _ => ?_)
                | (with_reducible refine Keeps.mk' ?_ ?_ ?_ ?_ ?_ ?_ ?_ ?_)

theorem State.fwCtlWrite_keeps (s : State) (w : Nat) : Keeps 0x27ff5 s (State.fwCtlWrite s w) := by
  unfold State.fwCtlWrite
  try simp -proj -iota -beta -eta only []
  repeat' first | with_reducible exact Keeps.refl _ | with_reducible refine (State.fwStage_keeps ..).after ?_ rfl
                | with_reducible refine (State.fwCommit_keeps ..).after ?_ rfl
                | with_reducible refine (State.fwRecover_keeps ..).after ?_ rfl
                | with_reducible refine (State.fwActivate_keeps ..).after ?_ rfl
                | with_reducible refine (State.fieldWrite_keeps ..).after ?_ rfl
                | with_reducible refine Keeps.ite (fun _ => ?_) (fun _ => ?_)

theorem State.serviceWrite_keeps (s : State) (off w : Nat) : Keeps 0x67ffd s (State.serviceWrite s off w) := by
  unfold State.serviceWrite
  try simp -proj -iota -beta -eta only []
  repeat' first | with_reducible exact Keeps.refl _ | with_reducible refine (State.busyWrite_keeps ..).after ?_ rfl
                | with_reducible refine (State.unitCmd_keeps ..).after ?_ rfl
                | with_reducible refine (State.lockedChange_keeps ..).after ?_ rfl
                | with_reducible refine (State.dbgCtlWrite_keeps ..).after ?_ rfl
                | with_reducible refine (State.fieldWrite_keeps ..).after ?_ rfl
                | with_reducible refine (State.clearIf_keeps ..).after ?_ rfl
                | with_reducible refine (State.fwCtlWrite_keeps ..).after ?_ rfl
                | with_reducible refine Keeps.ite (fun _ => ?_) (fun _ => ?_)

theorem State.cageWrite_keeps (s : State) (off w : Nat) (line : List Byte) : Keeps 0x2036d s (State.cageWrite s off w line) := by
  unfold State.cageWrite
  try simp -proj -iota -beta -eta only []
  repeat' first | exact .inl rfl | with_reducible exact .inr rfl | with_reducible apply And.intro
                | with_reducible exact clk_same rfl rfl rfl | with_reducible exact ⟨le_rfl, fun h => h⟩ | with_reducible exact fun h => h
                | with_reducible exact Keeps.refl _ | with_reducible refine (State.ringCtlWrite_keeps ..).after ?_ rfl
                | with_reducible refine (State.evqWriteReg_keeps ..).after ?_ rfl
                | with_reducible refine (State.fieldWrite_keeps ..).after ?_ rfl
                | with_reducible refine (State.clearIf_keeps ..).after ?_ rfl | with_reducible refine Keeps.ite (fun _ => ?_) (fun _ => ?_)
                | (with_reducible refine Keeps.mk' ?_ ?_ ?_ ?_ ?_ ?_ ?_ ?_)

theorem State.portWrite_keeps (s : State) (p o w : Nat) : Keeps 0x2436d s (State.portWrite s p o w) := by
  unfold State.portWrite
  try simp -proj -iota -beta -eta only []
  repeat' first | with_reducible exact Keeps.refl _ | with_reducible refine (State.setPort_keeps ..).after ?_ rfl
                | with_reducible refine (State.portModeSet_keeps ..).after ?_ rfl
                | with_reducible refine (State.fieldWrite_keeps ..).after ?_ rfl
                | with_reducible refine (State.clearIf_keeps ..).after ?_ rfl | with_reducible refine Keeps.ite (fun _ => ?_) (fun _ => ?_)

theorem State.fabricWrite_keeps (s : State) (off w : Nat) : Keeps 0x2436d s (State.fabricWrite s off w) := by
  unfold State.fabricWrite
  try simp -proj -iota -beta -eta only []
  repeat' first | with_reducible exact Keeps.refl _ | with_reducible refine (State.fieldWrite_keeps ..).after ?_ rfl
                | with_reducible refine (State.clearIf_keeps ..).after ?_ rfl
                | with_reducible refine (State.portWrite_keeps ..).after ?_ rfl
                | with_reducible refine Keeps.ite (fun _ => ?_) (fun _ => ?_)

theorem State.hoistCfgWrite_keeps (s : State) (n w : Nat) : Keeps 0x21365 s (State.hoistCfgWrite s n w) := by
  unfold State.hoistCfgWrite
  try simp -proj -iota -beta -eta only []
  repeat' first | with_reducible exact Keeps.refl _ | with_reducible refine (State.setRf_keeps ..).after ?_ rfl
                | with_reducible refine (State.setSlot_keeps ..).after ?_ rfl
                | with_reducible refine (State.fieldWrite_keeps ..).after ?_ rfl
                | with_reducible refine Keeps.ite (fun _ => ?_) (fun _ => ?_)

theorem State.sluiceCfgWrite_keeps (s : State) (n w : Nat) : Keeps 0x27b65 s (State.sluiceCfgWrite s n w) := by
  unfold State.sluiceCfgWrite
  try simp -proj -iota -beta -eta only []
  repeat' first | with_reducible exact Keeps.refl _ | with_reducible refine (State.setSlot_keeps ..).after ?_ rfl
                | with_reducible refine (State.checkSluice_keeps ..).after ?_ rfl
                | with_reducible refine (State.fieldWrite_keeps ..).after ?_ rfl
                | with_reducible refine Keeps.ite (fun _ => ?_) (fun _ => ?_)

theorem State.clearSite_keeps (s : State) (k : Nat) : Keeps 0x200c s (State.clearSite s k) := by
  unfold State.clearSite
  try simp -proj -iota -beta -eta only []
  repeat' first | exact .inl rfl | with_reducible exact .inr rfl | with_reducible apply And.intro
                | with_reducible exact clk_same rfl rfl rfl | with_reducible exact ⟨le_rfl, fun h => h⟩ | with_reducible exact fun h => h
                | with_reducible exact Keeps.refl _ | with_reducible refine (State.clearCtrs_keeps ..).after ?_ rfl
                | with_reducible refine Keeps.foldl _ _ _ _ (fun s x => ?_) ?_ | (with_reducible refine Keeps.mk' ?_ ?_ ?_ ?_ ?_ ?_ ?_ ?_)

theorem State.siteWrite_keeps (s : State) (off w : Nat) : Keeps 0x2236f s (State.siteWrite s off w) := by
  unfold State.siteWrite
  try simp -proj -iota -beta -eta only []
  repeat' first | with_reducible exact Keeps.refl _ | with_reducible refine (State.pumpSpills_keeps ..).after ?_ rfl
                | with_reducible refine (State.fieldWrite_keeps ..).after ?_ rfl
                | with_reducible refine (State.heldWrite_keeps ..).after ?_ rfl
                | with_reducible refine (State.applyHeld_keeps ..).after ?_ rfl
                | with_reducible refine (State.clearSite_keeps ..).after ?_ rfl
                | with_reducible refine Keeps.ite (fun _ => ?_) (fun _ => ?_)

theorem State.bar0Write_keeps (s : State) (off w : Nat) (line : List Byte) : Keeps 0x67fff s (State.bar0Write s off w line) := by
  unfold State.bar0Write
  try simp -proj -iota -beta -eta only []
  repeat' first | exact .inl rfl | with_reducible exact .inr rfl | with_reducible apply And.intro
                | with_reducible exact clk_same rfl rfl rfl | with_reducible exact ⟨le_rfl, fun h => h⟩ | with_reducible exact fun h => h
                | with_reducible exact Keeps.refl _ | with_reducible refine (State.fieldWrite_keeps ..).after ?_ rfl
                | with_reducible refine (State.clearIf_keeps ..).after ?_ rfl | with_reducible refine (State.memClear_keeps ..).after ?_ rfl
                | with_reducible refine (State.clockWrite_keeps ..).after ?_ rfl
                | with_reducible refine (State.serviceWrite_keeps ..).after ?_ rfl
                | with_reducible refine (State.cageWrite_keeps ..).after ?_ rfl
                | with_reducible refine (State.fabricWrite_keeps ..).after ?_ rfl
                | with_reducible refine (State.hoistCfgWrite_keeps ..).after ?_ rfl
                | with_reducible refine (State.sluiceCfgWrite_keeps ..).after ?_ rfl
                | with_reducible refine (State.siteWrite_keeps ..).after ?_ rfl
                | with_reducible refine Keeps.ite (fun _ => ?_) (fun _ => ?_) | (with_reducible refine Keeps.mk' ?_ ?_ ?_ ?_ ?_ ?_ ?_ ?_)

theorem State.mmioWrite_keeps (s : State) (off w : Nat) (line : List Byte) (tee : Bool) : Keeps 0x67fff s (State.mmioWrite s off w line tee) := by
  unfold State.mmioWrite
  try simp -proj -iota -beta -eta only []
  repeat' first | exact .inl rfl | with_reducible exact .inr rfl | with_reducible apply And.intro
                | with_reducible exact clk_same rfl rfl rfl | with_reducible exact ⟨le_rfl, fun h => h⟩ | with_reducible exact fun h => h
                | with_reducible exact Keeps.refl _ | with_reducible refine (State.wake_keeps ..).after ?_ rfl
                | (with_reducible refine ((State.nonTee_keeps ..).get (by assumption)).after ?_ rfl)
                | with_reducible refine (State.bar0Write_keeps ..).after ?_ rfl
                | with_reducible refine Keeps.ite (fun _ => ?_) (fun _ => ?_) | split
                | (with_reducible refine Keeps.mk' ?_ ?_ ?_ ?_ ?_ ?_ ?_ ?_)

theorem State.oneWrite_keeps (s : State) (off w : Nat) (tee : Bool) : Keeps 0x67fff s (State.oneWrite s off w tee) := by
  unfold State.oneWrite
  try simp -proj -iota -beta -eta only []
  repeat' first | with_reducible exact Keeps.refl _ | with_reducible refine (State.mmioWrite_keeps ..).after ?_ rfl
                | with_reducible refine Keeps.ite (fun _ => ?_) (fun _ => ?_)

/-! ### Flow -/

theorem State.fillPanel_keeps (s : State) (r : StRef) (p : Nat × InPort) (h : Held) : Keeps 0x2000 s (State.fillPanel s r p h) := by
  unfold State.fillPanel
  try simp -proj -iota -beta -eta only []
  repeat' first | with_reducible exact Keeps.refl _ | with_reducible refine (State.releaseTok_keeps ..).after ?_ rfl
                | with_reducible refine (State.setPanel_keeps ..).after ?_ rfl | split

theorem State.fillPanels_keeps (s : State) (r : StRef) : Keeps 0x2000 s (State.fillPanels s r) := by
  unfold State.fillPanels
  try simp -proj -iota -beta -eta only []
  repeat' first | with_reducible exact Keeps.refl _ | with_reducible refine (State.fillPanel_keeps ..).after ?_ rfl
                | with_reducible refine Keeps.ite (fun _ => ?_) (fun _ => ?_) | with_reducible refine Keeps.foldl _ _ _ _ (fun s x => ?_) ?_

theorem State.land_keeps (s : State) (f : Flight) (g : RingRun) (t : Tmpl) (k : Token) :
    OKeeps 0x2004 s (s.land f g t k).1 ∧ Keeps 0x2004 s (s.land f g t k).2 := by
  have hb := fun site ls => (s.accessBanks_keeps site ls).mono (p := 0x2004) rfl
  have hi : ∀ h, OKeeps 0x2004 s (s.intoRing f.site f.ring h t.slots k) := fun h => (State.intoRing_keeps _ _ _ _ _ _).of (Keeps.refl _) rfl
  unfold State.land
  simp -proj -iota -beta -eta only []
  split
  · exact ⟨hi _, Keeps.refl _⟩
  split
  · exact ⟨OKeeps.ite (fun _ => hi _) (fun _ => OKeeps.none), Keeps.refl _⟩
  split
  · exact ⟨(State.intoSpill_keeps _ _ _ _ _ _).of (hb _ _) rfl, Keeps.refl _⟩
  · exact ⟨OKeeps.none, hb _ _⟩

theorem State.emitFiring_keeps (s : State) (r : StRef) (entry : Nat) (e : Entry) (w : TileWork) (vals : List (List Word)) : Keeps 0x2000 s (State.emitFiring s r entry e w vals) := by
  unfold State.emitFiring
  try simp -proj -iota -beta -eta only []
  repeat' first | with_reducible exact Keeps.refl _ | with_reducible refine (State.runLines_keeps ..).after ?_ rfl
                | with_reducible refine (State.outputRows_keeps ..).after ?_ rfl
                | with_reducible refine (State.openBoundary_keeps ..).after ?_ rfl
                | with_reducible refine Keeps.ite (fun _ => ?_) (fun _ => ?_) | with_reducible refine Keeps.foldl _ _ _ _ (fun s x => ?_) ?_

theorem State.deliverDrain_keeps (s : State) (r : StRef) (a : Nat) (w : TileWork) : Keeps 0x2000 s (State.deliverDrain s r a w) := by
  unfold State.deliverDrain
  try simp -proj -iota -beta -eta only []
  repeat' first | with_reducible exact Keeps.refl _ | with_reducible refine (State.setRun_keeps ..).after ?_ rfl
                | with_reducible refine (State.accStore_keeps ..).after ?_ rfl
                | with_reducible refine (State.flushStationary_keeps ..).after ?_ rfl
                | with_reducible refine (State.emitFiring_keeps ..).after ?_ rfl
                | with_reducible refine Keeps.ite (fun _ => ?_) (fun _ => ?_) | split

theorem State.rearmDue_keeps (s : State) (r : StRef) : Keeps 0x2000 s (State.rearmDue s r) := by
  unfold State.rearmDue
  try simp -proj -iota -beta -eta only []
  repeat' first | with_reducible exact Keeps.refl _ | with_reducible refine (State.takeRearm_keeps ..).after ?_ rfl
                | with_reducible refine Keeps.ite (fun _ => ?_) (fun _ => ?_) | with_reducible refine Keeps.foldl _ _ _ _ (fun s x => ?_) ?_

theorem State.closeCanaries_keeps (s : State) (r : StRef) : Keeps 0x22364 s (State.closeCanaries s r) := by
  unfold State.closeCanaries
  try simp -proj -iota -beta -eta only []
  repeat' first | with_reducible exact Keeps.refl _ | with_reducible refine (State.setRun_keeps ..).after ?_ rfl
                | with_reducible refine (State.canaryClose_keeps ..).after ?_ rfl
                | with_reducible refine Keeps.ite (fun _ => ?_) (fun _ => ?_) | with_reducible refine Keeps.foldl _ _ _ _ (fun s x => ?_) ?_

theorem State.spillReturn_keeps (s : State) (site ring ce : Nat) : Keeps 0x27364 s (State.spillReturn s site ring ce) := by
  unfold State.spillReturn
  try simp -proj -iota -beta -eta only []
  repeat' first | with_reducible exact Keeps.refl _ | with_reducible refine (State.ceSite_keeps ..).after ?_ rfl
                | with_reducible refine (State.bumpSite_keeps ..).after ?_ rfl | with_reducible refine (State.setRng_keeps ..).after ?_ rfl
                | with_reducible refine (State.accessBanks_keeps ..).after ?_ rfl
                | with_reducible refine (State.indexAll_keeps ..).after ?_ rfl
                | (with_reducible refine ((State.intoRing_keeps ..).get (by assumption)).after ?_ rfl)
                | with_reducible refine (State.pump_keeps ..).after ?_ rfl | with_reducible refine (State.spadUe_keeps ..).after ?_ rfl
                | with_reducible refine (State.fillPanels_keeps ..).after ?_ rfl
                | with_reducible refine Keeps.ite (fun _ => ?_) (fun _ => ?_) | split

/-! ### SurveyLoad -/

theorem State.takeSurvey_keeps (s : State) (n : Nat) (v : Survey) : Keeps 0x3000 s (State.takeSurvey s n v) := by
  unfold State.takeSurvey
  try simp -proj -iota -beta -eta only []
  repeat' first | exact .inl rfl | with_reducible exact .inr rfl | with_reducible apply And.intro
                | with_reducible exact clk_same rfl rfl rfl | with_reducible exact ⟨le_rfl, fun h => h⟩ | with_reducible exact fun h => h
                | with_reducible exact Keeps.refl _ | with_reducible refine (State.setSlot_keeps ..).after ?_ rfl
                | (with_reducible refine Keeps.mk' ?_ ?_ ?_ ?_ ?_ ?_ ?_ ?_)

theorem State.checkLoad_keeps (s : State) (d : Started) (desc : List Byte) (view : HostView) : Keeps 0x23fe4 s (State.checkLoad s d desc view) := by
  unfold State.checkLoad
  try simp -proj -iota -beta -eta only []
  repeat' first | with_reducible exact Keeps.refl _ | with_reducible refine (State.complete_keeps ..).after ?_ rfl
                | with_reducible refine (State.setKind_keeps ..).after ?_ rfl | with_reducible refine (State.waitPage_keeps ..).after ?_ rfl
                | with_reducible refine (State.takeSurvey_keeps ..).after ?_ rfl
                | with_reducible refine Keeps.ite (fun _ => ?_) (fun _ => ?_) | split

theorem State.writeWindow_keeps (s : State) (site w : Nat) (x : WinImage) : Keeps 0x1 s (State.writeWindow s site w x) := by
  unfold State.writeWindow
  try simp -proj -iota -beta -eta only []
  repeat' first | with_reducible exact Keeps.refl _ | with_reducible refine (State.setReg_keeps ..).after ?_ rfl
                | with_reducible refine Keeps.foldl _ _ _ _ (fun s x => ?_) ?_

theorem State.writeSpillReg_keeps (s : State) (site q : Nat) (x : SpillImage) : Keeps 0x1 s (State.writeSpillReg s site q x) := by
  unfold State.writeSpillReg
  try simp -proj -iota -beta -eta only []
  repeat' first | with_reducible exact Keeps.refl _ | with_reducible refine (State.setReg_keeps ..).after ?_ rfl

theorem State.writeMu_keeps (s : State) (v : Survey) (m : MuRegion) : Keeps 0x1 s (State.writeMu s v m) := by
  unfold State.writeMu
  try simp -proj -iota -beta -eta only []
  repeat' first | with_reducible exact Keeps.refl _ | with_reducible refine (State.writeWindow_keeps ..).after ?_ rfl
                | with_reducible refine (State.writeSpillReg_keeps ..).after ?_ rfl
                | with_reducible refine Keeps.ite (fun _ => ?_) (fun _ => ?_) | with_reducible refine Keeps.foldl _ _ _ _ (fun s x => ?_) ?_
                | split

theorem State.armRing_keeps (s : State) (n : Nat) (v : Survey) (r : Route) : Keeps 0x2000 s (State.armRing s n v r) := by
  unfold State.armRing
  try simp -proj -iota -beta -eta only []
  repeat' first | with_reducible exact Keeps.refl _ | with_reducible refine (State.setRng_keeps ..).after ?_ rfl
                | with_reducible refine Keeps.ite (fun _ => ?_) (fun _ => ?_) | split

theorem State.clearForLoad_keeps (s : State) (n : Nat) (v : Survey) : Keeps 0xc s (State.clearForLoad s n v) := by
  unfold State.clearForLoad
  try simp -proj -iota -beta -eta only []
  repeat' first | with_reducible exact Keeps.refl _ | with_reducible refine (State.clearCtrs_keeps ..).after ?_ rfl
                | with_reducible refine Keeps.foldl _ _ _ _ (fun s x => ?_) ?_

theorem State.placeSurvey_keeps (s : State) (n : Nat) (v : Survey) : Keeps 0x300d s (State.placeSurvey s n v) := by
  unfold State.placeSurvey
  try simp -proj -iota -beta -eta only []
  repeat' first | exact .inl rfl | with_reducible exact .inr rfl | with_reducible apply And.intro
                | with_reducible exact clk_same rfl rfl rfl | with_reducible exact ⟨le_rfl, fun h => h⟩ | with_reducible exact fun h => h
                | with_reducible exact Keeps.refl _ | with_reducible refine (State.setSlot_keeps ..).after ?_ rfl
                | with_reducible refine (State.writeMu_keeps ..).after ?_ rfl | with_reducible refine (State.armRing_keeps ..).after ?_ rfl
                | with_reducible refine (State.clearForLoad_keeps ..).after ?_ rfl
                | with_reducible refine Keeps.foldl _ _ _ _ (fun s x => ?_) ?_ | (with_reducible refine Keeps.mk' ?_ ?_ ?_ ?_ ?_ ?_ ?_ ?_)

theorem State.dropLoad_keeps (s : State) (n : Nat) : Keeps 0x3000 s (State.dropLoad s n) := by
  unfold State.dropLoad
  try simp -proj -iota -beta -eta only []
  repeat' first | exact .inl rfl | with_reducible exact .inr rfl | with_reducible apply And.intro
                | with_reducible exact clk_same rfl rfl rfl | with_reducible exact ⟨le_rfl, fun h => h⟩ | with_reducible exact fun h => h
                | with_reducible exact Keeps.refl _ | with_reducible refine (State.setSlot_keeps ..).after ?_ rfl
                | (with_reducible refine Keeps.mk' ?_ ?_ ?_ ?_ ?_ ?_ ?_ ?_)

/-! ### Steps -/

theorem State.sendStarts_keeps (s : State) (n step : Nat) : Keeps 0x2000 s (State.sendStarts s n step) := by
  unfold State.sendStarts
  try simp -proj -iota -beta -eta only []
  repeat' first | with_reducible exact Keeps.refl _ | with_reducible refine (State.send_keeps ..).after ?_ rfl
                | with_reducible refine Keeps.ite (fun _ => ?_) (fun _ => ?_) | with_reducible refine Keeps.foldl _ _ _ _ (fun s x => ?_) ?_

theorem State.retireStep_keeps (s : State) (n step : Nat) : Keeps 0x3000 s (State.retireStep s n step) := by
  unfold State.retireStep
  try simp -proj -iota -beta -eta only []
  repeat' first | exact .inl rfl | with_reducible exact .inr rfl | with_reducible apply And.intro
                | with_reducible exact clk_same rfl rfl rfl | with_reducible exact ⟨le_rfl, fun h => h⟩ | with_reducible exact fun h => h
                | with_reducible exact Keeps.refl _ | with_reducible refine (State.setSlot_keeps ..).after ?_ rfl
                | (with_reducible refine Keeps.mk' ?_ ?_ ?_ ?_ ?_ ?_ ?_ ?_)

theorem State.takeParams_keeps (s : State) (d : Started) (desc : List Byte) (view : HostView) : Keeps 0x21fe4 s (State.takeParams s d desc view) := by
  unfold State.takeParams
  try simp -proj -iota -beta -eta only []
  repeat' first | with_reducible exact Keeps.refl _ | with_reducible refine (State.setSlot_keeps ..).after ?_ rfl
                | with_reducible refine (State.complete_keeps ..).after ?_ rfl
                | with_reducible refine (State.waitPage_keeps ..).after ?_ rfl | with_reducible refine Keeps.ite (fun _ => ?_) (fun _ => ?_)
                | split

/-! ### Hoist -/

theorem State.countLevels_keeps (s : State) (slot ctr : Nat) (xs : List (Nat × Nat)) : Keeps 0x4 s (State.countLevels s slot ctr xs) := by
  unfold State.countLevels
  try simp -proj -iota -beta -eta only []
  repeat' first | with_reducible exact Keeps.refl _ | with_reducible refine (State.bump_keeps ..).after ?_ rfl
                | with_reducible refine Keeps.foldl _ _ _ _ (fun s x => ?_) ?_

theorem State.ovfStop_keeps (s : State) (n : Nat) (ls : List Nat) : OKeeps 0x27b64 s (State.ovfStop s n ls) := by
  unfold State.ovfStop
  try simp -proj -iota -beta -eta only []
  repeat' first | with_reducible exact Keeps.refl _ | with_reducible refine (State.hbmUe_keeps ..).after ?_ rfl
                | with_reducible refine (State.sealStop_keeps ..).after ?_ rfl | with_reducible refine OKeeps.some ?_
                | with_reducible refine OKeeps.map (fun _ => ?_) | split

theorem State.ovfPut_keeps (s : State) (n : Nat) (d : OvfData) (also : List OvfData) : Keeps 0x27f64 s (State.ovfPut s n d also).1 := by
  unfold State.ovfPut
  try simp -proj -iota -beta -eta only []
  repeat' first | with_reducible exact Keeps.refl _ | with_reducible refine (State.hbmWrite_keeps ..).after ?_ rfl
                | with_reducible refine (State.sealStop_keeps ..).after ?_ rfl
                | with_reducible refine Keeps.foldl _ _ _ _ (fun s x => ?_) ?_ | split

theorem State.sendRspPart_keeps (s : State) (dst fjob rslot num status w : Nat) (bs : List Byte) : Keeps 0x24004 s (State.sendRspPart s dst fjob rslot num status w bs) := by
  unfold State.sendRspPart
  try simp -proj -iota -beta -eta only []
  repeat' first | with_reducible exact Keeps.refl _ | with_reducible refine (State.sendPacket_keeps ..).after ?_ rfl

theorem State.sendRsp_keeps (s : State) (dst fjob rslot num at_ : Nat) (data : List Byte) : Keeps 0x24004 s (State.sendRsp s dst fjob rslot num at_ data) := by
  unfold State.sendRsp
  try simp -proj -iota -beta -eta only []
  repeat' first | with_reducible exact Keeps.refl _ | with_reducible refine (State.sendRspPart_keeps ..).after ?_ rfl
                | with_reducible refine Keeps.foldl _ _ _ _ (fun s x => ?_) ?_

theorem State.ask_keeps (s : State) (q0 : GatherReq) (bg : Bool) : Keeps 0x26004 s (State.ask s q0 bg) := by
  unfold State.ask
  try simp -proj -iota -beta -eta only []
  repeat' first | exact .inl rfl | with_reducible exact .inr rfl | with_reducible apply And.intro
                | with_reducible exact clk_same rfl rfl rfl | with_reducible exact ⟨le_rfl, fun h => h⟩ | with_reducible exact fun h => h
                | with_reducible exact Keeps.refl _ | with_reducible refine (State.sendPacket_keeps ..).after ?_ rfl | split
                | (with_reducible refine Keeps.mk' ?_ ?_ ?_ ?_ ?_ ?_ ?_ ?_)

theorem State.setPiece_keeps (s : State) (p : Piece) : Keeps 0x2000 s (State.setPiece s p) := by
  unfold State.setPiece
  try simp -proj -iota -beta -eta only []
  repeat' first | exact .inl rfl | with_reducible exact .inr rfl | with_reducible apply And.intro
                | with_reducible exact clk_same rfl rfl rfl | with_reducible exact ⟨le_rfl, fun h => h⟩ | with_reducible exact fun h => h
                | with_reducible exact Keeps.refl _ | (with_reducible refine Keeps.mk' ?_ ?_ ?_ ?_ ?_ ?_ ?_ ?_)

theorem State.beginCopies_keeps (s : State) (n layer : Nat) (regather : Bool) : Keeps 0x2000 s (State.beginCopies s n layer regather) := by
  unfold State.beginCopies
  try simp -proj -iota -beta -eta only []
  repeat' first | exact .inl rfl | with_reducible exact .inr rfl | with_reducible apply And.intro
                | with_reducible exact clk_same rfl rfl rfl | with_reducible exact ⟨le_rfl, fun h => h⟩ | with_reducible exact fun h => h
                | with_reducible exact Keeps.refl _ | with_reducible refine Keeps.ite (fun _ => ?_) (fun _ => ?_)
                | with_reducible refine Keeps.foldl _ _ _ _ (fun s x => ?_) ?_ | (with_reducible refine Keeps.mk' ?_ ?_ ?_ ?_ ?_ ?_ ?_ ?_)

theorem State.askShard_keeps (s : State) (n layer shard : Nat) (peer : Option Nat) (l : Layer) (o : Bool) (kind : GatherKind) (version : Nat) : Keeps 0x26004 s (State.askShard s n layer shard peer l o kind version) := by
  unfold State.askShard
  try simp -proj -iota -beta -eta only []
  repeat' first | with_reducible exact Keeps.refl _ | with_reducible refine (State.ask_keeps ..).after ?_ rfl
                | with_reducible refine (State.setPiece_keeps ..).after ?_ rfl | with_reducible refine Keeps.ite (fun _ => ?_) (fun _ => ?_)

theorem State.writeChunk_keeps (s : State) (n : Nat) (l : Layer) (c : Chunk) (trn : Bool) (at_ pos : Nat) (bs : List Byte) : Keeps 0x27364 s (State.writeChunk s n l c trn at_ pos bs) := by
  unfold State.writeChunk
  try simp -proj -iota -beta -eta only []
  repeat' first | with_reducible exact Keeps.refl _ | with_reducible refine (State.jobFault_keeps ..).after ?_ rfl
                | with_reducible refine (State.bumpSite_keeps ..).after ?_ rfl
                | with_reducible refine (State.bankWrite_keeps ..).after ?_ rfl
                | with_reducible refine Keeps.ite (fun _ => ?_) (fun _ => ?_)

theorem State.turnCopy_keeps (s : State) (l : Layer) (x : CopyId) (bs : List Byte) (last : Bool) : Keeps 0x2000 s (State.turnCopy s l x bs last) := by
  unfold State.turnCopy
  try simp -proj -iota -beta -eta only []
  repeat' first | exact .inl rfl | with_reducible exact .inr rfl | with_reducible apply And.intro
                | with_reducible exact clk_same rfl rfl rfl | with_reducible exact ⟨le_rfl, fun h => h⟩ | with_reducible exact fun h => h
                | with_reducible exact Keeps.refl _ | with_reducible refine (State.setPiece_keeps ..).after ?_ rfl
                | with_reducible refine Keeps.ite (fun _ => ?_) (fun _ => ?_) | split
                | (with_reducible refine Keeps.mk' ?_ ?_ ?_ ?_ ?_ ?_ ?_ ?_)

theorem State.fillChunk_keeps (s : State) (x : StageData) : ∀ y, State.fillChunk s x = some y → Keeps 0x27b64 s y.1 := by
  intro y e
  unfold State.fillChunk at e
  split at e
  · cases e
  split at e
  rotate_left
  · cases e
  obtain ⟨p, -, e⟩ := Option.bind_eq_some_iff.1 e
  simp only [] at e
  split at e
  · cases e
  split at e
  · cases e
    exact ((State.ovfStop_keeps _ _ _).get ‹_›).mono rfl
  cases e
  refine (State.turnCopy_keeps ..).after ((State.setPiece_keeps ..).after (Keeps.setFlow ?_ rfl) rfl) rfl
  exact (State.writeChunk_keeps ..).after (Keeps.foldl _ _ _ _ (fun s x => (State.touchLine_keeps ..).mono rfl) (Keeps.refl _)) rfl

theorem State.fillChunks_keeps (n : Nat) (s : State) (x0 : StageData) : Keeps 0x27b64 s (State.fillChunks n s x0).1 := by
  induction n generalizing s x0 with
  | zero => exact Keeps.refl _
  | succ n ih =>
    unfold State.fillChunks
    split
    · exact Keeps.refl _
    split
    · exact Keeps.refl _
    · exact (ih ..).after (State.fillChunk_keeps _ _ _ ‹_›) rfl

theorem State.pumpStage_keeps (s : State) : Keeps 0x27b64 s (State.pumpStage s) := by
  unfold State.pumpStage
  try simp -proj -iota -beta -eta only []
  repeat' first | exact .inl rfl | with_reducible exact .inr rfl | with_reducible apply And.intro
                | with_reducible exact clk_same rfl rfl rfl | with_reducible exact ⟨le_rfl, fun h => h⟩ | with_reducible exact fun h => h
                | with_reducible exact Keeps.refl _ | with_reducible refine (State.fillChunks_keeps ..).after ?_ rfl
                | with_reducible refine Keeps.ite (fun _ => ?_) (fun _ => ?_) | with_reducible refine Keeps.foldl _ _ _ _ (fun s x => ?_) ?_
                | split | (with_reducible refine Keeps.mk' ?_ ?_ ?_ ?_ ?_ ?_ ?_ ?_)

theorem State.spillPieces_keeps (s : State) (n : Nat) : Keeps 0x27f64 s (State.spillPieces s n) := by
  unfold State.spillPieces
  try simp -proj -iota -beta -eta only []
  repeat' first | with_reducible exact Keeps.refl _ | with_reducible refine (State.countLevels_keeps ..).after ?_ rfl
                | with_reducible refine (State.ovfPut_keeps ..).after ?_ rfl | with_reducible refine (State.setPiece_keeps ..).after ?_ rfl
                | with_reducible refine Keeps.ite (fun _ => ?_) (fun _ => ?_) | with_reducible refine Keeps.foldl _ _ _ _ (fun s x => ?_) ?_
                | split

theorem State.missTiles_keeps (n : Nat) (s : State) (x0 : StRef) (x1 : Layer) (x2 : Bool) : Keeps 0x43004 s (State.missTiles n s x0 x1 x2) := by
  induction n generalizing s x0 x1 x2 with
  | zero => exact Keeps.refl _
  | succ n ih =>
    unfold State.missTiles
    try simp -proj -iota -beta -eta only []
    repeat' first | with_reducible exact Keeps.refl _ | with_reducible refine (State.outputAll_keeps ..).after ?_ rfl
                  | with_reducible refine (State.fired_keeps ..).after ?_ rfl | with_reducible refine (ih ..).after ?_ rfl
                  | with_reducible refine Keeps.ite (fun _ => ?_) (fun _ => ?_) | split

theorem State.gatherError_keeps (s : State) (q : GatherReq) (h : HoistTable) (l : Layer) : Keeps 0x43004 s (State.gatherError s q h l) := by
  unfold State.gatherError
  try simp -proj -iota -beta -eta only []
  repeat' first | with_reducible exact Keeps.refl _ | with_reducible refine (State.missTiles_keeps ..).after ?_ rfl
                | with_reducible refine Keeps.foldl _ _ _ _ (fun s x => ?_) ?_

theorem State.gatherFail_keeps (s : State) (q : GatherReq) (h : HoistTable) (l : Layer) (status found : Nat) : Keeps 0x67364 s (State.gatherFail s q h l status found) := by
  unfold State.gatherFail
  try simp -proj -iota -beta -eta only []
  repeat' first | with_reducible exact Keeps.refl _ | with_reducible refine (State.bump_keeps ..).after ?_ rfl
                | with_reducible refine (State.jobFaultWith_keeps ..).after ?_ rfl
                | with_reducible refine (State.remoteError_keeps ..).after ?_ rfl
                | with_reducible refine (State.gatherError_keeps ..).after ?_ rfl
                | with_reducible refine Keeps.ite (fun _ => ?_) (fun _ => ?_) | split

theorem State.retain_keeps (s : State) (q : GatherReq) (h : HoistTable) (shard : Nat) (data : List Byte) : Keeps 0x27f64 s (State.retain s q h shard data) := by
  unfold State.retain
  try simp -proj -iota -beta -eta only []
  repeat' first | exact .inl rfl | with_reducible exact .inr rfl | with_reducible apply And.intro
                | with_reducible exact clk_same rfl rfl rfl | with_reducible exact ⟨le_rfl, fun h => h⟩ | with_reducible exact fun h => h
                | with_reducible exact Keeps.refl _ | with_reducible refine (State.ovfPut_keeps ..).after ?_ rfl
                | with_reducible refine Keeps.ite (fun _ => ?_) (fun _ => ?_) | split
                | (with_reducible refine Keeps.mk' ?_ ?_ ?_ ?_ ?_ ?_ ?_ ?_)

theorem State.dropReq_keeps (s : State) (q : GatherReq) : Keeps 0x2000 s (State.dropReq s q) := by
  unfold State.dropReq
  try simp -proj -iota -beta -eta only []
  repeat' first | exact .inl rfl | with_reducible exact .inr rfl | with_reducible apply And.intro
                | with_reducible exact clk_same rfl rfl rfl | with_reducible exact ⟨le_rfl, fun h => h⟩ | with_reducible exact fun h => h
                | with_reducible exact Keeps.refl _ | (with_reducible refine Keeps.mk' ?_ ?_ ?_ ?_ ?_ ?_ ?_ ?_)

theorem State.gatherData_keeps (s : State) (q : GatherReq) (data : List Byte) : Keeps 0x27f64 s (State.gatherData s q data) := by
  unfold State.gatherData
  try simp -proj -iota -beta -eta only []
  repeat' first | exact .inl rfl | with_reducible exact .inr rfl | with_reducible apply And.intro
                | with_reducible exact clk_same rfl rfl rfl | with_reducible exact ⟨le_rfl, fun h => h⟩ | with_reducible exact fun h => h
                | with_reducible exact Keeps.refl _ | with_reducible refine (State.progress_keeps ..).after ?_ rfl
                | with_reducible refine (State.sendRsp_keeps ..).after ?_ rfl | with_reducible refine (State.setPiece_keeps ..).after ?_ rfl
                | with_reducible refine (State.pumpStage_keeps ..).after ?_ rfl
                | with_reducible refine (State.spillPieces_keeps ..).after ?_ rfl
                | with_reducible refine (State.retain_keeps ..).after ?_ rfl | with_reducible refine (State.dropReq_keeps ..).after ?_ rfl
                | with_reducible refine Keeps.ite (fun _ => ?_) (fun _ => ?_) | split
                | (with_reducible refine Keeps.mk' ?_ ?_ ?_ ?_ ?_ ?_ ?_ ?_)

theorem State.gatherEnd_keeps (s : State) (q : GatherReq) (status found : Nat) : Keeps 0x67364 s (State.gatherEnd s q status found) := by
  unfold State.gatherEnd
  try simp -proj -iota -beta -eta only []
  repeat' first | with_reducible exact Keeps.refl _ | with_reducible refine (State.sendRspPart_keeps ..).after ?_ rfl
                | with_reducible refine (State.gatherFail_keeps ..).after ?_ rfl
                | with_reducible refine (State.dropReq_keeps ..).after ?_ rfl | split

theorem State.answer_keeps (s : State) (r : GatherRead) (status found : Nat) (data : List Byte) : Keeps 0x67f64 s (State.answer s r status found data) := by
  unfold State.answer
  try simp -proj -iota -beta -eta only []
  repeat' first | with_reducible exact Keeps.refl _ | with_reducible refine (State.sendRspPart_keeps ..).after ?_ rfl
                | with_reducible refine (State.sendRsp_keeps ..).after ?_ rfl
                | with_reducible refine (State.gatherData_keeps ..).after ?_ rfl
                | with_reducible refine (State.gatherEnd_keeps ..).after ?_ rfl
                | with_reducible refine Keeps.ite (fun _ => ?_) (fun _ => ?_) | split

theorem State.emitCopy_keeps (s : State) (r : GatherRead) (h : HoistTable) (l : Layer) (u : Rule) (vals : List (Nat × Word)) : Keeps 0x67f64 s (State.emitCopy s r h l u vals) := by
  unfold State.emitCopy
  try simp -proj -iota -beta -eta only []
  repeat' first | with_reducible exact Keeps.refl _ | with_reducible refine (State.bumpMill_keeps ..).after ?_ rfl
                | with_reducible refine (State.ruleCanary_keeps ..).after ?_ rfl
                | with_reducible refine (State.answer_keeps ..).after ?_ rfl | with_reducible refine Keeps.foldl _ _ _ _ (fun s x => ?_) ?_

theorem State.openLease_keeps (s : State) (r : GatherRead) (h : HoistTable) (l : Layer) : Keeps 0x2004 s (State.openLease s r h l) := by
  unfold State.openLease
  try simp -proj -iota -beta -eta only []
  repeat' first | exact .inl rfl | with_reducible exact .inr rfl | with_reducible apply And.intro
                | with_reducible exact clk_same rfl rfl rfl | with_reducible exact ⟨le_rfl, fun h => h⟩ | with_reducible exact fun h => h
                | with_reducible exact Keeps.refl _ | with_reducible refine (State.bump_keeps ..).after ?_ rfl
                | with_reducible refine Keeps.ite (fun _ => ?_) (fun _ => ?_) | (with_reducible refine Keeps.mk' ?_ ?_ ?_ ?_ ?_ ?_ ?_ ?_)

theorem State.gatherLines_keeps (s : State) (l : Layer) (rec8 : Bool) (row0 row rows : Nat) (gs : List Nat) : Keeps 0x20804 s (State.gatherLines s l rec8 row0 row rows gs) := by
  unfold State.gatherLines
  try simp -proj -iota -beta -eta only []
  repeat' first | with_reducible exact Keeps.refl _ | with_reducible refine (State.hbmRead_keeps ..).after ?_ rfl
                | with_reducible refine Keeps.ite (fun _ => ?_) (fun _ => ?_) | with_reducible refine Keeps.foldl _ _ _ _ (fun s x => ?_) ?_

theorem State.ownerServe_keeps (s : State) (r : GatherRead) : OKeeps 0x67f64 s (State.ownerServe s r) := by
  unfold State.ownerServe
  try simp -proj -iota -beta -eta only []
  repeat' first | exact .inl rfl | with_reducible exact .inr rfl | with_reducible apply And.intro
                | with_reducible exact clk_same rfl rfl rfl | with_reducible exact ⟨le_rfl, fun h => h⟩ | with_reducible exact fun h => h
                | with_reducible exact Keeps.refl _ | with_reducible refine (State.hbmUe_keeps ..).after ?_ rfl
                | with_reducible refine (State.sealStop_keeps ..).after ?_ rfl
                | with_reducible refine (State.bumpMill_keeps ..).after ?_ rfl
                | with_reducible refine (State.runInvalid_keeps ..).after ?_ rfl
                | with_reducible refine (State.answer_keeps ..).after ?_ rfl | with_reducible refine (State.emitCopy_keeps ..).after ?_ rfl
                | with_reducible refine (State.openLease_keeps ..).after ?_ rfl
                | with_reducible refine (State.gatherLines_keeps ..).after ?_ rfl
                | with_reducible refine Keeps.ite (fun _ => ?_) (fun _ => ?_) | with_reducible refine Keeps.foldl _ _ _ _ (fun s x => ?_) ?_
                | with_reducible refine OKeeps.ite (fun _ => ?_) (fun _ => ?_) | with_reducible exact OKeeps.none
                | with_reducible refine OKeeps.some ?_ | split | (with_reducible refine Keeps.mk' ?_ ?_ ?_ ?_ ?_ ?_ ?_ ?_)

theorem State.noteServed_keeps (s : State) (x : Retained) (r : GatherRead) (h : HoistTable) (l : Layer) : Keeps 0x26004 s (State.noteServed s x r h l) := by
  unfold State.noteServed
  try simp -proj -iota -beta -eta only []
  repeat' first | exact .inl rfl | with_reducible exact .inr rfl | with_reducible apply And.intro
                | with_reducible exact clk_same rfl rfl rfl | with_reducible exact ⟨le_rfl, fun h => h⟩ | with_reducible exact fun h => h
                | with_reducible exact Keeps.refl _ | with_reducible refine (State.closeRetained_keeps ..).after ?_ rfl
                | with_reducible refine Keeps.ite (fun _ => ?_) (fun _ => ?_) | split
                | (with_reducible refine Keeps.mk' ?_ ?_ ?_ ?_ ?_ ?_ ?_ ?_)

theorem State.passOn_keeps (s : State) (r : GatherRead) (slot owner : Nat) : Keeps 0x26004 s (State.passOn s r slot owner) := by
  unfold State.passOn
  try simp -proj -iota -beta -eta only []
  repeat' first | exact .inl rfl | with_reducible exact .inr rfl | with_reducible apply And.intro
                | with_reducible exact clk_same rfl rfl rfl | with_reducible exact ⟨le_rfl, fun h => h⟩ | with_reducible exact fun h => h
                | with_reducible exact Keeps.refl _ | with_reducible refine (State.ask_keeps ..).after ?_ rfl | split
                | (with_reducible refine Keeps.mk' ?_ ?_ ?_ ?_ ?_ ?_ ?_ ?_)

theorem State.holderServe_keeps (s : State) (r : GatherRead) : OKeeps 0x67f64 s (State.holderServe s r) := by
  unfold State.holderServe
  try simp -proj -iota -beta -eta only []
  repeat' first | with_reducible exact Keeps.refl _ | with_reducible refine (State.touchLine_keeps ..).after ?_ rfl
                | (with_reducible refine ((State.ovfStop_keeps ..).get (by assumption)).after ?_ rfl)
                | with_reducible refine (State.answer_keeps ..).after ?_ rfl | with_reducible refine (State.ownerServe_keeps ..).of ?_ rfl
                | with_reducible refine (State.noteServed_keeps ..).after ?_ rfl
                | with_reducible refine (State.passOn_keeps ..).after ?_ rfl | with_reducible refine Keeps.foldl _ _ _ _ (fun s x => ?_) ?_
                | with_reducible refine OKeeps.ite (fun _ => ?_) (fun _ => ?_) | with_reducible exact OKeeps.none
                | with_reducible refine OKeeps.some ?_ | split

theorem State.serve_keeps (s : State) (r : GatherRead) : OKeeps 0x67f64 s (State.serve s r) := by
  unfold State.serve
  try simp -proj -iota -beta -eta only []
  repeat' first | exact .inl rfl | with_reducible exact .inr rfl | with_reducible apply And.intro
                | with_reducible exact clk_same rfl rfl rfl | with_reducible exact ⟨le_rfl, fun h => h⟩ | with_reducible exact fun h => h
                | with_reducible exact Keeps.refl _ | with_reducible refine (State.ownerServe_keeps ..).of ?_ rfl
                | with_reducible refine (State.holderServe_keeps ..).of ?_ rfl
                | with_reducible refine OKeeps.ite (fun _ => ?_) (fun _ => ?_) | (with_reducible refine Keeps.mk' ?_ ?_ ?_ ?_ ?_ ?_ ?_ ?_)

/-! ### Transport -/

theorem State.takeMgmt_keeps (n : Nat) (s : State)  : Keeps 0x24004 s (State.takeMgmt n s ) := by
  induction n generalizing s  with
  | zero => exact Keeps.refl _
  | succ n ih =>
    unfold State.takeMgmt
    try simp -proj -iota -beta -eta only []
    repeat' first | with_reducible exact Keeps.refl _ | with_reducible refine (State.deliver_keeps ..).after ?_ rfl
                  | with_reducible refine (ih ..).after ?_ rfl | split

theorem State.noteEcn_keeps (s : State) (k : Packet) : Keeps 0x4000 s (State.noteEcn s k) := by
  unfold State.noteEcn
  try simp -proj -iota -beta -eta only []
  repeat' first | with_reducible exact Keeps.refl _ | with_reducible refine (State.setRxChan_keeps ..).after ?_ rfl
                | with_reducible refine Keeps.ite (fun _ => ?_) (fun _ => ?_)

theorem State.takeSequenced_keeps (s : State) (r : RxPacket) : Keeps 0x24004 s (State.takeSequenced s r) := by
  unfold State.takeSequenced
  try simp -proj -iota -beta -eta only []
  repeat' first | exact .inl rfl | with_reducible exact .inr rfl | with_reducible apply And.intro
                | with_reducible exact clk_same rfl rfl rfl | with_reducible exact ⟨le_rfl, fun h => h⟩ | with_reducible exact fun h => h
                | with_reducible exact Keeps.refl _ | with_reducible refine (State.bumpFab_keeps ..).after ?_ rfl
                | with_reducible refine (State.sendAck_keeps ..).after ?_ rfl | with_reducible refine (State.takeMgmt_keeps ..).after ?_ rfl
                | with_reducible refine (State.noteEcn_keeps ..).after ?_ rfl | with_reducible refine Keeps.ite (fun _ => ?_) (fun _ => ?_)
                | (with_reducible refine Keeps.mk' ?_ ?_ ?_ ?_ ?_ ?_ ?_ ?_)

theorem State.receive_keeps (s : State) (port : Nat) (mac : List Byte) (b : List Byte) : Keeps 0x24024 s (State.receive s port mac b) := by
  unfold State.receive
  try simp -proj -iota -beta -eta only []
  repeat' first | exact .inl rfl | with_reducible exact .inr rfl | with_reducible apply And.intro
                | with_reducible exact clk_same rfl rfl rfl | with_reducible exact ⟨le_rfl, fun h => h⟩ | with_reducible exact fun h => h
                | with_reducible exact Keeps.refl _ | with_reducible refine (State.bumpFab_keeps ..).after ?_ rfl
                | with_reducible refine (State.wake_keeps ..).after ?_ rfl
                | with_reducible refine (State.takeSequenced_keeps ..).after ?_ rfl
                | with_reducible refine Keeps.ite (fun _ => ?_) (fun _ => ?_) | (with_reducible refine Keeps.mk' ?_ ?_ ?_ ?_ ?_ ?_ ?_ ?_)

theorem State.setLimiter_keeps (s : State) (dst : Nat) (x : Limiter) : Keeps 0x4000 s (State.setLimiter s dst x) := by
  unfold State.setLimiter
  try simp -proj -iota -beta -eta only []
  repeat' first | exact .inl rfl | with_reducible exact .inr rfl | with_reducible apply And.intro
                | with_reducible exact clk_same rfl rfl rfl | with_reducible exact ⟨le_rfl, fun h => h⟩ | with_reducible exact fun h => h
                | with_reducible exact Keeps.refl _ | (with_reducible refine Keeps.mk' ?_ ?_ ?_ ?_ ?_ ?_ ?_ ?_)

theorem State.cutRate_keeps (s : State) (dst : Nat) : Keeps 0x4000 s (State.cutRate s dst) := by
  unfold State.cutRate
  try simp -proj -iota -beta -eta only []
  repeat' first | with_reducible exact Keeps.refl _ | with_reducible refine (State.setLimiter_keeps ..).after ?_ rfl
                | with_reducible refine Keeps.ite (fun _ => ?_) (fun _ => ?_)

theorem State.resend_keeps (s : State) (peer chan : Nat) (x : Kept) : Keeps 0x24004 s (State.resend s peer chan x) := by
  unfold State.resend
  try simp -proj -iota -beta -eta only []
  repeat' first | with_reducible exact Keeps.refl _ | with_reducible refine (State.bumpFab_keeps ..).after ?_ rfl
                | with_reducible refine (State.forward_keeps ..).after ?_ rfl
                | with_reducible refine (State.setTxChan_keeps ..).after ?_ rfl

/-! ### Discovery -/

theorem State.sendLink_keeps (s : State) (p : Nat) (k : Packet) : Keeps 0x24004 s (State.sendLink s p k) := by
  unfold State.sendLink
  try simp -proj -iota -beta -eta only []
  repeat' first | with_reducible exact Keeps.refl _ | with_reducible refine (State.outPort_keeps ..).after ?_ rfl

theorem State.sendMark_keeps (s : State) (p : Nat) : Keeps 0x24004 s (State.sendMark s p) := by
  unfold State.sendMark
  try simp -proj -iota -beta -eta only []
  repeat' first | with_reducible exact Keeps.refl _ | with_reducible refine (State.setPort_keeps ..).after ?_ rfl
                | with_reducible refine (State.sendLink_keeps ..).after ?_ rfl

theorem State.unqueue_keeps (s : State) (p : Nat) : Keeps 0x4000 s (State.unqueue s p) := by
  unfold State.unqueue
  try simp -proj -iota -beta -eta only []
  repeat' first | with_reducible exact Keeps.refl _ | with_reducible refine (State.setPort_keeps ..).after ?_ rfl
                | with_reducible refine Keeps.ite (fun _ => ?_) (fun _ => ?_)

theorem State.restamp_keeps (s : State) (p : Nat) (k : Packet) : Keeps 0x24004 s (State.restamp s p k) := by
  unfold State.restamp
  try simp -proj -iota -beta -eta only []
  repeat' first | with_reducible exact Keeps.refl _ | with_reducible refine (State.forward_keeps ..).after ?_ rfl
                | with_reducible refine (State.sendLink_keeps ..).after ?_ rfl | with_reducible refine Keeps.ite (fun _ => ?_) (fun _ => ?_)

theorem State.commitEpoch_keeps (s0 : State) (epoch : Nat) (es : List (Nat × Word)) : Keeps 0x24014 s0 (State.commitEpoch s0 epoch es) := by
  unfold State.commitEpoch
  try simp -proj -iota -beta -eta only []
  repeat' first | exact .inl rfl | with_reducible exact .inr rfl | with_reducible apply And.intro
                | with_reducible exact clk_same rfl rfl rfl | with_reducible exact ⟨le_rfl, fun h => h⟩ | with_reducible exact fun h => h
                | with_reducible exact Keeps.refl _ | with_reducible refine (State.chooseParent_keeps ..).after ?_ rfl
                | with_reducible refine (State.sendMark_keeps ..).after ?_ rfl | with_reducible refine (State.unqueue_keeps ..).after ?_ rfl
                | with_reducible refine (State.restamp_keeps ..).after ?_ rfl | with_reducible refine Keeps.foldl _ _ _ _ (fun s x => ?_) ?_
                | (with_reducible refine Keeps.mk' ?_ ?_ ?_ ?_ ?_ ?_ ?_ ?_)

theorem State.note_keeps (s : State) (r : Report) : Keeps 0x4000 s (State.note s r) := by
  unfold State.note
  try simp -proj -iota -beta -eta only []
  repeat' first | exact .inl rfl | with_reducible exact .inr rfl | with_reducible apply And.intro
                | with_reducible exact clk_same rfl rfl rfl | with_reducible exact ⟨le_rfl, fun h => h⟩ | with_reducible exact fun h => h
                | with_reducible exact Keeps.refl _ | with_reducible refine (State.setMember_keeps ..).after ?_ rfl | split
                | (with_reducible refine Keeps.mk' ?_ ?_ ?_ ?_ ?_ ?_ ?_ ?_)

/-! ### TimeSync -/

theorem State.slew_keeps (s : State) (ofs : Int) : Keeps 0x40010 s (State.slew s ofs) := by
  unfold State.slew
  try simp -proj -iota -beta -eta only []
  repeat' first | exact .inl rfl | with_reducible exact .inr rfl | with_reducible apply And.intro
                | with_reducible exact clk_same rfl rfl rfl | with_reducible exact ⟨le_rfl, fun h => h⟩ | with_reducible exact fun h => h
                | with_reducible exact Keeps.refl _ | with_reducible refine (State.draw_keeps ..).after ?_ rfl
                | (with_reducible refine Keeps.mk' ?_ ?_ ?_ ?_ ?_ ?_ ?_ ?_)

theorem State.acquire_keeps (s : State) (ofs : Int) : Keeps 0x62374 s (State.acquire s ofs) := by
  unfold State.acquire
  try simp -proj -iota -beta -eta only []
  repeat' first | exact .inl rfl | with_reducible exact .inr rfl | with_reducible apply And.intro
                | with_reducible exact clk_same rfl rfl rfl | with_reducible exact ⟨le_rfl, fun h => h⟩ | with_reducible exact fun h => h
                | with_reducible exact Keeps.refl _ | with_reducible refine (State.stepTally_keeps ..).after ?_ rfl
                | with_reducible refine (State.slew_keeps ..).after ?_ rfl | with_reducible refine Keeps.ite (fun _ => ?_) (fun _ => ?_)
                | split | (with_reducible refine Keeps.mk' ?_ ?_ ?_ ?_ ?_ ?_ ?_ ?_)

theorem State.track_keeps (s : State) (ofs : Int) : Keeps 0x60374 s (State.track s ofs) := by
  unfold State.track
  try simp -proj -iota -beta -eta only []
  repeat' first | exact .inl rfl | with_reducible exact .inr rfl | with_reducible apply And.intro
                | with_reducible exact clk_same rfl rfl rfl | with_reducible exact ⟨le_rfl, fun h => h⟩ | with_reducible exact fun h => h
                | with_reducible exact Keeps.refl _ | with_reducible refine (State.bump_keeps ..).after ?_ rfl
                | with_reducible refine (State.ev_keeps ..).after ?_ rfl | with_reducible refine (State.slew_keeps ..).after ?_ rfl
                | with_reducible refine Keeps.ite (fun _ => ?_) (fun _ => ?_) | (with_reducible refine Keeps.mk' ?_ ?_ ?_ ?_ ?_ ?_ ?_ ?_)

theorem State.sample_keeps (s : State) (ofs : Int) : Keeps 0x62374 s (State.sample s ofs) := by
  unfold State.sample
  try simp -proj -iota -beta -eta only []
  repeat' first | exact .inl rfl | with_reducible exact .inr rfl | with_reducible apply And.intro
                | with_reducible exact clk_same rfl rfl rfl | with_reducible exact ⟨le_rfl, fun h => h⟩ | with_reducible exact fun h => h
                | with_reducible exact Keeps.refl _ | with_reducible refine (State.bump_keeps ..).after ?_ rfl
                | with_reducible refine (State.acquire_keeps ..).after ?_ rfl | with_reducible refine (State.track_keeps ..).after ?_ rfl
                | split | (with_reducible refine Keeps.mk' ?_ ?_ ?_ ?_ ?_ ?_ ?_ ?_)

/-! ### Ports -/

theorem State.noteUp_keeps (s : State) : Keeps 0x4000 s (State.noteUp s) := by
  unfold State.noteUp
  try simp -proj -iota -beta -eta only []
  repeat' first | exact .inl rfl | with_reducible exact .inr rfl | with_reducible apply And.intro
                | with_reducible exact clk_same rfl rfl rfl | with_reducible exact ⟨le_rfl, fun h => h⟩ | with_reducible exact fun h => h
                | with_reducible exact Keeps.refl _ | (with_reducible refine Keeps.mk' ?_ ?_ ?_ ?_ ?_ ?_ ?_ ?_)

theorem State.replay_keeps (s : State) (p : Nat) : Keeps 0x24004 s (State.replay s p) := by
  unfold State.replay
  try simp -proj -iota -beta -eta only []
  repeat' first | with_reducible exact Keeps.refl _ | with_reducible refine (State.setPort_keeps ..).after ?_ rfl
                | with_reducible refine (State.bumpPort_keeps ..).after ?_ rfl
                | with_reducible refine (State.sendFlit_keeps ..).after ?_ rfl | with_reducible refine Keeps.ite (fun _ => ?_) (fun _ => ?_)
                | with_reducible refine Keeps.foldl _ _ _ _ (fun s x => ?_) ?_

theorem State.countFec_keeps (s : State) (p : Nat) (corrected uncorrected : Nat) : Keeps 0x4 s (State.countFec s p corrected uncorrected) := by
  unfold State.countFec
  try simp -proj -iota -beta -eta only []
  repeat' first | with_reducible exact Keeps.refl _ | with_reducible refine (State.bumpPort_keeps ..).after ?_ rfl

theorem State.takeControl_keeps (s : State) (p : Nat) (b : List Byte) : Keeps 0x24004 s (State.takeControl s p b) := by
  unfold State.takeControl
  try simp -proj -iota -beta -eta only []
  repeat' first | with_reducible exact Keeps.refl _ | with_reducible refine (State.setPort_keeps ..).after ?_ rfl
                | with_reducible refine (State.replay_keeps ..).after ?_ rfl | with_reducible refine Keeps.ite (fun _ => ?_) (fun _ => ?_)

theorem State.takeData_keeps (s : State) (p : Nat) (b : List Byte) : Keeps 0x24024 s (State.takeData s p b) := by
  unfold State.takeData
  try simp -proj -iota -beta -eta only []
  repeat' first | with_reducible exact Keeps.refl _ | with_reducible refine (State.setPort_keeps ..).after ?_ rfl
                | with_reducible refine (State.bumpPort_keeps ..).after ?_ rfl | with_reducible refine (State.receive_keeps ..).after ?_ rfl
                | with_reducible refine Keeps.ite (fun _ => ?_) (fun _ => ?_) | with_reducible refine Keeps.foldl _ _ _ _ (fun s x => ?_) ?_

/-! ### Mac -/

theorem State.sendPtp_keeps (s : State) (p type seq : Nat) (body : List Byte) : Keeps 0x4000 s (State.sendPtp s p type seq body) := by
  unfold State.sendPtp
  try simp -proj -iota -beta -eta only []
  repeat' first | with_reducible exact Keeps.refl _ | with_reducible refine (State.enqueue_keeps ..).after ?_ rfl

theorem State.takePtp_keeps (s : State) (p : Nat) (m : List Byte) : Keeps 0x66374 s (State.takePtp s p m) := by
  unfold State.takePtp
  try simp -proj -iota -beta -eta only []
  repeat' first | with_reducible exact Keeps.refl _ | with_reducible refine (State.emit_keeps ..).after ?_ rfl
                | with_reducible refine (State.setPort_keeps ..).after ?_ rfl | with_reducible refine (State.sample_keeps ..).after ?_ rfl
                | with_reducible refine (State.sendPtp_keeps ..).after ?_ rfl | with_reducible refine Keeps.ite (fun _ => ?_) (fun _ => ?_)
                | split

theorem State.takeIn_keeps (s : State) (p : Nat) (noBuffer passes : Bool) (b : List Byte) : Keeps 0x66374 s (State.takeIn s p noBuffer passes b) := by
  unfold State.takeIn
  try simp -proj -iota -beta -eta only []
  repeat' first | with_reducible exact Keeps.refl _ | with_reducible refine (State.setPort_keeps ..).after ?_ rfl
                | with_reducible refine (State.bumpPort_keeps ..).after ?_ rfl | with_reducible refine (State.bumpFab_keeps ..).after ?_ rfl
                | with_reducible refine (State.receive_keeps ..).after ?_ rfl | with_reducible refine (State.takePtp_keeps ..).after ?_ rfl
                | with_reducible refine Keeps.ite (fun _ => ?_) (fun _ => ?_)

theorem State.stampPtp_keeps (s : State) (p : Nat) (b : List Byte) : Keeps 0x4004 s (State.stampPtp s p b) := by
  unfold State.stampPtp
  try simp -proj -iota -beta -eta only []
  repeat' first | with_reducible exact Keeps.refl _ | with_reducible refine (State.setPort_keeps ..).after ?_ rfl
                | with_reducible refine (State.bumpPort_keeps ..).after ?_ rfl | with_reducible refine (State.sendPtp_keeps ..).after ?_ rfl
                | with_reducible refine Keeps.ite (fun _ => ?_) (fun _ => ?_)

theorem State.sent_keeps (s : State) (p n : Nat) : Keeps 0x4 s (State.sent s p n) := by
  unfold State.sent
  try simp -proj -iota -beta -eta only []
  repeat' first | with_reducible exact Keeps.refl _ | with_reducible refine (State.bumpPort_keeps ..).after ?_ rfl

theorem State.sendFrom_keeps (s : State) (p start : Nat) (count : Option Nat) (b : List Byte) (waits : Option Nat) : Keeps 0x24004 s (State.sendFrom s p start count b waits) := by
  unfold State.sendFrom
  try simp -proj -iota -beta -eta only []
  repeat' first | with_reducible exact Keeps.refl _ | with_reducible refine (State.emit_keeps ..).after ?_ rfl
                | with_reducible refine (State.setPort_keeps ..).after ?_ rfl | with_reducible refine (State.bumpPort_keeps ..).after ?_ rfl
                | with_reducible refine (State.sent_keeps ..).after ?_ rfl | with_reducible refine Keeps.ite (fun _ => ?_) (fun _ => ?_)
                | split

/-! ### Copy -/

theorem State.moveRun_keeps (s : State) (d : Started) (desc : List Byte) (view : HostView) (e n : Nat) : Keeps 0x20c04 s (State.moveRun s d desc view e n) := by
  unfold State.moveRun
  try simp -proj -iota -beta -eta only []
  repeat' first | exact .inl rfl | with_reducible exact .inr rfl | with_reducible apply And.intro
                | with_reducible exact clk_same rfl rfl rfl | with_reducible exact ⟨le_rfl, fun h => h⟩ | with_reducible exact fun h => h
                | with_reducible exact Keeps.refl _ | with_reducible refine (State.emit_keeps ..).after ?_ rfl
                | with_reducible refine (State.bump_keeps ..).after ?_ rfl | with_reducible refine (State.hbmRead_keeps ..).after ?_ rfl
                | with_reducible refine (State.hbmWrite_keeps ..).after ?_ rfl | with_reducible refine Keeps.ite (fun _ => ?_) (fun _ => ?_)
                | split | (with_reducible refine Keeps.mk' ?_ ?_ ?_ ?_ ?_ ?_ ?_ ?_)

theorem State.copyMove_keeps (n : Nat) (s : State) (x0 : Started) (x1 : CopyJob) (x2 : HostView) : Keeps 0x27fe4 s (State.copyMove n s x0 x1 x2) := by
  induction n generalizing s x0 x1 x2 with
  | zero =>
    exact (State.setKind_keeps _ _ _).mono rfl
  | succ n ih =>
    unfold State.copyMove
    try simp -proj -iota -beta -eta only []
    repeat' first | with_reducible exact Keeps.refl _ | with_reducible refine (State.bump_keeps ..).after ?_ rfl
                  | with_reducible refine (State.setKind_keeps ..).after ?_ rfl | with_reducible refine (State.hbmUe_keeps ..).after ?_ rfl
                  | with_reducible refine (State.pageFault_keeps ..).after ?_ rfl
                  | with_reducible refine (State.moveRun_keeps ..).after ?_ rfl | with_reducible refine (ih ..).after ?_ rfl
                  | with_reducible refine Keeps.ite (fun _ => ?_) (fun _ => ?_) | split

theorem State.copyEnd_keeps (s : State) (d : Started) (desc : List Byte) (status detail : Nat) (result : List Byte) : Keeps 0x27364 s (State.copyEnd s d desc status detail result) := by
  unfold State.copyEnd
  try simp -proj -iota -beta -eta only []
  repeat' first | with_reducible exact Keeps.refl _ | with_reducible refine (State.complete_keeps ..).after ?_ rfl
                | with_reducible refine (State.jobFault_keeps ..).after ?_ rfl | with_reducible refine (State.send_keeps ..).after ?_ rfl
                | with_reducible refine Keeps.ite (fun _ => ?_) (fun _ => ?_) | split

/-! ### Barrier -/

theorem State.barRelease_keeps (s : State) (n fjob bid : Nat) : Keeps 0x26304 s (State.barRelease s n fjob bid) := by
  unfold State.barRelease
  try simp -proj -iota -beta -eta only []
  repeat' first | with_reducible exact Keeps.refl _ | with_reducible refine (State.bumpFab_keeps ..).after ?_ rfl
                | with_reducible refine (State.sendBar_keeps ..).after ?_ rfl
                | with_reducible refine (State.setSluice_keeps ..).after ?_ rfl
                | with_reducible refine (State.endBarriers_keeps ..).after ?_ rfl
                | with_reducible refine Keeps.foldl _ _ _ _ (fun s x => ?_) ?_ | split

theorem State.barCount_keeps (s : State) (n fjob bid : Nat) (h : HoistTable) (c : Nat × SluiceCtx) (src count npart : Nat) : Keeps 0x26304 s (State.barCount s n fjob bid h c src count npart) := by
  unfold State.barCount
  try simp -proj -iota -beta -eta only []
  repeat' first | with_reducible exact Keeps.refl _ | with_reducible refine (State.sendBar_keeps ..).after ?_ rfl
                | with_reducible refine (State.setSluice_keeps ..).after ?_ rfl
                | with_reducible refine (State.abortBarrier_keeps ..).after ?_ rfl
                | with_reducible refine (State.barRelease_keeps ..).after ?_ rfl
                | with_reducible refine Keeps.ite (fun _ => ?_) (fun _ => ?_)

theorem State.barContribute_keeps (s : State) (d : Started) (j : BarrierJob) (waits : List Nat) : Keeps 0x26304 s (State.barContribute s d j waits) := by
  unfold State.barContribute
  try simp -proj -iota -beta -eta only []
  repeat' first | with_reducible exact Keeps.refl _ | with_reducible refine (State.complete_keeps ..).after ?_ rfl
                | with_reducible refine (State.setKind_keeps ..).after ?_ rfl | with_reducible refine (State.barCount_keeps ..).after ?_ rfl
                | with_reducible refine Keeps.ite (fun _ => ?_) (fun _ => ?_) | split

end Sys2Proof.Machine
end

