-- ==== Sys2Proof/Laws/KeepsCommands.lean ====
section
/-! SUPPORT. What each command keeps, one lemma for the meaning of each. -/
namespace Sys2Proof.Machine

/-! ### Mill -/

theorem onMillRunArrival_keeps (m : Fin 768) (s0 : State) : Keeps 0x2000 s0 (onMillRunArrival m s0) := by
  unfold onMillRunArrival
  try simp -proj -iota -beta -eta only []
  repeat' first | exact .inl rfl | with_reducible exact .inr rfl | with_reducible apply And.intro
                | with_reducible exact clk_same rfl rfl rfl | with_reducible exact ⟨le_rfl, fun h => h⟩ | with_reducible exact fun h => h
                | with_reducible exact Keeps.refl _ | with_reducible refine (State.setBuf_keeps ..).after ?_ rfl
                | with_reducible refine (State.dropStopped_keeps ..).after ?_ rfl
                | with_reducible refine Keeps.ite (fun _ => ?_) (fun _ => ?_) | split
                | (with_reducible refine Keeps.mk' ?_ ?_ ?_ ?_ ?_ ?_ ?_ ?_)

theorem onMillRunApply_keeps (m : Fin 768) (res : Residue) (err : HbmErrors) (s0 : State) : Keeps 0x27f64 s0 (onMillRunApply m res err s0) := by
  unfold onMillRunApply
  try simp -proj -iota -beta -eta only []
  repeat' first | with_reducible exact Keeps.refl _ | with_reducible refine (State.foundErrors_keeps ..).after ?_ rfl
                | with_reducible refine (State.setBuf_keeps ..).after ?_ rfl
                | with_reducible refine (State.dropStopped_keeps ..).after ?_ rfl
                | with_reducible refine (State.applyOne_keeps ..).after ?_ rfl | with_reducible refine Keeps.ite (fun _ => ?_) (fun _ => ?_)
                | split

/-! ### Sluice -/

theorem onRedReceive_keeps (fault : Bool) (s : State) : Keeps 0x27364 s (onRedReceive fault s) := by
  unfold onRedReceive
  try simp -proj -iota -beta -eta only []
  repeat' first | with_reducible exact Keeps.refl _ | with_reducible refine (State.redTake_keeps ..).of ?_ rfl
                | with_reducible refine Keeps.ite (fun _ => ?_) (fun _ => ?_) | with_reducible refine OKeeps.findSome (fun _ => ?_)
                | with_reducible refine Keeps.getD' ?_ ?_

theorem onSluiceContribution_keeps (fault : Bool) (s : State) : Keeps 0x27364 s (onSluiceContribution fault s) := by
  unfold onSluiceContribution
  try simp -proj -iota -beta -eta only []
  repeat' first | with_reducible exact Keeps.refl _ | with_reducible refine (State.contribOne_keeps ..).of ?_ rfl
                | with_reducible refine Keeps.ite (fun _ => ?_) (fun _ => ?_) | with_reducible refine OKeeps.findSome (fun _ => ?_)
                | with_reducible refine Keeps.getD' ?_ ?_

theorem onSluiceResidueFatal_keeps (own : Bool) (s : State) : Keeps 0x27364 s (onSluiceResidueFatal own s) := by
  unfold onSluiceResidueFatal
  try simp -proj -iota -beta -eta only []
  repeat' first | exact .inl rfl | with_reducible exact .inr rfl | with_reducible apply And.intro
                | with_reducible exact clk_same rfl rfl rfl | with_reducible exact ⟨le_rfl, fun h => h⟩ | with_reducible exact fun h => h
                | with_reducible exact Keeps.refl _ | with_reducible refine (State.deliver_keeps ..).after ?_ rfl
                | with_reducible refine (State.sendError_keeps ..).after ?_ rfl
                | with_reducible refine (State.setMisses_keeps ..).after ?_ rfl
                | with_reducible refine (State.redFatal_keeps ..).after ?_ rfl | with_reducible refine Keeps.ite (fun _ => ?_) (fun _ => ?_)
                | split | (with_reducible refine Keeps.mk' ?_ ?_ ?_ ?_ ?_ ?_ ?_ ?_)

theorem onRunDelivery_keeps (c : Fin 64) (s : State) : Keeps 0x27f64 s (onRunDelivery c s) := by
  unfold onRunDelivery
  try simp -proj -iota -beta -eta only []
  repeat' first | exact .inl rfl | with_reducible exact .inr rfl | with_reducible apply And.intro
                | with_reducible exact clk_same rfl rfl rfl | with_reducible exact ⟨le_rfl, fun h => h⟩ | with_reducible exact fun h => h
                | with_reducible exact Keeps.refl _ | with_reducible refine (State.setSluice_keeps ..).after ?_ rfl
                | with_reducible refine (State.sealStop_keeps ..).after ?_ rfl
                | with_reducible refine (State.hbmStore_keeps ..).after ?_ rfl
                | with_reducible refine (State.progress_keeps ..).after ?_ rfl | with_reducible refine Keeps.ite (fun _ => ?_) (fun _ => ?_)
                | split | (with_reducible refine Keeps.mk' ?_ ?_ ?_ ?_ ?_ ?_ ?_ ?_)

/-! ### Clock -/

theorem onAclkStepChange_keeps (s : State) : Keeps 0x20314 s (onAclkStepChange s) := by
  unfold onAclkStepChange
  try simp -proj -iota -beta -eta only []
  repeat' first | exact .inl rfl | with_reducible exact .inr rfl | with_reducible apply And.intro
                | with_reducible exact ⟨le_rfl, fun h => h⟩ | with_reducible exact fun h => h | with_reducible exact Keeps.refl _
                | with_reducible refine (State.bump_keeps ..).after ?_ rfl | with_reducible refine (State.lowerVolt_keeps ..).after ?_ rfl
                | with_reducible refine (State.settlePower_keeps ..).after ?_ rfl
                | with_reducible refine Keeps.ite (fun _ => ?_) (fun _ => ?_) | (with_reducible refine Keeps.mk' ?_ ?_ ?_ ?_ ?_ ?_ ?_ ?_)
                | (rintro ⟨h1, h2, h3⟩; refine ⟨?_, ?_, ?_⟩ <;> first | exact h1 | exact h2 | exact h3 | exact h3 _ ‹_› | exact Nat.zero_le _ | (intro w e; cases e))

theorem onVoltageTargetReached_keeps (reported : Bool) (s : State) : Keeps 0x20314 s (onVoltageTargetReached reported s) := by
  unfold onVoltageTargetReached
  try simp -proj -iota -beta -eta only []
  repeat' first | exact .inl rfl | with_reducible exact .inr rfl | with_reducible apply And.intro
                | with_reducible exact ⟨le_rfl, fun h => h⟩ | with_reducible exact fun h => h | with_reducible exact Keeps.refl _
                | with_reducible refine (State.settlePower_keeps ..).after ?_ rfl
                | with_reducible refine Keeps.ite (fun _ => ?_) (fun _ => ?_) | split
                | (with_reducible refine Keeps.mk' ?_ ?_ ?_ ?_ ?_ ?_ ?_ ?_)
                | (rintro ⟨h1, h2, h3⟩; refine ⟨?_, ?_, ?_⟩ <;> first | exact h1 | exact h2 | exact h3 | exact h3 _ ‹_› | exact Nat.zero_le _ | (intro w e; cases e))

/-! ### Power -/

theorem onNvOperationStart_keeps (s : State) : Keeps 0x20 s (onNvOperationStart s) := by
  unfold onNvOperationStart
  try simp -proj -iota -beta -eta only []
  repeat' first | exact .inl rfl | with_reducible exact .inr rfl | with_reducible apply And.intro
                | with_reducible exact clk_same rfl rfl rfl | with_reducible exact ⟨le_rfl, fun h => h⟩ | with_reducible exact fun h => h
                | with_reducible exact Keeps.refl _ | with_reducible refine Keeps.ite (fun _ => ?_) (fun _ => ?_)
                | (with_reducible refine Keeps.mk' ?_ ?_ ?_ ?_ ?_ ?_ ?_ ?_)

theorem onNvGateTimeout_keeps (s : State) : Keeps 0x20364 s (onNvGateTimeout s) := by
  unfold onNvGateTimeout
  try simp -proj -iota -beta -eta only []
  repeat' first | exact .inl rfl | with_reducible exact .inr rfl | with_reducible apply And.intro
                | with_reducible exact clk_same rfl rfl rfl | with_reducible exact ⟨le_rfl, fun h => h⟩ | with_reducible exact fun h => h
                | with_reducible exact Keeps.refl _ | with_reducible refine (State.bump_keeps ..).after ?_ rfl
                | with_reducible refine (State.ev_keeps ..).after ?_ rfl | with_reducible refine Keeps.ite (fun _ => ?_) (fun _ => ?_)
                | split | (with_reducible refine Keeps.mk' ?_ ?_ ?_ ?_ ?_ ?_ ?_ ?_)

theorem onSagDetect_keeps (coreMv ioMv : Nat) (s : State) : Keeps 0x24374 s (onSagDetect coreMv ioMv s) := by
  unfold onSagDetect
  try simp -proj -iota -beta -eta only []
  repeat' first | exact .inl rfl | with_reducible exact .inr rfl | with_reducible apply And.intro
                | with_reducible exact clk_same rfl rfl rfl | with_reducible exact ⟨le_rfl, fun h => h⟩ | with_reducible exact fun h => h
                | with_reducible exact Keeps.refl _ | with_reducible refine (State.bump_keeps ..).after ?_ rfl
                | with_reducible refine (State.ev_keeps ..).after ?_ rfl | with_reducible refine (State.reviewClock_keeps ..).after ?_ rfl
                | with_reducible refine (State.wake_keeps ..).after ?_ rfl | with_reducible refine Keeps.ite (fun _ => ?_) (fun _ => ?_)
                | (with_reducible refine Keeps.mk' ?_ ?_ ?_ ?_ ?_ ?_ ?_ ?_)

theorem onSagRelease_keeps (s : State) : Keeps 0x24334 s (onSagRelease s) := by
  unfold onSagRelease
  try simp -proj -iota -beta -eta only []
  repeat' first | exact .inl rfl | with_reducible exact .inr rfl | with_reducible apply And.intro
                | with_reducible exact clk_same rfl rfl rfl | with_reducible exact ⟨le_rfl, fun h => h⟩ | with_reducible exact fun h => h
                | with_reducible exact Keeps.refl _ | with_reducible refine (State.reviewClock_keeps ..).after ?_ rfl
                | with_reducible refine (State.wake_keeps ..).after ?_ rfl | with_reducible refine (State.settlePower_keeps ..).after ?_ rfl
                | with_reducible refine Keeps.ite (fun _ => ?_) (fun _ => ?_) | split
                | (with_reducible refine Keeps.mk' ?_ ?_ ?_ ?_ ?_ ?_ ?_ ?_)

theorem onThermalSample_keeps (r : Sensors) (s : State) : Keeps 0x27374 s (onThermalSample r s) := by
  unfold onThermalSample
  try simp -proj -iota -beta -eta only []
  repeat' first | with_reducible exact Keeps.refl _ | with_reducible refine (State.reviewClock_keeps ..).after ?_ rfl
                | with_reducible refine (State.settlePower_keeps ..).after ?_ rfl
                | with_reducible refine (State.sampleHeat_keeps ..).after ?_ rfl
                | with_reducible refine (State.sampleWatts_keeps ..).after ?_ rfl
                | with_reducible refine (State.sampleRegulator_keeps ..).after ?_ rfl
                | with_reducible refine (State.sampleTrip_keeps ..).after ?_ rfl
                | with_reducible refine Keeps.ite (fun _ => ?_) (fun _ => ?_)

theorem onPmbusAlert_keeps (rail : Fin 8) (status : BitVec 16) (warning : Bool) (s : State) : Keeps 0x24374 s (onPmbusAlert rail status warning s) := by
  unfold onPmbusAlert
  try simp -proj -iota -beta -eta only []
  repeat' first | exact .inl rfl | with_reducible exact .inr rfl | with_reducible apply And.intro
                | with_reducible exact clk_same rfl rfl rfl | with_reducible exact ⟨le_rfl, fun h => h⟩ | with_reducible exact fun h => h
                | with_reducible exact Keeps.refl _ | with_reducible refine (State.emit_keeps ..).after ?_ rfl
                | with_reducible refine (State.bump_keeps ..).after ?_ rfl | with_reducible refine (State.ev_keeps ..).after ?_ rfl
                | with_reducible refine (State.reviewClock_keeps ..).after ?_ rfl
                | with_reducible refine (State.throttleEvent_keeps ..).after ?_ rfl
                | with_reducible refine Keeps.ite (fun _ => ?_) (fun _ => ?_) | (with_reducible refine Keeps.mk' ?_ ?_ ?_ ?_ ?_ ?_ ?_ ?_)

theorem onIdleEntry_keeps (s : State) : Keeps 0x24024 s (onIdleEntry s) := by
  unfold onIdleEntry
  try simp -proj -iota -beta -eta only []
  repeat' first | exact .inl rfl | with_reducible exact .inr rfl | with_reducible apply And.intro
                | with_reducible exact clk_same rfl rfl rfl | with_reducible exact ⟨le_rfl, fun h => h⟩ | with_reducible exact fun h => h
                | with_reducible exact Keeps.refl _ | with_reducible refine (State.fabTransit_keeps ..).after ?_ rfl
                | with_reducible refine (State.enterIdle_keeps ..).after ?_ rfl
                | with_reducible refine Keeps.ite (fun _ => ?_) (fun _ => ?_) | (with_reducible refine Keeps.mk' ?_ ?_ ?_ ?_ ?_ ?_ ?_ ?_)

theorem onA4Entry_keeps (s : State) : Keeps 0x24 s (onA4Entry s) := by
  unfold onA4Entry
  try simp -proj -iota -beta -eta only []
  repeat' first | with_reducible exact Keeps.refl _ | with_reducible refine (State.enterIdle_keeps ..).after ?_ rfl
                | with_reducible refine Keeps.ite (fun _ => ?_) (fun _ => ?_)

/-! ### Fire -/

theorem onTileIssue_keeps (dev : Fin 8192) (s : State) : Keeps 0x27364 s (onTileIssue dev s) := by
  unfold onTileIssue
  try simp -proj -iota -beta -eta only []
  repeat' first | with_reducible exact Keeps.refl _ | with_reducible refine (State.jobFaultWith_keeps ..).after ?_ rfl
                | with_reducible refine (State.setRun_keeps ..).after ?_ rfl | with_reducible refine (State.outputAll_keeps ..).after ?_ rfl
                | with_reducible refine (State.advance_keeps ..).after ?_ rfl | with_reducible refine (State.skipTile_keeps ..).after ?_ rfl
                | with_reducible refine (State.countClamp_keeps ..).after ?_ rfl
                | with_reducible refine (State.consume_keeps ..).after ?_ rfl
                | with_reducible refine (State.skipEmpty_keeps ..).after ?_ rfl
                | with_reducible refine Keeps.ite (fun _ => ?_) (fun _ => ?_) | split

theorem onStationFire_keeps (dev : Fin 8192) (errs : FireErrors) (s : State) : Keeps 0x67f64 s (onStationFire dev errs s) := by
  unfold onStationFire
  simp -proj -iota -beta -eta only []
  have h2 : ∀ (s : State) r e f i, Keeps 0x67f64 s (s.fireWalk r e f i).2 := fun s r e f i => (s.fireWalk_keeps r e f i).2.mono rfl
  have h1 : ∀ (s t u : State) r e f i, (t.fireWalk r e f i).1 = some u → Keeps 0x67f64 s t →
      Keeps 0x67f64 s u := fun s t u r e f i h k => (((t.fireWalk_keeps r e f i).1).get h).after k rfl
  repeat' first | with_reducible exact Keeps.refl _ | with_reducible refine (State.outputAll_keeps ..).after ?_ rfl
                | with_reducible refine (State.contribute_keeps ..).after ?_ rfl
                | with_reducible refine (State.fireProduct_keeps ..).after ?_ rfl
                | with_reducible refine (State.fireFused_keeps ..).after ?_ rfl
                | with_reducible refine (State.vectorOut_keeps ..).after ?_ rfl
                | with_reducible refine (State.fireSelect_keeps ..).after ?_ rfl
                | with_reducible refine (State.fireUpdate_keeps ..).after ?_ rfl | with_reducible refine (State.fired_keeps ..).after ?_ rfl
                | with_reducible refine (State.rowUe_keeps ..).after ?_ rfl | with_reducible refine (State.accErrors_keeps ..).after ?_ rfl
                | with_reducible refine (State.fireNull_keeps ..).after ?_ rfl | with_reducible refine Keeps.ite (fun _ => ?_) (fun _ => ?_)
                | split
  · exact h1 _ _ _ _ _ _ _ ‹_› ((State.plantErrors_keeps ..).mono rfl)
  · exact h2 ..

/-! ### Cage -/

theorem onNop_keeps (d : Desc) (s : State) : Keeps 0x20324 s (onNop d s) := by
  unfold onNop
  try simp -proj -iota -beta -eta only []
  repeat' first | with_reducible exact Keeps.refl _ | with_reducible refine (State.complete_keeps ..).after ?_ rfl
                | with_reducible refine State.startCmd_keeps rfl _ _ _ _ _ _ (fun s st => ?_)

theorem onKillJob_keeps (d : Desc) (tied : List (Fin 32)) (s : State) : Keeps 0x27f65 s (onKillJob d tied s) := by
  unfold onKillJob
  try simp -proj -iota -beta -eta only []
  repeat' first | with_reducible exact Keeps.refl _ | with_reducible refine (State.complete_keeps ..).after ?_ rfl
                | with_reducible refine (State.preemptSlot_keeps ..).after ?_ rfl
                | with_reducible refine (State.loseTies_keeps ..).after ?_ rfl
                | with_reducible refine (State.killStart_keeps ..).after ?_ rfl
                | with_reducible refine State.startCmd_keeps rfl _ _ _ _ _ _ (fun s st => ?_)
                | with_reducible refine Keeps.ite (fun _ => ?_) (fun _ => ?_)

theorem onSurveyUnload_keeps (d : Desc) (tied : List (Fin 32)) (s : State) : Keeps 0x27f65 s (onSurveyUnload d tied s) := by
  unfold onSurveyUnload
  try simp -proj -iota -beta -eta only []
  repeat' first | with_reducible exact Keeps.refl _ | with_reducible refine (State.complete_keeps ..).after ?_ rfl
                | with_reducible refine (State.loseTies_keeps ..).after ?_ rfl
                | with_reducible refine (State.killStart_keeps ..).after ?_ rfl
                | with_reducible refine State.startCmd_keeps rfl _ _ _ _ _ _ (fun s st => ?_)
                | with_reducible refine Keeps.ite (fun _ => ?_) (fun _ => ?_)

theorem onKillComplete_keeps (n : Fin 8) (s : State) : Keeps 0x23f65 s (onKillComplete n s) := by
  unfold onKillComplete
  try simp -proj -iota -beta -eta only []
  repeat' first | with_reducible exact Keeps.refl _ | with_reducible refine (State.complete_keeps ..).after ?_ rfl
                | with_reducible refine (State.killFinish_keeps ..).after ?_ rfl
                | with_reducible refine (State.lossScrubbed_keeps ..).after ?_ rfl
                | with_reducible refine Keeps.ite (fun _ => ?_) (fun _ => ?_) | with_reducible refine Keeps.foldl _ _ _ _ (fun s x => ?_) ?_
                | split

theorem onFence_keeps (d : Desc) (s : State) : Keeps 0x20364 s (onFence d s) := by
  unfold onFence
  try simp -proj -iota -beta -eta only []
  repeat' first | with_reducible exact Keeps.refl _ | with_reducible refine (State.complete_keeps ..).after ?_ rfl
                | with_reducible refine (State.powerTies_keeps ..).after ?_ rfl
                | with_reducible refine State.startCmd_keeps rfl _ _ _ _ _ _ (fun s st => ?_)
                | with_reducible refine Keeps.ite (fun _ => ?_) (fun _ => ?_)

theorem onFenceComplete_keeps (ring : Fin 32) (s : State) : Keeps 0x20304 s (onFenceComplete ring s) := by
  unfold onFenceComplete
  try simp -proj -iota -beta -eta only []
  repeat' first | with_reducible exact Keeps.refl _ | with_reducible refine (State.complete_keeps ..).after ?_ rfl
                | with_reducible refine Keeps.ite (fun _ => ?_) (fun _ => ?_) | split

theorem onDoorbellSnoop_keeps (lineAddr : Nat) (line : List Byte) (faults : List (Fin 32 × RingCause)) (s : State) : Keeps 0x24364 s (onDoorbellSnoop lineAddr line faults s) := by
  unfold onDoorbellSnoop
  try simp -proj -iota -beta -eta only []
  repeat' first | with_reducible exact Keeps.refl _ | with_reducible refine (State.bump_keeps ..).after ?_ rfl
                | with_reducible refine (State.wake_keeps ..).after ?_ rfl | with_reducible refine (State.stopRing_keeps ..).after ?_ rfl
                | with_reducible refine (State.takeTail_keeps ..).after ?_ rfl | with_reducible refine Keeps.ite (fun _ => ?_) (fun _ => ?_)
                | with_reducible refine Keeps.foldl _ _ _ _ (fun s x => ?_) ?_

theorem onCompletionHeadPoll_keeps (ring : Fin 32) (w : HostWord) (s : State) : Keeps 0x20364 s (onCompletionHeadPoll ring w s) := by
  unfold onCompletionHeadPoll
  try simp -proj -iota -beta -eta only []
  repeat' first | with_reducible exact Keeps.refl _ | with_reducible refine (State.setRing_keeps ..).after ?_ rfl
                | with_reducible refine (State.stopRing_keeps ..).after ?_ rfl | with_reducible refine Keeps.ite (fun _ => ?_) (fun _ => ?_)
                | split

theorem onEventRingHeadPoll_keeps (w : HostWord) (s : State) : Keeps 0x20365 s (onEventRingHeadPoll w s) := by
  unfold onEventRingHeadPoll
  try simp -proj -iota -beta -eta only []
  repeat' first | exact .inl rfl | with_reducible exact .inr rfl | with_reducible apply And.intro
                | with_reducible exact clk_same rfl rfl rfl | with_reducible exact ⟨le_rfl, fun h => h⟩ | with_reducible exact fun h => h
                | with_reducible exact Keeps.refl _ | with_reducible refine (State.stopEvq_keeps ..).after ?_ rfl
                | with_reducible refine Keeps.ite (fun _ => ?_) (fun _ => ?_) | split
                | (with_reducible refine Keeps.mk' ?_ ?_ ?_ ?_ ?_ ?_ ?_ ?_)

/-! ### Ras -/

theorem onSiteFence_keeps (k : Fin 8192) (cause : FenceCause) (s : State) : Keeps 0x27364 s (onSiteFence k cause s) := by
  unfold onSiteFence
  try simp -proj -iota -beta -eta only []
  repeat' first | with_reducible exact Keeps.refl _ | with_reducible refine (State.fenceSite_keeps ..).after ?_ rfl
                | with_reducible refine Keeps.ite (fun _ => ?_) (fun _ => ?_)

theorem onSelftestComplete_keeps (k : Fin 8192) (failing : Option (BitVec 16)) (s : State) : Keeps 0x22364 s (onSelftestComplete k failing s) := by
  unfold onSelftestComplete
  try simp -proj -iota -beta -eta only []
  repeat' first | exact .inl rfl | with_reducible exact .inr rfl | with_reducible apply And.intro
                | with_reducible exact clk_same rfl rfl rfl | with_reducible exact ⟨le_rfl, fun h => h⟩ | with_reducible exact fun h => h
                | with_reducible exact Keeps.refl _ | with_reducible refine (State.ev_keeps ..).after ?_ rfl
                | with_reducible refine (State.siteZero_keeps ..).after ?_ rfl | with_reducible refine (State.setUnit_keeps ..).after ?_ rfl
                | with_reducible refine (State.mapChanged_keeps ..).after ?_ rfl
                | with_reducible refine Keeps.ite (fun _ => ?_) (fun _ => ?_) | split
                | (with_reducible refine Keeps.mk' ?_ ?_ ?_ ?_ ?_ ?_ ?_ ?_)

theorem onCeThreshold_keeps (u : CeUnit) (n : Nat) (s : State) : Keeps 0x27364 s (onCeThreshold u n s) := by
  unfold onCeThreshold
  try simp -proj -iota -beta -eta only []
  repeat' first | exact .inl rfl | with_reducible exact .inr rfl | with_reducible apply And.intro
                | with_reducible exact clk_same rfl rfl rfl | with_reducible exact ⟨le_rfl, fun h => h⟩ | with_reducible exact fun h => h
                | with_reducible exact Keeps.refl _ | with_reducible refine (State.bumpMem_keeps ..).after ?_ rfl
                | with_reducible refine (State.ceSite_keeps ..).after ?_ rfl | with_reducible refine (State.ceMill_keeps ..).after ?_ rfl
                | with_reducible refine (State.bumpSite_keeps ..).after ?_ rfl
                | with_reducible refine (State.fenceSite_keeps ..).after ?_ rfl
                | with_reducible refine (State.reportCrossed_keeps ..).after ?_ rfl
                | with_reducible refine Keeps.ite (fun _ => ?_) (fun _ => ?_) | split
                | (with_reducible refine Keeps.mk' ?_ ?_ ?_ ?_ ?_ ?_ ?_ ?_)

theorem onMeshFlitCrcError_keeps (bridge : Option (Fin 4)) (site : Fin 8192) (face : Dir) (again : Bool) (s : State) : Keeps 0x44 s (onMeshFlitCrcError bridge site face again s) := by
  unfold onMeshFlitCrcError
  try simp -proj -iota -beta -eta only []
  repeat' first | exact .inl rfl | with_reducible exact .inr rfl | with_reducible apply And.intro
                | with_reducible exact clk_same rfl rfl rfl | with_reducible exact ⟨le_rfl, fun h => h⟩ | with_reducible exact fun h => h
                | with_reducible exact Keeps.refl _ | with_reducible refine (State.bump_keeps ..).after ?_ rfl
                | with_reducible refine Keeps.ite (fun _ => ?_) (fun _ => ?_) | split
                | (with_reducible refine Keeps.mk' ?_ ?_ ?_ ?_ ?_ ?_ ?_ ?_)

theorem onMeshLinkFail_keeps (site : Fin 8192) (face : Dir) (s : State) : Keeps 0x27364 s (onMeshLinkFail site face s) := by
  unfold onMeshLinkFail
  try simp -proj -iota -beta -eta only []
  repeat' first | exact .inl rfl | with_reducible exact .inr rfl | with_reducible apply And.intro
                | with_reducible exact clk_same rfl rfl rfl | with_reducible exact ⟨le_rfl, fun h => h⟩ | with_reducible exact fun h => h
                | with_reducible exact Keeps.refl _ | with_reducible refine (State.raise_keeps ..).after ?_ rfl
                | with_reducible refine (State.fenceSite_keeps ..).after ?_ rfl
                | with_reducible refine Keeps.ite (fun _ => ?_) (fun _ => ?_) | (with_reducible refine Keeps.mk' ?_ ?_ ?_ ?_ ?_ ?_ ?_ ?_)

theorem onBridgeFail_keeps (b : Fin 4) (s : State) : Keeps 0x27364 s (onBridgeFail b s) := by
  unfold onBridgeFail
  try simp -proj -iota -beta -eta only []
  repeat' first | exact .inl rfl | with_reducible exact .inr rfl | with_reducible apply And.intro
                | with_reducible exact clk_same rfl rfl rfl | with_reducible exact ⟨le_rfl, fun h => h⟩ | with_reducible exact fun h => h
                | with_reducible exact Keeps.refl _ | with_reducible refine (State.fatal_keeps ..).after ?_ rfl
                | with_reducible refine Keeps.ite (fun _ => ?_) (fun _ => ?_) | (with_reducible refine Keeps.mk' ?_ ?_ ?_ ?_ ?_ ?_ ?_ ?_)

theorem onHbmChannelFail_keeps (m : Fin 768) (status : BitVec 16) (s : State) : Keeps 0x27364 s (onHbmChannelFail m status s) := by
  unfold onHbmChannelFail
  try simp -proj -iota -beta -eta only []
  repeat' first | with_reducible exact Keeps.refl _ | with_reducible refine (State.fatal_keeps ..).after ?_ rfl
                | with_reducible refine Keeps.ite (fun _ => ?_) (fun _ => ?_)

theorem onFwWriteComplete_keeps (s : State) : Keeps 0x20364 s (onFwWriteComplete s) := by
  unfold onFwWriteComplete
  try simp -proj -iota -beta -eta only []
  repeat' first | exact .inl rfl | with_reducible exact .inr rfl | with_reducible apply And.intro
                | with_reducible exact clk_same rfl rfl rfl | with_reducible exact ⟨le_rfl, fun h => h⟩ | with_reducible exact fun h => h
                | with_reducible exact Keeps.refl _ | with_reducible refine (State.ev_keeps ..).after ?_ rfl
                | with_reducible refine Keeps.ite (fun _ => ?_) (fun _ => ?_) | (with_reducible refine Keeps.mk' ?_ ?_ ?_ ?_ ?_ ?_ ?_ ?_)

theorem onPldmFwUpdate_keeps (img : List Byte) (s : State) : Keeps 0x203e4 s (onPldmFwUpdate img s) := by
  unfold onPldmFwUpdate
  try simp -proj -iota -beta -eta only []
  repeat' first | with_reducible exact Keeps.refl _ | with_reducible refine (State.stageImage_keeps ..).after ?_ rfl
                | with_reducible refine (State.holdMctp_keeps ..).after ?_ rfl | with_reducible refine Keeps.ite (fun _ => ?_) (fun _ => ?_)

/-! ### Cxl -/

theorem onLockInterface_keeps (s : State) : Keeps 0x20100 s (onLockInterface s) := by
  unfold onLockInterface
  try simp -proj -iota -beta -eta only []
  repeat' first | exact .inl rfl | with_reducible exact .inr rfl | with_reducible apply And.intro
                | with_reducible exact clk_same rfl rfl rfl | with_reducible exact ⟨le_rfl, fun h => h⟩ | with_reducible exact fun h => h
                | with_reducible exact Keeps.refl _ | with_reducible refine (State.emit_keeps ..).after ?_ rfl
                | with_reducible refine Keeps.ite (fun _ => ?_) (fun _ => ?_) | (with_reducible refine Keeps.mk' ?_ ?_ ?_ ?_ ?_ ?_ ?_ ?_)

theorem onStartInterface_keeps (s : State) : Keeps 0x20100 s (onStartInterface s) := by
  unfold onStartInterface
  try simp -proj -iota -beta -eta only []
  repeat' first | exact .inl rfl | with_reducible exact .inr rfl | with_reducible apply And.intro
                | with_reducible exact clk_same rfl rfl rfl | with_reducible exact ⟨le_rfl, fun h => h⟩ | with_reducible exact fun h => h
                | with_reducible exact Keeps.refl _ | with_reducible refine (State.emit_keeps ..).after ?_ rfl
                | with_reducible refine Keeps.ite (fun _ => ?_) (fun _ => ?_) | (with_reducible refine Keeps.mk' ?_ ?_ ?_ ?_ ?_ ?_ ?_ ?_)

theorem onStopInterface_keeps (s : State) : Keeps 0x27fe5 s (onStopInterface s) := by
  unfold onStopInterface
  try simp -proj -iota -beta -eta only []
  repeat' first | exact .inl rfl | with_reducible exact .inr rfl | with_reducible apply And.intro
                | with_reducible exact clk_same rfl rfl rfl | with_reducible exact ⟨le_rfl, fun h => h⟩ | with_reducible exact fun h => h
                | with_reducible exact Keeps.refl _ | with_reducible refine (State.emit_keeps ..).after ?_ rfl
                | with_reducible refine (State.killAll_keeps ..).after ?_ rfl
                | with_reducible refine (State.releaseSealedWhere_keeps ..).after ?_ rfl
                | with_reducible refine Keeps.ite (fun _ => ?_) (fun _ => ?_) | (with_reducible refine Keeps.mk' ?_ ?_ ?_ ?_ ?_ ?_ ?_ ?_)

theorem onStopInterfaceComplete_keeps (s : State) : Keeps 0x20f04 s (onStopInterfaceComplete s) := by
  unfold onStopInterfaceComplete
  try simp -proj -iota -beta -eta only []
  repeat' first | with_reducible exact Keeps.refl _ | with_reducible refine (State.emit_keeps ..).after ?_ rfl
                | (with_reducible refine (State.withCxl_keeps _ _ ?hc).after ?_ rfl; case hc => exact fun h => h)
                | with_reducible refine (State.zeroUnsealed_keeps ..).after ?_ rfl
                | with_reducible refine Keeps.ite (fun _ => ?_) (fun _ => ?_)

theorem onIdeKm_keeps (op : IdeKmOp) (s : State) : Keeps 0x27fe5 s (onIdeKm op s) := by
  unfold onIdeKm
  try simp -proj -iota -beta -eta only []
  repeat' first | with_reducible exact Keeps.refl _ | with_reducible refine (State.lockedChange_keeps ..).after ?_ rfl
                | with_reducible refine (State.setIde_keeps ..).after ?_ rfl | with_reducible refine Keeps.ite (fun _ => ?_) (fun _ => ?_)
                | split

theorem onIdeStreamReceive_keeps (st : IdeStream) (good : Bool) (s : State) : Keeps 0x27fe5 s (onIdeStreamReceive st good s) := by
  unfold onIdeStreamReceive
  try simp -proj -iota -beta -eta only []
  repeat' first | exact .inl rfl | with_reducible exact .inr rfl | with_reducible apply And.intro
                | with_reducible exact clk_same rfl rfl rfl | with_reducible exact ⟨le_rfl, fun h => h⟩ | with_reducible exact fun h => h
                | with_reducible exact Keeps.refl _ | with_reducible refine (State.bump_keeps ..).after ?_ rfl
                | with_reducible refine (State.ev_keeps ..).after ?_ rfl | with_reducible refine (State.tdiError_keeps ..).after ?_ rfl
                | with_reducible refine (State.setIde_keeps ..).after ?_ rfl | with_reducible refine Keeps.ite (fun _ => ?_) (fun _ => ?_)
                | (with_reducible refine Keeps.mk' ?_ ?_ ?_ ?_ ?_ ?_ ?_ ?_)

theorem onHdmDecoderCommit_keeps (base size ways : Nat) (s : State) : Keeps 0x27fe5 s (onHdmDecoderCommit base size ways s) := by
  unfold onHdmDecoderCommit
  try simp -proj -iota -beta -eta only []
  repeat' first | exact .inl rfl | with_reducible exact .inr rfl | with_reducible apply And.intro
                | with_reducible exact clk_same rfl rfl rfl | with_reducible exact ⟨le_rfl, fun h => h⟩ | with_reducible exact fun h => h
                | with_reducible exact Keeps.refl _ | with_reducible refine (State.lockedChange_keeps ..).after ?_ rfl
                | with_reducible refine Keeps.ite (fun _ => ?_) (fun _ => ?_) | (with_reducible refine Keeps.mk' ?_ ?_ ?_ ?_ ?_ ?_ ?_ ?_)

theorem onAtsInvalidation_keeps (pasid page count : Nat) (s : State) : Keeps 0x20104 s (onAtsInvalidation pasid page count s) := by
  unfold onAtsInvalidation
  try simp -proj -iota -beta -eta only []
  repeat' first | exact .inl rfl | with_reducible exact .inr rfl | with_reducible apply And.intro
                | with_reducible exact clk_same rfl rfl rfl | with_reducible exact ⟨le_rfl, fun h => h⟩ | with_reducible exact fun h => h
                | with_reducible exact Keeps.refl _ | with_reducible refine (State.emit_keeps ..).after ?_ rfl
                | with_reducible refine (State.bump_keeps ..).after ?_ rfl | with_reducible refine Keeps.ite (fun _ => ?_) (fun _ => ?_)
                | with_reducible refine Keeps.foldl _ _ _ _ (fun s x => ?_) ?_ | split
                | (with_reducible refine Keeps.mk' ?_ ?_ ?_ ?_ ?_ ?_ ?_ ?_) | exact fun h => (List.length_filter_le _ _).trans h

theorem onTranslationCompletion_keeps (pasid page : Nat) (r : AtsResult) (w : Waiter) (s : State) : Keeps 0x20fe4 s (onTranslationCompletion pasid page r w s) := by
  unfold onTranslationCompletion
  try simp -proj -iota -beta -eta only []
  repeat' first | exact .inl rfl | with_reducible exact .inr rfl | with_reducible apply And.intro
                | with_reducible exact clk_same rfl rfl rfl | with_reducible exact ⟨le_rfl, fun h => h⟩ | with_reducible exact fun h => h
                | with_reducible exact Keeps.refl _ | with_reducible refine (State.emit_keeps ..).after ?_ rfl
                | with_reducible refine (State.pageFault_keeps ..).after ?_ rfl
                | with_reducible refine Keeps.ite (fun _ => ?_) (fun _ => ?_) | split
                | (with_reducible refine Keeps.mk' ?_ ?_ ?_ ?_ ?_ ?_ ?_ ?_) | (intro _; simp at * <;> omega)

theorem onPageRequestResponse_keeps (pasid page : Nat) (c : PriCode) (s : State) : Keeps 0x20fe4 s (onPageRequestResponse pasid page c s) := by
  unfold onPageRequestResponse
  try simp -proj -iota -beta -eta only []
  repeat' first | exact .inl rfl | with_reducible exact .inr rfl | with_reducible apply And.intro
                | with_reducible exact clk_same rfl rfl rfl | with_reducible exact ⟨le_rfl, fun h => h⟩ | with_reducible exact fun h => h
                | with_reducible exact Keeps.refl _ | with_reducible refine (State.emit_keeps ..).after ?_ rfl
                | with_reducible refine (State.bump_keeps ..).after ?_ rfl | with_reducible refine (State.ev_keeps ..).after ?_ rfl
                | with_reducible refine (State.endWaiter_keeps ..).after ?_ rfl
                | with_reducible refine (State.resumeWaiter_keeps ..).after ?_ rfl
                | with_reducible refine (State.promotePages_keeps ..).after ?_ rfl
                | with_reducible refine (State.dropPage_keeps ..).after ?_ rfl
                | with_reducible refine Keeps.foldl _ _ _ _ (fun s x => ?_) ?_ | split
                | (with_reducible refine Keeps.mk' ?_ ?_ ?_ ?_ ?_ ?_ ?_ ?_)

theorem onPageRequestTimeout_keeps (pasid page : Nat) (s : State) : Keeps 0x20fe4 s (onPageRequestTimeout pasid page s) := by
  unfold onPageRequestTimeout
  try simp -proj -iota -beta -eta only []
  repeat' first | with_reducible exact Keeps.refl _ | with_reducible refine (State.bump_keeps ..).after ?_ rfl
                | with_reducible refine (State.ev_keeps ..).after ?_ rfl | with_reducible refine (State.endWaiter_keeps ..).after ?_ rfl
                | with_reducible refine (State.promotePages_keeps ..).after ?_ rfl
                | with_reducible refine (State.dropPage_keeps ..).after ?_ rfl | with_reducible refine Keeps.ite (fun _ => ?_) (fun _ => ?_)
                | with_reducible refine Keeps.foldl _ _ _ _ (fun s x => ?_) ?_ | split

theorem onMsixMaskClear_keeps (vec : Option (Fin 64)) (s : State) : Keeps 0x27fe5 s (onMsixMaskClear vec s) := by
  unfold onMsixMaskClear
  try simp -proj -iota -beta -eta only []
  repeat' first | exact .inl rfl | with_reducible exact .inr rfl | with_reducible apply And.intro
                | with_reducible exact clk_same rfl rfl rfl | with_reducible exact ⟨le_rfl, fun h => h⟩ | with_reducible exact fun h => h
                | with_reducible exact Keeps.refl _ | with_reducible refine (State.lockedChange_keeps ..).after ?_ rfl
                | with_reducible refine (State.drainMsix_keeps ..).after ?_ rfl
                | with_reducible refine (State.setMask_keeps ..).after ?_ rfl | with_reducible refine Keeps.ite (fun _ => ?_) (fun _ => ?_)
                | split | (with_reducible refine Keeps.mk' ?_ ?_ ?_ ?_ ?_ ?_ ?_ ?_)

theorem onLockedItemChange_keeps (i : ConfigItem) (s : State) : Keeps 0x27fe5 s (onLockedItemChange i s) := by
  unfold onLockedItemChange
  try simp -proj -iota -beta -eta only []
  repeat' first | with_reducible exact Keeps.refl _ | with_reducible refine (State.lockedChange_keeps ..).after ?_ rfl
                | with_reducible refine (State.applyItem_keeps ..).after ?_ rfl
                | with_reducible refine (State.configDenied_keeps ..).after ?_ rfl
                | with_reducible refine Keeps.ite (fun _ => ?_) (fun _ => ?_) | split

theorem onBusMasterEnableWrite_keeps (b : Bool) (s : State) : Keeps 0x27fe5 s (onBusMasterEnableWrite b s) := by
  unfold onBusMasterEnableWrite
  try simp -proj -iota -beta -eta only []
  repeat' first | with_reducible exact Keeps.refl _ | with_reducible refine (State.setBusMaster_keeps ..).after ?_ rfl
                | with_reducible refine (State.lockedChange_keeps ..).after ?_ rfl
                | with_reducible refine (State.configDenied_keeps ..).after ?_ rfl
                | with_reducible refine Keeps.ite (fun _ => ?_) (fun _ => ?_)

theorem onPriEnableWrite_keeps (b : Bool) (s : State) : Keeps 0x27fe5 s (onPriEnableWrite b s) := by
  unfold onPriEnableWrite
  try simp -proj -iota -beta -eta only []
  repeat' first | with_reducible exact Keeps.refl _ | with_reducible refine (State.lockedChange_keeps ..).after ?_ rfl
                | with_reducible refine (State.setPri_keeps ..).after ?_ rfl
                | with_reducible refine (State.configDenied_keeps ..).after ?_ rfl
                | with_reducible refine Keeps.ite (fun _ => ?_) (fun _ => ?_)

theorem onCacheEnableWrite_keeps (b : Bool) (lines : List (Nat × List Byte)) (s : State) : Keeps 0x20364 s (onCacheEnableWrite b lines s) := by
  unfold onCacheEnableWrite
  try simp -proj -iota -beta -eta only []
  repeat' first | with_reducible exact Keeps.refl _ | with_reducible refine (State.setCacheEnable_keeps ..).after ?_ rfl
                | with_reducible refine (State.configDenied_keeps ..).after ?_ rfl
                | with_reducible refine Keeps.ite (fun _ => ?_) (fun _ => ?_)

theorem onCxlLinkUp_keeps (l : LinkUp) (s : State) : Keeps 0x24364 s (onCxlLinkUp l s) := by
  unfold onCxlLinkUp
  try simp -proj -iota -beta -eta only []
  repeat' first | with_reducible exact Keeps.refl _ | with_reducible refine (State.bump_keeps ..).after ?_ rfl
                | with_reducible refine (State.wake_keeps ..).after ?_ rfl
                | (with_reducible refine (State.withCxl_keeps _ _ ?hc).after ?_ rfl; case hc => exact fun h => h)
                | with_reducible refine (State.drainMsix_keeps ..).after ?_ rfl
                | with_reducible refine (State.linkDegraded_keeps ..).after ?_ rfl
                | with_reducible refine Keeps.ite (fun _ => ?_) (fun _ => ?_)

theorem onCxlLinkDown_keeps (s : State) : Keeps 0x27f65 s (onCxlLinkDown s) := by
  unfold onCxlLinkDown
  try simp -proj -iota -beta -eta only []
  repeat' first | exact .inl rfl | with_reducible exact .inr rfl | with_reducible apply And.intro
                | with_reducible exact clk_same rfl rfl rfl | with_reducible exact ⟨le_rfl, fun h => h⟩ | with_reducible exact fun h => h
                | with_reducible exact Keeps.refl _ | with_reducible refine (State.killAll_keeps ..).after ?_ rfl
                | with_reducible refine (State.hostLost_keeps ..).after ?_ rfl
                | with_reducible refine (State.lossIdle_keeps ..).after ?_ rfl
                | with_reducible refine (State.lossScrubbed_keeps ..).after ?_ rfl
                | with_reducible refine Keeps.ite (fun _ => ?_) (fun _ => ?_) | (with_reducible refine Keeps.mk' ?_ ?_ ?_ ?_ ?_ ?_ ?_ ?_)
                | exact fun _ => Nat.zero_le _

/-! ### Security -/

theorem onGetVersion_keeps (m : Bool) (s : State) : Keeps 0x20080 s (onGetVersion m s) := by
  unfold onGetVersion
  try simp -proj -iota -beta -eta only []
  repeat' first | exact .inl rfl | with_reducible exact .inr rfl | with_reducible apply And.intro
                | with_reducible exact clk_same rfl rfl rfl | with_reducible exact ⟨le_rfl, fun h => h⟩ | with_reducible exact fun h => h
                | with_reducible exact Keeps.refl _ | with_reducible refine (State.spdm_keeps ..).after ?_ rfl
                | with_reducible refine Keeps.ite (fun _ => ?_) (fun _ => ?_) | (with_reducible refine Keeps.mk' ?_ ?_ ?_ ?_ ?_ ?_ ?_ ?_)

theorem onGetCapabilities_keeps (m : Bool) (s : State) : Keeps 0x20080 s (onGetCapabilities m s) := by
  unfold onGetCapabilities
  try simp -proj -iota -beta -eta only []
  repeat' first | exact .inl rfl | with_reducible exact .inr rfl | with_reducible apply And.intro
                | with_reducible exact clk_same rfl rfl rfl | with_reducible exact ⟨le_rfl, fun h => h⟩ | with_reducible exact fun h => h
                | with_reducible exact Keeps.refl _ | with_reducible refine (State.spdm_keeps ..).after ?_ rfl
                | with_reducible refine Keeps.ite (fun _ => ?_) (fun _ => ?_) | (with_reducible refine Keeps.mk' ?_ ?_ ?_ ?_ ?_ ?_ ?_ ?_)

theorem onNegotiateAlgorithms_keeps (m : Bool) (o : SpdmOffer) (s : State) : Keeps 0x20080 s (onNegotiateAlgorithms m o s) := by
  unfold onNegotiateAlgorithms
  try simp -proj -iota -beta -eta only []
  repeat' first | exact .inl rfl | with_reducible exact .inr rfl | with_reducible apply And.intro
                | with_reducible exact clk_same rfl rfl rfl | with_reducible exact ⟨le_rfl, fun h => h⟩ | with_reducible exact fun h => h
                | with_reducible exact Keeps.refl _ | with_reducible refine (State.spdm_keeps ..).after ?_ rfl
                | with_reducible refine Keeps.ite (fun _ => ?_) (fun _ => ?_) | (with_reducible refine Keeps.mk' ?_ ?_ ?_ ?_ ?_ ?_ ?_ ?_)

theorem onGetCertificate_keeps (m : Bool) (slot offset len : Nat) (s : State) : Keeps 0x20080 s (onGetCertificate m slot offset len s) := by
  unfold onGetCertificate
  try simp -proj -iota -beta -eta only []
  repeat' first | with_reducible exact Keeps.refl _ | with_reducible refine (State.spdm_keeps ..).after ?_ rfl
                | with_reducible refine Keeps.ite (fun _ => ?_) (fun _ => ?_)

theorem onChallenge_keeps (m : Bool) (slot : Nat) (nonce : List Byte) (s : State) : Keeps 0x60080 s (onChallenge m slot nonce s) := by
  unfold onChallenge
  try simp -proj -iota -beta -eta only []
  repeat' first | with_reducible exact Keeps.refl _ | with_reducible refine (State.draw_keeps ..).after ?_ rfl
                | with_reducible refine (State.spdm_keeps ..).after ?_ rfl | with_reducible refine Keeps.ite (fun _ => ?_) (fun _ => ?_)

theorem onGetMeasurements_keeps (m : Bool) (q : MeasReq) (sign : Bool) (nonce : List Byte) (s : State) : Keeps 0x60080 s (onGetMeasurements m q sign nonce s) := by
  unfold onGetMeasurements
  try simp -proj -iota -beta -eta only []
  repeat' first | with_reducible exact Keeps.refl _ | with_reducible refine (State.draw_keeps ..).after ?_ rfl
                | with_reducible refine (State.spdm_keeps ..).after ?_ rfl | with_reducible refine Keeps.ite (fun _ => ?_) (fun _ => ?_)

theorem onKeyExchange_keeps (m : Bool) (s : State) : Keeps 0x60080 s (onKeyExchange m s) := by
  unfold onKeyExchange
  try simp -proj -iota -beta -eta only []
  repeat' first | exact .inl rfl | with_reducible exact .inr rfl | with_reducible apply And.intro
                | with_reducible exact clk_same rfl rfl rfl | with_reducible exact fun h => h | with_reducible exact Keeps.refl _
                | with_reducible refine (State.draw_keeps ..).after ?_ rfl | with_reducible refine (State.spdm_keeps ..).after ?_ rfl
                | with_reducible refine Keeps.ite (fun _ => ?_) (fun _ => ?_) | (with_reducible refine Keeps.mk' ?_ ?_ ?_ ?_ ?_ ?_ ?_ ?_)
                | (refine ⟨le_rfl, fun _ => ?_⟩ <;> simp at * <;> omega)

theorem onKeyUpdate_keeps (m : Bool) (id : Nat) (s : State) : Keeps 0x20080 s (onKeyUpdate m id s) := by
  unfold onKeyUpdate
  try simp -proj -iota -beta -eta only []
  repeat' first | exact .inl rfl | with_reducible exact .inr rfl | with_reducible apply And.intro
                | with_reducible exact clk_same rfl rfl rfl | with_reducible exact fun h => h | with_reducible exact Keeps.refl _
                | with_reducible refine (State.spdm_keeps ..).after ?_ rfl | with_reducible refine Keeps.ite (fun _ => ?_) (fun _ => ?_)
                | (with_reducible refine Keeps.mk' ?_ ?_ ?_ ?_ ?_ ?_ ?_ ?_) | (refine ⟨le_rfl, fun _ => ?_⟩ <;> simp at * <;> omega)

theorem onEndSession_keeps (m : Bool) (id : Nat) (s : State) : Keeps 0x20080 s (onEndSession m id s) := by
  unfold onEndSession
  try simp -proj -iota -beta -eta only []
  repeat' first | with_reducible exact Keeps.refl _ | with_reducible refine (State.spdm_keeps ..).after ?_ rfl
                | with_reducible refine (State.closeSession_keeps ..).after ?_ rfl
                | with_reducible refine Keeps.ite (fun _ => ?_) (fun _ => ?_)

theorem onHeartbeatTimeout_keeps (id : Nat) (s : State) : Keeps 0x80 s (onHeartbeatTimeout id s) := by
  unfold onHeartbeatTimeout
  try simp -proj -iota -beta -eta only []
  repeat' first | with_reducible exact Keeps.refl _ | with_reducible refine (State.closeSession_keeps ..).after ?_ rfl

theorem onCdatRead_keeps (s : State) : Keeps 0x20000 s (onCdatRead s) := by
  unfold onCdatRead
  try simp -proj -iota -beta -eta only []
  repeat' first | with_reducible exact Keeps.refl _ | with_reducible refine (State.emit_keeps ..).after ?_ rfl
                | with_reducible refine Keeps.ite (fun _ => ?_) (fun _ => ?_)

theorem onDebugUnlockScrubDone_keeps (s : State) : Keeps 0x20fe4 s (onDebugUnlockScrubDone s) := by
  unfold onDebugUnlockScrubDone
  try simp -proj -iota -beta -eta only []
  repeat' first | exact .inl rfl | with_reducible exact .inr rfl | with_reducible apply And.intro
                | with_reducible exact clk_same rfl rfl rfl | with_reducible exact fun h => h | with_reducible exact Keeps.refl _
                | with_reducible refine (State.ev_keeps ..).after ?_ rfl | with_reducible refine (State.freeSealed_keeps ..).after ?_ rfl
                | with_reducible refine Keeps.ite (fun _ => ?_) (fun _ => ?_) | with_reducible refine Keeps.foldl _ _ _ _ (fun s x => ?_) ?_
                | (with_reducible refine Keeps.mk' ?_ ?_ ?_ ?_ ?_ ?_ ?_ ?_) | exact ⟨le_rfl, fun _ => Nat.zero_le _⟩

theorem onBundleLoad_keeps (d : Desc) (view : HostView) (s : State) : Keeps 0x20fe4 s (onBundleLoad d view s) := by
  unfold onBundleLoad
  try simp -proj -iota -beta -eta only []
  repeat' first | with_reducible exact Keeps.refl _ | with_reducible refine (State.complete_keeps ..).after ?_ rfl
                | with_reducible refine (State.orderLost_keeps ..).after ?_ rfl
                | with_reducible refine State.startCmd_keeps rfl _ _ _ _ _ _ (fun s st => ?_)
                | with_reducible refine (State.bundleCheckStart_keeps ..).after ?_ rfl
                | with_reducible refine Keeps.ite (fun _ => ?_) (fun _ => ?_)

theorem onBundleLoadComplete_keeps (view : HostView) (s : State) : Keeps 0x20fe4 s (onBundleLoadComplete view s) := by
  unfold onBundleLoadComplete
  try simp -proj -iota -beta -eta only []
  repeat' first | with_reducible exact Keeps.refl _ | with_reducible refine (State.bundleCheckStart_keeps ..).after ?_ rfl
                | with_reducible refine (State.bundleFinish_keeps ..).after ?_ rfl
                | with_reducible refine Keeps.ite (fun _ => ?_) (fun _ => ?_) | split

theorem onSealRelease_keeps (d : Desc) (s : State) : Keeps 0x203a4 s (onSealRelease d s) := by
  unfold onSealRelease
  try simp -proj -iota -beta -eta only []
  repeat' first | with_reducible exact Keeps.refl _ | with_reducible refine (State.complete_keeps ..).after ?_ rfl
                | with_reducible refine (State.releaseSealed_keeps ..).after ?_ rfl
                | with_reducible refine State.startCmd_keeps rfl _ _ _ _ _ _ (fun s st => ?_)
                | with_reducible refine Keeps.ite (fun _ => ?_) (fun _ => ?_) | split

theorem onSealReleaseComplete_keeps (r : Fin 16) (s : State) : Keeps 0x20f84 s (onSealReleaseComplete r s) := by
  unfold onSealReleaseComplete
  try simp -proj -iota -beta -eta only []
  repeat' first | with_reducible exact Keeps.refl _ | with_reducible refine (State.complete_keeps ..).after ?_ rfl
                | with_reducible refine (State.freeSealed_keeps ..).after ?_ rfl
                | with_reducible refine Keeps.ite (fun _ => ?_) (fun _ => ?_) | with_reducible refine Keeps.foldl _ _ _ _ (fun s x => ?_) ?_
                | split

theorem onSealExport_keeps (d : Desc) (s : State) : Keeps 0x20324 s (onSealExport d s) := by
  unfold onSealExport
  try simp -proj -iota -beta -eta only []
  repeat' first | with_reducible exact Keeps.refl _ | with_reducible refine (State.complete_keeps ..).after ?_ rfl
                | with_reducible refine State.startCmd_keeps rfl _ _ _ _ _ _ (fun s st => ?_)
                | with_reducible refine Keeps.ite (fun _ => ?_) (fun _ => ?_) | split

theorem onSealExportComplete_keeps (view : HostView) (s : State) : Keeps 0x67fe4 s (onSealExportComplete view s) := by
  unfold onSealExportComplete
  try simp -proj -iota -beta -eta only []
  repeat' first | with_reducible exact Keeps.refl _ | with_reducible refine (State.emit_keeps ..).after ?_ rfl
                | with_reducible refine (State.draw_keeps ..).after ?_ rfl | with_reducible refine (State.complete_keeps ..).after ?_ rfl
                | with_reducible refine (State.hbmRead_keeps ..).after ?_ rfl | with_reducible refine (State.hbmUe_keeps ..).after ?_ rfl
                | with_reducible refine (State.waitPage_keeps ..).after ?_ rfl | with_reducible refine Keeps.ite (fun _ => ?_) (fun _ => ?_)
                | split

/-! ### Reset -/

theorem onPowerLoss_keeps (pwrok : Bool) (coreMv ioMv : Nat) (s : State) : Keeps 0x7ffff s (onPowerLoss pwrok coreMv ioMv s) := by
  unfold onPowerLoss
  try simp -proj -iota -beta -eta only []
  repeat' first | exact .inl rfl | with_reducible apply And.intro | with_reducible exact clk_same rfl rfl rfl
                | with_reducible exact ⟨le_rfl, fun h => h⟩ | with_reducible exact fun h => h | with_reducible exact Keeps.refl _
                | with_reducible refine (State.emit_keeps ..).after ?_ rfl | with_reducible refine (State.powerOn_keeps ..).after ?_ rfl
                | with_reducible refine (State.loseImage_keeps ..).after ?_ rfl
                | with_reducible refine Keeps.ite (fun _ => ?_) (fun _ => ?_) | (with_reducible refine Keeps.mk' ?_ ?_ ?_ ?_ ?_ ?_ ?_ ?_)

theorem onPowerOnReset_keeps (a b c) (s : State) : Keeps 0x5ffff s (onPowerOnReset a b c s) := by
  unfold onPowerOnReset
  simp -proj -iota -beta -eta only []
  refine Keeps.ite (fun _ => Keeps.refl _) (fun _ => ?_)
  refine (State.draw_keeps _).after ((State.fabPowerOn_keeps _).after ?_ rfl) rfl
  have hz : ∀ c : Bool, (if c = true then 2 else 0) ≤ 3 := by intro c; cases c <;> decide
  repeat' first | exact .inl rfl | with_reducible exact .inr rfl | with_reducible apply And.intro
                | with_reducible exact (State.powerOn_keeps s).mono rfl | with_reducible exact ⟨le_rfl, fun h => h⟩
                | with_reducible exact fun h => h | with_reducible refine Keeps.mk' ?_ ?_ ?_ ?_ ?_ ?_ ?_ ?_
  rintro ⟨-, -, h⟩
  exact ⟨hz _, hz _, h⟩

theorem onRootLockLoss_keeps (s : State) : Keeps 0x1ffff s (onRootLockLoss s) := by
  unfold onRootLockLoss
  simp -proj -iota -beta -eta only []
  refine Keeps.ite (fun _ => Keeps.refl _) (fun _ => ?_)
  exact ⟨Within.ofAny fun f => by cases f <;> first | exact .inl rfl | exact .inr rfl, rfl, ⟨le_rfl, fun _ => Nat.zero_le _⟩, fun _ => rfl,
    fun _ => ⟨by simp only; split <;> omega, by simp only; split <;> omega, fun _ e => nomatch e⟩, fun _ => Nat.zero_le _, fun _ => Nat.zero_le _, fun _ => Nat.zero_le _⟩

theorem onThermtrip_keeps (s : State) : Keeps 0x7ffff s (onThermtrip s) := by
  unfold onThermtrip
  try simp -proj -iota -beta -eta only []
  repeat' first | exact .inl rfl | with_reducible apply And.intro | with_reducible exact clk_same rfl rfl rfl
                | with_reducible exact ⟨le_rfl, fun h => h⟩ | with_reducible exact fun h => h | with_reducible exact Keeps.refl _
                | with_reducible refine (State.emit_keeps ..).after ?_ rfl | with_reducible refine (State.powerOn_keeps ..).after ?_ rfl
                | with_reducible refine (State.loseImage_keeps ..).after ?_ rfl
                | with_reducible refine Keeps.ite (fun _ => ?_) (fun _ => ?_) | (with_reducible refine Keeps.mk' ?_ ?_ ?_ ?_ ?_ ?_ ?_ ?_)

theorem onFirmwareBoot_keeps (entropyOk : Bool) (s : State) : Keeps 0x27ff5 s (onFirmwareBoot entropyOk s) := by
  unfold onFirmwareBoot
  try simp -proj -iota -beta -eta only []
  repeat' first | exact .inl rfl | with_reducible exact .inr rfl | with_reducible apply And.intro
                | with_reducible exact clk_same rfl rfl rfl | with_reducible exact ⟨le_rfl, fun h => h⟩ | with_reducible exact fun h => h
                | with_reducible exact hbm_nil | with_reducible exact Keeps.refl _
                | with_reducible refine (State.fabPowerOn_keeps ..).after ?_ rfl
                | with_reducible refine (State.reviewClock_keeps ..).after ?_ rfl
                | with_reducible refine (State.fatal_keeps ..).after ?_ rfl | with_reducible refine (State.runImage_keeps ..).after ?_ rfl
                | with_reducible refine (State.reportTrip_keeps ..).after ?_ rfl
                | with_reducible refine Keeps.ite (fun _ => ?_) (fun _ => ?_) | split
                | (with_reducible refine Keeps.mk' ?_ ?_ ?_ ?_ ?_ ?_ ?_ ?_)

theorem onCxlReset_keeps (memClear : Bool) (s : State) : Keeps 0x27f75 s (onCxlReset memClear s) := by
  unfold onCxlReset
  try simp -proj -iota -beta -eta only []
  repeat' first | with_reducible exact Keeps.refl _ | with_reducible refine (State.beginReset_keeps ..).after ?_ rfl
                | with_reducible refine Keeps.ite (fun _ => ?_) (fun _ => ?_)

theorem onSecondaryBusReset_keeps (s : State) : Keeps 0x27f75 s (onSecondaryBusReset s) := by
  unfold onSecondaryBusReset
  try simp -proj -iota -beta -eta only []
  repeat' first | exact .inl rfl | with_reducible exact .inr rfl | with_reducible apply And.intro
                | with_reducible exact clk_same rfl rfl rfl | with_reducible exact ⟨le_rfl, fun h => h⟩ | with_reducible exact fun h => h
                | with_reducible exact Keeps.refl _ | with_reducible refine (State.beginReset_keeps ..).after ?_ rfl
                | with_reducible refine Keeps.ite (fun _ => ?_) (fun _ => ?_) | (with_reducible refine Keeps.mk' ?_ ?_ ?_ ?_ ?_ ?_ ?_ ?_)

theorem onPerst_keeps (us : Nat) (asserted : Bool) (s : State) : Keeps 0x27f75 s (onPerst us asserted s) := by
  unfold onPerst
  try simp -proj -iota -beta -eta only []
  repeat' first | exact .inl rfl | with_reducible exact .inr rfl | with_reducible apply And.intro
                | with_reducible exact clk_same rfl rfl rfl | with_reducible exact ⟨le_rfl, fun h => h⟩ | with_reducible exact fun h => h
                | with_reducible exact Keeps.refl _ | with_reducible refine (State.emit_keeps ..).after ?_ rfl
                | with_reducible refine (State.beginReset_keeps ..).after ?_ rfl
                | with_reducible refine Keeps.ite (fun _ => ?_) (fun _ => ?_) | split
                | (with_reducible refine Keeps.mk' ?_ ?_ ?_ ?_ ?_ ?_ ?_ ?_)

theorem onResetComplete_keeps (s : State) : Keeps 0x27fff s (onResetComplete s) := by
  unfold onResetComplete
  try simp -proj -iota -beta -eta only []
  repeat' first | with_reducible exact Keeps.refl _ | with_reducible refine (State.afterReset_keeps ..).after ?_ rfl
                | with_reducible refine (State.reboot_keeps ..).after ?_ rfl | with_reducible refine Keeps.ite (fun _ => ?_) (fun _ => ?_)
                | split

/-! ### HbmHost -/

theorem onHostCxlMemRead_keeps (hpa : Nat) (ue ce : Bool) (s : State) : Keeps 0x27f64 s (onHostCxlMemRead hpa ue ce s) := by
  unfold onHostCxlMemRead
  try simp -proj -iota -beta -eta only []
  repeat' first | with_reducible exact Keeps.refl _ | with_reducible refine (State.plantUe_keeps ..).after ?_ rfl
                | with_reducible refine (State.foundErrors_keeps ..).after ?_ rfl
                | with_reducible refine (State.hostMem_keeps ..).after ?_ rfl | with_reducible refine Keeps.ite (fun _ => ?_) (fun _ => ?_)
                | split

theorem onHostCxlMemWrite_keeps (hpa : Nat) (data : List Byte) (mask : BitVec 64) (s : State) : Keeps 0x27f64 s (onHostCxlMemWrite hpa data mask s) := by
  unfold onHostCxlMemWrite
  try simp -proj -iota -beta -eta only []
  repeat' first | with_reducible exact Keeps.refl _ | with_reducible refine (State.hostMem_keeps ..).after ?_ rfl
                | with_reducible refine Keeps.ite (fun _ => ?_) (fun _ => ?_)

theorem onHostBar2Access_keeps (off : Nat) (write : Option Byte) (ce : Nat) (s : State) : Keeps 0x27364 s (onHostBar2Access off write ce s) := by
  unfold onHostBar2Access
  try simp -proj -iota -beta -eta only []
  repeat' first | exact .inl rfl | with_reducible exact .inr rfl | with_reducible apply And.intro
                | with_reducible exact clk_same rfl rfl rfl | with_reducible exact ⟨le_rfl, fun h => h⟩ | with_reducible exact fun h => h
                | with_reducible exact Keeps.refl _ | with_reducible refine (State.emit_keeps ..).after ?_ rfl
                | with_reducible refine (State.bumpMem_keeps ..).after ?_ rfl
                | with_reducible refine (State.accessBank_keeps ..).after ?_ rfl | with_reducible refine (State.wake_keeps ..).after ?_ rfl
                | with_reducible refine (State.spadAccess_keeps ..).after ?_ rfl
                | with_reducible refine Keeps.ite (fun _ => ?_) (fun _ => ?_) | split
                | (with_reducible refine Keeps.mk' ?_ ?_ ?_ ?_ ?_ ?_ ?_ ?_)

theorem onBiasSet_keeps (d : Desc) (s : State) : Keeps 0x20b24 s (onBiasSet d s) := by
  unfold onBiasSet
  try simp -proj -iota -beta -eta only []
  repeat' first | exact .inl rfl | with_reducible exact .inr rfl | with_reducible apply And.intro
                | with_reducible exact clk_same rfl rfl rfl | with_reducible exact ⟨le_rfl, fun h => h⟩ | with_reducible exact fun h => h
                | with_reducible exact Keeps.refl _ | with_reducible refine (State.complete_keeps ..).after ?_ rfl
                | with_reducible refine State.startCmd_keeps rfl _ _ _ _ _ _ (fun s st => ?_)
                | with_reducible refine Keeps.ite (fun _ => ?_) (fun _ => ?_) | split
                | (with_reducible refine Keeps.mk' ?_ ?_ ?_ ?_ ?_ ?_ ?_ ?_)

theorem onHbmPatrolRead_keeps (m : Fin 768) (ce ue : Bool) (s : State) : Keeps 0x27b64 s (onHbmPatrolRead m ce ue s) := by
  unfold onHbmPatrolRead
  try simp -proj -iota -beta -eta only []
  repeat' first | exact .inl rfl | with_reducible exact .inr rfl | with_reducible apply And.intro
                | with_reducible exact clk_same rfl rfl rfl | with_reducible exact ⟨le_rfl, fun h => h⟩ | with_reducible exact fun h => h
                | with_reducible exact Keeps.refl _ | with_reducible refine (State.bumpMem_keeps ..).after ?_ rfl
                | with_reducible refine (State.touchPc_keeps ..).after ?_ rfl | with_reducible refine (State.correct_keeps ..).after ?_ rfl
                | with_reducible refine (State.hbmUe_keeps ..).after ?_ rfl | with_reducible refine (State.plantUe_keeps ..).after ?_ rfl
                | with_reducible refine Keeps.ite (fun _ => ?_) (fun _ => ?_) | (with_reducible refine Keeps.mk' ?_ ?_ ?_ ?_ ?_ ?_ ?_ ?_)

theorem onOdeccStatusRead_keeps (m : Fin 768) (n : Nat) (s : State) : Keeps 0x4 s (onOdeccStatusRead m n s) := by
  unfold onOdeccStatusRead
  try simp -proj -iota -beta -eta only []
  repeat' first | with_reducible exact Keeps.refl _ | with_reducible refine (State.bumpMem_keeps ..).after ?_ rfl
                | with_reducible refine Keeps.ite (fun _ => ?_) (fun _ => ?_)

theorem onHbmRefresh_keeps (stack : Fin 24) (over85 : Bool) (s : State) : Keeps 0x20 s (onHbmRefresh stack over85 s) := by
  unfold onHbmRefresh
  try simp -proj -iota -beta -eta only []
  repeat' first | exact .inl rfl | with_reducible exact .inr rfl | with_reducible apply And.intro
                | with_reducible exact clk_same rfl rfl rfl | with_reducible exact ⟨le_rfl, fun h => h⟩ | with_reducible exact fun h => h
                | with_reducible exact Keeps.refl _ | with_reducible refine Keeps.ite (fun _ => ?_) (fun _ => ?_) | split
                | (with_reducible refine Keeps.mk' ?_ ?_ ?_ ?_ ?_ ?_ ?_ ?_)

theorem onPcIdleEntry_keeps (k : Fin 1536) (s : State) : Keeps 0x804 s (onPcIdleEntry k s) := by
  unfold onPcIdleEntry
  try simp -proj -iota -beta -eta only []
  repeat' first | with_reducible exact Keeps.refl _ | with_reducible refine (State.bumpMem_keeps ..).after ?_ rfl
                | with_reducible refine (State.setPc_keeps ..).after ?_ rfl | with_reducible refine Keeps.ite (fun _ => ?_) (fun _ => ?_)

theorem onPcPowerDownEntry_keeps (k : Fin 1536) (s : State) : Keeps 0x800 s (onPcPowerDownEntry k s) := by
  unfold onPcPowerDownEntry
  try simp -proj -iota -beta -eta only []
  repeat' first | with_reducible exact Keeps.refl _ | with_reducible refine (State.setPc_keeps ..).after ?_ rfl
                | with_reducible refine Keeps.ite (fun _ => ?_) (fun _ => ?_) | split

theorem onPcWake_keeps (k : Fin 1536) (s : State) : Keeps 0x800 s (onPcWake k s) := by
  unfold onPcWake
  try simp -proj -iota -beta -eta only []
  repeat' first | exact .inl rfl | with_reducible exact .inr rfl | with_reducible apply And.intro
                | with_reducible exact clk_same rfl rfl rfl | with_reducible exact ⟨le_rfl, fun h => h⟩ | with_reducible exact fun h => h
                | with_reducible exact Keeps.refl _ | with_reducible refine (State.setPc_keeps ..).after ?_ rfl
                | with_reducible refine Keeps.ite (fun _ => ?_) (fun _ => ?_) | split
                | (with_reducible refine Keeps.mk' ?_ ?_ ?_ ?_ ?_ ?_ ?_ ?_)

/-! ### RegRead -/

theorem onCounterLowRead_keeps (r : BarRead) (s : State) : Keeps 0x2410c s (onCounterLowRead r s) := by
  unfold onCounterLowRead
  try simp -proj -iota -beta -eta only []
  repeat' first | with_reducible exact Keeps.refl _ | (with_reducible refine ((State.nonTee_keeps ..).get (by assumption)).after ?_ rfl)
                | with_reducible refine (State.bar0Read_keeps ..).after ?_ rfl
                | with_reducible refine (State.configRead_keeps ..).after ?_ rfl
                | with_reducible refine (State.bar4Read_keeps ..).after ?_ rfl | with_reducible refine Keeps.ite (fun _ => ?_) (fun _ => ?_)
                | split

theorem onPtpTxtsPop_keeps (p : Fin 12) (tee : Bool) (s : State) : Keeps 0x2410c s (onPtpTxtsPop p tee s) := by
  unfold onPtpTxtsPop
  try simp -proj -iota -beta -eta only []
  repeat' first | with_reducible exact Keeps.refl _ | with_reducible refine (onCounterLowRead_keeps ..).after ?_ rfl

/-! ### RegWrite -/

theorem onRegisterWrite_keeps (x : BarWrite) (s : State) : Keeps 0x67fff s (onRegisterWrite x s) := by
  unfold onRegisterWrite
  try simp -proj -iota -beta -eta only []
  repeat' first | with_reducible exact Keeps.refl _ | with_reducible refine (State.bump_keeps ..).after ?_ rfl
                | with_reducible refine (State.mmioWrite_keeps ..).after ?_ rfl
                | with_reducible refine Keeps.ite (fun _ => ?_) (fun _ => ?_) | with_reducible refine Keeps.foldl _ _ _ _ (fun s x => ?_) ?_
                | split

theorem onCuCtlCntClr_keeps (k : Fin 8192) (tee : Bool) (s : State) : Keeps 0x67fff s (onCuCtlCntClr k tee s) := by
  unfold onCuCtlCntClr
  try simp -proj -iota -beta -eta only []
  repeat' first | with_reducible exact Keeps.refl _ | with_reducible refine (State.oneWrite_keeps ..).after ?_ rfl
                | with_reducible refine Keeps.ite (fun _ => ?_) (fun _ => ?_)

theorem onMuCtlCntClr_keeps (k : Fin 8192) (tee : Bool) (s : State) : Keeps 0x67fff s (onMuCtlCntClr k tee s) := by
  unfold onMuCtlCntClr
  try simp -proj -iota -beta -eta only []
  repeat' first | with_reducible exact Keeps.refl _ | with_reducible refine (State.oneWrite_keeps ..).after ?_ rfl
                | with_reducible refine Keeps.ite (fun _ => ?_) (fun _ => ?_)

theorem onMillCtlCntClr_keeps (tee : Bool) (s : State) : Keeps 0x67fff s (onMillCtlCntClr tee s) := by
  unfold onMillCtlCntClr
  try simp -proj -iota -beta -eta only []
  repeat' first | with_reducible exact Keeps.refl _ | with_reducible refine (State.oneWrite_keeps ..).after ?_ rfl

theorem onMemCtlCntClr_keeps (tee : Bool) (s : State) : Keeps 0x67fff s (onMemCtlCntClr tee s) := by
  unfold onMemCtlCntClr
  try simp -proj -iota -beta -eta only []
  repeat' first | with_reducible exact Keeps.refl _ | with_reducible refine (State.oneWrite_keeps ..).after ?_ rfl

theorem onCxlCtlCntClr_keeps (tee : Bool) (s : State) : Keeps 0x67fff s (onCxlCtlCntClr tee s) := by
  unfold onCxlCtlCntClr
  try simp -proj -iota -beta -eta only []
  repeat' first | with_reducible exact Keeps.refl _ | with_reducible refine (State.oneWrite_keeps ..).after ?_ rfl

theorem onCageCtlCntClr_keeps (tee : Bool) (s : State) : Keeps 0x67fff s (onCageCtlCntClr tee s) := by
  unfold onCageCtlCntClr
  try simp -proj -iota -beta -eta only []
  repeat' first | with_reducible exact Keeps.refl _ | with_reducible refine (State.oneWrite_keeps ..).after ?_ rfl

theorem onPortCtlCntClr_keeps (p : Fin 12) (tee : Bool) (s : State) : Keeps 0x67fff s (onPortCtlCntClr p tee s) := by
  unfold onPortCtlCntClr
  try simp -proj -iota -beta -eta only []
  repeat' first | with_reducible exact Keeps.refl _ | with_reducible refine (State.oneWrite_keeps ..).after ?_ rfl

theorem onFabCfgCntClr_keeps (tee : Bool) (s : State) : Keeps 0x67fff s (onFabCfgCntClr tee s) := by
  unfold onFabCfgCntClr
  try simp -proj -iota -beta -eta only []
  repeat' first | with_reducible exact Keeps.refl _ | with_reducible refine (State.oneWrite_keeps ..).after ?_ rfl

theorem onTallyCfgCntClr_keeps (tee : Bool) (s : State) : Keeps 0x67fff s (onTallyCfgCntClr tee s) := by
  unfold onTallyCfgCntClr
  try simp -proj -iota -beta -eta only []
  repeat' first | with_reducible exact Keeps.refl _ | with_reducible refine (State.oneWrite_keeps ..).after ?_ rfl

theorem onPwrCtlCntClr_keeps (tee : Bool) (s : State) : Keeps 0x67fff s (onPwrCtlCntClr tee s) := by
  unfold onPwrCtlCntClr
  try simp -proj -iota -beta -eta only []
  repeat' first | with_reducible exact Keeps.refl _ | with_reducible refine (State.oneWrite_keeps ..).after ?_ rfl

theorem onRasCfgCntClr_keeps (tee : Bool) (s : State) : Keeps 0x67fff s (onRasCfgCntClr tee s) := by
  unfold onRasCfgCntClr
  try simp -proj -iota -beta -eta only []
  repeat' first | with_reducible exact Keeps.refl _ | with_reducible refine (State.oneWrite_keeps ..).after ?_ rfl

theorem onGlbCtlCntClr_keeps (tee : Bool) (s : State) : Keeps 0x67fff s (onGlbCtlCntClr tee s) := by
  unfold onGlbCtlCntClr
  try simp -proj -iota -beta -eta only []
  repeat' first | with_reducible exact Keeps.refl _ | with_reducible refine (State.oneWrite_keeps ..).after ?_ rfl

theorem onRingCtlEn_keeps (ring : Fin 32) (w : Word) (line : List Byte) (tee : Bool) (s : State) : Keeps 0x67fff s (onRingCtlEn ring w line tee s) := by
  unfold onRingCtlEn
  try simp -proj -iota -beta -eta only []
  repeat' first | with_reducible exact Keeps.refl _ | with_reducible refine (State.mmioWrite_keeps ..).after ?_ rfl
                | with_reducible refine Keeps.ite (fun _ => ?_) (fun _ => ?_)

theorem onEvqEn_keeps (w : Word) (tee : Bool) (s : State) : Keeps 0x67fff s (onEvqEn w tee s) := by
  unfold onEvqEn
  try simp -proj -iota -beta -eta only []
  repeat' first | with_reducible exact Keeps.refl _ | with_reducible refine (State.oneWrite_keeps ..).after ?_ rfl

theorem onJobctlHoistCfgEn_keeps (n : Fin 8) (w : Word) (tee : Bool) (s : State) : Keeps 0x67fff s (onJobctlHoistCfgEn n w tee s) := by
  unfold onJobctlHoistCfgEn
  try simp -proj -iota -beta -eta only []
  repeat' first | with_reducible exact Keeps.refl _ | with_reducible refine (State.oneWrite_keeps ..).after ?_ rfl

theorem onJobctlSluiceCfgEn_keeps (n : Fin 8) (w : Word) (tee : Bool) (s : State) : Keeps 0x67fff s (onJobctlSluiceCfgEn n w tee s) := by
  unfold onJobctlSluiceCfgEn
  try simp -proj -iota -beta -eta only []
  repeat' first | with_reducible exact Keeps.refl _ | with_reducible refine (State.oneWrite_keeps ..).after ?_ rfl

theorem onTallySetHi_keeps (w : Word) (tee : Bool) (s : State) : Keeps 0x67fff s (onTallySetHi w tee s) := by
  unfold onTallySetHi
  try simp -proj -iota -beta -eta only []
  repeat' first | with_reducible exact Keeps.refl _ | with_reducible refine (State.oneWrite_keeps ..).after ?_ rfl

theorem onDbgCtlChalNew_keeps (tee : Bool) (s : State) : Keeps 0x67fff s (onDbgCtlChalNew tee s) := by
  unfold onDbgCtlChalNew
  try simp -proj -iota -beta -eta only []
  repeat' first | with_reducible exact Keeps.refl _ | with_reducible refine (State.oneWrite_keeps ..).after ?_ rfl

theorem onDbgCtlSubmit_keeps (tee : Bool) (s : State) : Keeps 0x67fff s (onDbgCtlSubmit tee s) := by
  unfold onDbgCtlSubmit
  try simp -proj -iota -beta -eta only []
  repeat' first | with_reducible exact Keeps.refl _ | with_reducible refine (State.oneWrite_keeps ..).after ?_ rfl

theorem onRasUnitFence_keeps (k : Fin 8192) (tee : Bool) (s : State) : Keeps 0x67fff s (onRasUnitFence k tee s) := by
  unfold onRasUnitFence
  try simp -proj -iota -beta -eta only []
  repeat' first | with_reducible exact Keeps.refl _ | with_reducible refine (State.oneWrite_keeps ..).after ?_ rfl

theorem onRasUnitReturn_keeps (k : Fin 8192) (tee : Bool) (s : State) : Keeps 0x67fff s (onRasUnitReturn k tee s) := by
  unfold onRasUnitReturn
  try simp -proj -iota -beta -eta only []
  repeat' first | with_reducible exact Keeps.refl _ | with_reducible refine (State.oneWrite_keeps ..).after ?_ rfl

theorem onRasUnitRestore_keeps (k : Fin 8192) (tee : Bool) (s : State) : Keeps 0x67fff s (onRasUnitRestore k tee s) := by
  unfold onRasUnitRestore
  try simp -proj -iota -beta -eta only []
  repeat' first | with_reducible exact Keeps.refl _ | with_reducible refine (State.oneWrite_keeps ..).after ?_ rfl

theorem onFwCtlStage_keeps (len : Nat) (tee : Bool) (s : State) : Keeps 0x67fff s (onFwCtlStage len tee s) := by
  unfold onFwCtlStage
  try simp -proj -iota -beta -eta only []
  repeat' first | with_reducible exact Keeps.refl _ | with_reducible refine (State.oneWrite_keeps ..).after ?_ rfl

theorem onFwCtlActivate_keeps (tee : Bool) (s : State) : Keeps 0x67fff s (onFwCtlActivate tee s) := by
  unfold onFwCtlActivate
  try simp -proj -iota -beta -eta only []
  repeat' first | with_reducible exact Keeps.refl _ | with_reducible refine (State.oneWrite_keeps ..).after ?_ rfl

theorem onFwCtlCommit_keeps (tee : Bool) (s : State) : Keeps 0x67fff s (onFwCtlCommit tee s) := by
  unfold onFwCtlCommit
  try simp -proj -iota -beta -eta only []
  repeat' first | with_reducible exact Keeps.refl _ | with_reducible refine (State.oneWrite_keeps ..).after ?_ rfl

theorem onFwCtlRecover_keeps (s : State) : Keeps 0x20 s (onFwCtlRecover s) := by
  unfold onFwCtlRecover
  try simp -proj -iota -beta -eta only []
  repeat' first | with_reducible exact Keeps.refl _ | with_reducible refine (State.fwRecover_keeps ..).after ?_ rfl

theorem onPowerSet_keeps (d : Desc) (s : State) : Keeps 0x20374 s (onPowerSet d s) := by
  unfold onPowerSet
  try simp -proj -iota -beta -eta only []
  repeat' first | exact .inl rfl | with_reducible exact .inr rfl | with_reducible apply And.intro
                | with_reducible exact clk_same rfl rfl rfl | with_reducible exact ⟨le_rfl, fun h => h⟩ | with_reducible exact fun h => h
                | with_reducible exact Keeps.refl _ | with_reducible refine (State.complete_keeps ..).after ?_ rfl
                | with_reducible refine (State.orderLost_keeps ..).after ?_ rfl
                | with_reducible refine (State.reviewClock_keeps ..).after ?_ rfl
                | with_reducible refine (State.settlePower_keeps ..).after ?_ rfl
                | with_reducible refine State.startCmd_keeps rfl _ _ _ _ _ _ (fun s st => ?_)
                | with_reducible refine Keeps.ite (fun _ => ?_) (fun _ => ?_) | split
                | (with_reducible refine Keeps.mk' ?_ ?_ ?_ ?_ ?_ ?_ ?_ ?_)

theorem onIdleExitComplete_keeps (s : State) : Keeps 0x67fff s (onIdleExitComplete s) := by
  unfold onIdleExitComplete
  try simp -proj -iota -beta -eta only []
  repeat' first | exact .inl rfl | with_reducible exact .inr rfl | with_reducible apply And.intro
                | with_reducible exact clk_same rfl rfl rfl | with_reducible exact ⟨le_rfl, fun h => h⟩ | with_reducible exact fun h => h
                | with_reducible exact Keeps.refl _ | with_reducible refine (State.accessBank_keeps ..).after ?_ rfl
                | with_reducible refine (State.flowWake_keeps ..).after ?_ rfl
                | with_reducible refine (State.fabTransit_keeps ..).after ?_ rfl
                | with_reducible refine (State.hostMem_keeps ..).after ?_ rfl
                | with_reducible refine (State.spadAccess_keeps ..).after ?_ rfl
                | with_reducible refine (State.mmioWrite_keeps ..).after ?_ rfl
                | with_reducible refine Keeps.ite (fun _ => ?_) (fun _ => ?_) | with_reducible refine Keeps.foldl _ _ _ _ (fun s x => ?_) ?_
                | split | (with_reducible refine Keeps.mk' ?_ ?_ ?_ ?_ ?_ ?_ ?_ ?_)

theorem onJtagIdcode_keeps (s : State) : Keeps 0x28000 s (onJtagIdcode s) := by
  unfold onJtagIdcode
  try simp -proj -iota -beta -eta only []
  repeat' first | exact .inl rfl | with_reducible exact .inr rfl | with_reducible apply And.intro
                | with_reducible exact clk_same rfl rfl rfl | with_reducible exact ⟨le_rfl, fun h => h⟩ | with_reducible exact fun h => h
                | with_reducible exact Keeps.refl _ | with_reducible refine (State.emit_keeps ..).after ?_ rfl
                | with_reducible refine Keeps.ite (fun _ => ?_) (fun _ => ?_) | (with_reducible refine Keeps.mk' ?_ ?_ ?_ ?_ ?_ ?_ ?_ ?_)

theorem onJtagBypass_keeps (s : State) : Keeps 0x8000 s (onJtagBypass s) := by
  unfold onJtagBypass
  try simp -proj -iota -beta -eta only []
  repeat' first | exact .inl rfl | with_reducible exact .inr rfl | with_reducible apply And.intro
                | with_reducible exact clk_same rfl rfl rfl | with_reducible exact ⟨le_rfl, fun h => h⟩ | with_reducible exact fun h => h
                | with_reducible exact Keeps.refl _ | with_reducible refine Keeps.ite (fun _ => ?_) (fun _ => ?_)
                | (with_reducible refine Keeps.mk' ?_ ?_ ?_ ?_ ?_ ?_ ?_ ?_)

theorem onJtagSamplePreload_keeps (lands load : List Bool) (s : State) : Keeps 0x38000 s (onJtagSamplePreload lands load s) := by
  unfold onJtagSamplePreload
  try simp -proj -iota -beta -eta only []
  repeat' first | exact .inl rfl | with_reducible exact .inr rfl | with_reducible apply And.intro
                | with_reducible exact clk_same rfl rfl rfl | with_reducible exact ⟨le_rfl, fun h => h⟩ | with_reducible exact fun h => h
                | with_reducible exact Keeps.refl _ | with_reducible refine (State.emit_keeps ..).after ?_ rfl
                | with_reducible refine Keeps.ite (fun _ => ?_) (fun _ => ?_) | (with_reducible refine Keeps.mk' ?_ ?_ ?_ ?_ ?_ ?_ ?_ ?_)

theorem onJtagExtest_keeps (s : State) : Keeps 0x28000 s (onJtagExtest s) := by
  unfold onJtagExtest
  try simp -proj -iota -beta -eta only []
  repeat' first | exact .inl rfl | with_reducible exact .inr rfl | with_reducible apply And.intro
                | with_reducible exact clk_same rfl rfl rfl | with_reducible exact ⟨le_rfl, fun h => h⟩ | with_reducible exact fun h => h
                | with_reducible exact Keeps.refl _ | with_reducible refine (State.emit_keeps ..).after ?_ rfl
                | with_reducible refine Keeps.ite (fun _ => ?_) (fun _ => ?_) | (with_reducible refine Keeps.mk' ?_ ?_ ?_ ?_ ?_ ?_ ?_ ?_)

/-! ### Flow -/

theorem onTokenArrival_keeps (n : Nat) (fault : TokenFault) (s : State) : Keeps 0x27364 s (onTokenArrival n fault s) := by
  unfold onTokenArrival
  simp -proj -iota -beta -eta only []
  split
  · exact Keeps.refl _
  rename_i f _
  refine Keeps.ite (fun _ => Keeps.refl _) (fun _ => ?_)
  have gone : ∀ u : State, Keeps 0x27364 u { u with flow := { u.flow with flights := u.flow.flights.eraseIdx n } } := fun u =>
    ⟨Within.ofAny fun f => by cases f <;> first | exact .inl rfl | exact .inr rfl, rfl, ⟨le_rfl, fun h => h⟩, fun h => h, fun h => h, fun h => h, fun h => h, fun h => h⟩
  split
  · exact (State.killDrop_keeps ..).after (gone s) rfl
  refine Keeps.ite (fun _ => (State.killDrop_keeps ..).after (gone s) rfl) (fun _ => ?_)
  split
  · split
    · exact (State.jobFault_keeps ..).after (gone s) rfl
    · exact (State.jobFault_keeps ..).after (gone s) rfl
    · split
      · exact (State.land_keeps ..).2.mono rfl
      · rename_i v hv
        have h1 := (gone v).after (((State.land_keeps ..).1.get hv).mono (p := 0x27364) rfl) rfl
        split
        all_goals
          first | refine (State.sramUe_keeps ..).after ?_ rfl | skip
          exact (State.pump_keeps ..).after ((State.fillPanels_keeps ..).after ((State.indexAll_keeps ..).after h1 rfl) rfl) rfl
  · exact (State.killDrop_keeps ..).after (gone s) rfl

theorem onPanelFillComplete_keeps (dev : Fin 8192) (region : Fin 8) (ce : Nat) (ue : Option Nat) (s : State) : Keeps 0x27364 s (onPanelFillComplete dev region ce ue s) := by
  unfold onPanelFillComplete
  try simp -proj -iota -beta -eta only []
  repeat' first | exact .inl rfl | with_reducible exact .inr rfl | with_reducible apply And.intro
                | with_reducible exact clk_same rfl rfl rfl | with_reducible exact ⟨le_rfl, fun h => h⟩ | with_reducible exact fun h => h
                | with_reducible exact Keeps.refl _ | with_reducible refine (State.bumpSite_keeps ..).after ?_ rfl
                | with_reducible refine (State.setPanel_keeps ..).after ?_ rfl | with_reducible refine (State.sramUe_keeps ..).after ?_ rfl
                | with_reducible refine Keeps.ite (fun _ => ?_) (fun _ => ?_) | split
                | (with_reducible refine Keeps.mk' ?_ ?_ ?_ ?_ ?_ ?_ ?_ ?_)

theorem onAccumulatorSwap_keeps (site : Fin 8192) (a : Fin 4) (s : State) : Keeps 0x2004 s (onAccumulatorSwap site a s) := by
  unfold onAccumulatorSwap
  try simp -proj -iota -beta -eta only []
  repeat' first | with_reducible exact Keeps.refl _ | with_reducible refine (State.bumpSite_keeps ..).after ?_ rfl
                | with_reducible refine (State.setArr_keeps ..).after ?_ rfl | with_reducible refine Keeps.ite (fun _ => ?_) (fun _ => ?_)
                | split

theorem onShadowDrain_keeps (site : Fin 8192) (a : Fin 4) (set : Bool) (ce : Nat) (ue : Option Nat) (s : State) : Keeps 0x27364 s (onShadowDrain site a set ce ue s) := by
  unfold onShadowDrain
  try simp -proj -iota -beta -eta only []
  repeat' first | with_reducible exact Keeps.refl _ | with_reducible refine (State.ceSite_keeps ..).after ?_ rfl
                | with_reducible refine (State.bumpSite_keeps ..).after ?_ rfl | with_reducible refine (State.setArr_keeps ..).after ?_ rfl
                | with_reducible refine (State.sramUe_keeps ..).after ?_ rfl | with_reducible refine (State.takeLane_keeps ..).after ?_ rfl
                | with_reducible refine (State.deliverDrain_keeps ..).after ?_ rfl
                | with_reducible refine Keeps.ite (fun _ => ?_) (fun _ => ?_) | split

theorem onTileBoundary_keeps (dev : Fin 8192) (s : State) : Keeps 0x27367 s (onTileBoundary dev s) := by
  unfold onTileBoundary
  try simp -proj -iota -beta -eta only []
  repeat' first | with_reducible exact Keeps.refl _ | with_reducible refine (State.setRun_keeps ..).after ?_ rfl
                | with_reducible refine (State.output_keeps ..).after ?_ rfl
                | with_reducible refine (State.pumpSpills_keeps ..).after ?_ rfl
                | with_reducible refine (State.setCoal_keeps ..).after ?_ rfl
                | with_reducible refine (State.flushCoal_keeps ..).after ?_ rfl
                | with_reducible refine (State.applyHeld_keeps ..).after ?_ rfl
                | with_reducible refine (State.rearmDue_keeps ..).after ?_ rfl
                | with_reducible refine (State.closeCanaries_keeps ..).after ?_ rfl
                | with_reducible refine Keeps.ite (fun _ => ?_) (fun _ => ?_) | with_reducible refine Keeps.foldl _ _ _ _ (fun s x => ?_) ?_
                | split

theorem onCoalHoldExpiry_keeps (dev : Fin 8192) (s : State) : Keeps 0x27364 s (onCoalHoldExpiry dev s) := by
  unfold onCoalHoldExpiry
  try simp -proj -iota -beta -eta only []
  repeat' first | with_reducible exact Keeps.refl _ | with_reducible refine (State.flushCoal_keeps ..).after ?_ rfl
                | with_reducible refine Keeps.ite (fun _ => ?_) (fun _ => ?_) | split

theorem onSpillReturn_keeps (site : Fin 8192) (ring : Fin 32) (ce : Nat) (s : State) : Keeps 0x27364 s (onSpillReturn site ring ce s) := by
  unfold onSpillReturn
  try simp -proj -iota -beta -eta only []
  repeat' first | with_reducible exact Keeps.refl _ | with_reducible refine (State.spillReturn_keeps ..).after ?_ rfl

theorem onRingCreditReturn_keeps (site : Fin 8192) (ring : Fin 32) (s : State) : Keeps 0x2000 s (onRingCreditReturn site ring s) := by
  unfold onRingCreditReturn
  try simp -proj -iota -beta -eta only []
  repeat' first | with_reducible exact Keeps.refl _ | with_reducible refine (State.setRng_keeps ..).after ?_ rfl
                | with_reducible refine (State.pump_keeps ..).after ?_ rfl | with_reducible refine Keeps.ite (fun _ => ?_) (fun _ => ?_)
                | split

theorem onBankIdleEntry_keeps (site : Fin 8192) (b : Fin 32) (s : State) : Keeps 0x2004 s (onBankIdleEntry site b s) := by
  unfold onBankIdleEntry
  try simp -proj -iota -beta -eta only []
  repeat' first | with_reducible exact Keeps.refl _ | with_reducible refine (State.bumpSite_keeps ..).after ?_ rfl
                | with_reducible refine (State.setBank_keeps ..).after ?_ rfl | with_reducible refine Keeps.ite (fun _ => ?_) (fun _ => ?_)

theorem onBankRetainEntry_keeps (site : Fin 8192) (b : Fin 32) (s : State) : Keeps 0x27f64 s (onBankRetainEntry site b s) := by
  unfold onBankRetainEntry
  try simp -proj -iota -beta -eta only []
  repeat' first | with_reducible exact Keeps.refl _ | with_reducible refine (State.setBank_keeps ..).after ?_ rfl
                | with_reducible refine Keeps.ite (fun _ => ?_) (fun _ => ?_) | split

theorem onBankWake_keeps (site : Fin 8192) (b : Fin 32) (s : State) : Keeps 0x27364 s (onBankWake site b s) := by
  unfold onBankWake
  try simp -proj -iota -beta -eta only []
  repeat' first | exact .inl rfl | with_reducible exact .inr rfl | with_reducible apply And.intro
                | with_reducible exact clk_same rfl rfl rfl | with_reducible exact ⟨le_rfl, fun h => h⟩ | with_reducible exact fun h => h
                | with_reducible exact Keeps.refl _ | with_reducible refine (State.setBank_keeps ..).after ?_ rfl
                | with_reducible refine (State.spadAccess_keeps ..).after ?_ rfl
                | with_reducible refine Keeps.ite (fun _ => ?_) (fun _ => ?_) | with_reducible refine Keeps.foldl _ _ _ _ (fun s x => ?_) ?_
                | split | (with_reducible refine Keeps.mk' ?_ ?_ ?_ ?_ ?_ ?_ ?_ ?_)

theorem onMuckerPageScrubbed_keeps (site : Fin 8192) (pg : Fin 512) (s : State) : Keeps 0x2004 s (onMuckerPageScrubbed site pg s) := by
  unfold onMuckerPageScrubbed
  try simp -proj -iota -beta -eta only []
  repeat' first | with_reducible exact Keeps.refl _ | with_reducible refine (State.scrubPage_keeps ..).after ?_ rfl
                | with_reducible refine Keeps.ite (fun _ => ?_) (fun _ => ?_)

theorem onWatchdogExpiry_keeps (n : Fin 8) (s : State) : Keeps 0x21364 s (onWatchdogExpiry n s) := by
  unfold onWatchdogExpiry
  try simp -proj -iota -beta -eta only []
  repeat' first | with_reducible exact Keeps.refl _ | with_reducible refine (State.setSlot_keeps ..).after ?_ rfl
                | with_reducible refine (State.raise_keeps ..).after ?_ rfl | with_reducible refine Keeps.ite (fun _ => ?_) (fun _ => ?_)

/-! ### SurveyLoad -/

theorem onSurveyLoad_keeps (d : Desc) (view : HostView) (s : State) : Keeps 0x23fe4 s (onSurveyLoad d view s) := by
  unfold onSurveyLoad
  try simp -proj -iota -beta -eta only []
  repeat' first | with_reducible exact Keeps.refl _ | with_reducible refine (State.complete_keeps ..).after ?_ rfl
                | with_reducible refine (State.orderLost_keeps ..).after ?_ rfl
                | with_reducible refine State.startCmd_keeps rfl _ _ _ _ _ _ (fun s st => ?_)
                | with_reducible refine (State.checkLoad_keeps ..).after ?_ rfl
                | with_reducible refine Keeps.ite (fun _ => ?_) (fun _ => ?_)

theorem onSurveyLoadComplete_keeps (view : HostView) (s : State) : Keeps 0x23fed s (onSurveyLoadComplete view s) := by
  unfold onSurveyLoadComplete
  try simp -proj -iota -beta -eta only []
  repeat' first | with_reducible exact Keeps.refl _ | with_reducible refine (State.complete_keeps ..).after ?_ rfl
                | with_reducible refine (State.recheckTables_keeps ..).after ?_ rfl
                | with_reducible refine (State.checkLoad_keeps ..).after ?_ rfl
                | with_reducible refine (State.placeSurvey_keeps ..).after ?_ rfl
                | with_reducible refine (State.dropLoad_keeps ..).after ?_ rfl | with_reducible refine Keeps.ite (fun _ => ?_) (fun _ => ?_)
                | split

/-! ### Steps -/

theorem onRunStep_keeps (d : Desc) (s : State) : Keeps 0x23364 s (onRunStep d s) := by
  unfold onRunStep
  try simp -proj -iota -beta -eta only []
  repeat' first | with_reducible exact Keeps.refl _ | with_reducible refine (State.setSlot_keeps ..).after ?_ rfl
                | with_reducible refine (State.complete_keeps ..).after ?_ rfl
                | with_reducible refine (State.orderLost_keeps ..).after ?_ rfl
                | with_reducible refine State.startCmd_keeps rfl _ _ _ _ _ _ (fun s st => ?_)
                | with_reducible refine (State.sendStarts_keeps ..).after ?_ rfl
                | with_reducible refine Keeps.ite (fun _ => ?_) (fun _ => ?_)

theorem onRunStepComplete_keeps (n : Fin 8) (s : State) : Keeps 0x23f04 s (onRunStepComplete n s) := by
  unfold onRunStepComplete
  try simp -proj -iota -beta -eta only []
  repeat' first | with_reducible exact Keeps.refl _ | with_reducible refine (State.complete_keeps ..).after ?_ rfl
                | with_reducible refine (State.flushTails_keeps ..).after ?_ rfl
                | with_reducible refine (State.retireStep_keeps ..).after ?_ rfl
                | with_reducible refine Keeps.ite (fun _ => ?_) (fun _ => ?_) | split

theorem onSetStepParams_keeps (d : Desc) (view : HostView) (s : State) : Keeps 0x21fe4 s (onSetStepParams d view s) := by
  unfold onSetStepParams
  try simp -proj -iota -beta -eta only []
  repeat' first | with_reducible exact Keeps.refl _ | with_reducible refine (State.complete_keeps ..).after ?_ rfl
                | with_reducible refine State.startCmd_keeps rfl _ _ _ _ _ _ (fun s st => ?_)
                | with_reducible refine (State.takeParams_keeps ..).after ?_ rfl
                | with_reducible refine Keeps.ite (fun _ => ?_) (fun _ => ?_) | split

theorem onRearmStream_keeps (d : Desc) (s : State) : Keeps 0x22324 s (onRearmStream d s) := by
  unfold onRearmStream
  try simp -proj -iota -beta -eta only []
  repeat' first | with_reducible exact Keeps.refl _ | with_reducible refine (State.complete_keeps ..).after ?_ rfl
                | with_reducible refine (State.setStream_keeps ..).after ?_ rfl
                | with_reducible refine State.startCmd_keeps rfl _ _ _ _ _ _ (fun s st => ?_)
                | with_reducible refine Keeps.ite (fun _ => ?_) (fun _ => ?_) | split

/-! ### Hoist -/

theorem onHoistGatherRequest_keeps (n : Fin 8) (layer : Nat) (kind : GatherKind) (newer : Bool) (s : State) : Keeps 0x27004 s (onHoistGatherRequest n layer kind newer s) := by
  unfold onHoistGatherRequest
  try simp -proj -iota -beta -eta only []
  repeat' first | with_reducible exact Keeps.refl _ | with_reducible refine (State.setSlot_keeps ..).after ?_ rfl
                | with_reducible refine (State.beginCopies_keeps ..).after ?_ rfl
                | with_reducible refine (State.askShard_keeps ..).after ?_ rfl | with_reducible refine Keeps.ite (fun _ => ?_) (fun _ => ?_)
                | with_reducible refine Keeps.foldl _ _ _ _ (fun s x => ?_) ?_ | split

theorem onStagingChunkCredit_keeps (n : Fin 8) (chunk : Nat) (s : State) : Keeps 0x27f64 s (onStagingChunkCredit n chunk s) := by
  unfold onStagingChunkCredit
  try simp -proj -iota -beta -eta only []
  repeat' first | exact .inl rfl | with_reducible exact .inr rfl | with_reducible apply And.intro
                | with_reducible exact clk_same rfl rfl rfl | with_reducible exact ⟨le_rfl, fun h => h⟩ | with_reducible exact fun h => h
                | with_reducible exact Keeps.refl _ | with_reducible refine (State.pumpStage_keeps ..).after ?_ rfl
                | with_reducible refine (State.spillPieces_keeps ..).after ?_ rfl
                | with_reducible refine Keeps.ite (fun _ => ?_) (fun _ => ?_) | (with_reducible refine Keeps.mk' ?_ ?_ ?_ ?_ ?_ ?_ ?_ ?_)

theorem onGatherRspReceive_keeps (s : State) : Keeps 0x67f64 s (onGatherRspReceive s) := by
  unfold onGatherRspReceive
  try simp -proj -iota -beta -eta only []
  repeat' first | with_reducible exact Keeps.refl _ | with_reducible refine (State.deliver_keeps ..).after ?_ rfl
                | with_reducible refine (State.countLevels_keeps ..).after ?_ rfl
                | with_reducible refine (State.gatherData_keeps ..).after ?_ rfl
                | with_reducible refine (State.gatherEnd_keeps ..).after ?_ rfl
                | with_reducible refine Keeps.ite (fun _ => ?_) (fun _ => ?_) | split

theorem onGatherReadServe_keeps (level : Fin 4) (err : HbmErrors) (s : State) : Keeps 0x67f64 s (onGatherReadServe level err s) := by
  unfold onGatherReadServe
  simp -proj -iota -beta -eta only []
  refine Keeps.ite (fun _ => Keeps.refl _) (fun _ => ?_)
  split
  · rename_i b t h
    have ht : Keeps 0x67f64 s t := by
      obtain ⟨r, -, hr⟩ := List.exists_of_findSome?_eq_some h
      obtain ⟨u, hu, e⟩ := Option.map_eq_some_iff.1 hr
      cases e
      exact ((State.serve_keeps _ r).get hu).after ((State.foundErrors_keeps ..).mono rfl) rfl
    exact Keeps.ite (fun _ => ht.setFlow rfl) (fun _ => ht)
  · exact Keeps.refl _

theorem onAmaxExchange_keeps (s : State) : Keeps 0x67f64 s (onAmaxExchange s) := by
  unfold onAmaxExchange
  try simp -proj -iota -beta -eta only []
  repeat' first | exact .inl rfl | with_reducible exact .inr rfl | with_reducible apply And.intro
                | with_reducible exact clk_same rfl rfl rfl | with_reducible exact ⟨le_rfl, fun h => h⟩ | with_reducible exact fun h => h
                | with_reducible exact Keeps.refl _ | with_reducible refine (State.answer_keeps ..).after ?_ rfl
                | with_reducible refine (State.emitCopy_keeps ..).after ?_ rfl | with_reducible refine Keeps.ite (fun _ => ?_) (fun _ => ?_)
                | split | (with_reducible refine Keeps.mk' ?_ ?_ ?_ ?_ ?_ ?_ ?_ ?_)

theorem onGatherReqReceive_keeps (s : State) : Keeps 0x26004 s (onGatherReqReceive s) := by
  unfold onGatherReqReceive
  try simp -proj -iota -beta -eta only []
  repeat' first | exact .inl rfl | with_reducible exact .inr rfl | with_reducible apply And.intro
                | with_reducible exact clk_same rfl rfl rfl | with_reducible exact ⟨le_rfl, fun h => h⟩ | with_reducible exact fun h => h
                | with_reducible exact Keeps.refl _ | with_reducible refine (State.deliver_keeps ..).after ?_ rfl
                | with_reducible refine (State.sendError_keeps ..).after ?_ rfl
                | with_reducible refine Keeps.ite (fun _ => ?_) (fun _ => ?_) | split
                | (with_reducible refine Keeps.mk' ?_ ?_ ?_ ?_ ?_ ?_ ?_ ?_)

theorem onLeaseExpiry_keeps (s : State) : Keeps 0x2004 s (onLeaseExpiry s) := by
  unfold onLeaseExpiry
  try simp -proj -iota -beta -eta only []
  repeat' first | exact .inl rfl | with_reducible exact .inr rfl | with_reducible apply And.intro
                | with_reducible exact clk_same rfl rfl rfl | with_reducible exact ⟨le_rfl, fun h => h⟩ | with_reducible exact fun h => h
                | with_reducible exact Keeps.refl _ | with_reducible refine (State.bump_keeps ..).after ?_ rfl | split
                | (with_reducible refine Keeps.mk' ?_ ?_ ?_ ?_ ?_ ?_ ?_ ?_)

theorem onLeaseClose_keeps (s : State) : Keeps 0x26004 s (onLeaseClose s) := by
  unfold onLeaseClose
  try simp -proj -iota -beta -eta only []
  repeat' first | with_reducible exact Keeps.refl _ | with_reducible refine (State.closeLease_keeps ..).after ?_ rfl
                | with_reducible refine (State.deliver_keeps ..).after ?_ rfl | with_reducible refine Keeps.ite (fun _ => ?_) (fun _ => ?_)
                | split

theorem onLeaseRevoke_keeps (s : State) : Keeps 0x26004 s (onLeaseRevoke s) := by
  unfold onLeaseRevoke
  try simp -proj -iota -beta -eta only []
  repeat' first | with_reducible exact Keeps.refl _ | with_reducible refine (State.deliver_keeps ..).after ?_ rfl
                | with_reducible refine (State.revoke_keeps ..).after ?_ rfl | with_reducible refine Keeps.ite (fun _ => ?_) (fun _ => ?_)
                | split

theorem onHoistTableCheckComplete_keeps (n : Fin 8) (err : HbmErrors) (s : State) : Keeps 0x27b65 s (onHoistTableCheckComplete n err s) := by
  unfold onHoistTableCheckComplete
  try simp -proj -iota -beta -eta only []
  repeat' first | with_reducible exact Keeps.refl _ | with_reducible refine (State.setRf_keeps ..).after ?_ rfl
                | with_reducible refine (State.setSlot_keeps ..).after ?_ rfl | with_reducible refine (State.hbmUe_keeps ..).after ?_ rfl
                | with_reducible refine (State.sealStop_keeps ..).after ?_ rfl
                | with_reducible refine (State.foundErrors_keeps ..).after ?_ rfl
                | with_reducible refine (State.spansRead_keeps ..).after ?_ rfl
                | with_reducible refine (State.endTableCheck_keeps ..).after ?_ rfl
                | with_reducible refine Keeps.ite (fun _ => ?_) (fun _ => ?_) | split

/-! ### Transport -/

theorem onFmtTransit_keeps (s : State) : Keeps 0x24004 s (onFmtTransit s) := by
  unfold onFmtTransit
  try simp -proj -iota -beta -eta only []
  repeat' first | with_reducible exact Keeps.refl _ | with_reducible refine (State.bump_keeps ..).after ?_ rfl
                | with_reducible refine (State.bumpFab_keeps ..).after ?_ rfl | with_reducible refine (State.forward_keeps ..).after ?_ rfl
                | with_reducible refine (State.dropRx_keeps ..).after ?_ rfl | with_reducible refine Keeps.ite (fun _ => ?_) (fun _ => ?_)
                | split

theorem onRateIncrease_keeps (dst : Fin 1024) (s : State) : Keeps 0x4000 s (onRateIncrease dst s) := by
  unfold onRateIncrease
  try simp -proj -iota -beta -eta only []
  repeat' first | with_reducible exact Keeps.refl _ | with_reducible refine (State.setLimiter_keeps ..).after ?_ rfl
                | with_reducible refine Keeps.ite (fun _ => ?_) (fun _ => ?_)

theorem onAckReceive_keeps (s : State) : Keeps 0x24004 s (onAckReceive s) := by
  unfold onAckReceive
  try simp -proj -iota -beta -eta only []
  repeat' first | with_reducible exact Keeps.refl _ | with_reducible refine (State.bumpFab_keeps ..).after ?_ rfl
                | with_reducible refine (State.setTxChan_keeps ..).after ?_ rfl
                | with_reducible refine (State.pumpChan_keeps ..).after ?_ rfl | with_reducible refine (State.dropRx_keeps ..).after ?_ rfl
                | with_reducible refine (State.cutRate_keeps ..).after ?_ rfl | with_reducible refine (State.resend_keeps ..).after ?_ rfl
                | with_reducible refine Keeps.ite (fun _ => ?_) (fun _ => ?_) | with_reducible refine Keeps.foldl _ _ _ _ (fun s x => ?_) ?_
                | split

theorem onAckDelayExpiry_keeps (peer : Fin 1024) (chan : Fin 256) (s : State) : Keeps 0x24004 s (onAckDelayExpiry peer chan s) := by
  unfold onAckDelayExpiry
  try simp -proj -iota -beta -eta only []
  repeat' first | with_reducible exact Keeps.refl _ | with_reducible refine (State.sendAck_keeps ..).after ?_ rfl
                | with_reducible refine Keeps.ite (fun _ => ?_) (fun _ => ?_) | split

theorem onRetransmitTimeout_keeps (peer : Fin 1024) (chan : Fin 256) (s : State) : Keeps 0x24004 s (onRetransmitTimeout peer chan s) := by
  unfold onRetransmitTimeout
  try simp -proj -iota -beta -eta only []
  repeat' first | with_reducible exact Keeps.refl _ | with_reducible refine (State.setTxChan_keeps ..).after ?_ rfl
                | with_reducible refine (State.resend_keeps ..).after ?_ rfl | with_reducible refine Keeps.ite (fun _ => ?_) (fun _ => ?_)
                | split

theorem onFmtChannelFail_keeps (peer : Fin 1024) (chan : Fin 256) (s : State) : Keeps 0x27364 s (onFmtChannelFail peer chan s) := by
  unfold onFmtChannelFail
  try simp -proj -iota -beta -eta only []
  repeat' first | with_reducible exact Keeps.refl _ | with_reducible refine (State.raise_keeps ..).after ?_ rfl
                | with_reducible refine (State.bumpFab_keeps ..).after ?_ rfl
                | with_reducible refine (State.setTxChan_keeps ..).after ?_ rfl
                | with_reducible refine (State.pumpChan_keeps ..).after ?_ rfl
                | with_reducible refine (State.jobFaultWith_keeps ..).after ?_ rfl
                | with_reducible refine (State.lose_keeps ..).after ?_ rfl | with_reducible refine Keeps.ite (fun _ => ?_) (fun _ => ?_)
                | with_reducible refine Keeps.foldl _ _ _ _ (fun s x => ?_) ?_

theorem onFmtErrorReceive_keeps (s : State) : Keeps 0x67364 s (onFmtErrorReceive s) := by
  unfold onFmtErrorReceive
  try simp -proj -iota -beta -eta only []
  repeat' first | exact .inl rfl | with_reducible exact .inr rfl | with_reducible apply And.intro
                | with_reducible exact clk_same rfl rfl rfl | with_reducible exact ⟨le_rfl, fun h => h⟩ | with_reducible exact fun h => h
                | with_reducible exact Keeps.refl _ | with_reducible refine (State.deliver_keeps ..).after ?_ rfl
                | with_reducible refine (State.remoteError_keeps ..).after ?_ rfl
                | with_reducible refine (State.gatherError_keeps ..).after ?_ rfl
                | with_reducible refine Keeps.ite (fun _ => ?_) (fun _ => ?_) | with_reducible refine Keeps.foldl _ _ _ _ (fun s x => ?_) ?_
                | split | (with_reducible refine Keeps.mk' ?_ ?_ ?_ ?_ ?_ ?_ ?_ ?_)

/-! ### Discovery -/

theorem onHelloSend_keeps (p : Fin 12) (s : State) : Keeps 0x24004 s (onHelloSend p s) := by
  unfold onHelloSend
  try simp -proj -iota -beta -eta only []
  repeat' first | with_reducible exact Keeps.refl _ | with_reducible refine (State.setPort_keeps ..).after ?_ rfl
                | with_reducible refine (State.sendLink_keeps ..).after ?_ rfl | with_reducible refine Keeps.ite (fun _ => ?_) (fun _ => ?_)

theorem onHello_keeps (s : State) : Keeps 0x24000 s (onHello s) := by
  unfold onHello
  try simp -proj -iota -beta -eta only []
  repeat' first | with_reducible exact Keeps.refl _ | with_reducible refine (State.setPort_keeps ..).after ?_ rfl
                | with_reducible refine (State.dropRx_keeps ..).after ?_ rfl
                | with_reducible refine (State.reviewElection_keeps ..).after ?_ rfl
                | with_reducible refine (State.reportLinks_keeps ..).after ?_ rfl
                | with_reducible refine Keeps.ite (fun _ => ?_) (fun _ => ?_) | split

theorem onNeighbourTimeout_keeps (p : Fin 12) (s : State) : Keeps 0x27364 s (onNeighbourTimeout p s) := by
  unfold onNeighbourTimeout
  try simp -proj -iota -beta -eta only []
  repeat' first | with_reducible exact Keeps.refl _ | with_reducible refine (State.loseNeighbours_keeps ..).after ?_ rfl
                | with_reducible refine Keeps.ite (fun _ => ?_) (fun _ => ?_)

theorem onElectionSettled_keeps (s : State) : Keeps 0x24374 s (onElectionSettled s) := by
  unfold onElectionSettled
  try simp -proj -iota -beta -eta only []
  repeat' first | exact .inl rfl | with_reducible exact .inr rfl | with_reducible apply And.intro
                | with_reducible exact clk_same rfl rfl rfl | with_reducible exact ⟨le_rfl, fun h => h⟩ | with_reducible exact fun h => h
                | with_reducible exact Keeps.refl _ | with_reducible refine (State.emit_keeps ..).after ?_ rfl
                | with_reducible refine (State.ev_keeps ..).after ?_ rfl | with_reducible refine (State.chooseParent_keeps ..).after ?_ rfl
                | with_reducible refine (State.reviewElection_keeps ..).after ?_ rfl
                | with_reducible refine Keeps.ite (fun _ => ?_) (fun _ => ?_) | split
                | (with_reducible refine Keeps.mk' ?_ ?_ ?_ ?_ ?_ ?_ ?_ ?_)

theorem onFabricNoManager_keeps (s : State) : Keeps 0x24364 s (onFabricNoManager s) := by
  unfold onFabricNoManager
  try simp -proj -iota -beta -eta only []
  repeat' first | exact .inl rfl | with_reducible exact .inr rfl | with_reducible apply And.intro
                | with_reducible exact clk_same rfl rfl rfl | with_reducible exact ⟨le_rfl, fun h => h⟩ | with_reducible exact fun h => h
                | with_reducible exact Keeps.refl _ | with_reducible refine (State.ev_keeps ..).after ?_ rfl
                | with_reducible refine Keeps.ite (fun _ => ?_) (fun _ => ?_) | split
                | (with_reducible refine Keeps.mk' ?_ ?_ ?_ ?_ ?_ ?_ ?_ ?_)

theorem onManagerLoss_keeps (s : State) : Keeps 0x4000 s (onManagerLoss s) := by
  unfold onManagerLoss
  try simp -proj -iota -beta -eta only []
  repeat' first | exact .inl rfl | with_reducible exact .inr rfl | with_reducible apply And.intro
                | with_reducible exact clk_same rfl rfl rfl | with_reducible exact ⟨le_rfl, fun h => h⟩ | with_reducible exact fun h => h
                | with_reducible exact Keeps.refl _ | with_reducible refine Keeps.ite (fun _ => ?_) (fun _ => ?_) | split
                | (with_reducible refine Keeps.mk' ?_ ?_ ?_ ?_ ?_ ?_ ?_ ?_)

theorem onMgmtFlood_keeps (s : State) : Keeps 0x24004 s (onMgmtFlood s) := by
  unfold onMgmtFlood
  try simp -proj -iota -beta -eta only []
  repeat' first | exact .inl rfl | with_reducible exact .inr rfl | with_reducible apply And.intro
                | with_reducible exact clk_same rfl rfl rfl | with_reducible exact ⟨le_rfl, fun h => h⟩ | with_reducible exact fun h => h
                | with_reducible exact Keeps.refl _ | with_reducible refine (State.dropRx_keeps ..).after ?_ rfl
                | with_reducible refine (State.sendLink_keeps ..).after ?_ rfl | with_reducible refine Keeps.ite (fun _ => ?_) (fun _ => ?_)
                | with_reducible refine Keeps.foldl _ _ _ _ (fun s x => ?_) ?_ | split
                | (with_reducible refine Keeps.mk' ?_ ?_ ?_ ?_ ?_ ?_ ?_ ?_)

theorem onAddressAssign_keeps (addr mgr : Fin 1024) (s : State) : Keeps 0x4000 s (onAddressAssign addr mgr s) := by
  unfold onAddressAssign
  try simp -proj -iota -beta -eta only []
  repeat' first | exact .inl rfl | with_reducible exact .inr rfl | with_reducible apply And.intro
                | with_reducible exact clk_same rfl rfl rfl | with_reducible exact ⟨le_rfl, fun h => h⟩ | with_reducible exact fun h => h
                | with_reducible exact Keeps.refl _ | with_reducible refine Keeps.ite (fun _ => ?_) (fun _ => ?_)
                | (with_reducible refine Keeps.mk' ?_ ?_ ?_ ?_ ?_ ?_ ?_ ?_)

theorem onRoutingTableLoad_keeps (mgr : Fin 1024) (epoch : Fin 65536) (entries : List (Fin 1024 × Word)) (s : State) : Keeps 0x24000 s (onRoutingTableLoad mgr epoch entries s) := by
  unfold onRoutingTableLoad
  try simp -proj -iota -beta -eta only []
  repeat' first | exact .inl rfl | with_reducible exact .inr rfl | with_reducible apply And.intro
                | with_reducible exact clk_same rfl rfl rfl | with_reducible exact ⟨le_rfl, fun h => h⟩ | with_reducible exact fun h => h
                | with_reducible exact Keeps.refl _ | with_reducible refine (State.toMgr_keeps ..).after ?_ rfl
                | with_reducible refine Keeps.ite (fun _ => ?_) (fun _ => ?_) | (with_reducible refine Keeps.mk' ?_ ?_ ?_ ?_ ?_ ?_ ?_ ?_)

theorem onEpochCommit_keeps (epoch : Fin 65536) (s : State) : Keeps 0x24014 s (onEpochCommit epoch s) := by
  unfold onEpochCommit
  try simp -proj -iota -beta -eta only []
  repeat' first | exact .inl rfl | with_reducible exact .inr rfl | with_reducible apply And.intro
                | with_reducible exact clk_same rfl rfl rfl | with_reducible exact ⟨le_rfl, fun h => h⟩ | with_reducible exact fun h => h
                | with_reducible exact Keeps.refl _ | with_reducible refine (State.emit_keeps ..).after ?_ rfl
                | with_reducible refine (State.commitEpoch_keeps ..).after ?_ rfl
                | with_reducible refine Keeps.ite (fun _ => ?_) (fun _ => ?_) | split
                | (with_reducible refine Keeps.mk' ?_ ?_ ?_ ?_ ?_ ?_ ?_ ?_)

theorem onEpochMark_keeps (s : State) : Keeps 0x4000 s (onEpochMark s) := by
  unfold onEpochMark
  try simp -proj -iota -beta -eta only []
  repeat' first | with_reducible exact Keeps.refl _ | with_reducible refine (State.setPort_keeps ..).after ?_ rfl
                | with_reducible refine (State.dropRx_keeps ..).after ?_ rfl | with_reducible refine Keeps.ite (fun _ => ?_) (fun _ => ?_)
                | split

theorem onTableRetire_keeps (s : State) : Keeps 0x24000 s (onTableRetire s) := by
  unfold onTableRetire
  try simp -proj -iota -beta -eta only []
  repeat' first | exact .inl rfl | with_reducible exact .inr rfl | with_reducible apply And.intro
                | with_reducible exact clk_same rfl rfl rfl | with_reducible exact ⟨le_rfl, fun h => h⟩ | with_reducible exact fun h => h
                | with_reducible exact Keeps.refl _ | with_reducible refine (State.toMgr_keeps ..).after ?_ rfl
                | with_reducible refine Keeps.ite (fun _ => ?_) (fun _ => ?_) | split
                | (with_reducible refine Keeps.mk' ?_ ?_ ?_ ?_ ?_ ?_ ?_ ?_)

theorem onEpochConfirmTimeout_keeps (missing : List (Fin 1024)) (s : State) : Keeps 0x27364 s (onEpochConfirmTimeout missing s) := by
  unfold onEpochConfirmTimeout
  try simp -proj -iota -beta -eta only []
  repeat' first | with_reducible exact Keeps.refl _ | with_reducible refine (State.lose_keeps ..).after ?_ rfl
                | with_reducible refine Keeps.ite (fun _ => ?_) (fun _ => ?_) | split

theorem onJoinReport_keeps (reports : List Report) (s : State) : Keeps 0x27364 s (onJoinReport reports s) := by
  unfold onJoinReport
  try simp -proj -iota -beta -eta only []
  repeat' first | with_reducible exact Keeps.refl _ | with_reducible refine (State.emit_keeps ..).after ?_ rfl
                | with_reducible refine (State.peerGone_keeps ..).after ?_ rfl
                | with_reducible refine (State.assignAll_keeps ..).after ?_ rfl | with_reducible refine (State.moveTo_keeps ..).after ?_ rfl
                | with_reducible refine (State.depart_keeps ..).after ?_ rfl | with_reducible refine (State.note_keeps ..).after ?_ rfl
                | with_reducible refine Keeps.ite (fun _ => ?_) (fun _ => ?_) | with_reducible refine Keeps.foldl _ _ _ _ (fun s x => ?_) ?_
                | split

theorem onPeerNew_keeps (peer : Fin 1024) (s : State) : Keeps 0x27364 s (onPeerNew peer s) := by
  unfold onPeerNew
  try simp -proj -iota -beta -eta only []
  repeat' first | with_reducible exact Keeps.refl _ | with_reducible refine (State.peerGone_keeps ..).after ?_ rfl
                | with_reducible refine Keeps.ite (fun _ => ?_) (fun _ => ?_)

theorem onPeerLost_keeps (peer : Fin 1024) (s : State) : Keeps 0x27364 s (onPeerLost peer s) := by
  unfold onPeerLost
  try simp -proj -iota -beta -eta only []
  repeat' first | with_reducible exact Keeps.refl _ | with_reducible refine (State.peerGone_keeps ..).after ?_ rfl
                | with_reducible refine Keeps.ite (fun _ => ?_) (fun _ => ?_)

theorem onMgmtJobKill_keeps (fjob : Fin 4096) (tied : List (Fin 32)) (hostKill : BitVec 8) (s : State) : Keeps 0x27f65 s (onMgmtJobKill fjob tied hostKill s) := by
  unfold onMgmtJobKill
  try simp -proj -iota -beta -eta only []
  repeat' first | with_reducible exact Keeps.refl _ | with_reducible refine (State.orderLost_keeps ..).after ?_ rfl
                | with_reducible refine (State.toMgr_keeps ..).after ?_ rfl | with_reducible refine (State.loseTies_keeps ..).after ?_ rfl
                | with_reducible refine (State.killStart_keeps ..).after ?_ rfl
                | with_reducible refine Keeps.ite (fun _ => ?_) (fun _ => ?_) | with_reducible refine Keeps.foldl _ _ _ _ (fun s x => ?_) ?_

/-! ### TimeSync -/

theorem onTallyHoldover_keeps (s : State) : Keeps 0x10 s (onTallyHoldover s) := by
  unfold onTallyHoldover
  try simp -proj -iota -beta -eta only []
  repeat' first | exact .inl rfl | with_reducible exact .inr rfl | with_reducible apply And.intro
                | with_reducible exact clk_same rfl rfl rfl | with_reducible exact ⟨le_rfl, fun h => h⟩ | with_reducible exact fun h => h
                | with_reducible exact Keeps.refl _ | with_reducible refine Keeps.ite (fun _ => ?_) (fun _ => ?_)
                | (with_reducible refine Keeps.mk' ?_ ?_ ?_ ?_ ?_ ?_ ?_ ?_)

/-! ### Ports -/

theorem onFdTrainingDone_keeps (p : Fin 12) (s : State) : Keeps 0x4000 s (onFdTrainingDone p s) := by
  unfold onFdTrainingDone
  try simp -proj -iota -beta -eta only []
  repeat' first | with_reducible exact Keeps.refl _ | with_reducible refine (State.setPort_keeps ..).after ?_ rfl
                | with_reducible refine Keeps.ite (fun _ => ?_) (fun _ => ?_)

theorem onFdAlignmentDone_keeps (p : Fin 12) (s : State) : Keeps 0x24004 s (onFdAlignmentDone p s) := by
  unfold onFdAlignmentDone
  try simp -proj -iota -beta -eta only []
  repeat' first | with_reducible exact Keeps.refl _ | with_reducible refine (State.setPort_keeps ..).after ?_ rfl
                | with_reducible refine (State.sendFlit_keeps ..).after ?_ rfl
                | with_reducible refine (State.pumpFlits_keeps ..).after ?_ rfl | with_reducible refine (State.replay_keeps ..).after ?_ rfl
                | with_reducible refine Keeps.ite (fun _ => ?_) (fun _ => ?_)

theorem onFdBringupTimeout_keeps (p : Fin 12) (s : State) : Keeps 0x4004 s (onFdBringupTimeout p s) := by
  unfold onFdBringupTimeout
  try simp -proj -iota -beta -eta only []
  repeat' first | with_reducible exact Keeps.refl _ | with_reducible refine (State.setPort_keeps ..).after ?_ rfl
                | with_reducible refine (State.bumpPort_keeps ..).after ?_ rfl | with_reducible refine Keeps.ite (fun _ => ?_) (fun _ => ?_)

theorem onDataFlitReceive_keeps (p : Fin 12) (f : RxFlit) (s : State) : Keeps 0x24024 s (onDataFlitReceive p f s) := by
  unfold onDataFlitReceive
  try simp -proj -iota -beta -eta only []
  repeat' first | with_reducible exact Keeps.refl _ | with_reducible refine (State.setPort_keeps ..).after ?_ rfl
                | with_reducible refine (State.bumpPort_keeps ..).after ?_ rfl
                | with_reducible refine (State.sendFlit_keeps ..).after ?_ rfl
                | with_reducible refine (State.pumpFlits_keeps ..).after ?_ rfl
                | with_reducible refine (State.countFec_keeps ..).after ?_ rfl
                | with_reducible refine (State.takeControl_keeps ..).after ?_ rfl
                | with_reducible refine (State.takeData_keeps ..).after ?_ rfl | with_reducible refine Keeps.ite (fun _ => ?_) (fun _ => ?_)

theorem onReplayTimeout_keeps (p : Fin 12) (s : State) : Keeps 0x24004 s (onReplayTimeout p s) := by
  unfold onReplayTimeout
  try simp -proj -iota -beta -eta only []
  repeat' first | with_reducible exact Keeps.refl _ | with_reducible refine (State.replay_keeps ..).after ?_ rfl
                | with_reducible refine Keeps.ite (fun _ => ?_) (fun _ => ?_) | split

theorem onLinkctlFlitReceive_keeps (p : Fin 12) (f : RxFlit) (s : State) : Keeps 0x24364 s (onLinkctlFlitReceive p f s) := by
  unfold onLinkctlFlitReceive
  try simp -proj -iota -beta -eta only []
  repeat' first | with_reducible exact Keeps.refl _ | with_reducible refine (State.ev_keeps ..).after ?_ rfl
                | with_reducible refine (State.setPort_keeps ..).after ?_ rfl | with_reducible refine (State.bumpPort_keeps ..).after ?_ rfl
                | with_reducible refine (State.sendFlit_keeps ..).after ?_ rfl | with_reducible refine (State.noteUp_keeps ..).after ?_ rfl
                | with_reducible refine (State.countFec_keeps ..).after ?_ rfl | with_reducible refine Keeps.ite (fun _ => ?_) (fun _ => ?_)
                | with_reducible refine Keeps.foldl _ _ _ _ (fun s x => ?_) ?_

theorem onFdRetryExhausted_keeps (p : Fin 12) (s : State) : Keeps 0x24364 s (onFdRetryExhausted p s) := by
  unfold onFdRetryExhausted
  try simp -proj -iota -beta -eta only []
  repeat' first | with_reducible exact Keeps.refl _ | with_reducible refine (State.ev_keeps ..).after ?_ rfl
                | with_reducible refine (State.setPort_keeps ..).after ?_ rfl | with_reducible refine (State.bumpPort_keeps ..).after ?_ rfl
                | with_reducible refine Keeps.ite (fun _ => ?_) (fun _ => ?_)

theorem onFdRetrainTimeout_keeps (p : Fin 12) (s : State) : Keeps 0x27364 s (onFdRetrainTimeout p s) := by
  unfold onFdRetrainTimeout
  try simp -proj -iota -beta -eta only []
  repeat' first | with_reducible exact Keeps.refl _ | with_reducible refine (State.ev_keeps ..).after ?_ rfl
                | with_reducible refine (State.setPort_keeps ..).after ?_ rfl
                | with_reducible refine (State.loseNeighbours_keeps ..).after ?_ rfl
                | with_reducible refine Keeps.ite (fun _ => ?_) (fun _ => ?_)

theorem onTimexSend_keeps (p : Fin 12) (s : State) : Keeps 0x24000 s (onTimexSend p s) := by
  unfold onTimexSend
  try simp -proj -iota -beta -eta only []
  repeat' first | with_reducible exact Keeps.refl _ | with_reducible refine (State.setPort_keeps ..).after ?_ rfl
                | with_reducible refine (State.sendFlit_keeps ..).after ?_ rfl | with_reducible refine Keeps.ite (fun _ => ?_) (fun _ => ?_)

theorem onTimexFlitReceive_keeps (p : Fin 12) (f : RxFlit) (s : State) : Keeps 0x66374 s (onTimexFlitReceive p f s) := by
  unfold onTimexFlitReceive
  try simp -proj -iota -beta -eta only []
  repeat' first | with_reducible exact Keeps.refl _ | with_reducible refine (State.setPort_keeps ..).after ?_ rfl
                | with_reducible refine (State.bumpPort_keeps ..).after ?_ rfl
                | with_reducible refine (State.pumpFlits_keeps ..).after ?_ rfl | with_reducible refine (State.sample_keeps ..).after ?_ rfl
                | with_reducible refine (State.countFec_keeps ..).after ?_ rfl
                | with_reducible refine (State.takeControl_keeps ..).after ?_ rfl
                | with_reducible refine Keeps.ite (fun _ => ?_) (fun _ => ?_)

/-! ### Mac -/

theorem onEthernetLinkUp_keeps (p : Fin 12) (s : State) : Keeps 0x4000 s (onEthernetLinkUp p s) := by
  unfold onEthernetLinkUp
  try simp -proj -iota -beta -eta only []
  repeat' first | with_reducible exact Keeps.refl _ | with_reducible refine (State.setPort_keeps ..).after ?_ rfl
                | with_reducible refine (State.noteUp_keeps ..).after ?_ rfl | with_reducible refine Keeps.ite (fun _ => ?_) (fun _ => ?_)

theorem onEthernetLinkDown_keeps (p : Fin 12) (s : State) : Keeps 0x4004 s (onEthernetLinkDown p s) := by
  unfold onEthernetLinkDown
  try simp -proj -iota -beta -eta only []
  repeat' first | with_reducible exact Keeps.refl _ | with_reducible refine (State.setPort_keeps ..).after ?_ rfl
                | with_reducible refine (State.bumpPort_keeps ..).after ?_ rfl | with_reducible refine Keeps.ite (fun _ => ?_) (fun _ => ?_)

theorem onPreemptVerify_keeps (p : Fin 12) (ok : Bool) (s : State) : Keeps 0x24364 s (onPreemptVerify p ok s) := by
  unfold onPreemptVerify
  try simp -proj -iota -beta -eta only []
  repeat' first | with_reducible exact Keeps.refl _ | with_reducible refine (State.ev_keeps ..).after ?_ rfl
                | with_reducible refine (State.setPort_keeps ..).after ?_ rfl | with_reducible refine Keeps.ite (fun _ => ?_) (fun _ => ?_)

theorem onPtpSyncSend_keeps (p : Fin 12) (s : State) : Keeps 0x4000 s (onPtpSyncSend p s) := by
  unfold onPtpSyncSend
  try simp -proj -iota -beta -eta only []
  repeat' first | with_reducible exact Keeps.refl _ | with_reducible refine (State.setPort_keeps ..).after ?_ rfl
                | with_reducible refine (State.sendPtp_keeps ..).after ?_ rfl | with_reducible refine Keeps.ite (fun _ => ?_) (fun _ => ?_)

theorem onPtpDelayReqSend_keeps (p : Fin 12) (s : State) : Keeps 0x4000 s (onPtpDelayReqSend p s) := by
  unfold onPtpDelayReqSend
  try simp -proj -iota -beta -eta only []
  repeat' first | with_reducible exact Keeps.refl _ | with_reducible refine (State.setPort_keeps ..).after ?_ rfl
                | with_reducible refine (State.sendPtp_keeps ..).after ?_ rfl | with_reducible refine Keeps.ite (fun _ => ?_) (fun _ => ?_)

theorem onFrameReceive_keeps (p : Fin 12) (f : RxFrame) (s : State) : Keeps 0x66374 s (onFrameReceive p f s) := by
  unfold onFrameReceive
  try simp -proj -iota -beta -eta only []
  repeat' first | with_reducible exact Keeps.refl _ | with_reducible refine (State.setPort_keeps ..).after ?_ rfl
                | with_reducible refine (State.bumpPort_keeps ..).after ?_ rfl
                | with_reducible refine (State.countFec_keeps ..).after ?_ rfl | with_reducible refine (State.takeIn_keeps ..).after ?_ rfl
                | with_reducible refine Keeps.ite (fun _ => ?_) (fun _ => ?_) | split

theorem onFrameTransmit_keeps (p : Fin 12) (waits : Option Nat) (s : State) : Keeps 0x24004 s (onFrameTransmit p waits s) := by
  unfold onFrameTransmit
  try simp -proj -iota -beta -eta only []
  repeat' first | with_reducible exact Keeps.refl _ | with_reducible refine (State.emit_keeps ..).after ?_ rfl
                | with_reducible refine (State.setPort_keeps ..).after ?_ rfl | with_reducible refine (State.stampPtp_keeps ..).after ?_ rfl
                | with_reducible refine (State.sent_keeps ..).after ?_ rfl | with_reducible refine (State.sendFrom_keeps ..).after ?_ rfl
                | with_reducible refine Keeps.ite (fun _ => ?_) (fun _ => ?_) | split

/-! ### Copy -/

theorem onCopy_keeps (d : Desc) (view : HostView) (err : HbmErrors) (s : State) : Keeps 0x27fe4 s (onCopy d view err s) := by
  unfold onCopy
  try simp -proj -iota -beta -eta only []
  repeat' first | with_reducible exact Keeps.refl _ | with_reducible refine (State.foundErrors_keeps ..).after ?_ rfl
                | with_reducible refine State.startCmd_keeps rfl _ _ _ _ _ _ (fun s st => ?_)
                | with_reducible refine (State.copyMove_keeps ..).after ?_ rfl | with_reducible refine (State.copyEnd_keeps ..).after ?_ rfl
                | split

theorem onCopyComplete_keeps (ring : Fin 32) (index : Nat) (view : HostView) (err : HbmErrors) (s : State) : Keeps 0x27fe4 s (onCopyComplete ring index view err s) := by
  unfold onCopyComplete
  try simp -proj -iota -beta -eta only []
  repeat' first | with_reducible exact Keeps.refl _ | with_reducible refine (State.foundErrors_keeps ..).after ?_ rfl
                | with_reducible refine (State.copyMove_keeps ..).after ?_ rfl | with_reducible refine (State.copyEnd_keeps ..).after ?_ rfl
                | with_reducible refine Keeps.ite (fun _ => ?_) (fun _ => ?_) | split

/-! ### Barrier -/

theorem onBarrier_keeps (d : Desc) (s : State) : Keeps 0x26364 s (onBarrier d s) := by
  unfold onBarrier
  try simp -proj -iota -beta -eta only []
  repeat' first | with_reducible exact Keeps.refl _ | with_reducible refine (State.complete_keeps ..).after ?_ rfl
                | with_reducible refine (State.abortBarrier_keeps ..).after ?_ rfl
                | with_reducible refine (State.powerTies_keeps ..).after ?_ rfl
                | with_reducible refine State.startCmd_keeps rfl _ _ _ _ _ _ (fun s st => ?_)
                | with_reducible refine (State.barContribute_keeps ..).after ?_ rfl
                | with_reducible refine Keeps.ite (fun _ => ?_) (fun _ => ?_) | split

theorem onBarrierTimeout_keeps (ring : Fin 32) (s : State) : Keeps 0x22304 s (onBarrierTimeout ring s) := by
  unfold onBarrierTimeout
  try simp -proj -iota -beta -eta only []
  repeat' first | with_reducible exact Keeps.refl _ | with_reducible refine (State.complete_keeps ..).after ?_ rfl
                | with_reducible refine (State.setSluice_keeps ..).after ?_ rfl
                | with_reducible refine Keeps.ite (fun _ => ?_) (fun _ => ?_) | split

theorem onBarArrive_keeps (s : State) : Keeps 0x26304 s (onBarArrive s) := by
  unfold onBarArrive
  try simp -proj -iota -beta -eta only []
  repeat' first | with_reducible exact Keeps.refl _ | with_reducible refine (State.deliver_keeps ..).after ?_ rfl
                | with_reducible refine (State.sendError_keeps ..).after ?_ rfl
                | with_reducible refine (State.barCount_keeps ..).after ?_ rfl | with_reducible refine Keeps.ite (fun _ => ?_) (fun _ => ?_)
                | split

theorem onBarRelease_keeps (s : State) : Keeps 0x26304 s (onBarRelease s) := by
  unfold onBarRelease
  try simp -proj -iota -beta -eta only []
  repeat' first | with_reducible exact Keeps.refl _ | with_reducible refine (State.deliver_keeps ..).after ?_ rfl
                | with_reducible refine (State.barRelease_keeps ..).after ?_ rfl
                | with_reducible refine Keeps.ite (fun _ => ?_) (fun _ => ?_) | split

theorem onBarAbort_keeps (s : State) : Keeps 0x26304 s (onBarAbort s) := by
  unfold onBarAbort
  try simp -proj -iota -beta -eta only []
  repeat' first | with_reducible exact Keeps.refl _ | with_reducible refine (State.abortBarrier_keeps ..).after ?_ rfl
                | with_reducible refine (State.deliver_keeps ..).after ?_ rfl | with_reducible refine Keeps.ite (fun _ => ?_) (fun _ => ?_)
                | split

end Sys2Proof.Machine
end

