-- ==== Sys2Proof/Laws/State.lean ====
section
/-! SUPPORT. What each update of one part leaves alone: one lemma per field, true by definition, so that no proof unfolds a record
update. -/
namespace Sys2Proof.Machine

@[simp] theorem State.setReg_held (s : State) (off v : Nat) : (State.setReg s off v).held = s.held := rfl
@[simp] theorem State.setReg_ctrs (s : State) (off v : Nat) : (State.setReg s off v).ctrs = s.ctrs := rfl
@[simp] theorem State.setReg_latches (s : State) (off v : Nat) : (State.setReg s off v).latches = s.latches := rfl
@[simp] theorem State.setReg_clk (s : State) (off v : Nat) : (State.setReg s off v).clk = s.clk := rfl
@[simp] theorem State.setReg_pwr (s : State) (off v : Nat) : (State.setReg s off v).pwr = s.pwr := rfl
@[simp] theorem State.setReg_ras (s : State) (off v : Nat) : (State.setReg s off v).ras = s.ras := rfl
@[simp] theorem State.setReg_sec (s : State) (off v : Nat) : (State.setReg s off v).sec = s.sec := rfl
@[simp] theorem State.setReg_cxl (s : State) (off v : Nat) : (State.setReg s off v).cxl = s.cxl := rfl
@[simp] theorem State.setReg_cage (s : State) (off v : Nat) : (State.setReg s off v).cage = s.cage := rfl
@[simp] theorem State.setReg_hbm (s : State) (off v : Nat) : (State.setReg s off v).hbm = s.hbm := rfl
@[simp] theorem State.setReg_slots (s : State) (off v : Nat) : (State.setReg s off v).slots = s.slots := rfl
@[simp] theorem State.setReg_flow (s : State) (off v : Nat) : (State.setReg s off v).flow = s.flow := rfl
@[simp] theorem State.setReg_fab (s : State) (off v : Nat) : (State.setReg s off v).fab = s.fab := rfl
@[simp] theorem State.setReg_jtag (s : State) (off v : Nat) : (State.setReg s off v).jtag = s.jtag := rfl
@[simp] theorem State.setReg_boundary (s : State) (off v : Nat) : (State.setReg s off v).boundary = s.boundary := rfl
@[simp] theorem State.setReg_pending (s : State) (off v : Nat) : (State.setReg s off v).pending = s.pending := rfl
@[simp] theorem State.setReg_out (s : State) (off v : Nat) : (State.setReg s off v).out = s.out := rfl
@[simp] theorem State.setReg_fresh (s : State) (off v : Nat) : (State.setReg s off v).fresh = s.fresh := rfl

@[simp] theorem State.emit_regs (s : State) (o : Output) : (State.emit s o).regs = s.regs := rfl
@[simp] theorem State.emit_held (s : State) (o : Output) : (State.emit s o).held = s.held := rfl
@[simp] theorem State.emit_ctrs (s : State) (o : Output) : (State.emit s o).ctrs = s.ctrs := rfl
@[simp] theorem State.emit_latches (s : State) (o : Output) : (State.emit s o).latches = s.latches := rfl
@[simp] theorem State.emit_clk (s : State) (o : Output) : (State.emit s o).clk = s.clk := rfl
@[simp] theorem State.emit_pwr (s : State) (o : Output) : (State.emit s o).pwr = s.pwr := rfl
@[simp] theorem State.emit_ras (s : State) (o : Output) : (State.emit s o).ras = s.ras := rfl
@[simp] theorem State.emit_sec (s : State) (o : Output) : (State.emit s o).sec = s.sec := rfl
@[simp] theorem State.emit_cxl (s : State) (o : Output) : (State.emit s o).cxl = s.cxl := rfl
@[simp] theorem State.emit_cage (s : State) (o : Output) : (State.emit s o).cage = s.cage := rfl
@[simp] theorem State.emit_hbm (s : State) (o : Output) : (State.emit s o).hbm = s.hbm := rfl
@[simp] theorem State.emit_slots (s : State) (o : Output) : (State.emit s o).slots = s.slots := rfl
@[simp] theorem State.emit_flow (s : State) (o : Output) : (State.emit s o).flow = s.flow := rfl
@[simp] theorem State.emit_fab (s : State) (o : Output) : (State.emit s o).fab = s.fab := rfl
@[simp] theorem State.emit_jtag (s : State) (o : Output) : (State.emit s o).jtag = s.jtag := rfl
@[simp] theorem State.emit_boundary (s : State) (o : Output) : (State.emit s o).boundary = s.boundary := rfl
@[simp] theorem State.emit_pending (s : State) (o : Output) : (State.emit s o).pending = s.pending := rfl
@[simp] theorem State.emit_fresh (s : State) (o : Output) : (State.emit s o).fresh = s.fresh := rfl

@[simp] theorem State.bump_regs (s : State) (off : Nat) (n : Nat) : (State.bump s off n).regs = s.regs := rfl
@[simp] theorem State.bump_held (s : State) (off : Nat) (n : Nat) : (State.bump s off n).held = s.held := rfl
@[simp] theorem State.bump_latches (s : State) (off : Nat) (n : Nat) : (State.bump s off n).latches = s.latches := rfl
@[simp] theorem State.bump_clk (s : State) (off : Nat) (n : Nat) : (State.bump s off n).clk = s.clk := rfl
@[simp] theorem State.bump_pwr (s : State) (off : Nat) (n : Nat) : (State.bump s off n).pwr = s.pwr := rfl
@[simp] theorem State.bump_ras (s : State) (off : Nat) (n : Nat) : (State.bump s off n).ras = s.ras := rfl
@[simp] theorem State.bump_sec (s : State) (off : Nat) (n : Nat) : (State.bump s off n).sec = s.sec := rfl
@[simp] theorem State.bump_cxl (s : State) (off : Nat) (n : Nat) : (State.bump s off n).cxl = s.cxl := rfl
@[simp] theorem State.bump_cage (s : State) (off : Nat) (n : Nat) : (State.bump s off n).cage = s.cage := rfl
@[simp] theorem State.bump_hbm (s : State) (off : Nat) (n : Nat) : (State.bump s off n).hbm = s.hbm := rfl
@[simp] theorem State.bump_slots (s : State) (off : Nat) (n : Nat) : (State.bump s off n).slots = s.slots := rfl
@[simp] theorem State.bump_flow (s : State) (off : Nat) (n : Nat) : (State.bump s off n).flow = s.flow := rfl
@[simp] theorem State.bump_fab (s : State) (off : Nat) (n : Nat) : (State.bump s off n).fab = s.fab := rfl
@[simp] theorem State.bump_jtag (s : State) (off : Nat) (n : Nat) : (State.bump s off n).jtag = s.jtag := rfl
@[simp] theorem State.bump_boundary (s : State) (off : Nat) (n : Nat) : (State.bump s off n).boundary = s.boundary := rfl
@[simp] theorem State.bump_pending (s : State) (off : Nat) (n : Nat) : (State.bump s off n).pending = s.pending := rfl
@[simp] theorem State.bump_out (s : State) (off : Nat) (n : Nat) : (State.bump s off n).out = s.out := rfl
@[simp] theorem State.bump_fresh (s : State) (off : Nat) (n : Nat) : (State.bump s off n).fresh = s.fresh := rfl

@[simp] theorem State.clearCtrs_regs (s : State) (lo hi : Nat) : (State.clearCtrs s lo hi).regs = s.regs := rfl
@[simp] theorem State.clearCtrs_held (s : State) (lo hi : Nat) : (State.clearCtrs s lo hi).held = s.held := rfl
@[simp] theorem State.clearCtrs_clk (s : State) (lo hi : Nat) : (State.clearCtrs s lo hi).clk = s.clk := rfl
@[simp] theorem State.clearCtrs_pwr (s : State) (lo hi : Nat) : (State.clearCtrs s lo hi).pwr = s.pwr := rfl
@[simp] theorem State.clearCtrs_ras (s : State) (lo hi : Nat) : (State.clearCtrs s lo hi).ras = s.ras := rfl
@[simp] theorem State.clearCtrs_sec (s : State) (lo hi : Nat) : (State.clearCtrs s lo hi).sec = s.sec := rfl
@[simp] theorem State.clearCtrs_cxl (s : State) (lo hi : Nat) : (State.clearCtrs s lo hi).cxl = s.cxl := rfl
@[simp] theorem State.clearCtrs_cage (s : State) (lo hi : Nat) : (State.clearCtrs s lo hi).cage = s.cage := rfl
@[simp] theorem State.clearCtrs_hbm (s : State) (lo hi : Nat) : (State.clearCtrs s lo hi).hbm = s.hbm := rfl
@[simp] theorem State.clearCtrs_slots (s : State) (lo hi : Nat) : (State.clearCtrs s lo hi).slots = s.slots := rfl
@[simp] theorem State.clearCtrs_flow (s : State) (lo hi : Nat) : (State.clearCtrs s lo hi).flow = s.flow := rfl
@[simp] theorem State.clearCtrs_fab (s : State) (lo hi : Nat) : (State.clearCtrs s lo hi).fab = s.fab := rfl
@[simp] theorem State.clearCtrs_jtag (s : State) (lo hi : Nat) : (State.clearCtrs s lo hi).jtag = s.jtag := rfl
@[simp] theorem State.clearCtrs_boundary (s : State) (lo hi : Nat) : (State.clearCtrs s lo hi).boundary = s.boundary := rfl
@[simp] theorem State.clearCtrs_pending (s : State) (lo hi : Nat) : (State.clearCtrs s lo hi).pending = s.pending := rfl
@[simp] theorem State.clearCtrs_out (s : State) (lo hi : Nat) : (State.clearCtrs s lo hi).out = s.out := rfl
@[simp] theorem State.clearCtrs_fresh (s : State) (lo hi : Nat) : (State.clearCtrs s lo hi).fresh = s.fresh := rfl

@[simp] theorem State.draw_regs (s : State) : (State.draw s).regs = s.regs := rfl
@[simp] theorem State.draw_held (s : State) : (State.draw s).held = s.held := rfl
@[simp] theorem State.draw_ctrs (s : State) : (State.draw s).ctrs = s.ctrs := rfl
@[simp] theorem State.draw_latches (s : State) : (State.draw s).latches = s.latches := rfl
@[simp] theorem State.draw_clk (s : State) : (State.draw s).clk = s.clk := rfl
@[simp] theorem State.draw_pwr (s : State) : (State.draw s).pwr = s.pwr := rfl
@[simp] theorem State.draw_ras (s : State) : (State.draw s).ras = s.ras := rfl
@[simp] theorem State.draw_sec (s : State) : (State.draw s).sec = s.sec := rfl
@[simp] theorem State.draw_cxl (s : State) : (State.draw s).cxl = s.cxl := rfl
@[simp] theorem State.draw_cage (s : State) : (State.draw s).cage = s.cage := rfl
@[simp] theorem State.draw_hbm (s : State) : (State.draw s).hbm = s.hbm := rfl
@[simp] theorem State.draw_slots (s : State) : (State.draw s).slots = s.slots := rfl
@[simp] theorem State.draw_flow (s : State) : (State.draw s).flow = s.flow := rfl
@[simp] theorem State.draw_fab (s : State) : (State.draw s).fab = s.fab := rfl
@[simp] theorem State.draw_jtag (s : State) : (State.draw s).jtag = s.jtag := rfl
@[simp] theorem State.draw_boundary (s : State) : (State.draw s).boundary = s.boundary := rfl
@[simp] theorem State.draw_pending (s : State) : (State.draw s).pending = s.pending := rfl
@[simp] theorem State.draw_out (s : State) : (State.draw s).out = s.out := rfl

@[simp] theorem State.setRing_regs (s : State) (k : Nat) (r : Ring) : (State.setRing s k r).regs = s.regs := rfl
@[simp] theorem State.setRing_held (s : State) (k : Nat) (r : Ring) : (State.setRing s k r).held = s.held := rfl
@[simp] theorem State.setRing_ctrs (s : State) (k : Nat) (r : Ring) : (State.setRing s k r).ctrs = s.ctrs := rfl
@[simp] theorem State.setRing_latches (s : State) (k : Nat) (r : Ring) : (State.setRing s k r).latches = s.latches := rfl
@[simp] theorem State.setRing_clk (s : State) (k : Nat) (r : Ring) : (State.setRing s k r).clk = s.clk := rfl
@[simp] theorem State.setRing_pwr (s : State) (k : Nat) (r : Ring) : (State.setRing s k r).pwr = s.pwr := rfl
@[simp] theorem State.setRing_ras (s : State) (k : Nat) (r : Ring) : (State.setRing s k r).ras = s.ras := rfl
@[simp] theorem State.setRing_sec (s : State) (k : Nat) (r : Ring) : (State.setRing s k r).sec = s.sec := rfl
@[simp] theorem State.setRing_cxl (s : State) (k : Nat) (r : Ring) : (State.setRing s k r).cxl = s.cxl := rfl
@[simp] theorem State.setRing_hbm (s : State) (k : Nat) (r : Ring) : (State.setRing s k r).hbm = s.hbm := rfl
@[simp] theorem State.setRing_slots (s : State) (k : Nat) (r : Ring) : (State.setRing s k r).slots = s.slots := rfl
@[simp] theorem State.setRing_flow (s : State) (k : Nat) (r : Ring) : (State.setRing s k r).flow = s.flow := rfl
@[simp] theorem State.setRing_fab (s : State) (k : Nat) (r : Ring) : (State.setRing s k r).fab = s.fab := rfl
@[simp] theorem State.setRing_jtag (s : State) (k : Nat) (r : Ring) : (State.setRing s k r).jtag = s.jtag := rfl
@[simp] theorem State.setRing_boundary (s : State) (k : Nat) (r : Ring) : (State.setRing s k r).boundary = s.boundary := rfl
@[simp] theorem State.setRing_pending (s : State) (k : Nat) (r : Ring) : (State.setRing s k r).pending = s.pending := rfl
@[simp] theorem State.setRing_out (s : State) (k : Nat) (r : Ring) : (State.setRing s k r).out = s.out := rfl
@[simp] theorem State.setRing_fresh (s : State) (k : Nat) (r : Ring) : (State.setRing s k r).fresh = s.fresh := rfl

@[simp] theorem State.setSlot_regs (s : State) (n : Nat) (x : Slot) : (State.setSlot s n x).regs = s.regs := rfl
@[simp] theorem State.setSlot_held (s : State) (n : Nat) (x : Slot) : (State.setSlot s n x).held = s.held := rfl
@[simp] theorem State.setSlot_ctrs (s : State) (n : Nat) (x : Slot) : (State.setSlot s n x).ctrs = s.ctrs := rfl
@[simp] theorem State.setSlot_latches (s : State) (n : Nat) (x : Slot) : (State.setSlot s n x).latches = s.latches := rfl
@[simp] theorem State.setSlot_clk (s : State) (n : Nat) (x : Slot) : (State.setSlot s n x).clk = s.clk := rfl
@[simp] theorem State.setSlot_pwr (s : State) (n : Nat) (x : Slot) : (State.setSlot s n x).pwr = s.pwr := rfl
@[simp] theorem State.setSlot_ras (s : State) (n : Nat) (x : Slot) : (State.setSlot s n x).ras = s.ras := rfl
@[simp] theorem State.setSlot_sec (s : State) (n : Nat) (x : Slot) : (State.setSlot s n x).sec = s.sec := rfl
@[simp] theorem State.setSlot_cxl (s : State) (n : Nat) (x : Slot) : (State.setSlot s n x).cxl = s.cxl := rfl
@[simp] theorem State.setSlot_cage (s : State) (n : Nat) (x : Slot) : (State.setSlot s n x).cage = s.cage := rfl
@[simp] theorem State.setSlot_hbm (s : State) (n : Nat) (x : Slot) : (State.setSlot s n x).hbm = s.hbm := rfl
@[simp] theorem State.setSlot_flow (s : State) (n : Nat) (x : Slot) : (State.setSlot s n x).flow = s.flow := rfl
@[simp] theorem State.setSlot_fab (s : State) (n : Nat) (x : Slot) : (State.setSlot s n x).fab = s.fab := rfl
@[simp] theorem State.setSlot_jtag (s : State) (n : Nat) (x : Slot) : (State.setSlot s n x).jtag = s.jtag := rfl
@[simp] theorem State.setSlot_boundary (s : State) (n : Nat) (x : Slot) : (State.setSlot s n x).boundary = s.boundary := rfl
@[simp] theorem State.setSlot_pending (s : State) (n : Nat) (x : Slot) : (State.setSlot s n x).pending = s.pending := rfl
@[simp] theorem State.setSlot_out (s : State) (n : Nat) (x : Slot) : (State.setSlot s n x).out = s.out := rfl
@[simp] theorem State.setSlot_fresh (s : State) (n : Nat) (x : Slot) : (State.setSlot s n x).fresh = s.fresh := rfl

@[simp] theorem State.setKind_regs (s : State) (serial : Nat) (k : StartedKind) : (State.setKind s serial k).regs = s.regs := rfl
@[simp] theorem State.setKind_held (s : State) (serial : Nat) (k : StartedKind) : (State.setKind s serial k).held = s.held := rfl
@[simp] theorem State.setKind_ctrs (s : State) (serial : Nat) (k : StartedKind) : (State.setKind s serial k).ctrs = s.ctrs := rfl
@[simp] theorem State.setKind_latches (s : State) (serial : Nat) (k : StartedKind) : (State.setKind s serial k).latches = s.latches := rfl
@[simp] theorem State.setKind_clk (s : State) (serial : Nat) (k : StartedKind) : (State.setKind s serial k).clk = s.clk := rfl
@[simp] theorem State.setKind_pwr (s : State) (serial : Nat) (k : StartedKind) : (State.setKind s serial k).pwr = s.pwr := rfl
@[simp] theorem State.setKind_ras (s : State) (serial : Nat) (k : StartedKind) : (State.setKind s serial k).ras = s.ras := rfl
@[simp] theorem State.setKind_sec (s : State) (serial : Nat) (k : StartedKind) : (State.setKind s serial k).sec = s.sec := rfl
@[simp] theorem State.setKind_cxl (s : State) (serial : Nat) (k : StartedKind) : (State.setKind s serial k).cxl = s.cxl := rfl
@[simp] theorem State.setKind_hbm (s : State) (serial : Nat) (k : StartedKind) : (State.setKind s serial k).hbm = s.hbm := rfl
@[simp] theorem State.setKind_slots (s : State) (serial : Nat) (k : StartedKind) : (State.setKind s serial k).slots = s.slots := rfl
@[simp] theorem State.setKind_flow (s : State) (serial : Nat) (k : StartedKind) : (State.setKind s serial k).flow = s.flow := rfl
@[simp] theorem State.setKind_fab (s : State) (serial : Nat) (k : StartedKind) : (State.setKind s serial k).fab = s.fab := rfl
@[simp] theorem State.setKind_jtag (s : State) (serial : Nat) (k : StartedKind) : (State.setKind s serial k).jtag = s.jtag := rfl
@[simp] theorem State.setKind_boundary (s : State) (serial : Nat) (k : StartedKind) : (State.setKind s serial k).boundary = s.boundary := rfl
@[simp] theorem State.setKind_pending (s : State) (serial : Nat) (k : StartedKind) : (State.setKind s serial k).pending = s.pending := rfl
@[simp] theorem State.setKind_out (s : State) (serial : Nat) (k : StartedKind) : (State.setKind s serial k).out = s.out := rfl
@[simp] theorem State.setKind_fresh (s : State) (serial : Nat) (k : StartedKind) : (State.setKind s serial k).fresh = s.fresh := rfl

@[simp] theorem State.setHbmByte_regs (s : State) (a : Nat) (v : Byte) : (State.setHbmByte s a v).regs = s.regs := rfl
@[simp] theorem State.setHbmByte_held (s : State) (a : Nat) (v : Byte) : (State.setHbmByte s a v).held = s.held := rfl
@[simp] theorem State.setHbmByte_ctrs (s : State) (a : Nat) (v : Byte) : (State.setHbmByte s a v).ctrs = s.ctrs := rfl
@[simp] theorem State.setHbmByte_latches (s : State) (a : Nat) (v : Byte) : (State.setHbmByte s a v).latches = s.latches := rfl
@[simp] theorem State.setHbmByte_clk (s : State) (a : Nat) (v : Byte) : (State.setHbmByte s a v).clk = s.clk := rfl
@[simp] theorem State.setHbmByte_pwr (s : State) (a : Nat) (v : Byte) : (State.setHbmByte s a v).pwr = s.pwr := rfl
@[simp] theorem State.setHbmByte_ras (s : State) (a : Nat) (v : Byte) : (State.setHbmByte s a v).ras = s.ras := rfl
@[simp] theorem State.setHbmByte_sec (s : State) (a : Nat) (v : Byte) : (State.setHbmByte s a v).sec = s.sec := rfl
@[simp] theorem State.setHbmByte_cxl (s : State) (a : Nat) (v : Byte) : (State.setHbmByte s a v).cxl = s.cxl := rfl
@[simp] theorem State.setHbmByte_cage (s : State) (a : Nat) (v : Byte) : (State.setHbmByte s a v).cage = s.cage := rfl
@[simp] theorem State.setHbmByte_slots (s : State) (a : Nat) (v : Byte) : (State.setHbmByte s a v).slots = s.slots := rfl
@[simp] theorem State.setHbmByte_flow (s : State) (a : Nat) (v : Byte) : (State.setHbmByte s a v).flow = s.flow := rfl
@[simp] theorem State.setHbmByte_fab (s : State) (a : Nat) (v : Byte) : (State.setHbmByte s a v).fab = s.fab := rfl
@[simp] theorem State.setHbmByte_jtag (s : State) (a : Nat) (v : Byte) : (State.setHbmByte s a v).jtag = s.jtag := rfl
@[simp] theorem State.setHbmByte_boundary (s : State) (a : Nat) (v : Byte) : (State.setHbmByte s a v).boundary = s.boundary := rfl
@[simp] theorem State.setHbmByte_pending (s : State) (a : Nat) (v : Byte) : (State.setHbmByte s a v).pending = s.pending := rfl
@[simp] theorem State.setHbmByte_out (s : State) (a : Nat) (v : Byte) : (State.setHbmByte s a v).out = s.out := rfl
@[simp] theorem State.setHbmByte_fresh (s : State) (a : Nat) (v : Byte) : (State.setHbmByte s a v).fresh = s.fresh := rfl


@[simp] theorem State.setPort_regs (s : State) (p : Nat) (x : PortState) : (State.setPort s p x).regs = s.regs := rfl
@[simp] theorem State.setPort_held (s : State) (p : Nat) (x : PortState) : (State.setPort s p x).held = s.held := rfl
@[simp] theorem State.setPort_ctrs (s : State) (p : Nat) (x : PortState) : (State.setPort s p x).ctrs = s.ctrs := rfl
@[simp] theorem State.setPort_latches (s : State) (p : Nat) (x : PortState) : (State.setPort s p x).latches = s.latches := rfl
@[simp] theorem State.setPort_clk (s : State) (p : Nat) (x : PortState) : (State.setPort s p x).clk = s.clk := rfl
@[simp] theorem State.setPort_pwr (s : State) (p : Nat) (x : PortState) : (State.setPort s p x).pwr = s.pwr := rfl
@[simp] theorem State.setPort_ras (s : State) (p : Nat) (x : PortState) : (State.setPort s p x).ras = s.ras := rfl
@[simp] theorem State.setPort_sec (s : State) (p : Nat) (x : PortState) : (State.setPort s p x).sec = s.sec := rfl
@[simp] theorem State.setPort_cxl (s : State) (p : Nat) (x : PortState) : (State.setPort s p x).cxl = s.cxl := rfl
@[simp] theorem State.setPort_cage (s : State) (p : Nat) (x : PortState) : (State.setPort s p x).cage = s.cage := rfl
@[simp] theorem State.setPort_hbm (s : State) (p : Nat) (x : PortState) : (State.setPort s p x).hbm = s.hbm := rfl
@[simp] theorem State.setPort_slots (s : State) (p : Nat) (x : PortState) : (State.setPort s p x).slots = s.slots := rfl
@[simp] theorem State.setPort_flow (s : State) (p : Nat) (x : PortState) : (State.setPort s p x).flow = s.flow := rfl
@[simp] theorem State.setPort_jtag (s : State) (p : Nat) (x : PortState) : (State.setPort s p x).jtag = s.jtag := rfl
@[simp] theorem State.setPort_boundary (s : State) (p : Nat) (x : PortState) : (State.setPort s p x).boundary = s.boundary := rfl
@[simp] theorem State.setPort_pending (s : State) (p : Nat) (x : PortState) : (State.setPort s p x).pending = s.pending := rfl
@[simp] theorem State.setPort_out (s : State) (p : Nat) (x : PortState) : (State.setPort s p x).out = s.out := rfl
@[simp] theorem State.setPort_fresh (s : State) (p : Nat) (x : PortState) : (State.setPort s p x).fresh = s.fresh := rfl

@[simp] theorem State.setTxChan_regs (s : State) (peer chan : Nat) (c : TxChan) : (State.setTxChan s peer chan c).regs = s.regs := rfl
@[simp] theorem State.setTxChan_held (s : State) (peer chan : Nat) (c : TxChan) : (State.setTxChan s peer chan c).held = s.held := rfl
@[simp] theorem State.setTxChan_ctrs (s : State) (peer chan : Nat) (c : TxChan) : (State.setTxChan s peer chan c).ctrs = s.ctrs := rfl
@[simp] theorem State.setTxChan_latches (s : State) (peer chan : Nat) (c : TxChan) : (State.setTxChan s peer chan c).latches = s.latches := rfl
@[simp] theorem State.setTxChan_clk (s : State) (peer chan : Nat) (c : TxChan) : (State.setTxChan s peer chan c).clk = s.clk := rfl
@[simp] theorem State.setTxChan_pwr (s : State) (peer chan : Nat) (c : TxChan) : (State.setTxChan s peer chan c).pwr = s.pwr := rfl
@[simp] theorem State.setTxChan_ras (s : State) (peer chan : Nat) (c : TxChan) : (State.setTxChan s peer chan c).ras = s.ras := rfl
@[simp] theorem State.setTxChan_sec (s : State) (peer chan : Nat) (c : TxChan) : (State.setTxChan s peer chan c).sec = s.sec := rfl
@[simp] theorem State.setTxChan_cxl (s : State) (peer chan : Nat) (c : TxChan) : (State.setTxChan s peer chan c).cxl = s.cxl := rfl
@[simp] theorem State.setTxChan_cage (s : State) (peer chan : Nat) (c : TxChan) : (State.setTxChan s peer chan c).cage = s.cage := rfl
@[simp] theorem State.setTxChan_hbm (s : State) (peer chan : Nat) (c : TxChan) : (State.setTxChan s peer chan c).hbm = s.hbm := rfl
@[simp] theorem State.setTxChan_slots (s : State) (peer chan : Nat) (c : TxChan) : (State.setTxChan s peer chan c).slots = s.slots := rfl
@[simp] theorem State.setTxChan_flow (s : State) (peer chan : Nat) (c : TxChan) : (State.setTxChan s peer chan c).flow = s.flow := rfl
@[simp] theorem State.setTxChan_jtag (s : State) (peer chan : Nat) (c : TxChan) : (State.setTxChan s peer chan c).jtag = s.jtag := rfl
@[simp] theorem State.setTxChan_boundary (s : State) (peer chan : Nat) (c : TxChan) : (State.setTxChan s peer chan c).boundary = s.boundary := rfl
@[simp] theorem State.setTxChan_pending (s : State) (peer chan : Nat) (c : TxChan) : (State.setTxChan s peer chan c).pending = s.pending := rfl
@[simp] theorem State.setTxChan_out (s : State) (peer chan : Nat) (c : TxChan) : (State.setTxChan s peer chan c).out = s.out := rfl
@[simp] theorem State.setTxChan_fresh (s : State) (peer chan : Nat) (c : TxChan) : (State.setTxChan s peer chan c).fresh = s.fresh := rfl

@[simp] theorem State.setSluice_regs (s : State) (c : Nat) (x : Option SluiceCtx) : (State.setSluice s c x).regs = s.regs := rfl
@[simp] theorem State.setSluice_held (s : State) (c : Nat) (x : Option SluiceCtx) : (State.setSluice s c x).held = s.held := rfl
@[simp] theorem State.setSluice_ctrs (s : State) (c : Nat) (x : Option SluiceCtx) : (State.setSluice s c x).ctrs = s.ctrs := rfl
@[simp] theorem State.setSluice_latches (s : State) (c : Nat) (x : Option SluiceCtx) : (State.setSluice s c x).latches = s.latches := rfl
@[simp] theorem State.setSluice_clk (s : State) (c : Nat) (x : Option SluiceCtx) : (State.setSluice s c x).clk = s.clk := rfl
@[simp] theorem State.setSluice_pwr (s : State) (c : Nat) (x : Option SluiceCtx) : (State.setSluice s c x).pwr = s.pwr := rfl
@[simp] theorem State.setSluice_ras (s : State) (c : Nat) (x : Option SluiceCtx) : (State.setSluice s c x).ras = s.ras := rfl
@[simp] theorem State.setSluice_sec (s : State) (c : Nat) (x : Option SluiceCtx) : (State.setSluice s c x).sec = s.sec := rfl
@[simp] theorem State.setSluice_cxl (s : State) (c : Nat) (x : Option SluiceCtx) : (State.setSluice s c x).cxl = s.cxl := rfl
@[simp] theorem State.setSluice_cage (s : State) (c : Nat) (x : Option SluiceCtx) : (State.setSluice s c x).cage = s.cage := rfl
@[simp] theorem State.setSluice_hbm (s : State) (c : Nat) (x : Option SluiceCtx) : (State.setSluice s c x).hbm = s.hbm := rfl
@[simp] theorem State.setSluice_slots (s : State) (c : Nat) (x : Option SluiceCtx) : (State.setSluice s c x).slots = s.slots := rfl
@[simp] theorem State.setSluice_fab (s : State) (c : Nat) (x : Option SluiceCtx) : (State.setSluice s c x).fab = s.fab := rfl
@[simp] theorem State.setSluice_jtag (s : State) (c : Nat) (x : Option SluiceCtx) : (State.setSluice s c x).jtag = s.jtag := rfl
@[simp] theorem State.setSluice_boundary (s : State) (c : Nat) (x : Option SluiceCtx) : (State.setSluice s c x).boundary = s.boundary := rfl
@[simp] theorem State.setSluice_pending (s : State) (c : Nat) (x : Option SluiceCtx) : (State.setSluice s c x).pending = s.pending := rfl
@[simp] theorem State.setSluice_out (s : State) (c : Nat) (x : Option SluiceCtx) : (State.setSluice s c x).out = s.out := rfl
@[simp] theorem State.setSluice_fresh (s : State) (c : Nat) (x : Option SluiceCtx) : (State.setSluice s c x).fresh = s.fresh := rfl

@[simp] theorem State.plantUe_regs (s : State) (ls : List Nat) : (State.plantUe s ls).regs = s.regs := rfl
@[simp] theorem State.plantUe_held (s : State) (ls : List Nat) : (State.plantUe s ls).held = s.held := rfl
@[simp] theorem State.plantUe_ctrs (s : State) (ls : List Nat) : (State.plantUe s ls).ctrs = s.ctrs := rfl
@[simp] theorem State.plantUe_latches (s : State) (ls : List Nat) : (State.plantUe s ls).latches = s.latches := rfl
@[simp] theorem State.plantUe_clk (s : State) (ls : List Nat) : (State.plantUe s ls).clk = s.clk := rfl
@[simp] theorem State.plantUe_pwr (s : State) (ls : List Nat) : (State.plantUe s ls).pwr = s.pwr := rfl
@[simp] theorem State.plantUe_ras (s : State) (ls : List Nat) : (State.plantUe s ls).ras = s.ras := rfl
@[simp] theorem State.plantUe_sec (s : State) (ls : List Nat) : (State.plantUe s ls).sec = s.sec := rfl
@[simp] theorem State.plantUe_cxl (s : State) (ls : List Nat) : (State.plantUe s ls).cxl = s.cxl := rfl
@[simp] theorem State.plantUe_cage (s : State) (ls : List Nat) : (State.plantUe s ls).cage = s.cage := rfl
@[simp] theorem State.plantUe_slots (s : State) (ls : List Nat) : (State.plantUe s ls).slots = s.slots := rfl
@[simp] theorem State.plantUe_flow (s : State) (ls : List Nat) : (State.plantUe s ls).flow = s.flow := rfl
@[simp] theorem State.plantUe_fab (s : State) (ls : List Nat) : (State.plantUe s ls).fab = s.fab := rfl
@[simp] theorem State.plantUe_jtag (s : State) (ls : List Nat) : (State.plantUe s ls).jtag = s.jtag := rfl
@[simp] theorem State.plantUe_boundary (s : State) (ls : List Nat) : (State.plantUe s ls).boundary = s.boundary := rfl
@[simp] theorem State.plantUe_pending (s : State) (ls : List Nat) : (State.plantUe s ls).pending = s.pending := rfl
@[simp] theorem State.plantUe_out (s : State) (ls : List Nat) : (State.plantUe s ls).out = s.out := rfl
@[simp] theorem State.plantUe_fresh (s : State) (ls : List Nat) : (State.plantUe s ls).fresh = s.fresh := rfl

@[simp] theorem State.setRun_regs (s : State) (dev : Nat) (r : StationRun) : (State.setRun s dev r).regs = s.regs := rfl
@[simp] theorem State.setRun_held (s : State) (dev : Nat) (r : StationRun) : (State.setRun s dev r).held = s.held := rfl
@[simp] theorem State.setRun_ctrs (s : State) (dev : Nat) (r : StationRun) : (State.setRun s dev r).ctrs = s.ctrs := rfl
@[simp] theorem State.setRun_latches (s : State) (dev : Nat) (r : StationRun) : (State.setRun s dev r).latches = s.latches := rfl
@[simp] theorem State.setRun_clk (s : State) (dev : Nat) (r : StationRun) : (State.setRun s dev r).clk = s.clk := rfl
@[simp] theorem State.setRun_pwr (s : State) (dev : Nat) (r : StationRun) : (State.setRun s dev r).pwr = s.pwr := rfl
@[simp] theorem State.setRun_ras (s : State) (dev : Nat) (r : StationRun) : (State.setRun s dev r).ras = s.ras := rfl
@[simp] theorem State.setRun_sec (s : State) (dev : Nat) (r : StationRun) : (State.setRun s dev r).sec = s.sec := rfl
@[simp] theorem State.setRun_cxl (s : State) (dev : Nat) (r : StationRun) : (State.setRun s dev r).cxl = s.cxl := rfl
@[simp] theorem State.setRun_cage (s : State) (dev : Nat) (r : StationRun) : (State.setRun s dev r).cage = s.cage := rfl
@[simp] theorem State.setRun_hbm (s : State) (dev : Nat) (r : StationRun) : (State.setRun s dev r).hbm = s.hbm := rfl
@[simp] theorem State.setRun_slots (s : State) (dev : Nat) (r : StationRun) : (State.setRun s dev r).slots = s.slots := rfl
@[simp] theorem State.setRun_fab (s : State) (dev : Nat) (r : StationRun) : (State.setRun s dev r).fab = s.fab := rfl
@[simp] theorem State.setRun_jtag (s : State) (dev : Nat) (r : StationRun) : (State.setRun s dev r).jtag = s.jtag := rfl
@[simp] theorem State.setRun_boundary (s : State) (dev : Nat) (r : StationRun) : (State.setRun s dev r).boundary = s.boundary := rfl
@[simp] theorem State.setRun_pending (s : State) (dev : Nat) (r : StationRun) : (State.setRun s dev r).pending = s.pending := rfl
@[simp] theorem State.setRun_out (s : State) (dev : Nat) (r : StationRun) : (State.setRun s dev r).out = s.out := rfl
@[simp] theorem State.setRun_fresh (s : State) (dev : Nat) (r : StationRun) : (State.setRun s dev r).fresh = s.fresh := rfl

@[simp] theorem State.setRng_regs (s : State) (site ring : Nat) (r : Option RingRun) : (State.setRng s site ring r).regs = s.regs := rfl
@[simp] theorem State.setRng_held (s : State) (site ring : Nat) (r : Option RingRun) : (State.setRng s site ring r).held = s.held := rfl
@[simp] theorem State.setRng_ctrs (s : State) (site ring : Nat) (r : Option RingRun) : (State.setRng s site ring r).ctrs = s.ctrs := rfl
@[simp] theorem State.setRng_latches (s : State) (site ring : Nat) (r : Option RingRun) : (State.setRng s site ring r).latches = s.latches := rfl
@[simp] theorem State.setRng_clk (s : State) (site ring : Nat) (r : Option RingRun) : (State.setRng s site ring r).clk = s.clk := rfl
@[simp] theorem State.setRng_pwr (s : State) (site ring : Nat) (r : Option RingRun) : (State.setRng s site ring r).pwr = s.pwr := rfl
@[simp] theorem State.setRng_ras (s : State) (site ring : Nat) (r : Option RingRun) : (State.setRng s site ring r).ras = s.ras := rfl
@[simp] theorem State.setRng_sec (s : State) (site ring : Nat) (r : Option RingRun) : (State.setRng s site ring r).sec = s.sec := rfl
@[simp] theorem State.setRng_cxl (s : State) (site ring : Nat) (r : Option RingRun) : (State.setRng s site ring r).cxl = s.cxl := rfl
@[simp] theorem State.setRng_cage (s : State) (site ring : Nat) (r : Option RingRun) : (State.setRng s site ring r).cage = s.cage := rfl
@[simp] theorem State.setRng_hbm (s : State) (site ring : Nat) (r : Option RingRun) : (State.setRng s site ring r).hbm = s.hbm := rfl
@[simp] theorem State.setRng_slots (s : State) (site ring : Nat) (r : Option RingRun) : (State.setRng s site ring r).slots = s.slots := rfl
@[simp] theorem State.setRng_fab (s : State) (site ring : Nat) (r : Option RingRun) : (State.setRng s site ring r).fab = s.fab := rfl
@[simp] theorem State.setRng_jtag (s : State) (site ring : Nat) (r : Option RingRun) : (State.setRng s site ring r).jtag = s.jtag := rfl
@[simp] theorem State.setRng_boundary (s : State) (site ring : Nat) (r : Option RingRun) : (State.setRng s site ring r).boundary = s.boundary := rfl
@[simp] theorem State.setRng_pending (s : State) (site ring : Nat) (r : Option RingRun) : (State.setRng s site ring r).pending = s.pending := rfl
@[simp] theorem State.setRng_out (s : State) (site ring : Nat) (r : Option RingRun) : (State.setRng s site ring r).out = s.out := rfl
@[simp] theorem State.setRng_fresh (s : State) (site ring : Nat) (r : Option RingRun) : (State.setRng s site ring r).fresh = s.fresh := rfl

@[simp] theorem State.setScratchByte_regs (s : State) (k a : Nat) (v : Byte) : (State.setScratchByte s k a v).regs = s.regs := rfl
@[simp] theorem State.setScratchByte_held (s : State) (k a : Nat) (v : Byte) : (State.setScratchByte s k a v).held = s.held := rfl
@[simp] theorem State.setScratchByte_ctrs (s : State) (k a : Nat) (v : Byte) : (State.setScratchByte s k a v).ctrs = s.ctrs := rfl
@[simp] theorem State.setScratchByte_latches (s : State) (k a : Nat) (v : Byte) : (State.setScratchByte s k a v).latches = s.latches := rfl
@[simp] theorem State.setScratchByte_clk (s : State) (k a : Nat) (v : Byte) : (State.setScratchByte s k a v).clk = s.clk := rfl
@[simp] theorem State.setScratchByte_pwr (s : State) (k a : Nat) (v : Byte) : (State.setScratchByte s k a v).pwr = s.pwr := rfl
@[simp] theorem State.setScratchByte_ras (s : State) (k a : Nat) (v : Byte) : (State.setScratchByte s k a v).ras = s.ras := rfl
@[simp] theorem State.setScratchByte_sec (s : State) (k a : Nat) (v : Byte) : (State.setScratchByte s k a v).sec = s.sec := rfl
@[simp] theorem State.setScratchByte_cxl (s : State) (k a : Nat) (v : Byte) : (State.setScratchByte s k a v).cxl = s.cxl := rfl
@[simp] theorem State.setScratchByte_cage (s : State) (k a : Nat) (v : Byte) : (State.setScratchByte s k a v).cage = s.cage := rfl
@[simp] theorem State.setScratchByte_hbm (s : State) (k a : Nat) (v : Byte) : (State.setScratchByte s k a v).hbm = s.hbm := rfl
@[simp] theorem State.setScratchByte_slots (s : State) (k a : Nat) (v : Byte) : (State.setScratchByte s k a v).slots = s.slots := rfl
@[simp] theorem State.setScratchByte_fab (s : State) (k a : Nat) (v : Byte) : (State.setScratchByte s k a v).fab = s.fab := rfl
@[simp] theorem State.setScratchByte_jtag (s : State) (k a : Nat) (v : Byte) : (State.setScratchByte s k a v).jtag = s.jtag := rfl
@[simp] theorem State.setScratchByte_boundary (s : State) (k a : Nat) (v : Byte) : (State.setScratchByte s k a v).boundary = s.boundary := rfl
@[simp] theorem State.setScratchByte_pending (s : State) (k a : Nat) (v : Byte) : (State.setScratchByte s k a v).pending = s.pending := rfl
@[simp] theorem State.setScratchByte_out (s : State) (k a : Nat) (v : Byte) : (State.setScratchByte s k a v).out = s.out := rfl
@[simp] theorem State.setScratchByte_fresh (s : State) (k a : Nat) (v : Byte) : (State.setScratchByte s k a v).fresh = s.fresh := rfl

@[simp] theorem State.setBank_regs (s : State) (site b : Nat) (x : BankState) : (State.setBank s site b x).regs = s.regs := rfl
@[simp] theorem State.setBank_held (s : State) (site b : Nat) (x : BankState) : (State.setBank s site b x).held = s.held := rfl
@[simp] theorem State.setBank_ctrs (s : State) (site b : Nat) (x : BankState) : (State.setBank s site b x).ctrs = s.ctrs := rfl
@[simp] theorem State.setBank_latches (s : State) (site b : Nat) (x : BankState) : (State.setBank s site b x).latches = s.latches := rfl
@[simp] theorem State.setBank_clk (s : State) (site b : Nat) (x : BankState) : (State.setBank s site b x).clk = s.clk := rfl
@[simp] theorem State.setBank_pwr (s : State) (site b : Nat) (x : BankState) : (State.setBank s site b x).pwr = s.pwr := rfl
@[simp] theorem State.setBank_ras (s : State) (site b : Nat) (x : BankState) : (State.setBank s site b x).ras = s.ras := rfl
@[simp] theorem State.setBank_sec (s : State) (site b : Nat) (x : BankState) : (State.setBank s site b x).sec = s.sec := rfl
@[simp] theorem State.setBank_cxl (s : State) (site b : Nat) (x : BankState) : (State.setBank s site b x).cxl = s.cxl := rfl
@[simp] theorem State.setBank_cage (s : State) (site b : Nat) (x : BankState) : (State.setBank s site b x).cage = s.cage := rfl
@[simp] theorem State.setBank_hbm (s : State) (site b : Nat) (x : BankState) : (State.setBank s site b x).hbm = s.hbm := rfl
@[simp] theorem State.setBank_slots (s : State) (site b : Nat) (x : BankState) : (State.setBank s site b x).slots = s.slots := rfl
@[simp] theorem State.setBank_fab (s : State) (site b : Nat) (x : BankState) : (State.setBank s site b x).fab = s.fab := rfl
@[simp] theorem State.setBank_jtag (s : State) (site b : Nat) (x : BankState) : (State.setBank s site b x).jtag = s.jtag := rfl
@[simp] theorem State.setBank_boundary (s : State) (site b : Nat) (x : BankState) : (State.setBank s site b x).boundary = s.boundary := rfl
@[simp] theorem State.setBank_pending (s : State) (site b : Nat) (x : BankState) : (State.setBank s site b x).pending = s.pending := rfl
@[simp] theorem State.setBank_out (s : State) (site b : Nat) (x : BankState) : (State.setBank s site b x).out = s.out := rfl
@[simp] theorem State.setBank_fresh (s : State) (site b : Nat) (x : BankState) : (State.setBank s site b x).fresh = s.fresh := rfl

@[simp] theorem State.setStore_regs (s : State) (site ctx : Nat) (m : MatchStore) : (State.setStore s site ctx m).regs = s.regs := rfl
@[simp] theorem State.setStore_held (s : State) (site ctx : Nat) (m : MatchStore) : (State.setStore s site ctx m).held = s.held := rfl
@[simp] theorem State.setStore_ctrs (s : State) (site ctx : Nat) (m : MatchStore) : (State.setStore s site ctx m).ctrs = s.ctrs := rfl
@[simp] theorem State.setStore_latches (s : State) (site ctx : Nat) (m : MatchStore) : (State.setStore s site ctx m).latches = s.latches := rfl
@[simp] theorem State.setStore_clk (s : State) (site ctx : Nat) (m : MatchStore) : (State.setStore s site ctx m).clk = s.clk := rfl
@[simp] theorem State.setStore_pwr (s : State) (site ctx : Nat) (m : MatchStore) : (State.setStore s site ctx m).pwr = s.pwr := rfl
@[simp] theorem State.setStore_ras (s : State) (site ctx : Nat) (m : MatchStore) : (State.setStore s site ctx m).ras = s.ras := rfl
@[simp] theorem State.setStore_sec (s : State) (site ctx : Nat) (m : MatchStore) : (State.setStore s site ctx m).sec = s.sec := rfl
@[simp] theorem State.setStore_cxl (s : State) (site ctx : Nat) (m : MatchStore) : (State.setStore s site ctx m).cxl = s.cxl := rfl
@[simp] theorem State.setStore_cage (s : State) (site ctx : Nat) (m : MatchStore) : (State.setStore s site ctx m).cage = s.cage := rfl
@[simp] theorem State.setStore_hbm (s : State) (site ctx : Nat) (m : MatchStore) : (State.setStore s site ctx m).hbm = s.hbm := rfl
@[simp] theorem State.setStore_slots (s : State) (site ctx : Nat) (m : MatchStore) : (State.setStore s site ctx m).slots = s.slots := rfl
@[simp] theorem State.setStore_fab (s : State) (site ctx : Nat) (m : MatchStore) : (State.setStore s site ctx m).fab = s.fab := rfl
@[simp] theorem State.setStore_jtag (s : State) (site ctx : Nat) (m : MatchStore) : (State.setStore s site ctx m).jtag = s.jtag := rfl
@[simp] theorem State.setStore_boundary (s : State) (site ctx : Nat) (m : MatchStore) : (State.setStore s site ctx m).boundary = s.boundary := rfl
@[simp] theorem State.setStore_pending (s : State) (site ctx : Nat) (m : MatchStore) : (State.setStore s site ctx m).pending = s.pending := rfl
@[simp] theorem State.setStore_out (s : State) (site ctx : Nat) (m : MatchStore) : (State.setStore s site ctx m).out = s.out := rfl
@[simp] theorem State.setStore_fresh (s : State) (site ctx : Nat) (m : MatchStore) : (State.setStore s site ctx m).fresh = s.fresh := rfl

@[simp] theorem State.setArr_regs (s : State) (site a : Nat) (x : ArrayRun) : (State.setArr s site a x).regs = s.regs := rfl
@[simp] theorem State.setArr_held (s : State) (site a : Nat) (x : ArrayRun) : (State.setArr s site a x).held = s.held := rfl
@[simp] theorem State.setArr_ctrs (s : State) (site a : Nat) (x : ArrayRun) : (State.setArr s site a x).ctrs = s.ctrs := rfl
@[simp] theorem State.setArr_latches (s : State) (site a : Nat) (x : ArrayRun) : (State.setArr s site a x).latches = s.latches := rfl
@[simp] theorem State.setArr_clk (s : State) (site a : Nat) (x : ArrayRun) : (State.setArr s site a x).clk = s.clk := rfl
@[simp] theorem State.setArr_pwr (s : State) (site a : Nat) (x : ArrayRun) : (State.setArr s site a x).pwr = s.pwr := rfl
@[simp] theorem State.setArr_ras (s : State) (site a : Nat) (x : ArrayRun) : (State.setArr s site a x).ras = s.ras := rfl
@[simp] theorem State.setArr_sec (s : State) (site a : Nat) (x : ArrayRun) : (State.setArr s site a x).sec = s.sec := rfl
@[simp] theorem State.setArr_cxl (s : State) (site a : Nat) (x : ArrayRun) : (State.setArr s site a x).cxl = s.cxl := rfl
@[simp] theorem State.setArr_cage (s : State) (site a : Nat) (x : ArrayRun) : (State.setArr s site a x).cage = s.cage := rfl
@[simp] theorem State.setArr_hbm (s : State) (site a : Nat) (x : ArrayRun) : (State.setArr s site a x).hbm = s.hbm := rfl
@[simp] theorem State.setArr_slots (s : State) (site a : Nat) (x : ArrayRun) : (State.setArr s site a x).slots = s.slots := rfl
@[simp] theorem State.setArr_fab (s : State) (site a : Nat) (x : ArrayRun) : (State.setArr s site a x).fab = s.fab := rfl
@[simp] theorem State.setArr_jtag (s : State) (site a : Nat) (x : ArrayRun) : (State.setArr s site a x).jtag = s.jtag := rfl
@[simp] theorem State.setArr_boundary (s : State) (site a : Nat) (x : ArrayRun) : (State.setArr s site a x).boundary = s.boundary := rfl
@[simp] theorem State.setArr_pending (s : State) (site a : Nat) (x : ArrayRun) : (State.setArr s site a x).pending = s.pending := rfl
@[simp] theorem State.setArr_out (s : State) (site a : Nat) (x : ArrayRun) : (State.setArr s site a x).out = s.out := rfl
@[simp] theorem State.setArr_fresh (s : State) (site a : Nat) (x : ArrayRun) : (State.setArr s site a x).fresh = s.fresh := rfl

@[simp] theorem State.setPanel_regs (s : State) (site ctx reg : Nat) (x : PanelRun) : (State.setPanel s site ctx reg x).regs = s.regs := rfl
@[simp] theorem State.setPanel_held (s : State) (site ctx reg : Nat) (x : PanelRun) : (State.setPanel s site ctx reg x).held = s.held := rfl
@[simp] theorem State.setPanel_ctrs (s : State) (site ctx reg : Nat) (x : PanelRun) : (State.setPanel s site ctx reg x).ctrs = s.ctrs := rfl
@[simp] theorem State.setPanel_latches (s : State) (site ctx reg : Nat) (x : PanelRun) : (State.setPanel s site ctx reg x).latches = s.latches := rfl
@[simp] theorem State.setPanel_clk (s : State) (site ctx reg : Nat) (x : PanelRun) : (State.setPanel s site ctx reg x).clk = s.clk := rfl
@[simp] theorem State.setPanel_pwr (s : State) (site ctx reg : Nat) (x : PanelRun) : (State.setPanel s site ctx reg x).pwr = s.pwr := rfl
@[simp] theorem State.setPanel_ras (s : State) (site ctx reg : Nat) (x : PanelRun) : (State.setPanel s site ctx reg x).ras = s.ras := rfl
@[simp] theorem State.setPanel_sec (s : State) (site ctx reg : Nat) (x : PanelRun) : (State.setPanel s site ctx reg x).sec = s.sec := rfl
@[simp] theorem State.setPanel_cxl (s : State) (site ctx reg : Nat) (x : PanelRun) : (State.setPanel s site ctx reg x).cxl = s.cxl := rfl
@[simp] theorem State.setPanel_cage (s : State) (site ctx reg : Nat) (x : PanelRun) : (State.setPanel s site ctx reg x).cage = s.cage := rfl
@[simp] theorem State.setPanel_hbm (s : State) (site ctx reg : Nat) (x : PanelRun) : (State.setPanel s site ctx reg x).hbm = s.hbm := rfl
@[simp] theorem State.setPanel_slots (s : State) (site ctx reg : Nat) (x : PanelRun) : (State.setPanel s site ctx reg x).slots = s.slots := rfl
@[simp] theorem State.setPanel_fab (s : State) (site ctx reg : Nat) (x : PanelRun) : (State.setPanel s site ctx reg x).fab = s.fab := rfl
@[simp] theorem State.setPanel_jtag (s : State) (site ctx reg : Nat) (x : PanelRun) : (State.setPanel s site ctx reg x).jtag = s.jtag := rfl
@[simp] theorem State.setPanel_boundary (s : State) (site ctx reg : Nat) (x : PanelRun) : (State.setPanel s site ctx reg x).boundary = s.boundary := rfl
@[simp] theorem State.setPanel_pending (s : State) (site ctx reg : Nat) (x : PanelRun) : (State.setPanel s site ctx reg x).pending = s.pending := rfl
@[simp] theorem State.setPanel_out (s : State) (site ctx reg : Nat) (x : PanelRun) : (State.setPanel s site ctx reg x).out = s.out := rfl
@[simp] theorem State.setPanel_fresh (s : State) (site ctx reg : Nat) (x : PanelRun) : (State.setPanel s site ctx reg x).fresh = s.fresh := rfl

@[simp] theorem State.setTails_regs (s : State) (m : Nat) (ts : List (Nat × Tail)) : (State.setTails s m ts).regs = s.regs := rfl
@[simp] theorem State.setTails_held (s : State) (m : Nat) (ts : List (Nat × Tail)) : (State.setTails s m ts).held = s.held := rfl
@[simp] theorem State.setTails_ctrs (s : State) (m : Nat) (ts : List (Nat × Tail)) : (State.setTails s m ts).ctrs = s.ctrs := rfl
@[simp] theorem State.setTails_latches (s : State) (m : Nat) (ts : List (Nat × Tail)) : (State.setTails s m ts).latches = s.latches := rfl
@[simp] theorem State.setTails_clk (s : State) (m : Nat) (ts : List (Nat × Tail)) : (State.setTails s m ts).clk = s.clk := rfl
@[simp] theorem State.setTails_pwr (s : State) (m : Nat) (ts : List (Nat × Tail)) : (State.setTails s m ts).pwr = s.pwr := rfl
@[simp] theorem State.setTails_ras (s : State) (m : Nat) (ts : List (Nat × Tail)) : (State.setTails s m ts).ras = s.ras := rfl
@[simp] theorem State.setTails_sec (s : State) (m : Nat) (ts : List (Nat × Tail)) : (State.setTails s m ts).sec = s.sec := rfl
@[simp] theorem State.setTails_cxl (s : State) (m : Nat) (ts : List (Nat × Tail)) : (State.setTails s m ts).cxl = s.cxl := rfl
@[simp] theorem State.setTails_cage (s : State) (m : Nat) (ts : List (Nat × Tail)) : (State.setTails s m ts).cage = s.cage := rfl
@[simp] theorem State.setTails_hbm (s : State) (m : Nat) (ts : List (Nat × Tail)) : (State.setTails s m ts).hbm = s.hbm := rfl
@[simp] theorem State.setTails_slots (s : State) (m : Nat) (ts : List (Nat × Tail)) : (State.setTails s m ts).slots = s.slots := rfl
@[simp] theorem State.setTails_fab (s : State) (m : Nat) (ts : List (Nat × Tail)) : (State.setTails s m ts).fab = s.fab := rfl
@[simp] theorem State.setTails_jtag (s : State) (m : Nat) (ts : List (Nat × Tail)) : (State.setTails s m ts).jtag = s.jtag := rfl
@[simp] theorem State.setTails_boundary (s : State) (m : Nat) (ts : List (Nat × Tail)) : (State.setTails s m ts).boundary = s.boundary := rfl
@[simp] theorem State.setTails_pending (s : State) (m : Nat) (ts : List (Nat × Tail)) : (State.setTails s m ts).pending = s.pending := rfl
@[simp] theorem State.setTails_out (s : State) (m : Nat) (ts : List (Nat × Tail)) : (State.setTails s m ts).out = s.out := rfl
@[simp] theorem State.setTails_fresh (s : State) (m : Nat) (ts : List (Nat × Tail)) : (State.setTails s m ts).fresh = s.fresh := rfl

@[simp] theorem State.closeLease_regs (s : State) (p : Lease → Bool) : (State.closeLease s p).regs = s.regs := rfl
@[simp] theorem State.closeLease_held (s : State) (p : Lease → Bool) : (State.closeLease s p).held = s.held := rfl
@[simp] theorem State.closeLease_ctrs (s : State) (p : Lease → Bool) : (State.closeLease s p).ctrs = s.ctrs := rfl
@[simp] theorem State.closeLease_latches (s : State) (p : Lease → Bool) : (State.closeLease s p).latches = s.latches := rfl
@[simp] theorem State.closeLease_clk (s : State) (p : Lease → Bool) : (State.closeLease s p).clk = s.clk := rfl
@[simp] theorem State.closeLease_pwr (s : State) (p : Lease → Bool) : (State.closeLease s p).pwr = s.pwr := rfl
@[simp] theorem State.closeLease_ras (s : State) (p : Lease → Bool) : (State.closeLease s p).ras = s.ras := rfl
@[simp] theorem State.closeLease_sec (s : State) (p : Lease → Bool) : (State.closeLease s p).sec = s.sec := rfl
@[simp] theorem State.closeLease_cxl (s : State) (p : Lease → Bool) : (State.closeLease s p).cxl = s.cxl := rfl
@[simp] theorem State.closeLease_cage (s : State) (p : Lease → Bool) : (State.closeLease s p).cage = s.cage := rfl
@[simp] theorem State.closeLease_hbm (s : State) (p : Lease → Bool) : (State.closeLease s p).hbm = s.hbm := rfl
@[simp] theorem State.closeLease_slots (s : State) (p : Lease → Bool) : (State.closeLease s p).slots = s.slots := rfl
@[simp] theorem State.closeLease_fab (s : State) (p : Lease → Bool) : (State.closeLease s p).fab = s.fab := rfl
@[simp] theorem State.closeLease_jtag (s : State) (p : Lease → Bool) : (State.closeLease s p).jtag = s.jtag := rfl
@[simp] theorem State.closeLease_boundary (s : State) (p : Lease → Bool) : (State.closeLease s p).boundary = s.boundary := rfl
@[simp] theorem State.closeLease_pending (s : State) (p : Lease → Bool) : (State.closeLease s p).pending = s.pending := rfl
@[simp] theorem State.closeLease_out (s : State) (p : Lease → Bool) : (State.closeLease s p).out = s.out := rfl
@[simp] theorem State.closeLease_fresh (s : State) (p : Lease → Bool) : (State.closeLease s p).fresh = s.fresh := rfl

@[simp] theorem State.flowReset_regs (s : State) : (State.flowReset s).regs = s.regs := rfl
@[simp] theorem State.flowReset_held (s : State) : (State.flowReset s).held = s.held := rfl
@[simp] theorem State.flowReset_ctrs (s : State) : (State.flowReset s).ctrs = s.ctrs := rfl
@[simp] theorem State.flowReset_latches (s : State) : (State.flowReset s).latches = s.latches := rfl
@[simp] theorem State.flowReset_clk (s : State) : (State.flowReset s).clk = s.clk := rfl
@[simp] theorem State.flowReset_pwr (s : State) : (State.flowReset s).pwr = s.pwr := rfl
@[simp] theorem State.flowReset_ras (s : State) : (State.flowReset s).ras = s.ras := rfl
@[simp] theorem State.flowReset_sec (s : State) : (State.flowReset s).sec = s.sec := rfl
@[simp] theorem State.flowReset_cxl (s : State) : (State.flowReset s).cxl = s.cxl := rfl
@[simp] theorem State.flowReset_cage (s : State) : (State.flowReset s).cage = s.cage := rfl
@[simp] theorem State.flowReset_hbm (s : State) : (State.flowReset s).hbm = s.hbm := rfl
@[simp] theorem State.flowReset_slots (s : State) : (State.flowReset s).slots = s.slots := rfl
@[simp] theorem State.flowReset_fab (s : State) : (State.flowReset s).fab = s.fab := rfl
@[simp] theorem State.flowReset_jtag (s : State) : (State.flowReset s).jtag = s.jtag := rfl
@[simp] theorem State.flowReset_boundary (s : State) : (State.flowReset s).boundary = s.boundary := rfl
@[simp] theorem State.flowReset_pending (s : State) : (State.flowReset s).pending = s.pending := rfl
@[simp] theorem State.flowReset_out (s : State) : (State.flowReset s).out = s.out := rfl
@[simp] theorem State.flowReset_fresh (s : State) : (State.flowReset s).fresh = s.fresh := rfl

@[simp] theorem State.setRxChan_regs (s : State) (peer chan : Nat) (c : RxChan) : (State.setRxChan s peer chan c).regs = s.regs := rfl
@[simp] theorem State.setRxChan_held (s : State) (peer chan : Nat) (c : RxChan) : (State.setRxChan s peer chan c).held = s.held := rfl
@[simp] theorem State.setRxChan_ctrs (s : State) (peer chan : Nat) (c : RxChan) : (State.setRxChan s peer chan c).ctrs = s.ctrs := rfl
@[simp] theorem State.setRxChan_latches (s : State) (peer chan : Nat) (c : RxChan) : (State.setRxChan s peer chan c).latches = s.latches := rfl
@[simp] theorem State.setRxChan_clk (s : State) (peer chan : Nat) (c : RxChan) : (State.setRxChan s peer chan c).clk = s.clk := rfl
@[simp] theorem State.setRxChan_pwr (s : State) (peer chan : Nat) (c : RxChan) : (State.setRxChan s peer chan c).pwr = s.pwr := rfl
@[simp] theorem State.setRxChan_ras (s : State) (peer chan : Nat) (c : RxChan) : (State.setRxChan s peer chan c).ras = s.ras := rfl
@[simp] theorem State.setRxChan_sec (s : State) (peer chan : Nat) (c : RxChan) : (State.setRxChan s peer chan c).sec = s.sec := rfl
@[simp] theorem State.setRxChan_cxl (s : State) (peer chan : Nat) (c : RxChan) : (State.setRxChan s peer chan c).cxl = s.cxl := rfl
@[simp] theorem State.setRxChan_cage (s : State) (peer chan : Nat) (c : RxChan) : (State.setRxChan s peer chan c).cage = s.cage := rfl
@[simp] theorem State.setRxChan_hbm (s : State) (peer chan : Nat) (c : RxChan) : (State.setRxChan s peer chan c).hbm = s.hbm := rfl
@[simp] theorem State.setRxChan_slots (s : State) (peer chan : Nat) (c : RxChan) : (State.setRxChan s peer chan c).slots = s.slots := rfl
@[simp] theorem State.setRxChan_flow (s : State) (peer chan : Nat) (c : RxChan) : (State.setRxChan s peer chan c).flow = s.flow := rfl
@[simp] theorem State.setRxChan_jtag (s : State) (peer chan : Nat) (c : RxChan) : (State.setRxChan s peer chan c).jtag = s.jtag := rfl
@[simp] theorem State.setRxChan_boundary (s : State) (peer chan : Nat) (c : RxChan) : (State.setRxChan s peer chan c).boundary = s.boundary := rfl
@[simp] theorem State.setRxChan_pending (s : State) (peer chan : Nat) (c : RxChan) : (State.setRxChan s peer chan c).pending = s.pending := rfl
@[simp] theorem State.setRxChan_out (s : State) (peer chan : Nat) (c : RxChan) : (State.setRxChan s peer chan c).out = s.out := rfl
@[simp] theorem State.setRxChan_fresh (s : State) (peer chan : Nat) (c : RxChan) : (State.setRxChan s peer chan c).fresh = s.fresh := rfl

@[simp] theorem State.dropRx_regs (s : State) (r : RxPacket) : (State.dropRx s r).regs = s.regs := rfl
@[simp] theorem State.dropRx_held (s : State) (r : RxPacket) : (State.dropRx s r).held = s.held := rfl
@[simp] theorem State.dropRx_ctrs (s : State) (r : RxPacket) : (State.dropRx s r).ctrs = s.ctrs := rfl
@[simp] theorem State.dropRx_latches (s : State) (r : RxPacket) : (State.dropRx s r).latches = s.latches := rfl
@[simp] theorem State.dropRx_clk (s : State) (r : RxPacket) : (State.dropRx s r).clk = s.clk := rfl
@[simp] theorem State.dropRx_pwr (s : State) (r : RxPacket) : (State.dropRx s r).pwr = s.pwr := rfl
@[simp] theorem State.dropRx_ras (s : State) (r : RxPacket) : (State.dropRx s r).ras = s.ras := rfl
@[simp] theorem State.dropRx_sec (s : State) (r : RxPacket) : (State.dropRx s r).sec = s.sec := rfl
@[simp] theorem State.dropRx_cxl (s : State) (r : RxPacket) : (State.dropRx s r).cxl = s.cxl := rfl
@[simp] theorem State.dropRx_cage (s : State) (r : RxPacket) : (State.dropRx s r).cage = s.cage := rfl
@[simp] theorem State.dropRx_hbm (s : State) (r : RxPacket) : (State.dropRx s r).hbm = s.hbm := rfl
@[simp] theorem State.dropRx_slots (s : State) (r : RxPacket) : (State.dropRx s r).slots = s.slots := rfl
@[simp] theorem State.dropRx_flow (s : State) (r : RxPacket) : (State.dropRx s r).flow = s.flow := rfl
@[simp] theorem State.dropRx_jtag (s : State) (r : RxPacket) : (State.dropRx s r).jtag = s.jtag := rfl
@[simp] theorem State.dropRx_boundary (s : State) (r : RxPacket) : (State.dropRx s r).boundary = s.boundary := rfl
@[simp] theorem State.dropRx_pending (s : State) (r : RxPacket) : (State.dropRx s r).pending = s.pending := rfl
@[simp] theorem State.dropRx_out (s : State) (r : RxPacket) : (State.dropRx s r).out = s.out := rfl
@[simp] theorem State.dropRx_fresh (s : State) (r : RxPacket) : (State.dropRx s r).fresh = s.fresh := rfl

@[simp] theorem State.setBuf_regs (s : State) (m : Nat) (rs : List Run) : (State.setBuf s m rs).regs = s.regs := rfl
@[simp] theorem State.setBuf_held (s : State) (m : Nat) (rs : List Run) : (State.setBuf s m rs).held = s.held := rfl
@[simp] theorem State.setBuf_ctrs (s : State) (m : Nat) (rs : List Run) : (State.setBuf s m rs).ctrs = s.ctrs := rfl
@[simp] theorem State.setBuf_latches (s : State) (m : Nat) (rs : List Run) : (State.setBuf s m rs).latches = s.latches := rfl
@[simp] theorem State.setBuf_clk (s : State) (m : Nat) (rs : List Run) : (State.setBuf s m rs).clk = s.clk := rfl
@[simp] theorem State.setBuf_pwr (s : State) (m : Nat) (rs : List Run) : (State.setBuf s m rs).pwr = s.pwr := rfl
@[simp] theorem State.setBuf_ras (s : State) (m : Nat) (rs : List Run) : (State.setBuf s m rs).ras = s.ras := rfl
@[simp] theorem State.setBuf_sec (s : State) (m : Nat) (rs : List Run) : (State.setBuf s m rs).sec = s.sec := rfl
@[simp] theorem State.setBuf_cxl (s : State) (m : Nat) (rs : List Run) : (State.setBuf s m rs).cxl = s.cxl := rfl
@[simp] theorem State.setBuf_cage (s : State) (m : Nat) (rs : List Run) : (State.setBuf s m rs).cage = s.cage := rfl
@[simp] theorem State.setBuf_hbm (s : State) (m : Nat) (rs : List Run) : (State.setBuf s m rs).hbm = s.hbm := rfl
@[simp] theorem State.setBuf_slots (s : State) (m : Nat) (rs : List Run) : (State.setBuf s m rs).slots = s.slots := rfl
@[simp] theorem State.setBuf_fab (s : State) (m : Nat) (rs : List Run) : (State.setBuf s m rs).fab = s.fab := rfl
@[simp] theorem State.setBuf_jtag (s : State) (m : Nat) (rs : List Run) : (State.setBuf s m rs).jtag = s.jtag := rfl
@[simp] theorem State.setBuf_boundary (s : State) (m : Nat) (rs : List Run) : (State.setBuf s m rs).boundary = s.boundary := rfl
@[simp] theorem State.setBuf_pending (s : State) (m : Nat) (rs : List Run) : (State.setBuf s m rs).pending = s.pending := rfl
@[simp] theorem State.setBuf_out (s : State) (m : Nat) (rs : List Run) : (State.setBuf s m rs).out = s.out := rfl
@[simp] theorem State.setBuf_fresh (s : State) (m : Nat) (rs : List Run) : (State.setBuf s m rs).fresh = s.fresh := rfl

@[simp] theorem State.setGranMarks_regs (s : State) (a : Nat) (c : List Nat) : (State.setGranMarks s a c).regs = s.regs := rfl
@[simp] theorem State.setGranMarks_held (s : State) (a : Nat) (c : List Nat) : (State.setGranMarks s a c).held = s.held := rfl
@[simp] theorem State.setGranMarks_ctrs (s : State) (a : Nat) (c : List Nat) : (State.setGranMarks s a c).ctrs = s.ctrs := rfl
@[simp] theorem State.setGranMarks_latches (s : State) (a : Nat) (c : List Nat) : (State.setGranMarks s a c).latches = s.latches := rfl
@[simp] theorem State.setGranMarks_clk (s : State) (a : Nat) (c : List Nat) : (State.setGranMarks s a c).clk = s.clk := rfl
@[simp] theorem State.setGranMarks_pwr (s : State) (a : Nat) (c : List Nat) : (State.setGranMarks s a c).pwr = s.pwr := rfl
@[simp] theorem State.setGranMarks_ras (s : State) (a : Nat) (c : List Nat) : (State.setGranMarks s a c).ras = s.ras := rfl
@[simp] theorem State.setGranMarks_sec (s : State) (a : Nat) (c : List Nat) : (State.setGranMarks s a c).sec = s.sec := rfl
@[simp] theorem State.setGranMarks_cxl (s : State) (a : Nat) (c : List Nat) : (State.setGranMarks s a c).cxl = s.cxl := rfl
@[simp] theorem State.setGranMarks_cage (s : State) (a : Nat) (c : List Nat) : (State.setGranMarks s a c).cage = s.cage := rfl
@[simp] theorem State.setGranMarks_hbm (s : State) (a : Nat) (c : List Nat) : (State.setGranMarks s a c).hbm = s.hbm := rfl
@[simp] theorem State.setGranMarks_slots (s : State) (a : Nat) (c : List Nat) : (State.setGranMarks s a c).slots = s.slots := rfl
@[simp] theorem State.setGranMarks_fab (s : State) (a : Nat) (c : List Nat) : (State.setGranMarks s a c).fab = s.fab := rfl
@[simp] theorem State.setGranMarks_jtag (s : State) (a : Nat) (c : List Nat) : (State.setGranMarks s a c).jtag = s.jtag := rfl
@[simp] theorem State.setGranMarks_boundary (s : State) (a : Nat) (c : List Nat) : (State.setGranMarks s a c).boundary = s.boundary := rfl
@[simp] theorem State.setGranMarks_pending (s : State) (a : Nat) (c : List Nat) : (State.setGranMarks s a c).pending = s.pending := rfl
@[simp] theorem State.setGranMarks_out (s : State) (a : Nat) (c : List Nat) : (State.setGranMarks s a c).out = s.out := rfl
@[simp] theorem State.setGranMarks_fresh (s : State) (a : Nat) (c : List Nat) : (State.setGranMarks s a c).fresh = s.fresh := rfl

@[simp] theorem State.setRow_regs (s : State) (site i : Nat) (v : Word × Word) : (State.setRow s site i v).regs = s.regs := rfl
@[simp] theorem State.setRow_held (s : State) (site i : Nat) (v : Word × Word) : (State.setRow s site i v).held = s.held := rfl
@[simp] theorem State.setRow_ctrs (s : State) (site i : Nat) (v : Word × Word) : (State.setRow s site i v).ctrs = s.ctrs := rfl
@[simp] theorem State.setRow_latches (s : State) (site i : Nat) (v : Word × Word) : (State.setRow s site i v).latches = s.latches := rfl
@[simp] theorem State.setRow_clk (s : State) (site i : Nat) (v : Word × Word) : (State.setRow s site i v).clk = s.clk := rfl
@[simp] theorem State.setRow_pwr (s : State) (site i : Nat) (v : Word × Word) : (State.setRow s site i v).pwr = s.pwr := rfl
@[simp] theorem State.setRow_ras (s : State) (site i : Nat) (v : Word × Word) : (State.setRow s site i v).ras = s.ras := rfl
@[simp] theorem State.setRow_sec (s : State) (site i : Nat) (v : Word × Word) : (State.setRow s site i v).sec = s.sec := rfl
@[simp] theorem State.setRow_cxl (s : State) (site i : Nat) (v : Word × Word) : (State.setRow s site i v).cxl = s.cxl := rfl
@[simp] theorem State.setRow_cage (s : State) (site i : Nat) (v : Word × Word) : (State.setRow s site i v).cage = s.cage := rfl
@[simp] theorem State.setRow_hbm (s : State) (site i : Nat) (v : Word × Word) : (State.setRow s site i v).hbm = s.hbm := rfl
@[simp] theorem State.setRow_slots (s : State) (site i : Nat) (v : Word × Word) : (State.setRow s site i v).slots = s.slots := rfl
@[simp] theorem State.setRow_fab (s : State) (site i : Nat) (v : Word × Word) : (State.setRow s site i v).fab = s.fab := rfl
@[simp] theorem State.setRow_jtag (s : State) (site i : Nat) (v : Word × Word) : (State.setRow s site i v).jtag = s.jtag := rfl
@[simp] theorem State.setRow_boundary (s : State) (site i : Nat) (v : Word × Word) : (State.setRow s site i v).boundary = s.boundary := rfl
@[simp] theorem State.setRow_pending (s : State) (site i : Nat) (v : Word × Word) : (State.setRow s site i v).pending = s.pending := rfl
@[simp] theorem State.setRow_out (s : State) (site i : Nat) (v : Word × Word) : (State.setRow s site i v).out = s.out := rfl
@[simp] theorem State.setRow_fresh (s : State) (site i : Nat) (v : Word × Word) : (State.setRow s site i v).fresh = s.fresh := rfl

@[simp] theorem State.releaseSealedWhere_regs (s : State) (p : Sealed → Bool) : (State.releaseSealedWhere s p).regs = s.regs := rfl
@[simp] theorem State.releaseSealedWhere_held (s : State) (p : Sealed → Bool) : (State.releaseSealedWhere s p).held = s.held := rfl
@[simp] theorem State.releaseSealedWhere_ctrs (s : State) (p : Sealed → Bool) : (State.releaseSealedWhere s p).ctrs = s.ctrs := rfl
@[simp] theorem State.releaseSealedWhere_latches (s : State) (p : Sealed → Bool) : (State.releaseSealedWhere s p).latches = s.latches := rfl
@[simp] theorem State.releaseSealedWhere_clk (s : State) (p : Sealed → Bool) : (State.releaseSealedWhere s p).clk = s.clk := rfl
@[simp] theorem State.releaseSealedWhere_pwr (s : State) (p : Sealed → Bool) : (State.releaseSealedWhere s p).pwr = s.pwr := rfl
@[simp] theorem State.releaseSealedWhere_ras (s : State) (p : Sealed → Bool) : (State.releaseSealedWhere s p).ras = s.ras := rfl
@[simp] theorem State.releaseSealedWhere_cxl (s : State) (p : Sealed → Bool) : (State.releaseSealedWhere s p).cxl = s.cxl := rfl
@[simp] theorem State.releaseSealedWhere_cage (s : State) (p : Sealed → Bool) : (State.releaseSealedWhere s p).cage = s.cage := rfl
@[simp] theorem State.releaseSealedWhere_hbm (s : State) (p : Sealed → Bool) : (State.releaseSealedWhere s p).hbm = s.hbm := rfl
@[simp] theorem State.releaseSealedWhere_slots (s : State) (p : Sealed → Bool) : (State.releaseSealedWhere s p).slots = s.slots := rfl
@[simp] theorem State.releaseSealedWhere_flow (s : State) (p : Sealed → Bool) : (State.releaseSealedWhere s p).flow = s.flow := rfl
@[simp] theorem State.releaseSealedWhere_fab (s : State) (p : Sealed → Bool) : (State.releaseSealedWhere s p).fab = s.fab := rfl
@[simp] theorem State.releaseSealedWhere_jtag (s : State) (p : Sealed → Bool) : (State.releaseSealedWhere s p).jtag = s.jtag := rfl
@[simp] theorem State.releaseSealedWhere_boundary (s : State) (p : Sealed → Bool) : (State.releaseSealedWhere s p).boundary = s.boundary := rfl
@[simp] theorem State.releaseSealedWhere_pending (s : State) (p : Sealed → Bool) : (State.releaseSealedWhere s p).pending = s.pending := rfl
@[simp] theorem State.releaseSealedWhere_out (s : State) (p : Sealed → Bool) : (State.releaseSealedWhere s p).out = s.out := rfl
@[simp] theorem State.releaseSealedWhere_fresh (s : State) (p : Sealed → Bool) : (State.releaseSealedWhere s p).fresh = s.fresh := rfl

@[simp] theorem State.setStream_regs (s : State) (slot tmpl : Nat) (x : StreamRun) : (State.setStream s slot tmpl x).regs = s.regs := rfl
@[simp] theorem State.setStream_held (s : State) (slot tmpl : Nat) (x : StreamRun) : (State.setStream s slot tmpl x).held = s.held := rfl
@[simp] theorem State.setStream_ctrs (s : State) (slot tmpl : Nat) (x : StreamRun) : (State.setStream s slot tmpl x).ctrs = s.ctrs := rfl
@[simp] theorem State.setStream_latches (s : State) (slot tmpl : Nat) (x : StreamRun) : (State.setStream s slot tmpl x).latches = s.latches := rfl
@[simp] theorem State.setStream_clk (s : State) (slot tmpl : Nat) (x : StreamRun) : (State.setStream s slot tmpl x).clk = s.clk := rfl
@[simp] theorem State.setStream_pwr (s : State) (slot tmpl : Nat) (x : StreamRun) : (State.setStream s slot tmpl x).pwr = s.pwr := rfl
@[simp] theorem State.setStream_ras (s : State) (slot tmpl : Nat) (x : StreamRun) : (State.setStream s slot tmpl x).ras = s.ras := rfl
@[simp] theorem State.setStream_sec (s : State) (slot tmpl : Nat) (x : StreamRun) : (State.setStream s slot tmpl x).sec = s.sec := rfl
@[simp] theorem State.setStream_cxl (s : State) (slot tmpl : Nat) (x : StreamRun) : (State.setStream s slot tmpl x).cxl = s.cxl := rfl
@[simp] theorem State.setStream_cage (s : State) (slot tmpl : Nat) (x : StreamRun) : (State.setStream s slot tmpl x).cage = s.cage := rfl
@[simp] theorem State.setStream_hbm (s : State) (slot tmpl : Nat) (x : StreamRun) : (State.setStream s slot tmpl x).hbm = s.hbm := rfl
@[simp] theorem State.setStream_slots (s : State) (slot tmpl : Nat) (x : StreamRun) : (State.setStream s slot tmpl x).slots = s.slots := rfl
@[simp] theorem State.setStream_fab (s : State) (slot tmpl : Nat) (x : StreamRun) : (State.setStream s slot tmpl x).fab = s.fab := rfl
@[simp] theorem State.setStream_jtag (s : State) (slot tmpl : Nat) (x : StreamRun) : (State.setStream s slot tmpl x).jtag = s.jtag := rfl
@[simp] theorem State.setStream_boundary (s : State) (slot tmpl : Nat) (x : StreamRun) : (State.setStream s slot tmpl x).boundary = s.boundary := rfl
@[simp] theorem State.setStream_pending (s : State) (slot tmpl : Nat) (x : StreamRun) : (State.setStream s slot tmpl x).pending = s.pending := rfl
@[simp] theorem State.setStream_out (s : State) (slot tmpl : Nat) (x : StreamRun) : (State.setStream s slot tmpl x).out = s.out := rfl
@[simp] theorem State.setStream_fresh (s : State) (slot tmpl : Nat) (x : StreamRun) : (State.setStream s slot tmpl x).fresh = s.fresh := rfl

@[simp] theorem State.setCoal_regs (s : State) (r : StRef) (c : CoalRun) : (State.setCoal s r c).regs = s.regs := rfl
@[simp] theorem State.setCoal_held (s : State) (r : StRef) (c : CoalRun) : (State.setCoal s r c).held = s.held := rfl
@[simp] theorem State.setCoal_ctrs (s : State) (r : StRef) (c : CoalRun) : (State.setCoal s r c).ctrs = s.ctrs := rfl
@[simp] theorem State.setCoal_latches (s : State) (r : StRef) (c : CoalRun) : (State.setCoal s r c).latches = s.latches := rfl
@[simp] theorem State.setCoal_clk (s : State) (r : StRef) (c : CoalRun) : (State.setCoal s r c).clk = s.clk := rfl
@[simp] theorem State.setCoal_pwr (s : State) (r : StRef) (c : CoalRun) : (State.setCoal s r c).pwr = s.pwr := rfl
@[simp] theorem State.setCoal_ras (s : State) (r : StRef) (c : CoalRun) : (State.setCoal s r c).ras = s.ras := rfl
@[simp] theorem State.setCoal_sec (s : State) (r : StRef) (c : CoalRun) : (State.setCoal s r c).sec = s.sec := rfl
@[simp] theorem State.setCoal_cxl (s : State) (r : StRef) (c : CoalRun) : (State.setCoal s r c).cxl = s.cxl := rfl
@[simp] theorem State.setCoal_cage (s : State) (r : StRef) (c : CoalRun) : (State.setCoal s r c).cage = s.cage := rfl
@[simp] theorem State.setCoal_hbm (s : State) (r : StRef) (c : CoalRun) : (State.setCoal s r c).hbm = s.hbm := rfl
@[simp] theorem State.setCoal_slots (s : State) (r : StRef) (c : CoalRun) : (State.setCoal s r c).slots = s.slots := rfl
@[simp] theorem State.setCoal_fab (s : State) (r : StRef) (c : CoalRun) : (State.setCoal s r c).fab = s.fab := rfl
@[simp] theorem State.setCoal_jtag (s : State) (r : StRef) (c : CoalRun) : (State.setCoal s r c).jtag = s.jtag := rfl
@[simp] theorem State.setCoal_boundary (s : State) (r : StRef) (c : CoalRun) : (State.setCoal s r c).boundary = s.boundary := rfl
@[simp] theorem State.setCoal_pending (s : State) (r : StRef) (c : CoalRun) : (State.setCoal s r c).pending = s.pending := rfl
@[simp] theorem State.setCoal_out (s : State) (r : StRef) (c : CoalRun) : (State.setCoal s r c).out = s.out := rfl
@[simp] theorem State.setCoal_fresh (s : State) (r : StRef) (c : CoalRun) : (State.setCoal s r c).fresh = s.fresh := rfl

@[simp] theorem State.accWrite_regs (s : State) (site a tile : Nat) (vs : List Word) : (State.accWrite s site a tile vs).regs = s.regs := rfl
@[simp] theorem State.accWrite_held (s : State) (site a tile : Nat) (vs : List Word) : (State.accWrite s site a tile vs).held = s.held := rfl
@[simp] theorem State.accWrite_ctrs (s : State) (site a tile : Nat) (vs : List Word) : (State.accWrite s site a tile vs).ctrs = s.ctrs := rfl
@[simp] theorem State.accWrite_latches (s : State) (site a tile : Nat) (vs : List Word) : (State.accWrite s site a tile vs).latches = s.latches := rfl
@[simp] theorem State.accWrite_clk (s : State) (site a tile : Nat) (vs : List Word) : (State.accWrite s site a tile vs).clk = s.clk := rfl
@[simp] theorem State.accWrite_pwr (s : State) (site a tile : Nat) (vs : List Word) : (State.accWrite s site a tile vs).pwr = s.pwr := rfl
@[simp] theorem State.accWrite_ras (s : State) (site a tile : Nat) (vs : List Word) : (State.accWrite s site a tile vs).ras = s.ras := rfl
@[simp] theorem State.accWrite_sec (s : State) (site a tile : Nat) (vs : List Word) : (State.accWrite s site a tile vs).sec = s.sec := rfl
@[simp] theorem State.accWrite_cxl (s : State) (site a tile : Nat) (vs : List Word) : (State.accWrite s site a tile vs).cxl = s.cxl := rfl
@[simp] theorem State.accWrite_cage (s : State) (site a tile : Nat) (vs : List Word) : (State.accWrite s site a tile vs).cage = s.cage := rfl
@[simp] theorem State.accWrite_hbm (s : State) (site a tile : Nat) (vs : List Word) : (State.accWrite s site a tile vs).hbm = s.hbm := rfl
@[simp] theorem State.accWrite_slots (s : State) (site a tile : Nat) (vs : List Word) : (State.accWrite s site a tile vs).slots = s.slots := rfl
@[simp] theorem State.accWrite_fab (s : State) (site a tile : Nat) (vs : List Word) : (State.accWrite s site a tile vs).fab = s.fab := rfl
@[simp] theorem State.accWrite_jtag (s : State) (site a tile : Nat) (vs : List Word) : (State.accWrite s site a tile vs).jtag = s.jtag := rfl
@[simp] theorem State.accWrite_boundary (s : State) (site a tile : Nat) (vs : List Word) : (State.accWrite s site a tile vs).boundary = s.boundary := rfl
@[simp] theorem State.accWrite_pending (s : State) (site a tile : Nat) (vs : List Word) : (State.accWrite s site a tile vs).pending = s.pending := rfl
@[simp] theorem State.accWrite_out (s : State) (site a tile : Nat) (vs : List Word) : (State.accWrite s site a tile vs).out = s.out := rfl
@[simp] theorem State.accWrite_fresh (s : State) (site a tile : Nat) (vs : List Word) : (State.accWrite s site a tile vs).fresh = s.fresh := rfl

@[simp] theorem State.setUnit_regs (s : State) (k : Nat) (u : UnitState) : (State.setUnit s k u).regs = s.regs := rfl
@[simp] theorem State.setUnit_held (s : State) (k : Nat) (u : UnitState) : (State.setUnit s k u).held = s.held := rfl
@[simp] theorem State.setUnit_ctrs (s : State) (k : Nat) (u : UnitState) : (State.setUnit s k u).ctrs = s.ctrs := rfl
@[simp] theorem State.setUnit_latches (s : State) (k : Nat) (u : UnitState) : (State.setUnit s k u).latches = s.latches := rfl
@[simp] theorem State.setUnit_clk (s : State) (k : Nat) (u : UnitState) : (State.setUnit s k u).clk = s.clk := rfl
@[simp] theorem State.setUnit_pwr (s : State) (k : Nat) (u : UnitState) : (State.setUnit s k u).pwr = s.pwr := rfl
@[simp] theorem State.setUnit_sec (s : State) (k : Nat) (u : UnitState) : (State.setUnit s k u).sec = s.sec := rfl
@[simp] theorem State.setUnit_cxl (s : State) (k : Nat) (u : UnitState) : (State.setUnit s k u).cxl = s.cxl := rfl
@[simp] theorem State.setUnit_cage (s : State) (k : Nat) (u : UnitState) : (State.setUnit s k u).cage = s.cage := rfl
@[simp] theorem State.setUnit_hbm (s : State) (k : Nat) (u : UnitState) : (State.setUnit s k u).hbm = s.hbm := rfl
@[simp] theorem State.setUnit_slots (s : State) (k : Nat) (u : UnitState) : (State.setUnit s k u).slots = s.slots := rfl
@[simp] theorem State.setUnit_flow (s : State) (k : Nat) (u : UnitState) : (State.setUnit s k u).flow = s.flow := rfl
@[simp] theorem State.setUnit_fab (s : State) (k : Nat) (u : UnitState) : (State.setUnit s k u).fab = s.fab := rfl
@[simp] theorem State.setUnit_jtag (s : State) (k : Nat) (u : UnitState) : (State.setUnit s k u).jtag = s.jtag := rfl
@[simp] theorem State.setUnit_boundary (s : State) (k : Nat) (u : UnitState) : (State.setUnit s k u).boundary = s.boundary := rfl
@[simp] theorem State.setUnit_pending (s : State) (k : Nat) (u : UnitState) : (State.setUnit s k u).pending = s.pending := rfl
@[simp] theorem State.setUnit_out (s : State) (k : Nat) (u : UnitState) : (State.setUnit s k u).out = s.out := rfl
@[simp] theorem State.setUnit_fresh (s : State) (k : Nat) (u : UnitState) : (State.setUnit s k u).fresh = s.fresh := rfl

@[simp] theorem State.unitDone_regs (s : State) (r : UnitResult) : (State.unitDone s r).regs = s.regs := rfl
@[simp] theorem State.unitDone_held (s : State) (r : UnitResult) : (State.unitDone s r).held = s.held := rfl
@[simp] theorem State.unitDone_ctrs (s : State) (r : UnitResult) : (State.unitDone s r).ctrs = s.ctrs := rfl
@[simp] theorem State.unitDone_latches (s : State) (r : UnitResult) : (State.unitDone s r).latches = s.latches := rfl
@[simp] theorem State.unitDone_clk (s : State) (r : UnitResult) : (State.unitDone s r).clk = s.clk := rfl
@[simp] theorem State.unitDone_pwr (s : State) (r : UnitResult) : (State.unitDone s r).pwr = s.pwr := rfl
@[simp] theorem State.unitDone_sec (s : State) (r : UnitResult) : (State.unitDone s r).sec = s.sec := rfl
@[simp] theorem State.unitDone_cxl (s : State) (r : UnitResult) : (State.unitDone s r).cxl = s.cxl := rfl
@[simp] theorem State.unitDone_cage (s : State) (r : UnitResult) : (State.unitDone s r).cage = s.cage := rfl
@[simp] theorem State.unitDone_hbm (s : State) (r : UnitResult) : (State.unitDone s r).hbm = s.hbm := rfl
@[simp] theorem State.unitDone_slots (s : State) (r : UnitResult) : (State.unitDone s r).slots = s.slots := rfl
@[simp] theorem State.unitDone_flow (s : State) (r : UnitResult) : (State.unitDone s r).flow = s.flow := rfl
@[simp] theorem State.unitDone_fab (s : State) (r : UnitResult) : (State.unitDone s r).fab = s.fab := rfl
@[simp] theorem State.unitDone_jtag (s : State) (r : UnitResult) : (State.unitDone s r).jtag = s.jtag := rfl
@[simp] theorem State.unitDone_boundary (s : State) (r : UnitResult) : (State.unitDone s r).boundary = s.boundary := rfl
@[simp] theorem State.unitDone_pending (s : State) (r : UnitResult) : (State.unitDone s r).pending = s.pending := rfl
@[simp] theorem State.unitDone_out (s : State) (r : UnitResult) : (State.unitDone s r).out = s.out := rfl
@[simp] theorem State.unitDone_fresh (s : State) (r : UnitResult) : (State.unitDone s r).fresh = s.fresh := rfl

@[simp] theorem State.setIde_regs (s : State) (st : IdeStream) (k : IdeKeys) : (State.setIde s st k).regs = s.regs := rfl
@[simp] theorem State.setIde_held (s : State) (st : IdeStream) (k : IdeKeys) : (State.setIde s st k).held = s.held := rfl
@[simp] theorem State.setIde_ctrs (s : State) (st : IdeStream) (k : IdeKeys) : (State.setIde s st k).ctrs = s.ctrs := rfl
@[simp] theorem State.setIde_latches (s : State) (st : IdeStream) (k : IdeKeys) : (State.setIde s st k).latches = s.latches := rfl
@[simp] theorem State.setIde_clk (s : State) (st : IdeStream) (k : IdeKeys) : (State.setIde s st k).clk = s.clk := rfl
@[simp] theorem State.setIde_pwr (s : State) (st : IdeStream) (k : IdeKeys) : (State.setIde s st k).pwr = s.pwr := rfl
@[simp] theorem State.setIde_ras (s : State) (st : IdeStream) (k : IdeKeys) : (State.setIde s st k).ras = s.ras := rfl
@[simp] theorem State.setIde_sec (s : State) (st : IdeStream) (k : IdeKeys) : (State.setIde s st k).sec = s.sec := rfl
@[simp] theorem State.setIde_cage (s : State) (st : IdeStream) (k : IdeKeys) : (State.setIde s st k).cage = s.cage := rfl
@[simp] theorem State.setIde_hbm (s : State) (st : IdeStream) (k : IdeKeys) : (State.setIde s st k).hbm = s.hbm := rfl
@[simp] theorem State.setIde_slots (s : State) (st : IdeStream) (k : IdeKeys) : (State.setIde s st k).slots = s.slots := rfl
@[simp] theorem State.setIde_flow (s : State) (st : IdeStream) (k : IdeKeys) : (State.setIde s st k).flow = s.flow := rfl
@[simp] theorem State.setIde_fab (s : State) (st : IdeStream) (k : IdeKeys) : (State.setIde s st k).fab = s.fab := rfl
@[simp] theorem State.setIde_jtag (s : State) (st : IdeStream) (k : IdeKeys) : (State.setIde s st k).jtag = s.jtag := rfl
@[simp] theorem State.setIde_boundary (s : State) (st : IdeStream) (k : IdeKeys) : (State.setIde s st k).boundary = s.boundary := rfl
@[simp] theorem State.setIde_pending (s : State) (st : IdeStream) (k : IdeKeys) : (State.setIde s st k).pending = s.pending := rfl
@[simp] theorem State.setIde_out (s : State) (st : IdeStream) (k : IdeKeys) : (State.setIde s st k).out = s.out := rfl
@[simp] theorem State.setIde_fresh (s : State) (st : IdeStream) (k : IdeKeys) : (State.setIde s st k).fresh = s.fresh := rfl

@[simp] theorem State.dropPage_regs (s : State) (pasid page : Nat) : (State.dropPage s pasid page).regs = s.regs := rfl
@[simp] theorem State.dropPage_held (s : State) (pasid page : Nat) : (State.dropPage s pasid page).held = s.held := rfl
@[simp] theorem State.dropPage_ctrs (s : State) (pasid page : Nat) : (State.dropPage s pasid page).ctrs = s.ctrs := rfl
@[simp] theorem State.dropPage_latches (s : State) (pasid page : Nat) : (State.dropPage s pasid page).latches = s.latches := rfl
@[simp] theorem State.dropPage_clk (s : State) (pasid page : Nat) : (State.dropPage s pasid page).clk = s.clk := rfl
@[simp] theorem State.dropPage_pwr (s : State) (pasid page : Nat) : (State.dropPage s pasid page).pwr = s.pwr := rfl
@[simp] theorem State.dropPage_ras (s : State) (pasid page : Nat) : (State.dropPage s pasid page).ras = s.ras := rfl
@[simp] theorem State.dropPage_sec (s : State) (pasid page : Nat) : (State.dropPage s pasid page).sec = s.sec := rfl
@[simp] theorem State.dropPage_cage (s : State) (pasid page : Nat) : (State.dropPage s pasid page).cage = s.cage := rfl
@[simp] theorem State.dropPage_hbm (s : State) (pasid page : Nat) : (State.dropPage s pasid page).hbm = s.hbm := rfl
@[simp] theorem State.dropPage_slots (s : State) (pasid page : Nat) : (State.dropPage s pasid page).slots = s.slots := rfl
@[simp] theorem State.dropPage_flow (s : State) (pasid page : Nat) : (State.dropPage s pasid page).flow = s.flow := rfl
@[simp] theorem State.dropPage_fab (s : State) (pasid page : Nat) : (State.dropPage s pasid page).fab = s.fab := rfl
@[simp] theorem State.dropPage_jtag (s : State) (pasid page : Nat) : (State.dropPage s pasid page).jtag = s.jtag := rfl
@[simp] theorem State.dropPage_boundary (s : State) (pasid page : Nat) : (State.dropPage s pasid page).boundary = s.boundary := rfl
@[simp] theorem State.dropPage_pending (s : State) (pasid page : Nat) : (State.dropPage s pasid page).pending = s.pending := rfl
@[simp] theorem State.dropPage_out (s : State) (pasid page : Nat) : (State.dropPage s pasid page).out = s.out := rfl
@[simp] theorem State.dropPage_fresh (s : State) (pasid page : Nat) : (State.dropPage s pasid page).fresh = s.fresh := rfl

@[simp] theorem State.setPri_regs (s : State) (b : Bool) : (State.setPri s b).regs = s.regs := rfl
@[simp] theorem State.setPri_held (s : State) (b : Bool) : (State.setPri s b).held = s.held := rfl
@[simp] theorem State.setPri_ctrs (s : State) (b : Bool) : (State.setPri s b).ctrs = s.ctrs := rfl
@[simp] theorem State.setPri_latches (s : State) (b : Bool) : (State.setPri s b).latches = s.latches := rfl
@[simp] theorem State.setPri_clk (s : State) (b : Bool) : (State.setPri s b).clk = s.clk := rfl
@[simp] theorem State.setPri_pwr (s : State) (b : Bool) : (State.setPri s b).pwr = s.pwr := rfl
@[simp] theorem State.setPri_ras (s : State) (b : Bool) : (State.setPri s b).ras = s.ras := rfl
@[simp] theorem State.setPri_sec (s : State) (b : Bool) : (State.setPri s b).sec = s.sec := rfl
@[simp] theorem State.setPri_cage (s : State) (b : Bool) : (State.setPri s b).cage = s.cage := rfl
@[simp] theorem State.setPri_hbm (s : State) (b : Bool) : (State.setPri s b).hbm = s.hbm := rfl
@[simp] theorem State.setPri_slots (s : State) (b : Bool) : (State.setPri s b).slots = s.slots := rfl
@[simp] theorem State.setPri_flow (s : State) (b : Bool) : (State.setPri s b).flow = s.flow := rfl
@[simp] theorem State.setPri_fab (s : State) (b : Bool) : (State.setPri s b).fab = s.fab := rfl
@[simp] theorem State.setPri_jtag (s : State) (b : Bool) : (State.setPri s b).jtag = s.jtag := rfl
@[simp] theorem State.setPri_boundary (s : State) (b : Bool) : (State.setPri s b).boundary = s.boundary := rfl
@[simp] theorem State.setPri_pending (s : State) (b : Bool) : (State.setPri s b).pending = s.pending := rfl
@[simp] theorem State.setPri_out (s : State) (b : Bool) : (State.setPri s b).out = s.out := rfl
@[simp] theorem State.setPri_fresh (s : State) (b : Bool) : (State.setPri s b).fresh = s.fresh := rfl

@[simp] theorem State.closeSession_regs (s : State) (id : Nat) : (State.closeSession s id).regs = s.regs := rfl
@[simp] theorem State.closeSession_held (s : State) (id : Nat) : (State.closeSession s id).held = s.held := rfl
@[simp] theorem State.closeSession_ctrs (s : State) (id : Nat) : (State.closeSession s id).ctrs = s.ctrs := rfl
@[simp] theorem State.closeSession_latches (s : State) (id : Nat) : (State.closeSession s id).latches = s.latches := rfl
@[simp] theorem State.closeSession_clk (s : State) (id : Nat) : (State.closeSession s id).clk = s.clk := rfl
@[simp] theorem State.closeSession_pwr (s : State) (id : Nat) : (State.closeSession s id).pwr = s.pwr := rfl
@[simp] theorem State.closeSession_ras (s : State) (id : Nat) : (State.closeSession s id).ras = s.ras := rfl
@[simp] theorem State.closeSession_cxl (s : State) (id : Nat) : (State.closeSession s id).cxl = s.cxl := rfl
@[simp] theorem State.closeSession_cage (s : State) (id : Nat) : (State.closeSession s id).cage = s.cage := rfl
@[simp] theorem State.closeSession_hbm (s : State) (id : Nat) : (State.closeSession s id).hbm = s.hbm := rfl
@[simp] theorem State.closeSession_slots (s : State) (id : Nat) : (State.closeSession s id).slots = s.slots := rfl
@[simp] theorem State.closeSession_flow (s : State) (id : Nat) : (State.closeSession s id).flow = s.flow := rfl
@[simp] theorem State.closeSession_fab (s : State) (id : Nat) : (State.closeSession s id).fab = s.fab := rfl
@[simp] theorem State.closeSession_jtag (s : State) (id : Nat) : (State.closeSession s id).jtag = s.jtag := rfl
@[simp] theorem State.closeSession_boundary (s : State) (id : Nat) : (State.closeSession s id).boundary = s.boundary := rfl
@[simp] theorem State.closeSession_pending (s : State) (id : Nat) : (State.closeSession s id).pending = s.pending := rfl
@[simp] theorem State.closeSession_out (s : State) (id : Nat) : (State.closeSession s id).out = s.out := rfl
@[simp] theorem State.closeSession_fresh (s : State) (id : Nat) : (State.closeSession s id).fresh = s.fresh := rfl

@[simp] theorem State.setPc_regs (s : State) (k : Nat) (p : PcState) : (State.setPc s k p).regs = s.regs := rfl
@[simp] theorem State.setPc_held (s : State) (k : Nat) (p : PcState) : (State.setPc s k p).held = s.held := rfl
@[simp] theorem State.setPc_ctrs (s : State) (k : Nat) (p : PcState) : (State.setPc s k p).ctrs = s.ctrs := rfl
@[simp] theorem State.setPc_latches (s : State) (k : Nat) (p : PcState) : (State.setPc s k p).latches = s.latches := rfl
@[simp] theorem State.setPc_clk (s : State) (k : Nat) (p : PcState) : (State.setPc s k p).clk = s.clk := rfl
@[simp] theorem State.setPc_pwr (s : State) (k : Nat) (p : PcState) : (State.setPc s k p).pwr = s.pwr := rfl
@[simp] theorem State.setPc_ras (s : State) (k : Nat) (p : PcState) : (State.setPc s k p).ras = s.ras := rfl
@[simp] theorem State.setPc_sec (s : State) (k : Nat) (p : PcState) : (State.setPc s k p).sec = s.sec := rfl
@[simp] theorem State.setPc_cxl (s : State) (k : Nat) (p : PcState) : (State.setPc s k p).cxl = s.cxl := rfl
@[simp] theorem State.setPc_cage (s : State) (k : Nat) (p : PcState) : (State.setPc s k p).cage = s.cage := rfl
@[simp] theorem State.setPc_slots (s : State) (k : Nat) (p : PcState) : (State.setPc s k p).slots = s.slots := rfl
@[simp] theorem State.setPc_flow (s : State) (k : Nat) (p : PcState) : (State.setPc s k p).flow = s.flow := rfl
@[simp] theorem State.setPc_fab (s : State) (k : Nat) (p : PcState) : (State.setPc s k p).fab = s.fab := rfl
@[simp] theorem State.setPc_jtag (s : State) (k : Nat) (p : PcState) : (State.setPc s k p).jtag = s.jtag := rfl
@[simp] theorem State.setPc_boundary (s : State) (k : Nat) (p : PcState) : (State.setPc s k p).boundary = s.boundary := rfl
@[simp] theorem State.setPc_pending (s : State) (k : Nat) (p : PcState) : (State.setPc s k p).pending = s.pending := rfl
@[simp] theorem State.setPc_out (s : State) (k : Nat) (p : PcState) : (State.setPc s k p).out = s.out := rfl
@[simp] theorem State.setPc_fresh (s : State) (k : Nat) (p : PcState) : (State.setPc s k p).fresh = s.fresh := rfl

@[simp] theorem State.setLimiter_regs (s : State) (dst : Nat) (x : Limiter) : (State.setLimiter s dst x).regs = s.regs := rfl
@[simp] theorem State.setLimiter_held (s : State) (dst : Nat) (x : Limiter) : (State.setLimiter s dst x).held = s.held := rfl
@[simp] theorem State.setLimiter_ctrs (s : State) (dst : Nat) (x : Limiter) : (State.setLimiter s dst x).ctrs = s.ctrs := rfl
@[simp] theorem State.setLimiter_latches (s : State) (dst : Nat) (x : Limiter) : (State.setLimiter s dst x).latches = s.latches := rfl
@[simp] theorem State.setLimiter_clk (s : State) (dst : Nat) (x : Limiter) : (State.setLimiter s dst x).clk = s.clk := rfl
@[simp] theorem State.setLimiter_pwr (s : State) (dst : Nat) (x : Limiter) : (State.setLimiter s dst x).pwr = s.pwr := rfl
@[simp] theorem State.setLimiter_ras (s : State) (dst : Nat) (x : Limiter) : (State.setLimiter s dst x).ras = s.ras := rfl
@[simp] theorem State.setLimiter_sec (s : State) (dst : Nat) (x : Limiter) : (State.setLimiter s dst x).sec = s.sec := rfl
@[simp] theorem State.setLimiter_cxl (s : State) (dst : Nat) (x : Limiter) : (State.setLimiter s dst x).cxl = s.cxl := rfl
@[simp] theorem State.setLimiter_cage (s : State) (dst : Nat) (x : Limiter) : (State.setLimiter s dst x).cage = s.cage := rfl
@[simp] theorem State.setLimiter_hbm (s : State) (dst : Nat) (x : Limiter) : (State.setLimiter s dst x).hbm = s.hbm := rfl
@[simp] theorem State.setLimiter_slots (s : State) (dst : Nat) (x : Limiter) : (State.setLimiter s dst x).slots = s.slots := rfl
@[simp] theorem State.setLimiter_flow (s : State) (dst : Nat) (x : Limiter) : (State.setLimiter s dst x).flow = s.flow := rfl
@[simp] theorem State.setLimiter_jtag (s : State) (dst : Nat) (x : Limiter) : (State.setLimiter s dst x).jtag = s.jtag := rfl
@[simp] theorem State.setLimiter_boundary (s : State) (dst : Nat) (x : Limiter) : (State.setLimiter s dst x).boundary = s.boundary := rfl
@[simp] theorem State.setLimiter_pending (s : State) (dst : Nat) (x : Limiter) : (State.setLimiter s dst x).pending = s.pending := rfl
@[simp] theorem State.setLimiter_out (s : State) (dst : Nat) (x : Limiter) : (State.setLimiter s dst x).out = s.out := rfl
@[simp] theorem State.setLimiter_fresh (s : State) (dst : Nat) (x : Limiter) : (State.setLimiter s dst x).fresh = s.fresh := rfl

@[simp] theorem State.noteUp_regs (s : State) : (State.noteUp s).regs = s.regs := rfl
@[simp] theorem State.noteUp_held (s : State) : (State.noteUp s).held = s.held := rfl
@[simp] theorem State.noteUp_ctrs (s : State) : (State.noteUp s).ctrs = s.ctrs := rfl
@[simp] theorem State.noteUp_latches (s : State) : (State.noteUp s).latches = s.latches := rfl
@[simp] theorem State.noteUp_clk (s : State) : (State.noteUp s).clk = s.clk := rfl
@[simp] theorem State.noteUp_pwr (s : State) : (State.noteUp s).pwr = s.pwr := rfl
@[simp] theorem State.noteUp_ras (s : State) : (State.noteUp s).ras = s.ras := rfl
@[simp] theorem State.noteUp_sec (s : State) : (State.noteUp s).sec = s.sec := rfl
@[simp] theorem State.noteUp_cxl (s : State) : (State.noteUp s).cxl = s.cxl := rfl
@[simp] theorem State.noteUp_cage (s : State) : (State.noteUp s).cage = s.cage := rfl
@[simp] theorem State.noteUp_hbm (s : State) : (State.noteUp s).hbm = s.hbm := rfl
@[simp] theorem State.noteUp_slots (s : State) : (State.noteUp s).slots = s.slots := rfl
@[simp] theorem State.noteUp_flow (s : State) : (State.noteUp s).flow = s.flow := rfl
@[simp] theorem State.noteUp_jtag (s : State) : (State.noteUp s).jtag = s.jtag := rfl
@[simp] theorem State.noteUp_boundary (s : State) : (State.noteUp s).boundary = s.boundary := rfl
@[simp] theorem State.noteUp_pending (s : State) : (State.noteUp s).pending = s.pending := rfl
@[simp] theorem State.noteUp_out (s : State) : (State.noteUp s).out = s.out := rfl
@[simp] theorem State.noteUp_fresh (s : State) : (State.noteUp s).fresh = s.fresh := rfl

end Sys2Proof.Machine
end

