-- ==== Sys2Proof/Laws/Ops.lean ====
section
/-! SUPPORT. The shared operations, once each: what an event and a completion record may change, what a started descriptor that ends
leaves behind, and how a ring command that starts goes on to its own part. -/
namespace Sys2Proof.Machine

/-! ### Completion records -/

/-- A completion record changes the Cage, counters, pending interrupts and outputs, and nothing else. -/
def RecordFrame (s t : State) : Prop := t = { s with ctrs := t.ctrs, cage := t.cage, cxl := t.cxl, out := t.out }

theorem RecordFrame.refl (s : State) : RecordFrame s s := rfl
theorem RecordFrame.after {s t u : State} (b : RecordFrame t u) (a : RecordFrame s t) : RecordFrame s u := by
  unfold RecordFrame at *; rw [b, a]
theorem RecordFrame.ite {c : Prop} [Decidable c] {s a b : State} (ha : RecordFrame s a) (hb : RecordFrame s b) :
    RecordFrame s (if c then a else b) := by
  split
  · exact ha
  · exact hb

theorem bump_record (s : State) (o n : Nat) : RecordFrame s (s.bump o n) := rfl
theorem emit_record (s : State) (o : Output) : RecordFrame s (s.emit o) := rfl
theorem setRing_record (s : State) (k : Nat) (r : Ring) : RecordFrame s (s.setRing k r) := rfl
theorem unpost_record (s : State) (k : Nat) : RecordFrame s (s.unpost k) := rfl
theorem setKind_record (s : State) (n : Nat) (k : StartedKind) : RecordFrame s (s.setKind n k) := rfl
theorem msix_record (s : State) (v : Nat) : RecordFrame s (s.msix v) := by
  unfold State.msix
  exact RecordFrame.ite rfl (RecordFrame.ite rfl rfl)
theorem postRecord_record (s : State) (c : Completion) : RecordFrame s (s.postRecord c) := by
  unfold State.postRecord
  exact RecordFrame.ite ((msix_record _ _).after ((setRing_record _ _ _).after (emit_record _ _)))
    ((setRing_record _ _ _).after (emit_record _ _))
theorem finish_record (s : State) (c : Completion) : RecordFrame s (s.finish c) := by
  unfold State.finish
  refine RecordFrame.ite rfl (RecordFrame.ite ((postRecord_record _ _).after (bump_record _ _ _)) (RecordFrame.ite rfl rfl))
/-- Completing a descriptor changes only what a record changes. -/
theorem complete_record (s : State) (d : Started) (status detail : Nat) (result : List Byte) :
    RecordFrame s (s.complete d status detail result) := by
  unfold State.complete
  exact (finish_record _ _).after rfl

/-! ### Events -/

/-- An event changes in addition the event log and the writes that wait for the flash. -/
def EventFrame (s t : State) : Prop :=
  t = { s with ctrs := t.ctrs, pwr := t.pwr, ras := t.ras, cage := t.cage, cxl := t.cxl, out := t.out }

theorem EventFrame.refl (s : State) : EventFrame s s := rfl
theorem EventFrame.after {s t u : State} (b : EventFrame t u) (a : EventFrame s t) : EventFrame s u := by
  unfold EventFrame at *; rw [b, a]
theorem EventFrame.ite {c : Prop} [Decidable c] {s a b : State} (ha : EventFrame s a) (hb : EventFrame s b) :
    EventFrame s (if c then a else b) := by
  split
  · exact ha
  · exact hb
theorem RecordFrame.event {s t : State} (h : RecordFrame s t) : EventFrame s t := by
  unfold RecordFrame at h; unfold EventFrame; rw [h]

theorem evWrite_record (s : State) (e : EventRec) (lost : Nat) : RecordFrame s (s.evWrite e lost) := by
  unfold State.evWrite
  exact (msix_record _ _).after rfl
theorem evPost_record (s : State) (e : EventRec) : RecordFrame s (s.evPost e) := by
  unfold State.evPost
  exact RecordFrame.ite rfl (RecordFrame.ite ((evWrite_record _ _ _).after rfl) (RecordFrame.ite rfl rfl))
theorem evLog_event (s : State) (e : EventRec) : EventFrame s (s.evLog e) := by
  unfold State.evLog
  exact EventFrame.ite rfl rfl
theorem flashLog_event (s : State) (e : EventRec) : EventFrame s (s.flashLog e) := by
  rfl
/-- Raising an event changes only what an event changes. -/
theorem raise_event (s : State) (code : Nat) (cls : EvClass) (slot : Option (Fin 8)) (payload : List Byte) :
    EventFrame s (s.raise code cls slot payload) := by
  unfold State.raise
  refine (evPost_record _ _).event.after (EventFrame.ite ((flashLog_event _ _).after ?_) ?_) <;>
    exact (evLog_event _ _).after rfl
theorem ev_event (s : State) (code : Nat) (cls : EvClass) (loc sub a0 a1 a2 : Nat) : EventFrame s (s.ev code cls loc sub a0 a1 a2) :=
  raise_event _ _ _ _ _
theorem busyWrite_event (s : State) (off : Nat) : EventFrame s (s.busyWrite off) := ev_event _ _ _ _ _ _ _ _
theorem orderLost_event (s : State) (loc : Nat) (w : OrdKind) (wm : Nat) (l : OrdKind) (lm : Nat) :
    EventFrame s (s.orderLost loc w wm l lm) := (ev_event _ _ _ _ _ _ _ _).after rfl

theorem evPost_ras (s : State) (e : EventRec) : (s.evPost e).ras = s.ras := by
  rw [evPost_record s e]
theorem evLog_head (s : State) (e : EventRec) : (s.evLog e).ras.log.head? = some e := by
  unfold State.evLog; split <;> rfl
theorem flashLog_log (s : State) (e : EventRec) : (s.flashLog e).ras.log = s.ras.log := by
  rfl
/-- The event raised is the newest record of the log (18 R444). -/
theorem raise_logged (s : State) (code : Nat) (cls : EvClass) (slot : Option (Fin 8)) (payload : List Byte) :
    Logged code cls slot payload s (s.raise code cls slot payload) := by
  have h : ∀ (b : State) (e : EventRec), (if cls == .unit || cls == .fatal then (b.evLog e).flashLog e else b.evLog e).ras.log.head?
      = some e := by
    intro b e
    split
    · rw [flashLog_log, evLog_head]
    · exact evLog_head _ _
  unfold Logged State.raise
  simp only [evPost_ras, h]
  exact ⟨_, rfl, rfl, rfl, rfl, rfl, rfl, rfl⟩

/-! ### What ends -/

theorem msix_cage (s : State) (v : Nat) : (s.msix v).cage = s.cage := by
  unfold State.msix
  split
  · rfl
  · split <;> rfl
theorem postRecord_started (s : State) (c : Completion) : (s.postRecord c).cage.started = s.cage.started := by
  unfold State.postRecord; split <;> simp [State.setRing, State.emit, msix_cage]
theorem finish_started (s : State) (c : Completion) : (s.finish c).cage.started = s.cage.started := by
  unfold State.finish
  split
  · rfl
  split
  · rw [postRecord_started]; rfl
  · simp only; split <;> rfl
theorem complete_started (s : State) (d : Started) (status detail : Nat) (result : List Byte) :
    (s.complete d status detail result).cage.started = s.cage.started.filter fun x => x.serial != d.serial := by
  unfold State.complete; rw [finish_started]

theorem msix_out (s : State) (v : Nat) (o : Output) (h : o ∈ s.out) : o ∈ (s.msix v).out := by
  unfold State.msix
  split
  · exact h
  · split
    · exact List.mem_cons_of_mem _ h
    · exact h
theorem postRecord_out (s : State) (c : Completion) :
    Output.completion c.ring (s.ring c.ring.val).cqTail (s.ringTag c.ring.val)
      (s.ringCq c.ring.val + 64 * (s.ring c.ring.val).cqTail) (c.bytes s.clk.tally (s.ring c.ring.val).head (s.ring c.ring.val).phase)
      ∈ (s.postRecord c).out := by
  unfold State.postRecord
  split
  · refine msix_out _ _ _ ?_
    exact List.mem_cons_self
  · exact List.mem_cons_self
/-- Byte 16 of a completion record is the status (12 Table 12-5). -/
theorem completion_status (c : Completion) (tally : BitVec 64) (h : Nat) (p : Bool) (hc : c.status < 256) :
    byteAt (c.bytes tally h p) 16 = c.status := by
  have h1 : (slice c.header 8 8).length = 8 := by simp [slice, zeroBytes]; omega
  have h2 : (leBytes 8 tally.toNat).length = 8 := by simp [leBytes]
  unfold Completion.bytes
  simp only [byteAt, List.append_assoc]
  rw [List.getD_append_right _ _ _ _ (by omega), List.getD_append_right _ _ _ _ (by omega)]
  simp [h1, leBytes]
  omega

/-- A completed descriptor is no longer listed and has left its record. -/
theorem complete_finished (s : State) (d : Started) (status detail : Nat) (result : List Byte) (hs : status < 256) :
    Finished d status s (s.complete d status detail result) := by
  refine ⟨fun x hx => ?_, fun ⟨h1, h2, h3⟩ => ?_⟩
  · rw [complete_started] at hx
    simpa using (List.mem_filter.1 hx).2
  · unfold State.complete State.finish
    rw [if_neg, if_pos]
    · refine ⟨_, postRecord_out _ _, ?_⟩
      exact completion_status _ _ _ _ hs
    · exact h1
    · simp only [h2]
      rintro (⟨ha, hb⟩ | hc)
      · rcases h3 with h | h
        · exact h ha
        · rw [h] at hb; cases hb
      · cases hc

/-! ### Ring commands -/

/-- A descriptor that starts and completes in the same step, whatever happens in between to parts that records do not depend on. -/
theorem begun_ends {s u : State} {spec : CmdSpec} {kind : StartedKind} {d : Desc} (status detail : Nat) (result : List Byte)
    (hs : status < 256) (h1 : (u.ring d.ring.val).cqTail = (s.ring d.ring.val).cqTail) (h2 : u.cxl = s.cxl)
    (h3 : u.regs = s.regs) :
    EndsAtOnce d status s (u.complete (begun spec kind d s).2 status detail result) := by
  obtain ⟨ha, hb⟩ := complete_finished u (begun spec kind d s).2 status detail result hs
  refine ⟨ha, fun hd => ?_⟩
  have hf : byteAt (begun spec kind d s).2.header 1 = byteAt d.bytes 1 := by
    simp only [begun, State.begin, byteAt, slice, zeroBytes, List.drop_zero]
    cases d.bytes with
    | nil => rfl
    | cons a l => cases l <;> simp
  obtain ⟨r, hr, hr'⟩ := hb (by
    unfold RecordDue State.busOn at hd ⊢
    rw [h2, hf]
    exact hd)
  refine ⟨r, ?_, hr'⟩
  have ht : u.ringTag d.ring.val = s.ringTag d.ring.val := by
    unfold State.ringTag State.ringPasidEn State.ringPasid State.ringReg State.reg
    rw [h3]
  have hq : u.ringCq d.ring.val = s.ringCq d.ring.val := by simp only [State.ringCq, State.ringReg, State.reg, h3]
  rw [← h1, ← ht, ← hq]
  exact hr

theorem begun_cqTail (s : State) (spec : CmdSpec) (kind : StartedKind) (d : Desc) :
    ((begun spec kind d s).1.ring d.ring.val).cqTail = (s.ring d.ring.val).cqTail := by
  simp [begun, State.begin, State.ring, State.setRing, State.bump]
theorem begun_cxl (s : State) (spec : CmdSpec) (kind : StartedKind) (d : Desc) : (begun spec kind d s).1.cxl = s.cxl := rfl
/-- A descriptor that starts and completes at once. -/
theorem begun_complete_ends (s : State) (spec : CmdSpec) (kind : StartedKind) (d : Desc) (status detail : Nat) (result : List Byte)
    (hs : status < 256) :
    EndsAtOnce d status s ((begun spec kind d s).1.complete (begun spec kind d s).2 status detail result) :=
  begun_ends status detail result hs (begun_cqTail _ _ _ _) rfl rfl

/-- A command that starts goes on to its own part (12 R289). -/
theorem startCmd_starts {s : State} {spec : CmdSpec} {d : Desc} (h : Starts spec d s) (ho : spec.opcode < 15) (kind : StartedKind)
    (body : State → Started → State) : s.startCmd spec d true kind body = body (begun spec kind d s).1 (begun spec kind d s).2 := by
  obtain ⟨h0, h1, h2, h3, h4, h5⟩ := h
  unfold State.startCmd begun
  simp only [h0, ho, if_true, decide_true, Bool.true_and]
  rw [if_neg (by simp), if_neg (by simp [h1]), if_neg (by simp), if_neg (by omega), if_neg (fun c => by simp [h2 c.1] at c),
    if_neg (fun c => by simp [(h3 c.1).1] at c), if_neg (by simp [h4]), if_neg (fun c => by simp [h5 c.1] at c),
    if_neg (fun c => by simp [(h3 c.1).2] at c)]

/-! ### Register writes -/

/-- A host access wakes nothing in A0. -/
theorem wake_open {s : State} (h : s.pwr.idle = 0) (ha : s.pwr.a4Wait = false) (c : WakeCause) : s.wake c = s := by
  simp [State.wake, h, ha]
/-- A BAR0 write that nothing holds back is carried out (20 R484, R485). -/
theorem mmioWrite_open {tee : Bool} {s : State} (h : WriteOpen tee s) (off w : Nat) (line : List Byte) :
    s.mmioWrite off w line tee = s.bar0Write off w line := by
  obtain ⟨-, h2, h3, h4, h5, h6⟩ := h
  unfold State.mmioWrite
  rw [if_neg (by simp [h2]), if_neg (by simp [h3])]
  have : s.nonTee tee off = none := by
    unfold State.nonTee
    rw [if_neg]
    rintro ⟨a, b⟩
    simp [h4 a] at b
  simp [this, wake_open h5 h6, h5]
theorem oneWrite_open {tee : Bool} {s : State} (h : WriteOpen tee s) (off w : Nat) : s.oneWrite off w tee = s.bar0Write off w [] := by
  unfold State.oneWrite
  rw [if_pos h.1, mmioWrite_open h]

theorem setRing_ring (s : State) (k : Nat) (r : Ring) : (s.setRing k r).ring k = r := by simp [State.ring, State.setRing]
theorem setSlot_slot (s : State) (n : Nat) (x : Slot) : (s.setSlot n x).slot n = x := by simp [State.slot, State.setSlot]
theorem setHbmByte_same (s : State) (a : Nat) (v : Byte) : (s.setHbmByte a v).hbmByte a = v := by
  simp [State.hbmByte, State.setHbmByte]
theorem setHbmByte_other {s : State} {a b : Nat} {v : Byte} (hb : b ≠ a) : (s.setHbmByte a v).hbmByte b = s.hbmByte b :=
  tblGet_tblSet_of_ne hb
/-- Bytes outside a stored range read as before. -/
theorem putBytes_other {s : State} {a b : Nat} {l : List Byte} (hb : b < a ∨ a + l.length ≤ b) :
    (s.putBytes a l).hbmByte b = s.hbmByte b := by
  induction l generalizing s a with
  | nil => rfl
  | cons x l ih =>
    simp only [List.length_cons] at hb
    exact (ih (by omega)).trans (setHbmByte_other (by omega))
/-- Clearing a range of counters makes each of them, and its latched high word, read 0 (03 R83). -/
theorem clearCtrs_zero (s : State) (lo hi : Nat) : CountersZero lo hi (s.clearCtrs lo hi) :=
  fun _ h1 h2 => ⟨tblGet_tblClear_in h1 h2, tblGet_tblClear_in h1 h2⟩

end Sys2Proof.Machine
end

