-- ==== Sys2Proof/WellFormed.lean ====
section
/-! DEFINITION. When a command's operands are of the kind the manual gives them: the lengths of lines, flits, descriptors and
accesses, and the ranges of addresses. `exec` is total on every command; these checks say which operands the outside can supply. -/
namespace Sys2Proof
open Machine

/-- Why a command's operands are not of the manual's kind. -/
inductive IllFormed where
  /-- A descriptor is 64 or 128 bytes (12 R284, R288). -/
  | descriptor
  /-- A CXL line is 64 bytes (11 R269, 10 R245). -/
  | line
  /-- A BAR0 access is 1 to 8 bytes (20 R484). -/
  | access
  /-- An SPDM nonce is 32 bytes (16 R393, R394). -/
  | nonce
  /-- A flit of a Flecel Direct port is 256 bytes (13 R315). -/
  | flit
  /-- The boundary register is read and loaded whole (19 R479). -/
  | boundary
  /-- A staged image has at most 32 MiB less one byte (18 R456). -/
  | image
  /-- A PASID has 20 bits (11 R273). -/
  | pasid
  /-- A host address stands within 64 bits, a line within HBM (11 R264, 10 R240). -/
  | address
  deriving DecidableEq, Repr

/-- `c` fails with `e`, or passes. -/
def ensure (c : Bool) (e : IllFormed) : Option IllFormed := if c then none else some e

/-- The descriptor's length. -/
def Machine.Desc.check (d : Desc) : Option IllFormed :=
  ensure (d.bytes.length == 64 || d.bytes.length == 128) .descriptor
/-- Every address of a view of host memory has 64 bits. -/
def Machine.HostView.check (v : HostView) : Option IllFormed := ensure (v.cells.all fun c => c.1 < 2 ^ 64) .address
/-- A whole CXL line. -/
def checkLine (l : List Byte) : Option IllFormed := ensure (l.length == 64) .line
/-- HBM lines by number. -/
def checkErrors (e : HbmErrors) : Option IllFormed := ensure ((e.ue ++ e.ce).all fun n => n < 0x900000000) .address
/-- A whole flit. -/
def Machine.RxFlit.check (f : RxFlit) : Option IllFormed := ensure (f.bytes.length == 256) .flit
/-- A nonce. -/
def checkNonce (n : List Byte) : Option IllFormed := ensure (n.length == 32) .nonce
/-- A PASID and its page. -/
def checkPage (pasid page : Nat) : Option IllFormed :=
  (ensure (pasid < 2 ^ 20) .pasid).or (ensure (page < 2 ^ 52) .address)

/-- The first check that a command's operands fail. -/
def Instr.check : Instr → Option IllFormed
  | .nop d | .surveyUnload d _ | .runStep d | .rearmStream d | .fence d | .barrier d | .killJob d _ | .biasSet d | .powerSet d
  | .sealRelease d | .sealExport d => d.check
  | .surveyLoad d v | .setStepParams d v | .bundleLoad d v => d.check.or v.check
  | .copy d v err => (d.check.or v.check).or (checkErrors err)
  | .surveyLoadComplete v | .bundleLoadComplete v | .sealExportComplete v => v.check
  | .copyComplete _ _ v err => v.check.or (checkErrors err)
  | .doorbellSnoop a l _ => (ensure (a % 64 == 0 && a < 2 ^ 64) .address).or (checkLine l)
  | .registerWrite x => ensure (1 ≤ x.bytes.length && x.bytes.length ≤ 8) .access
  | .counterLowRead r => ensure (1 ≤ r.len && r.len ≤ 8) .access
  | .ringCtlEn _ _ l _ => checkLine l
  | .fwCtlStage len _ => ensure (len < 2 ^ 25) .image
  | .pldmFwUpdate img => ensure (img.length < 2 ^ 25) .image
  | .challenge _ n _ => checkNonce n
  | .getMeasurements _ _ n _ => checkNonce n
  | .jtagSamplePreload a b => ensure (a.length == b.length) .boundary
  | .hostCxlMemRead a _ _ => ensure (a < 2 ^ 64) .address
  | .hostCxlMemWrite a l _ => (ensure (a < 2 ^ 64) .address).or (checkLine l)
  | .hostBar2Access o _ _ => ensure (o < 2 ^ 34) .address
  | .atsInvalidation pasid page _ | .translationCompletion pasid page _ _ | .pageRequestResponse pasid page _
  | .pageRequestTimeout pasid page => checkPage pasid page
  | .millRunApply _ _ err | .gatherReadServe _ err | .hoistTableCheckComplete _ err => checkErrors err
  | .dataFlitReceive _ f | .linkctlFlitReceive _ f | .timexFlitReceive _ f => f.check
  | .cacheEnableWrite _ ls => (ls.map fun l => checkLine l.2).foldr Option.or none
  | _ => none

/-- The command's operands are of the manual's kind. -/
def Instr.WellFormed (i : Instr) : Prop := i.check = none

/-- The 64-byte lines a command carries. -/
def Instr.lines : Instr → List (List Byte)
  | .doorbellSnoop _ l _ | .ringCtlEn _ _ l _ | .hostCxlMemWrite _ l _ => [l]
  | .cacheEnableWrite _ ls => ls.map (·.2)
  | _ => []

end Sys2Proof
end

