-- ==== Sys2Proof/Laws/PerInstr.lean ====
section
/-! SUPPORT. What well-formedness gives, command by command: every 64-byte line that a well-formed command carries has 64 bytes. -/
namespace Sys2Proof.Laws.LineLength
open Machine

/-- Every line of a well-formed command has 64 bytes. -/
def Statement (i : Instr) : Prop := i.WellFormed → ∀ l ∈ i.lines, l.length = 64

/-- A line that passes its check has 64 bytes. -/
theorem of_checkLine {l : List Byte} (h : checkLine l = none) : l.length = 64 := by
  simp only [checkLine, ensure, beq_iff_eq] at h
  split at h
  · assumption
  · cases h

/-- Every list of lines that passes its checks holds lines of 64 bytes. -/
theorem of_checkLines {ls : List (Nat × List Byte)} (h : (ls.map fun l => checkLine l.2).foldr Option.or none = none) :
    ∀ l ∈ ls.map (·.2), l.length = 64 := by
  induction ls with
  | nil => simp
  | cons a t ih =>
    simp only [List.map_cons, List.foldr_cons, Option.or_eq_none_iff] at h
    intro l hl
    rcases List.mem_cons.1 hl with e | e
    · exact e ▸ of_checkLine h.1
    · exact ih h.2 l e

theorem nop (d : Desc) : Statement (.nop d) :=
  fun _ _ h => absurd h List.not_mem_nil
theorem surveyLoad (d : Desc) (view : HostView) : Statement (.surveyLoad d view) :=
  fun _ _ h => absurd h List.not_mem_nil
theorem surveyLoadComplete (view : HostView) : Statement (.surveyLoadComplete view) :=
  fun _ _ h => absurd h List.not_mem_nil
theorem surveyUnload (d : Desc) (tied : List (Fin 32)) : Statement (.surveyUnload d tied) :=
  fun _ _ h => absurd h List.not_mem_nil
theorem runStep (d : Desc) : Statement (.runStep d) :=
  fun _ _ h => absurd h List.not_mem_nil
theorem runStepComplete (n : Fin 8) : Statement (.runStepComplete n) :=
  fun _ _ h => absurd h List.not_mem_nil
theorem setStepParams (d : Desc) (view : HostView) : Statement (.setStepParams d view) :=
  fun _ _ h => absurd h List.not_mem_nil
theorem rearmStream (d : Desc) : Statement (.rearmStream d) :=
  fun _ _ h => absurd h List.not_mem_nil
theorem copy (d : Desc) (view : HostView) (err : HbmErrors) : Statement (.copy d view err) :=
  fun _ _ h => absurd h List.not_mem_nil
theorem copyComplete (ring : Fin 32) (index : Nat) (view : HostView) (err : HbmErrors) : Statement (.copyComplete ring index view err) :=
  fun _ _ h => absurd h List.not_mem_nil
theorem fence (d : Desc) : Statement (.fence d) :=
  fun _ _ h => absurd h List.not_mem_nil
theorem fenceComplete (ring : Fin 32) : Statement (.fenceComplete ring) :=
  fun _ _ h => absurd h List.not_mem_nil
theorem barrier (d : Desc) : Statement (.barrier d) :=
  fun _ _ h => absurd h List.not_mem_nil
theorem barrierTimeout (ring : Fin 32) : Statement (.barrierTimeout ring) :=
  fun _ _ h => absurd h List.not_mem_nil
theorem killJob (d : Desc) (tied : List (Fin 32)) : Statement (.killJob d tied) :=
  fun _ _ h => absurd h List.not_mem_nil
theorem killComplete (n : Fin 8) : Statement (.killComplete n) :=
  fun _ _ h => absurd h List.not_mem_nil
theorem biasSet (d : Desc) : Statement (.biasSet d) :=
  fun _ _ h => absurd h List.not_mem_nil
theorem powerSet (d : Desc) : Statement (.powerSet d) :=
  fun _ _ h => absurd h List.not_mem_nil
theorem bundleLoad (d : Desc) (view : HostView) : Statement (.bundleLoad d view) :=
  fun _ _ h => absurd h List.not_mem_nil
theorem bundleLoadComplete (view : HostView) : Statement (.bundleLoadComplete view) :=
  fun _ _ h => absurd h List.not_mem_nil
theorem sealRelease (d : Desc) : Statement (.sealRelease d) :=
  fun _ _ h => absurd h List.not_mem_nil
theorem sealExport (d : Desc) : Statement (.sealExport d) :=
  fun _ _ h => absurd h List.not_mem_nil
theorem sealExportComplete (view : HostView) : Statement (.sealExportComplete view) :=
  fun _ _ h => absurd h List.not_mem_nil
theorem doorbellSnoop (lineAddr : Nat) (line : List Byte) (faults : List (Fin 32 × RingCause)) : Statement (.doorbellSnoop lineAddr line faults) :=
  fun h l hl => by
  obtain rfl := List.mem_singleton.1 hl
  exact of_checkLine (Option.or_eq_none_iff.1 h).2
theorem completionHeadPoll (ring : Fin 32) (w : HostWord) : Statement (.completionHeadPoll ring w) :=
  fun _ _ h => absurd h List.not_mem_nil
theorem eventRingHeadPoll (w : HostWord) : Statement (.eventRingHeadPoll w) :=
  fun _ _ h => absurd h List.not_mem_nil
theorem registerWrite (x : BarWrite) : Statement (.registerWrite x) :=
  fun _ _ h => absurd h List.not_mem_nil
theorem counterLowRead (r : BarRead) : Statement (.counterLowRead r) :=
  fun _ _ h => absurd h List.not_mem_nil
theorem ptpTxtsPop (p : Fin 12) (tee : Bool) : Statement (.ptpTxtsPop p tee) :=
  fun _ _ h => absurd h List.not_mem_nil
theorem cuCtlCntClr (k : Fin 8192) (tee : Bool) : Statement (.cuCtlCntClr k tee) :=
  fun _ _ h => absurd h List.not_mem_nil
theorem muCtlCntClr (k : Fin 8192) (tee : Bool) : Statement (.muCtlCntClr k tee) :=
  fun _ _ h => absurd h List.not_mem_nil
theorem millCtlCntClr (tee : Bool) : Statement (.millCtlCntClr tee) :=
  fun _ _ h => absurd h List.not_mem_nil
theorem memCtlCntClr (tee : Bool) : Statement (.memCtlCntClr tee) :=
  fun _ _ h => absurd h List.not_mem_nil
theorem cxlCtlCntClr (tee : Bool) : Statement (.cxlCtlCntClr tee) :=
  fun _ _ h => absurd h List.not_mem_nil
theorem cageCtlCntClr (tee : Bool) : Statement (.cageCtlCntClr tee) :=
  fun _ _ h => absurd h List.not_mem_nil
theorem portCtlCntClr (p : Fin 12) (tee : Bool) : Statement (.portCtlCntClr p tee) :=
  fun _ _ h => absurd h List.not_mem_nil
theorem fabCfgCntClr (tee : Bool) : Statement (.fabCfgCntClr tee) :=
  fun _ _ h => absurd h List.not_mem_nil
theorem tallyCfgCntClr (tee : Bool) : Statement (.tallyCfgCntClr tee) :=
  fun _ _ h => absurd h List.not_mem_nil
theorem pwrCtlCntClr (tee : Bool) : Statement (.pwrCtlCntClr tee) :=
  fun _ _ h => absurd h List.not_mem_nil
theorem rasCfgCntClr (tee : Bool) : Statement (.rasCfgCntClr tee) :=
  fun _ _ h => absurd h List.not_mem_nil
theorem glbCtlCntClr (tee : Bool) : Statement (.glbCtlCntClr tee) :=
  fun _ _ h => absurd h List.not_mem_nil
theorem ringCtlEn (ring : Fin 32) (w : Word) (line : List Byte) (tee : Bool) : Statement (.ringCtlEn ring w line tee) :=
  fun h l hl => by
  obtain rfl := List.mem_singleton.1 hl
  exact of_checkLine h
theorem evqEn (w : Word) (tee : Bool) : Statement (.evqEn w tee) :=
  fun _ _ h => absurd h List.not_mem_nil
theorem jobctlHoistCfgEn (n : Fin 8) (w : Word) (tee : Bool) : Statement (.jobctlHoistCfgEn n w tee) :=
  fun _ _ h => absurd h List.not_mem_nil
theorem jobctlSluiceCfgEn (n : Fin 8) (w : Word) (tee : Bool) : Statement (.jobctlSluiceCfgEn n w tee) :=
  fun _ _ h => absurd h List.not_mem_nil
theorem tallySetHi (w : Word) (tee : Bool) : Statement (.tallySetHi w tee) :=
  fun _ _ h => absurd h List.not_mem_nil
theorem dbgCtlChalNew (tee : Bool) : Statement (.dbgCtlChalNew tee) :=
  fun _ _ h => absurd h List.not_mem_nil
theorem dbgCtlSubmit (tee : Bool) : Statement (.dbgCtlSubmit tee) :=
  fun _ _ h => absurd h List.not_mem_nil
theorem debugUnlockScrubDone : Statement .debugUnlockScrubDone :=
  fun _ _ h => absurd h List.not_mem_nil
theorem rasUnitFence (k : Fin 8192) (tee : Bool) : Statement (.rasUnitFence k tee) :=
  fun _ _ h => absurd h List.not_mem_nil
theorem rasUnitReturn (k : Fin 8192) (tee : Bool) : Statement (.rasUnitReturn k tee) :=
  fun _ _ h => absurd h List.not_mem_nil
theorem rasUnitRestore (k : Fin 8192) (tee : Bool) : Statement (.rasUnitRestore k tee) :=
  fun _ _ h => absurd h List.not_mem_nil
theorem siteFence (k : Fin 8192) (cause : FenceCause) : Statement (.siteFence k cause) :=
  fun _ _ h => absurd h List.not_mem_nil
theorem selftestComplete (k : Fin 8192) (failing : Option (BitVec 16)) : Statement (.selftestComplete k failing) :=
  fun _ _ h => absurd h List.not_mem_nil
theorem fwCtlStage (len : Nat) (tee : Bool) : Statement (.fwCtlStage len tee) :=
  fun _ _ h => absurd h List.not_mem_nil
theorem fwWriteComplete : Statement .fwWriteComplete :=
  fun _ _ h => absurd h List.not_mem_nil
theorem fwCtlActivate (tee : Bool) : Statement (.fwCtlActivate tee) :=
  fun _ _ h => absurd h List.not_mem_nil
theorem fwCtlCommit (tee : Bool) : Statement (.fwCtlCommit tee) :=
  fun _ _ h => absurd h List.not_mem_nil
theorem fwCtlRecover : Statement .fwCtlRecover :=
  fun _ _ h => absurd h List.not_mem_nil
theorem busMasterEnableWrite (b : Bool) : Statement (.busMasterEnableWrite b) :=
  fun _ _ h => absurd h List.not_mem_nil
theorem priEnableWrite (b : Bool) : Statement (.priEnableWrite b) :=
  fun _ _ h => absurd h List.not_mem_nil
theorem hdmDecoderCommit (base size ways : Nat) : Statement (.hdmDecoderCommit base size ways) :=
  fun _ _ h => absurd h List.not_mem_nil
theorem lockedItemChange (i : ConfigItem) : Statement (.lockedItemChange i) :=
  fun _ _ h => absurd h List.not_mem_nil
theorem lockInterface : Statement .lockInterface :=
  fun _ _ h => absurd h List.not_mem_nil
theorem stopInterface : Statement .stopInterface :=
  fun _ _ h => absurd h List.not_mem_nil
theorem ideKm (op : IdeKmOp) : Statement (.ideKm op) :=
  fun _ _ h => absurd h List.not_mem_nil
theorem ideStreamReceive (st : IdeStream) (good : Bool) : Statement (.ideStreamReceive st good) :=
  fun _ _ h => absurd h List.not_mem_nil
theorem getVersion (m : Bool) : Statement (.getVersion m) :=
  fun _ _ h => absurd h List.not_mem_nil
theorem getCapabilities (m : Bool) : Statement (.getCapabilities m) :=
  fun _ _ h => absurd h List.not_mem_nil
theorem negotiateAlgorithms (o : SpdmOffer) (m : Bool) : Statement (.negotiateAlgorithms o m) :=
  fun _ _ h => absurd h List.not_mem_nil
theorem getCertificate (slot offset len : Nat) (m : Bool) : Statement (.getCertificate slot offset len m) :=
  fun _ _ h => absurd h List.not_mem_nil
theorem challenge (slot : Nat) (nonce : List Byte) (m : Bool) : Statement (.challenge slot nonce m) :=
  fun _ _ h => absurd h List.not_mem_nil
theorem getMeasurements (q : MeasReq) (sign : Bool) (nonce : List Byte) (m : Bool) : Statement (.getMeasurements q sign nonce m) :=
  fun _ _ h => absurd h List.not_mem_nil
theorem keyExchange (m : Bool) : Statement (.keyExchange m) :=
  fun _ _ h => absurd h List.not_mem_nil
theorem keyUpdate (id : Nat) (m : Bool) : Statement (.keyUpdate id m) :=
  fun _ _ h => absurd h List.not_mem_nil
theorem endSession (id : Nat) (m : Bool) : Statement (.endSession id m) :=
  fun _ _ h => absurd h List.not_mem_nil
theorem heartbeatTimeout (id : Nat) : Statement (.heartbeatTimeout id) :=
  fun _ _ h => absurd h List.not_mem_nil
theorem cdatRead : Statement .cdatRead :=
  fun _ _ h => absurd h List.not_mem_nil
theorem pldmFwUpdate (img : List Byte) : Statement (.pldmFwUpdate img) :=
  fun _ _ h => absurd h List.not_mem_nil
theorem jtagIdcode : Statement .jtagIdcode :=
  fun _ _ h => absurd h List.not_mem_nil
theorem jtagBypass : Statement .jtagBypass :=
  fun _ _ h => absurd h List.not_mem_nil
theorem jtagSamplePreload (lands load : List Bool) : Statement (.jtagSamplePreload lands load) :=
  fun _ _ h => absurd h List.not_mem_nil
theorem jtagExtest : Statement .jtagExtest :=
  fun _ _ h => absurd h List.not_mem_nil
theorem hostCxlMemRead (hpa : Nat) (ue ce : Bool) : Statement (.hostCxlMemRead hpa ue ce) :=
  fun _ _ h => absurd h List.not_mem_nil
theorem hostCxlMemWrite (hpa : Nat) (data : List Byte) (mask : BitVec 64) : Statement (.hostCxlMemWrite hpa data mask) :=
  fun h l hl => by
  obtain rfl := List.mem_singleton.1 hl
  exact of_checkLine (Option.or_eq_none_iff.1 h).2
theorem hostBar2Access (off : Nat) (write : Option Byte) (ce : Nat) : Statement (.hostBar2Access off write ce) :=
  fun _ _ h => absurd h List.not_mem_nil
theorem atsInvalidation (pasid page count : Nat) : Statement (.atsInvalidation pasid page count) :=
  fun _ _ h => absurd h List.not_mem_nil
theorem translationCompletion (pasid page : Nat) (r : AtsResult) (w : Waiter) : Statement (.translationCompletion pasid page r w) :=
  fun _ _ h => absurd h List.not_mem_nil
theorem pageRequestResponse (pasid page : Nat) (c : PriCode) : Statement (.pageRequestResponse pasid page c) :=
  fun _ _ h => absurd h List.not_mem_nil
theorem pageRequestTimeout (pasid page : Nat) : Statement (.pageRequestTimeout pasid page) :=
  fun _ _ h => absurd h List.not_mem_nil
theorem cxlLinkUp (l : LinkUp) : Statement (.cxlLinkUp l) :=
  fun _ _ h => absurd h List.not_mem_nil
theorem cxlLinkDown : Statement .cxlLinkDown :=
  fun _ _ h => absurd h List.not_mem_nil
theorem powerOnReset (straps : Straps) (coreMv ioMv : Nat) : Statement (.powerOnReset straps coreMv ioMv) :=
  fun _ _ h => absurd h List.not_mem_nil
theorem firmwareBoot (entropyOk : Bool) : Statement (.firmwareBoot entropyOk) :=
  fun _ _ h => absurd h List.not_mem_nil
theorem rootLockLoss : Statement .rootLockLoss :=
  fun _ _ h => absurd h List.not_mem_nil
theorem perst (us : Nat) (asserted : Bool) : Statement (.perst us asserted) :=
  fun _ _ h => absurd h List.not_mem_nil
theorem cxlReset (memClear : Bool) : Statement (.cxlReset memClear) :=
  fun _ _ h => absurd h List.not_mem_nil
theorem secondaryBusReset : Statement .secondaryBusReset :=
  fun _ _ h => absurd h List.not_mem_nil
theorem thermalSample (r : Sensors) : Statement (.thermalSample r) :=
  fun _ _ h => absurd h List.not_mem_nil
theorem thermtrip : Statement .thermtrip :=
  fun _ _ h => absurd h List.not_mem_nil
theorem pmbusAlert (rail : Fin 8) (status : BitVec 16) (warning : Bool) : Statement (.pmbusAlert rail status warning) :=
  fun _ _ h => absurd h List.not_mem_nil
theorem voltageTargetReached (reported : Bool) : Statement (.voltageTargetReached reported) :=
  fun _ _ h => absurd h List.not_mem_nil
theorem aclkStepChange : Statement .aclkStepChange :=
  fun _ _ h => absurd h List.not_mem_nil
theorem sagDetect (coreMv ioMv : Nat) : Statement (.sagDetect coreMv ioMv) :=
  fun _ _ h => absurd h List.not_mem_nil
theorem sagRelease : Statement .sagRelease :=
  fun _ _ h => absurd h List.not_mem_nil
theorem nvOperationStart : Statement .nvOperationStart :=
  fun _ _ h => absurd h List.not_mem_nil
theorem nvGateTimeout : Statement .nvGateTimeout :=
  fun _ _ h => absurd h List.not_mem_nil
theorem idleEntry : Statement .idleEntry :=
  fun _ _ h => absurd h List.not_mem_nil
theorem a4Entry : Statement .a4Entry :=
  fun _ _ h => absurd h List.not_mem_nil
theorem tokenArrival (n : Nat) (fault : TokenFault) : Statement (.tokenArrival n fault) :=
  fun _ _ h => absurd h List.not_mem_nil
theorem stationFire (dev : Fin 8192) (errs : FireErrors) : Statement (.stationFire dev errs) :=
  fun _ _ h => absurd h List.not_mem_nil
theorem tileIssue (dev : Fin 8192) : Statement (.tileIssue dev) :=
  fun _ _ h => absurd h List.not_mem_nil
theorem tileBoundary (dev : Fin 8192) : Statement (.tileBoundary dev) :=
  fun _ _ h => absurd h List.not_mem_nil
theorem accumulatorSwap (site : Fin 8192) (a : Fin 4) : Statement (.accumulatorSwap site a) :=
  fun _ _ h => absurd h List.not_mem_nil
theorem shadowDrain (site : Fin 8192) (a : Fin 4) (set : Bool) (ce : Nat) (ue : Option Nat) : Statement (.shadowDrain site a set ce ue) :=
  fun _ _ h => absurd h List.not_mem_nil
theorem panelFillComplete (dev : Fin 8192) (region : Fin 8) (ce : Nat) (ue : Option Nat) : Statement (.panelFillComplete dev region ce ue) :=
  fun _ _ h => absurd h List.not_mem_nil
theorem ringCreditReturn (site : Fin 8192) (ring : Fin 32) : Statement (.ringCreditReturn site ring) :=
  fun _ _ h => absurd h List.not_mem_nil
theorem spillReturn (site : Fin 8192) (ring : Fin 32) (ce : Nat) : Statement (.spillReturn site ring ce) :=
  fun _ _ h => absurd h List.not_mem_nil
theorem coalHoldExpiry (dev : Fin 8192) : Statement (.coalHoldExpiry dev) :=
  fun _ _ h => absurd h List.not_mem_nil
theorem bankIdleEntry (site : Fin 8192) (b : Fin 32) : Statement (.bankIdleEntry site b) :=
  fun _ _ h => absurd h List.not_mem_nil
theorem bankRetainEntry (site : Fin 8192) (b : Fin 32) : Statement (.bankRetainEntry site b) :=
  fun _ _ h => absurd h List.not_mem_nil
theorem bankWake (site : Fin 8192) (b : Fin 32) : Statement (.bankWake site b) :=
  fun _ _ h => absurd h List.not_mem_nil
theorem muckerPageScrubbed (site : Fin 8192) (pg : Fin 512) : Statement (.muckerPageScrubbed site pg) :=
  fun _ _ h => absurd h List.not_mem_nil
theorem watchdogExpiry (n : Fin 8) : Statement (.watchdogExpiry n) :=
  fun _ _ h => absurd h List.not_mem_nil
theorem hoistGatherRequest (n : Fin 8) (layer : Nat) (kind : GatherKind) (newer : Bool) : Statement (.hoistGatherRequest n layer kind newer) :=
  fun _ _ h => absurd h List.not_mem_nil
theorem stagingChunkCredit (n : Fin 8) (chunk : Nat) : Statement (.stagingChunkCredit n chunk) :=
  fun _ _ h => absurd h List.not_mem_nil
theorem millRunArrival (m : Fin 768) : Statement (.millRunArrival m) :=
  fun _ _ h => absurd h List.not_mem_nil
theorem millRunApply (m : Fin 768) (res : Residue) (err : HbmErrors) : Statement (.millRunApply m res err) :=
  fun _ _ h => absurd h List.not_mem_nil
theorem gatherReadServe (level : Fin 4) (err : HbmErrors) : Statement (.gatherReadServe level err) :=
  fun _ _ h => absurd h List.not_mem_nil
theorem amaxExchange : Statement .amaxExchange :=
  fun _ _ h => absurd h List.not_mem_nil
theorem leaseExpiry : Statement .leaseExpiry :=
  fun _ _ h => absurd h List.not_mem_nil
theorem leaseClose : Statement .leaseClose :=
  fun _ _ h => absurd h List.not_mem_nil
theorem leaseRevoke : Statement .leaseRevoke :=
  fun _ _ h => absurd h List.not_mem_nil
theorem sluiceContribution (fault : Bool) : Statement (.sluiceContribution fault) :=
  fun _ _ h => absurd h List.not_mem_nil
theorem redReceive (fault : Bool) : Statement (.redReceive fault) :=
  fun _ _ h => absurd h List.not_mem_nil
theorem sluiceResidueFatal (own : Bool) : Statement (.sluiceResidueFatal own) :=
  fun _ _ h => absurd h List.not_mem_nil
theorem runDelivery (c : Fin 64) : Statement (.runDelivery c) :=
  fun _ _ h => absurd h List.not_mem_nil
theorem barArrive : Statement .barArrive :=
  fun _ _ h => absurd h List.not_mem_nil
theorem barRelease : Statement .barRelease :=
  fun _ _ h => absurd h List.not_mem_nil
theorem barAbort : Statement .barAbort :=
  fun _ _ h => absurd h List.not_mem_nil
theorem gatherReqReceive : Statement .gatherReqReceive :=
  fun _ _ h => absurd h List.not_mem_nil
theorem gatherRspReceive : Statement .gatherRspReceive :=
  fun _ _ h => absurd h List.not_mem_nil
theorem fmtErrorReceive : Statement .fmtErrorReceive :=
  fun _ _ h => absurd h List.not_mem_nil
theorem fmtTransit : Statement .fmtTransit :=
  fun _ _ h => absurd h List.not_mem_nil
theorem ackReceive : Statement .ackReceive :=
  fun _ _ h => absurd h List.not_mem_nil
theorem ackDelayExpiry (peer : Fin 1024) (chan : Fin 256) : Statement (.ackDelayExpiry peer chan) :=
  fun _ _ h => absurd h List.not_mem_nil
theorem retransmitTimeout (peer : Fin 1024) (chan : Fin 256) : Statement (.retransmitTimeout peer chan) :=
  fun _ _ h => absurd h List.not_mem_nil
theorem fmtChannelFail (peer : Fin 1024) (chan : Fin 256) : Statement (.fmtChannelFail peer chan) :=
  fun _ _ h => absurd h List.not_mem_nil
theorem rateIncrease (dst : Fin 1024) : Statement (.rateIncrease dst) :=
  fun _ _ h => absurd h List.not_mem_nil
theorem hello : Statement .hello :=
  fun _ _ h => absurd h List.not_mem_nil
theorem helloSend (p : Fin 12) : Statement (.helloSend p) :=
  fun _ _ h => absurd h List.not_mem_nil
theorem neighbourTimeout (p : Fin 12) : Statement (.neighbourTimeout p) :=
  fun _ _ h => absurd h List.not_mem_nil
theorem electionSettled : Statement .electionSettled :=
  fun _ _ h => absurd h List.not_mem_nil
theorem fabricNoManager : Statement .fabricNoManager :=
  fun _ _ h => absurd h List.not_mem_nil
theorem mgmtFlood : Statement .mgmtFlood :=
  fun _ _ h => absurd h List.not_mem_nil
theorem addressAssign (addr mgr : Fin 1024) : Statement (.addressAssign addr mgr) :=
  fun _ _ h => absurd h List.not_mem_nil
theorem routingTableLoad (mgr : Fin 1024) (epoch : Fin 65536) (entries : List (Fin 1024 × Word)) : Statement (.routingTableLoad mgr epoch entries) :=
  fun _ _ h => absurd h List.not_mem_nil
theorem epochCommit (epoch : Fin 65536) : Statement (.epochCommit epoch) :=
  fun _ _ h => absurd h List.not_mem_nil
theorem epochMark : Statement .epochMark :=
  fun _ _ h => absurd h List.not_mem_nil
theorem tableRetire : Statement .tableRetire :=
  fun _ _ h => absurd h List.not_mem_nil
theorem epochConfirmTimeout (missing : List (Fin 1024)) : Statement (.epochConfirmTimeout missing) :=
  fun _ _ h => absurd h List.not_mem_nil
theorem joinReport (reports : List Report) : Statement (.joinReport reports) :=
  fun _ _ h => absurd h List.not_mem_nil
theorem managerLoss : Statement .managerLoss :=
  fun _ _ h => absurd h List.not_mem_nil
theorem peerNew (peer : Fin 1024) : Statement (.peerNew peer) :=
  fun _ _ h => absurd h List.not_mem_nil
theorem peerLost (peer : Fin 1024) : Statement (.peerLost peer) :=
  fun _ _ h => absurd h List.not_mem_nil
theorem mgmtJobKill (fjob : Fin 4096) (tied : List (Fin 32)) (hostKill : BitVec 8) : Statement (.mgmtJobKill fjob tied hostKill) :=
  fun _ _ h => absurd h List.not_mem_nil
theorem dataFlitReceive (p : Fin 12) (f : RxFlit) : Statement (.dataFlitReceive p f) :=
  fun _ _ h => absurd h List.not_mem_nil
theorem replayTimeout (p : Fin 12) : Statement (.replayTimeout p) :=
  fun _ _ h => absurd h List.not_mem_nil
theorem fdRetryExhausted (p : Fin 12) : Statement (.fdRetryExhausted p) :=
  fun _ _ h => absurd h List.not_mem_nil
theorem fdRetrainTimeout (p : Fin 12) : Statement (.fdRetrainTimeout p) :=
  fun _ _ h => absurd h List.not_mem_nil
theorem fdBringupTimeout (p : Fin 12) : Statement (.fdBringupTimeout p) :=
  fun _ _ h => absurd h List.not_mem_nil
theorem linkctlFlitReceive (p : Fin 12) (f : RxFlit) : Statement (.linkctlFlitReceive p f) :=
  fun _ _ h => absurd h List.not_mem_nil
theorem timexSend (p : Fin 12) : Statement (.timexSend p) :=
  fun _ _ h => absurd h List.not_mem_nil
theorem timexFlitReceive (p : Fin 12) (f : RxFlit) : Statement (.timexFlitReceive p f) :=
  fun _ _ h => absurd h List.not_mem_nil
theorem tallyHoldover : Statement .tallyHoldover :=
  fun _ _ h => absurd h List.not_mem_nil
theorem ptpSyncSend (p : Fin 12) : Statement (.ptpSyncSend p) :=
  fun _ _ h => absurd h List.not_mem_nil
theorem frameReceive (p : Fin 12) (f : RxFrame) : Statement (.frameReceive p f) :=
  fun _ _ h => absurd h List.not_mem_nil
theorem frameTransmit (p : Fin 12) (waits : Option Nat) : Statement (.frameTransmit p waits) :=
  fun _ _ h => absurd h List.not_mem_nil
theorem preemptVerify (p : Fin 12) (ok : Bool) : Statement (.preemptVerify p ok) :=
  fun _ _ h => absurd h List.not_mem_nil
theorem ethernetLinkUp (p : Fin 12) : Statement (.ethernetLinkUp p) :=
  fun _ _ h => absurd h List.not_mem_nil
theorem meshFlitCrcError (bridge : Option (Fin 4)) (site : Fin 8192) (face : Dir) (again : Bool) : Statement (.meshFlitCrcError bridge site face again) :=
  fun _ _ h => absurd h List.not_mem_nil
theorem meshLinkFail (site : Fin 8192) (face : Dir) : Statement (.meshLinkFail site face) :=
  fun _ _ h => absurd h List.not_mem_nil
theorem bridgeFail (b : Fin 4) : Statement (.bridgeFail b) :=
  fun _ _ h => absurd h List.not_mem_nil
theorem ceThreshold (u : CeUnit) (n : Nat) : Statement (.ceThreshold u n) :=
  fun _ _ h => absurd h List.not_mem_nil
theorem hbmPatrolRead (m : Fin 768) (ce ue : Bool) : Statement (.hbmPatrolRead m ce ue) :=
  fun _ _ h => absurd h List.not_mem_nil
theorem odeccStatusRead (m : Fin 768) (n : Nat) : Statement (.odeccStatusRead m n) :=
  fun _ _ h => absurd h List.not_mem_nil
theorem hbmRefresh (stack : Fin 24) (over85 : Bool) : Statement (.hbmRefresh stack over85) :=
  fun _ _ h => absurd h List.not_mem_nil
theorem pcIdleEntry (k : Fin 1536) : Statement (.pcIdleEntry k) :=
  fun _ _ h => absurd h List.not_mem_nil
theorem pcPowerDownEntry (k : Fin 1536) : Statement (.pcPowerDownEntry k) :=
  fun _ _ h => absurd h List.not_mem_nil
theorem pcWake (k : Fin 1536) : Statement (.pcWake k) :=
  fun _ _ h => absurd h List.not_mem_nil
theorem powerLoss (pwrok : Bool) (coreMv ioMv : Nat) : Statement (.powerLoss pwrok coreMv ioMv) :=
  fun _ _ h => absurd h List.not_mem_nil
theorem resetComplete : Statement .resetComplete :=
  fun _ _ h => absurd h List.not_mem_nil
theorem sealReleaseComplete (r : Fin 16) : Statement (.sealReleaseComplete r) :=
  fun _ _ h => absurd h List.not_mem_nil
theorem stopInterfaceComplete : Statement .stopInterfaceComplete :=
  fun _ _ h => absurd h List.not_mem_nil
theorem startInterface : Statement .startInterface :=
  fun _ _ h => absurd h List.not_mem_nil
theorem hoistTableCheckComplete (n : Fin 8) (err : HbmErrors) : Statement (.hoistTableCheckComplete n err) :=
  fun _ _ h => absurd h List.not_mem_nil
theorem fdTrainingDone (p : Fin 12) : Statement (.fdTrainingDone p) :=
  fun _ _ h => absurd h List.not_mem_nil
theorem fdAlignmentDone (p : Fin 12) : Statement (.fdAlignmentDone p) :=
  fun _ _ h => absurd h List.not_mem_nil
theorem ethernetLinkDown (p : Fin 12) : Statement (.ethernetLinkDown p) :=
  fun _ _ h => absurd h List.not_mem_nil
theorem hbmChannelFail (m : Fin 768) (status : BitVec 16) : Statement (.hbmChannelFail m status) :=
  fun _ _ h => absurd h List.not_mem_nil
theorem msixMaskClear (vec : Option (Fin 64)) : Statement (.msixMaskClear vec) :=
  fun _ _ h => absurd h List.not_mem_nil
theorem cacheEnableWrite (b : Bool) (lines : List (Nat × List Byte)) : Statement (.cacheEnableWrite b lines) :=
  fun h => of_checkLines h
theorem idleExitComplete : Statement .idleExitComplete :=
  fun _ _ h => absurd h List.not_mem_nil
theorem ptpDelayReqSend (p : Fin 12) : Statement (.ptpDelayReqSend p) :=
  fun _ _ h => absurd h List.not_mem_nil

end Sys2Proof.Laws.LineLength
end

