-- ==== Sys2Proof/Tests/Slice0.lean ====
section
/-! SUPPORT. Tests: ill-formed operands are refused by the checks; states and operands that meet the hypotheses of the statements, one
theorem each; and single steps whose expected results come from the manual's examples and tables. -/
namespace Sys2Proof.Tests
open Sys2Proof Sys2Proof.Machine

/-! ### Small states -/

/-- The device in RUN over an attached CXL link, with the host's memory, cache and master enables set. -/
def up : State :=
  { State.reset with
    pwr := { PowerState.reset with phase := .running, perst := false, pwrok := true }
    clk := { ClockState.reset with locked := true }
    cxl := { CxlState.reset with up := true, mode := true, memSpace := true, busMaster := true, cacheEn := true, memEn := true } }

/-- Ring 0 enabled with 16 entries, every slot and `ADMIN`, and two descriptors announced. -/
def ringUp : State := (up.setReg (ringBase 0) 0xFF809).setRing 0 { Ring.init with tail := 2, phase := true }

/-- A descriptor of ring 0 with these bytes, by index, and zeros elsewhere. -/
def desc (fs : List (Nat × Nat)) (n : Nat := 64) : Desc :=
  { ring := 0, bytes := (List.range n).map fun i => match fs.find? fun f => f.1 == i with | some f => BitVec.ofNat 8 f.2 | none => 0 }

/-- A host memory of these bytes from an address on. -/
def hostBytes (a : Nat) (bs : List Nat) : HostView := { cells := bs.zipIdx.map fun x => (a + x.2, BitVec.ofNat 8 x.1), absent := [], bad := [] }

/-! ### Small jobs -/

def conv0 : OutConv :=
  { fmt := 0, conv := 0, scheme := 0, cen := false, wlog2 := 0, satThr := 0, ufzThr := 0, nanThr := 0, s2 := 0, seed := 0, trows := 1, tinner := 256 }
/-- A template of no walk whose re-arm list has one entry. -/
def tmpl0 : Tmpl :=
  { desc := none, ring := 0, deep := false, kind := 0, slots := 4, lines := 1, spill := 0, spillEn := false, spillDir := 0, sinkTo := 0
    rearm := 0, rearmN := 1, region := none, off := 0 }
def port0 : InPort :=
  { cls := 0, mSeq := false, mIter := false, mSub := false, ring := 0, uses := 1, tkind := 0, ifmt := 0, ischeme := 0, role := 0, preg := 0
    pbax := 0, sport := 0 }
def entry0 : Entry :=
  { inMask := 1, lead := 0, outMask := 0, arr := 0, axis := 0, panel := 0, op := 0, loops := [(.m, 1), (.n, 1), (.k, 1), (.b, 1)], kc := 16, pe := 0
    causal := false, predKEn := false, predK := false, causalOfs := 0, pbase := 0, lenBind := 0, lenMask := 0, pbind := 0, fp32x := false
    prog := none, tmpl := 0 }
/-- A REDUCE station of site 0 with one input port and one entry. -/
def station0 : Station := { kind := 4, ctx := 0, site := 0, part := 0, ins := [port0], outs := [], ents := [entry0], convs := [] }
def rule0 : Rule :=
  { rec8 := false, usel := 0, hsel := false, gBf16 := false, nfFault := false, mconv := 0, alpha1 := 0, beta1 := 0, alpha2 := 0, beta2 := 0
    eps := 0, lambda := 0, mseed := 0, canary := conv0 }
/-- A Survey of one region, one template, one station and one rule. -/
def survey0 : Survey :=
  { target := 0, digest := [], fjob := 0, nSluice := 0, nRule := 1, mapGen := 0, stations := [station0], parts := [], tags := [], routes := []
    mus := [], regions := [{ base := 0x10000, len := 0x10000, kind := 0, isSealed := false }], tmpls := [tmpl0], rearms := [], rules := [rule0]
    prog := [] }
def layer0 : Layer :=
  { sfmt := 2, scheme := 0, frozen := false, conv := 0, vmode := false, rule := 0, rgCount := 0, rows := 1, cols := 16, rowsSh := 1
    state := 0x10000, s2f := 0, s2t := 0, fwdStg := 0, fwdN := 0, trnStg := 0, trnN := 0, seed := 0 }
/-- A layer table of one device and one layer. -/
def hoist0 : HoistTable :=
  { nn := 1, nd := 1, myNode := 0, myDev := 0, peers := [0], layers := [layer0], ovfBase := 0x18000, ovfLen := 0x1000, chunks := [] }
/-- Slot 0 as a load with its layer table leaves it. -/
def slot0 : Slot := { Slot.empty with survey := some survey0, hoist := some hoist0, rules := [0] }
/-- `ringUp` with slot 0 loaded. -/
def job : State := { ringUp with slots := [(0, slot0)] }
/-- A descriptor of ring 0 listed as started. -/
def startedAs (k : StartedKind) (serial : Nat := 0) : Started :=
  { serial := serial, ring := 0, index := 0, header := zeroBytes 16, namesSlot := true, arrived := 0, kind := k }
/-- `job` with this descriptor started. -/
def busy (k : StartedKind) : State := { job with cage := { job.cage with serial := 1, started := [startedAs k] } }
/-- A sealed region of one page at 0x4000_0000. -/
def sealed0 : Sealed :=
  { slots := 1, basePg := 0x40000, limitPg := 0x40001, kBind := [], bsetId := [], owner := [], members := [], teeBound := false, releasing := false }
/-- `ringUp` with a host window of 1 GiB at HBM address 0. -/
def win : State := { ringUp with cxl := { ringUp.cxl with dec := { committed := true, base := 0x4000000000, size := 0x40000000, ways := 1, error := false } } }
def loadJob0 : LoadJob := { desc := zeroBytes 64, waiting := false, checked := false }
/-- Host memory of zeros. -/
def noHost : HostView := { cells := [], absent := [], bad := [] }
/-- A COPY of 4 INT8 elements from host 0x1000 to device 0x1_0000: `spaces` is 0x40 for host to device. -/
def copy0 (spaces : Nat) : Desc := desc [(0, 6), (17, 0x10), (26, 1), (32, 0x99), (33, spaces), (36, 3)] 128

/-! ### Operands -/

theorem test_wellformed_descriptor : (Instr.nop { ring := 0, bytes := [] }).check = some .descriptor := by decide
theorem test_wellformed_line : (Instr.doorbellSnoop 0x40 [] []).check = some .line := by decide
theorem test_wellformed_access : (Instr.counterLowRead { off := 0x100, len := 9, tee := false }).check = some .access := by decide
theorem test_wellformed_nonce : (Instr.challenge 0 []).check = some .nonce := by decide
theorem test_wellformed_flit : (Instr.dataFlitReceive 0 { bytes := [], corrected := 0, uncorrected := 0 }).check = some .flit := by decide
theorem test_wellformed_boundary : (Instr.jtagSamplePreload [true] []).check = some .boundary := by decide
theorem test_wellformed_image : (Instr.fwCtlStage (2 ^ 25) false).check = some .image := by decide
theorem test_wellformed_pasid : (Instr.pageRequestTimeout (2 ^ 20) 0).check = some .pasid := by decide
theorem test_wellformed_address : (Instr.hostBar2Access (2 ^ 34) none 0).check = some .address := by decide
theorem test_wellformed_nop : (Instr.nop (desc [])).check = none := by decide

/-! ### The queue, time, ring checks -/

theorem wit_StepIdlesOneCycle : up.pending = [] ∧ up.clk.locked = true ∧ up.pwr.phase ≠ .held ∧ up.pwr.phase ≠ .lockLost ∧ up.clk.trim = 0 ∧
    State.reset.clk.locked = false := by decide
theorem wit_CommandsLeaveQueue : exec .jtagBypass up = .next { up with jtag := 0 } := rfl
theorem wit_HbmStaysCanonical : HbmCanonical State.reset := rfl
theorem wit_StepAnswers : step State.reset = .next State.reset ∧ step up = .next up.tick := ⟨rfl, rfl⟩
theorem wit_ClockStaysLegal : ClockLegal State.reset := ⟨by decide, by decide, fun _ h => nomatch h⟩
theorem wit_StoresStayBounded : StoresBounded State.reset := ⟨by decide, by decide, by decide, by decide⟩

/-- Ring 0 as `ringUp`, without `ADMIN` and with slots 0 to 3 alone. -/
def ringUser : State := up.setReg (ringBase 0) 0x7809 |>.setRing 0 { Ring.init with tail := 2, phase := true }

theorem wit_RingCommandChecks :
    (ringCmd (.nop (desc [(0, 0x0F)])) = some (nopSpec, desc [(0, 0x0F)]) ∧ unheld (.nop (desc [(0, 0x0F)])) ringUp = true ∧
      0x0F ≤ byteAt (desc [(0, 0x0F)]).bytes 0 ∧ 0x0F ≤ byteAt (desc [(0, 0xFF)]).bytes 0 ∧ ringUp.ringReady 0 1 false 0 = true) ∧
    (ringCmd (.biasSet (desc [(0, 0x0A)])) = some (biasSetSpec, desc [(0, 0x0A)]) ∧ ringUser.ringReady 0 1 false 0 = true ∧ ringUser.ringAdmin 0 = false) ∧
    (ringUser.ringReady 0 1 true 4 = true ∧ bitAt (ringUser.ringSlots 0) 4 = false ∧ byteAt (desc [(0, 1), (2, 4)]).bytes 2 % 8 = 4) ∧
    (ringUp.ringReady 0 1 false 0 = true ∧ reservedZero nopSpec (desc [(3, 1)]).bytes = false) ∧
    (reservedZero runStepSpec (desc [(0, 3)]).bytes = true ∧ runStepSpec.needsSurvey = true ∧ ringUp.loaded 0 = false ∧
      unheld (.runStep (desc [(0, 3)])) ringUp = true) := by decide

theorem wit_SmallRingCommandsAct :
    Starts nopSpec (desc []) ringUp ∧
    (Starts rearmSpec (desc [(0, 5)]) job ∧ (job.slot 0).survey = some survey0 ∧ survey0.tmpls[0]? = some tmpl0 ∧ 0 < tmpl0.rearmN) ∧
    (Starts rearmSpec (desc [(0, 5), (18, 1)]) job ∧ tmpl0.rearmN ≤ 1) ∧
    (Starts biasSetSpec (desc [(0, 10)]) ringUp ∧ leAt (desc [(0, 10)]).bytes 20 4 = 0) ∧
    (Starts biasSetSpec (desc [(0, 10), (20, 1)]) win ∧ 0 + 1 ≤ win.winSize / 2 ^ 21) ∧
    (Starts biasSetSpec (desc [(0, 10), (20, 1), (24, 1)]) win ∧ win.sealedIn ((win.winBase / 2 ^ 21) * 2 ^ 21) (2 ^ 21) = none) ∧
    (Starts powerSetSpec (desc [(0, 11), (20, 4)]) ringUp ∧ Starts powerSetSpec (desc [(0, 11), (20, 6)]) ringUp) ∧
    (Starts powerSetSpec (desc [(0, 11), (20, 7)]) ringUp ∧ Starts powerSetSpec (desc [(0, 11), (20, 3)]) ringUp ∧ ringUp.limitStep ≤ 0 ∧
      ringUp.fenceTie = none) ∧
    (let s := { ringUp with cage := { ringUp.cage with serial := 1, started := [{ startedAs (.fence 0 1 []) with ring := 1, arrived := ringUp.mclk }] } };
      Starts powerSetSpec (desc [(0, 11), (16, 1), (20, 7)]) s ∧ s.fenceTie.isSome = true ∧ leAt (desc [(0, 11), (16, 1), (20, 7)]).bytes 16 4 ≠ 0) ∧
    (let s := { win with sec := { win.sec with sealed := [(0, some { sealed0 with basePg := 0, limitPg := 1 })] } };
      Starts biasSetSpec (desc [(0, 10), (20, 1), (24, 1)]) s ∧ (s.sealedIn ((s.winBase / 2 ^ 21 + 0) * 2 ^ 21) (1 * 2 ^ 21)).isSome = true) := by
  unfold Starts; and_intros <;> decide

theorem wit_JobRingCommandsAct :
    (Starts runStepSpec (desc [(0, 3)]) job ∧ unheld (.runStep (desc [(0, 3)])) job = true ∧ job.ras.service = false ∧
      job.pwr.tripLimit = false ∧ (job.slot 0).stopped = false ∧ (job.slot 0).nextStep 0 = true ∧ job.lacksTable 0 = false) ∧
    (Starts runStepSpec (desc [(0, 3)]) { job with ras := { job.ras with service := true } }) ∧
    (Starts runStepSpec (desc [(0, 3)]) (job.setSlot 0 { slot0 with stopped := true }) ∧ unheld (.runStep (desc [(0, 3)]))
      (job.setSlot 0 { slot0 with stopped := true }) = true) ∧
    ((({ slot0 with lastStep := some 3 } : Slot).nextStep 0 = false) ∧ Starts runStepSpec (desc [(0, 3)]) (job.setSlot 0 { slot0 with lastStep := some 3 })) ∧
    (Starts surveyLoadSpec (desc [(0, 1)]) ringUp ∧ leAt (desc [(0, 1)]).bytes 24 8 < 256 ∧ ringUp.ras.service = false) ∧
    (Starts surveyLoadSpec (desc [(0, 1), (25, 1)]) ringUp ∧ leAt (desc [(0, 1), (25, 1)]).bytes 24 8 = 256 ∧ ringUp.loads = []) ∧
    (Starts surveyLoadSpec (desc [(0, 1), (25, 1)]) (busy (.surveyLoad loadJob0)) ∧ (busy (.surveyLoad loadJob0)).loads ≠ []) ∧
    (Starts stepParamsSpec (desc [(0, 4)]) job ∧ unheld (.setStepParams (desc [(0, 4)]) noHost) job = true ∧ (job.slot 0).stopped = false) ∧
    (Starts stepParamsSpec (desc [(0, 4), (24, 1)]) job) ∧
    (Starts (copySpec (copy0 0x40).bytes) (copy0 0x40) job ∧ job.copyCheck 0 (copy0 0x40).bytes = none) ∧
    (Starts (copySpec (copy0 0).bytes) (copy0 0) job ∧ job.copyCheck 0 (copy0 0).bytes = some 0x04) := by
  unfold Starts; and_intros <;> decide

def copyJob0 : CopyJob := { desc := (copy0 0x40).bytes, next := 0, bytes := 0, waiting := none, ended := none }
def barrierJob0 : BarrierJob := { fjob := 0, bid := 0, npart := 1, tmoLog2 := 10, sent := none }
def bundleJob0 : BundleJob := { header := [], region := 0, desc := zeroBytes 64, waiting := none }

theorem wit_OrderRingCommandsAct :
    (Starts fenceSpec (desc [(0, 7), (16, 2)]) job ∧ job.ringAdmin 0 = true) ∧
    (Starts fenceSpec (desc [(0, 7), (16, 1), (20, 8)]) ringUser ∧ leAt (desc [(0, 7), (16, 1), (20, 8)]).bytes 16 4 = 2 ^ 0 ∧
      ∀ n < 8, bitAt 8 n = true → bitAt (ringUser.ringSlots 0) n = true) ∧
    (Starts fenceSpec (desc [(0, 7), (16, 3)]) ringUser ∧ ringUser.ringAdmin 0 = false ∧ 3 ≠ 2 ^ 0) ∧
    (Starts barrierSpec (desc [(0, 8), (20, 10)]) job ∧ unheld (.barrier (desc [(0, 8), (20, 10)])) job = true ∧
      (job.slot 0).hoist = some hoist0 ∧ (job.slot 0).stopped = false) ∧
    (Starts barrierSpec (desc [(0, 8), (20, 9)]) job ∧ unheld (.barrier (desc [(0, 8), (20, 9)])) job = true) ∧
    (Starts killSpec (desc [(0, 9)]) job ∧ (job.slot 0).survey.isSome = true) ∧
    (Starts killSpec (desc [(0, 9)]) ringUp ∧ (ringUp.slot 0).survey = none ∧ (ringUp.slot 0).loading = false) ∧
    (Starts unloadSpec (desc [(0, 2)]) job ∧ job.running 0 = false ∧ job.loadQueued 0 = false) ∧
    job.cage.started = [] ∧
    (Starts unloadSpec (desc [(0, 2)]) (busy (.runStep 0)) ∧ (busy (.runStep 0)).running 0 = true) ∧
    (Starts unloadSpec (desc [(0, 2)]) ringUp ∧ ringUp.running 0 = false ∧ ringUp.loadQueued 0 = false) := by
  unfold Starts; and_intros <;> decide

/-- `ringUp` with a sealed region 0 that no Survey uses. -/
def sealUp : State := { ringUp with sec := { ringUp.sec with sealed := [(0, some sealed0)] } }
/-- A job whose Survey's region is sealed region 0. -/
def sealJob : State :=
  { job with sec := { job.sec with sealed := [(0, some { sealed0 with basePg := 0x10, limitPg := 0x20 })] }
             slots := [(0, { slot0 with survey := some { survey0 with regions := [{ base := 0x10000, len := 0x10000, kind := 0, isSealed := true }] } })] }

theorem wit_SealRingCommandsAct :
    (Starts sealReleaseSpec (desc [(0, 13)]) sealUp ∧ unheld (.sealRelease (desc [(0, 13)])) sealUp = true ∧ sealUp.sealedAt 0 = some sealed0 ∧
      sealUp.sealUsed sealed0 = false) ∧
    (Starts sealReleaseSpec (desc [(0, 13)]) sealJob ∧ unheld (.sealRelease (desc [(0, 13)])) sealJob = true ∧
      sealJob.sealUsed { sealed0 with basePg := 0x10, limitPg := 0x20 } = true) ∧
    (Starts sealReleaseSpec (desc [(0, 13), (16, 15)]) sealUp ∧ unheld (.sealRelease (desc [(0, 13), (16, 15)])) sealUp = true ∧
      sealUp.sealedAt 15 = none) ∧
    (Starts sealExportSpec (desc [(0, 14), (34, 1)]) sealUp ∧ unheld (.sealExport (desc [(0, 14), (34, 1)])) sealUp = true ∧
      sealed0.bundleLen ≤ leAt (desc [(0, 14), (34, 1)]).bytes 32 8) ∧
    (Starts sealExportSpec (desc [(0, 14)]) sealUp ∧ leAt (desc [(0, 14)]).bytes 32 8 < sealed0.bundleLen) ∧
    (Starts bundleLoadSpec (desc [(0, 12), (33, 0x10)]) ringUp ∧ unheld (.bundleLoad (desc [(0, 12), (33, 0x10)]) noHost) ringUp = true ∧
      leAt (desc [(0, 12), (33, 0x10)]).bytes 32 6 % 4096 = 0 ∧ ringUp.ras.service = false) ∧
    (let s : State := { ringUp with ras := { ringUp.ras with service := true } }; Starts bundleLoadSpec (desc [(0, 12)]) s ∧
      unheld (.bundleLoad (desc [(0, 12)]) noHost) s = true) ∧
    (Starts bundleLoadSpec (desc [(0, 12), (32, 1)]) ringUp ∧ unheld (.bundleLoad (desc [(0, 12), (32, 1)]) noHost) ringUp = true) := by
  unfold Starts; and_intros <;> decide

theorem noHost_range (t : Bool) (n a : Nat) : noHost.range t a n = .ok (List.replicate n 0) := by
  induction n generalizing a with
  | zero => rfl
  | succ n ih => simp [HostView.range, HostView.read, noHost] at ih ⊢; rw [ih]; rfl

theorem wit_RingCommandsEnd :
    (let s := (busy (.surveyLoad { loadJob0 with checked := true })).setSlot 0 { slot0 with loading := true };
      let v := { survey0 with stations := [], rules := [], nRule := 0 };
      let s := s.setSlot 0 { slot0 with loading := true, survey := some v, rules := [] };
      s.loads.length = 1 ∧ s.live = true ∧ (s.slot 0).survey = some v ∧ ({ s := s, n := 0, img := [], v := v } : Load).check09 = [] ∧
        ({ s := s, n := 0, img := [], v := v } : Load).check0A = [] ∧ s.loadWaits v = false) ∧
    (let s := (busy (.runStep 0)).setSlot 0 { slot0 with survey := some { survey0 with nRule := 0, stations := [] } };
      s.stepsOf 0 = [(startedAs (.runStep 0), 0)] ∧ (s.slot 0).stopped = false ∧ s.stationsDone 0 = true ∧ s.updatesDone 0 0 = true ∧
        s.sluicesDone 0 0 = true) ∧
    ((((busy (.runStep 0)).setSlot 0 { slot0 with stopped := true }).slot 0).stopped = true) ∧
    ((startedAs (.copy { copyJob0 with next := 4 })).kind = .copy { copyJob0 with next := 4 } ∧ copyTotal copyJob0.desc ≤ 4 ∧
      (busy (.copy { copyJob0 with next := 4 })).live = true ∧ (busy (.copy copyJob0)).busOn = true ∧ bitOf copyJob0.desc 34 0 = false ∧
      copyJob0.next < copyTotal copyJob0.desc) ∧
    ((busy (.fence 1 0 [])).allDone [] = true ∧ (busy (.fence 1 0 [])).streamsIdle 0 = true ∧ (busy (.fence 1 0 [])).allDone [0] = false) ∧
    ((busy (.barrier { barrierJob0 with sent := some 0 } [])).passed 0 = true ∧
      (busy (.barrier { barrierJob0 with sent := some 0 } [])).passed 1 = false) ∧
    (let s := { busy (.sealExport bundleJob0) with sec := sealUp.sec };
      s.engineJob = some (startedAs (.sealExport bundleJob0)) ∧ s.sealedAt 0 = some sealed0 ∧ s.firstUe sealed0.base sealed0.len = none) ∧
    ((busy (.bundleLoad bundleJob0)).engineJob = some (startedAs (.bundleLoad bundleJob0)) ∧
      ({ bundleJob0 with header := zeroBytes 16 } : BundleJob).header ≠ [] ∧ (busy (.bundleLoad bundleJob0)).busOn = true) := by
  and_intros <;> decide

theorem wit_RingCommandsEnd_view : noHost.range false 0 sealed0.bundleLen = .ok (List.replicate sealed0.bundleLen 0) := noHost_range _ _ _

theorem wit_ScrubsEmptyAndZero :
    (((job.setSlot 0 { slot0 with killing := true }).slot 0).killing = true ∧ (0x10000 : Nat) ≤ 0x1FFFF) ∧
    (let s := { sealUp with sec := { sealUp.sec with sealed := [(0, some { sealed0 with releasing := true })] } };
      s.sealedAt 0 = some { sealed0 with releasing := true }) ∧
    ({ up with sec := { up.sec with dbg := .scrubbing } } : State).sec.dbg = .scrubbing := by
  and_intros <;> decide

/-! ### Polls, registers, enables -/

/-- `ringUp` with its limit of outstanding commands reached: the records of 15 commands stand unread. -/
def full : State := (up.setReg (ringBase 0) 0xFF809).setRing 0 { Ring.init with tail := 2, phase := true, cqTail := 15 }
/-- `up` with the event ring of 2 entries enabled and full. -/
def evUp : State := { up.setReg 0xA040 3 with cage := { up.cage with evTail := 1 } }

theorem wit_RingWordsAreTaken :
    (ringUp.live = true ∧ ringUp.cxl.up = true ∧ ringUp.cxl.mode = true ∧ ringUp.cxl.cacheEn = true ∧ ringUp.cxl.cageStopped = false ∧ 0 ∈ ringUp.ringsOf 0 ∧ (ringUp.ring 0).err = false ∧
      leAt (zeroBytes 64) (8 * ringUp.ringDbWord 0) 2 < ringUp.ringSize 0 ∧ ringUp.ringSize 0 ≤ leAt (leBytes 64 16) (8 * ringUp.ringDbWord 0) 2 ∧
      leAt (leBytes 64 15) (8 * ringUp.ringDbWord 0) 2 < ringUp.ringSize 0) ∧
    (full.cageRuns = true ∧ full.limitHolds 0 = true) ∧ (evUp.live = true ∧ evUp.evqEn = true ∧ evUp.busOn = true ∧ evUp.evqFull = true) := by
  and_intros <;> decide

theorem wit_WriteOpen : WriteOpen false up ∧ WriteOpen true { up with cxl := { up.cxl with tdi := .run } } := by
  unfold WriteOpen; and_intros <;> decide

theorem wit_RegisterAccess :
    (wholeWords 0x3FFC (zeroBytes 4) = some [(0x3FFC, 0)] ∧ regFields 0x3FFC = []) ∧
    (wholeWords 0x1000 (zeroBytes 3) = none ∧ wholeWords 0x1004 (zeroBytes 8) = none ∧ up.barOpen = true ∧ up.pwr.resetting = none) ∧
    (isCounterLow 0x100 = true ∧ isCounterLow 0x9100 = true ∧ up.pwr.phase ≠ .recovery ∧ up.cxl.tdi ≠ .run) := by
  and_intros <;> decide

theorem wit_CounterClears : isCu 0 = true ∧ isCu 1 = false := by decide

theorem wit_EnableBitsAct :
    (up.ringEn 0 = false ∧ up.ringActive 0 = false ∧ ({ up with cxl := { up.cxl with cacheEn := false } } : State).ringEn 0 = false ∧
      WriteOpen false { up with cxl := { up.cxl with cacheEn := false } } ∧ bitAt (0xFF809#32).toNat 0 = true ∧ bitAt (0#32).toNat 0 = false) ∧
    up.evqEn = false ∧ (up.running 7 = false ∧ up.rfBit (jobBase 7 + 0x38) 0 = false ∧ up.rfBit (jobBase 7 + 0x08) 0 = false) ∧
    up.clk.sync = .free ∧ ({ up with clk := { up.clk with sync := .root } } : State).clk.sync ≠ .free := by
  unfold WriteOpen; and_intros <;> decide

/-! ### Debug unlock, service, firmware -/

/-- `up` in the middle of a device reset. -/
def resettingUp : State := { up with pwr := { up.pwr with resetting := some { kinds := [.perst], memClear := false, reboot := true } } }

theorem wit_ChallengeServesOneSubmit :
    (up.sec.dbg ≠ .verifying ∧ up.sec.dbg ≠ .scrubbing) ∧
    resettingUp.pwr.resetting = some { kinds := [.perst], memClear := false, reboot := true } ∧ up.clk.locked = true ∧ 549 < 550 := by
  and_intros <;> decide

/-- A zero token fails at its magic number. -/
theorem wit_SubmitChecksInOrder : leAt up.token 0 4 ≠ 0x4B4F5444 ∧ up.sec.dbg = .locked ∧
    ({ up with sec := { up.sec with dbg := .unlocked } } : State).sec.dbg = .unlocked := by
  and_intros <;> decide

theorem wit_UnlockOpensAfterScrub :
    (let s : State := { up with sec := { up.sec with dbg := .scrubbing, sealed := [(0, some sealed0)] } };
      s.sec.dbg = .scrubbing ∧ (∀ n < 8, (s.slot n).killing = false) ∧ s.sealedAt 0 = some sealed0) ∧
    ((job.setSlot 7 { slot0 with killing := true }).slot 7).killing = true := by
  and_intros <;> decide

/-- `up` with site 0 in a state. -/
def siteIn (u : UnitState) : State := { up with ras := { up.ras with units := [(0, u)], testSince := [] }, clk := { up.clk with root := msRoot 4 } }

theorem wit_UnitServiceMovesSites :
    ((siteIn .fenced).unit 0 = .fenced ∧ (siteIn .fenced).siteInUse 0 = false) ∧
    (({ siteIn .fenced with slots := [(0, { slot0 with survey := some { survey0 with parts := [
      { site := 0, ctx := 0, acc := ⟨0, 0⟩, panel := ⟨0, 0⟩, ring := ⟨0, 0⟩, row := ⟨0, 0⟩, mtch := ⟨0, 0⟩, winMask := 0, agMask := 0, spillMask := 0 }] } })] }
      : State).siteInUse 0 = true) ∧
    up.unit 0 ≠ .fenced ∧ (siteIn .routerOnly).unit 0 = .routerOnly ∧ up.unit 0 ≠ .routerOnly ∧ up.live = true ∧
    up.justFenced 0 = false ∧ ({ up with ras := { up.ras with fencedAt := [(0, up.mclk)] } } : State).justFenced 0 = true ∧
    ((siteIn .testing).unit 0 = .testing ∧ tblGet (fun _ => 0) (siteIn .testing).ras.testSince 0 + msRoot 4 ≤ (siteIn .testing).clk.root) := by
  and_intros <;> decide

/-- `up` with the gate of non-volatile operations open. -/
def gateUp : State := { up with clk := { up.clk with root := msRoot 10 + 8 } }

/-- The keys and signatures of images are open values: an image either passes or fails, and both answers have states. -/
theorem wit_ImagesAreCheckedAndWritten :
    (up.live = true ∧ up.ras.fwState ≠ .writing) ∧ (gateUp.imageOk [] = false ∨ gateUp.imageOk [] = true) ∧ gateUp.nvOpen = true ∧
    (NvOp.flashImage ∈ ({ up with pwr := { up.pwr with nvRunning := [.flashImage] } } : State).pwr.nvRunning) ∧
    ({ up with pwr := { up.pwr with phase := .booting } } : State).pwr.phase = .booting ∧
    CycleEnds { gateUp with pwr := { gateUp.pwr with nvWait := [{ op := .flashImage, since := 0, starting := true }] } } := by
  unfold CycleEnds; and_intros <;> first | decide | exact Bool.eq_false_or_eq_true _ | exact (Bool.eq_false_or_eq_true _).symm

theorem wit_ActivateResetsAndReboots :
    up.rf 0x7080 25 4 = 0 ∧ job.loaded 0 = true ∧ (0, some { sealed0 with teeBound := true }) ∈ [(0, some { sealed0 with teeBound := true })] ∧
    (∀ n < 8, up.loaded n = false) ∧ up.sec.sealed = [] ∧ resettingUp.pwr.resetting.isSome = true := by
  and_intros <;> decide

theorem wit_CommitBurnsForGood :
    (let s : State := { up with sec := { up.sec with bootSvn := 1 } }; s.sec.rollback < s.sec.bootSvn ∧ s.rf 0x7080 25 4 = 0 ∧
      WriteOpen false s) ∧
    (let s : State := { gateUp with pwr := { gateUp.pwr with nvWait := [{ op := .counter 63, since := 0, starting := true }] } };
      CycleEnds s ∧ s.pwr.nvWait = [{ op := .counter 63, since := 0, starting := true }]) ∧
    gateUp.nvOpen = true ∧ up.nvOpen = false ∧ Config.imageSvn [] % 64 < 64 ∧
    (let s : State := { up with pwr := { up.pwr with phase := .recovery } }; s.barOpen = true ∧ s.pwr.resetting = none ∧ s.cxl.tdi ≠ .run) := by
  unfold WriteOpen CycleEnds; and_intros <;> first | decide | exact Nat.mod_lt _ (by decide)

/-! ### Configuration, TDI, IDE, SPDM -/

/-- `up` with the TDI in a state and one open session. -/
def tdi (x : TdiState) : State := { up with cxl := { up.cxl with tdi := x }, sec := { up.sec with sessions := [{ id := 0, keyGen := 0 }] } }

theorem wit_ConfigurationWritesAct :
    (up.configOpen = true ∧ up.tdiFrozen = false ∧ up.cxl.busMaster = true) ∧
    (let s : State := { up with cxl := { up.cxl with busMaster := false } }; s.configOpen = true ∧ s.tdiFrozen = false ∧
      s.cxl.busMaster = false ∧ s.cxl.mode = true ∧ s.cxl.d3 = false ∧ s.cxl.tdi ≠ .error) ∧
    (up.cxl.dec.committed = false ∧ up.live = true ∧ up.cxl.up = true ∧ win.configOpen = true ∧ win.tdiFrozen = false) ∧
    up.cxl.priEn ≠ true ∧ win.cxl.dec.committed = true ∧
    (up.cxl.mode = true ∧ up.winSize ≠ 2 ^ 30 ∧ up.winSize = up.winSize ∧ up.winBase + up.winSize ≤ hbmSize) ∧
    (hbmSize < (up.setReg 0x900C 0x3FFF).winBase + (up.setReg 0x900C 0x3FFF).winSize) ∧
    ((tdi .locked).configOpen = true ∧ (tdi .locked).tdiFrozen = true ∧ (tdi .run).tdiFrozen = true ∧ (tdi .locked).cxl.busMaster ≠ false ∧
      (tdi .locked).cxl.priEn ≠ true ∧ ((tdi .locked).applyItem (.bars 1)).2 = some 1 ∧
      ((tdi .locked).applyItem (.bars 1)).1 ≠ tdi .locked ∧ (tdi .locked).live = true ∧ (tdi .locked).cxl.mode = true) ∧
    (let s : State := { up with pwr := { up.pwr with phase := .booting } }; s.configOpen = false ∧ s.cxl.up = true) := by
  and_intros <;> decide

theorem wit_MaskedVectorsStayPending :
    (({ up with cxl := { up.cxl with msixFnMask := true, msixMasked := 0 } } : State).cxl.msixFnMask = true ∧ up.cxl.msixMasked.getLsbD 63 = true) ∧
    (({ up with cxl := { up.cxl with msixMasked := 0 } } : State).cxl.msixFnMask = false) ∧ up.tdiFrozen = false ∧
    up.cxl.msixFnMask = false ∧ (0#64).getLsbD 63 = false ∧ (up.live = true ∧ up.cxl.up = true ∧ up.cxl.mode = true) ∧
    ({ up with cxl := { up.cxl with msixFnMask := true, msixMasked := 1 } } : State).cxl.msixMasked.getLsbD 1 = false ∧
    up.clk.locked = true ∧ (let p := { kinds := [.perst], memClear := false, reboot := false };
      ({ up with pwr := { up.pwr with resetting := some p } } : State).pwr.resetting = some p) := by
  and_intros <;> decide

theorem wit_InterfaceMoves :
    (let s : State := { tdi .unlocked with cxl := { (tdi .unlocked).cxl with ide := [(0, ⟨.secure, false, none⟩), (1, ⟨.secure, false, none⟩)] } };
      s.live = true ∧ s.cxl.up = true ∧ s.sec.sessions ≠ [] ∧ s.cxl.tdi = .unlocked ∧ (s.ideKeys .link).state = .secure ∧
        (s.ideKeys .cachemem).state = .secure ∧ s.sec.dbg = .locked ∧ ∀ n < 8, s.loaded n = false) ∧
    ((tdi .locked).cxl.tdi ≠ .unlocked ∧ (tdi .locked).cxl.tdi = .locked ∧ (tdi .run).cxl.tdi ≠ .locked) ∧
    ((∃ n < 8, job.loaded n = true) ∧ (job.ideKeys .link).state ≠ .secure ∧
      ({ up with sec := { up.sec with dbg := .unlocked } } : State).sec.dbg ≠ .locked) ∧
    (let s : State := { tdi .run with slots := [(0, slot0)], sec := { up.sec with sealed := [(0, some { sealed0 with teeBound := true })] } };
      s.cxl.tdi ≠ .unlocked ∧ s.loaded 0 = true ∧ (0, some { sealed0 with teeBound := true }) ∈ s.sec.sealed) ∧
    (let s : State := { up with cxl := { up.cxl with stopping := true }, sec := { up.sec with sealed := [(0, some sealed0)] } };
      s.cxl.stopping = true ∧ (∀ n < 8, (s.slot n).killing = false) ∧ sealed0.releasing = false ∧
      s.sec.sealed = [(0, some sealed0)]) := by
  and_intros <;> decide

theorem wit_IdeStreamsMove :
    (let s : State := { tdi .unlocked with cxl := { (tdi .unlocked).cxl with ide := [(0, ⟨.secure, false, some true⟩)] } };
      s.live = true ∧ s.cxl.up = true ∧ s.sec.sessions ≠ [] ∧ (s.ideKeys .link).programmed = some true ∧ s.tdiFrozen = false ∧
        (s.ideKeys .link).state = .secure ∧ s.cxl.tdi ≠ .run) ∧ (tdi .run).tdiFrozen = true ∧
    (let s : State := { tdi .run with cxl := { (tdi .run).cxl with ide := [(0, ⟨.secure, false, none⟩)] } };
      s.cxl.tdi = .run ∧ s.cxl.up = true ∧ (s.ideKeys .link).state = .secure) := by
  and_intros <;> decide

/-- `up` with the SPDM connection in a state and four sessions. -/
def spdm (c : SpdmConn) (n : Nat) : State :=
  { up with sec := { up.sec with conn := c, sessions := (List.range n).map fun i => { id := i, keyGen := 0 } } }

theorem wit_ResponderAnswers :
    (up.live = true ∧ (spdm .version 0).sec.conn ≠ .none ∧ (spdm .version 0).sec.conn ≠ .failed) ∧ (spdm .capabilities 0).sec.conn = .capabilities ∧
    ((spdm .negotiated 3).sec.conn = .negotiated ∧ (spdm .negotiated 3).sec.sessions.length < 4 ∧ 4 ≤ (spdm .negotiated 4).sec.sessions.length) ∧
    (up.sec.conn ≠ .negotiated ∧ up.sec.conn = .none ∧ (spdm .failed 0).sec.conn = .failed) ∧ ({ id := 3, keyGen := 0 } : SpdmSession) ∈ (spdm .negotiated 4).sec.sessions ∧ up.cxl.up = true ∧
    ((true = true ∨ false = true) ∧ ({ up with cxl := { up.cxl with up := false } } : State).live = true) := by
  and_intros <;> decide

theorem wit_TestPortActs : up.pwr.phase = .running ∧ up.pwr.perst = false ∧ ({ up with pwr := { up.pwr with perst := true } } : State).pwr.perst = true := by
  decide

/-! ### Host memory, BAR2, translations, links -/

/-- `win` with a sealed region in the last page of the window. -/
def winSeal : State := { win with sec := { win.sec with sealed := [(0, some { sealed0 with basePg := 0x3FFFF, limitPg := 0x40000 })] } }

theorem wit_HostMemoryServed :
    (win.memOpen = true ∧ win.cxl.tdi ≠ .error ∧ win.pwr.idle = 0 ∧ win.pwr.a4Wait = false) ∧
    (win.windowAddr (64 * (0x4000000000 / 64)) = some 0 ∧ win.sealedIn 0 64 = none ∧ 0 ∉ win.hbm.ue) ∧
    (win.windowAddr (64 * (0x403FFFFFFF / 64)) = some 0x3FFFFFC0 ∧ win.sealedIn 0x3FFFFFC0 64 = none ∧ 0x3FFFFFC0 / 64 ∉ win.hbm.ue) ∧
    (winSeal.memOpen = true ∧ winSeal.windowAddr (64 * (0x403FFFF000 / 64)) = some 0x3FFFF000 ∧
      winSeal.sealedIn 0x3FFFF000 64 = some (0, { sealed0 with basePg := 0x3FFFF, limitPg := 0x40000 })) := by
  and_intros <;> decide

/-- `up` with scratchpad debug open, and page 0 of a memory unit dirty or not. -/
def spadUp (dirty : Bool) : State :=
  { up with sec := { up.sec with dbg := .unlocked, scope := 0xFFFF }, flow := { up.flow with dirty := if dirty then [pageKey 1 0] else [] } }

theorem wit_BarTwoServed :
    (up.live = true ∧ up.barOpen = true ∧ up.cxl.mode = true ∧ up.spadOpen = false) ∧ 8192 ≤ 2 ^ 34 / 2 ^ 21 ∧
    isCu (0 / 2 ^ 21) = true ∧
    (let s := spadUp true; let off := 1 * 2 ^ 21 + 7; s.live = true ∧ s.barOpen = true ∧ s.cxl.mode = true ∧ s.spadOpen = true ∧
      off / 2 ^ 21 < 8192 ∧ isCu (off / 2 ^ 21) = false ∧ s.pwr.idle = 0 ∧ s.pwr.a4Wait = false ∧
      s.bank (off / 2 ^ 21) (lineBank (off % 2 ^ 21 / 64)) = .active ∧ s.pageDirty (off / 2 ^ 21) (off % 2 ^ 21 / 4096) = true) ∧
    (let s := spadUp false; let off := 1 * 2 ^ 21 + 7; s.spadOpen = true ∧ s.pageDirty (off / 2 ^ 21) (off % 2 ^ 21 / 4096) = false ∧
      off / 2 ^ 21 * 2 ^ 18 + off % 2 ^ 21 / 8 ∉ s.flow.scratchUe) ∧
    (let s : State := { spadUp false with flow := { (spadUp false).flow with scratchUe := [2 ^ 18] } }; let off := 1 * 2 ^ 21 + 7;
      s.spadOpen = true ∧ s.pageDirty (off / 2 ^ 21) (off % 2 ^ 21 / 4096) = false ∧
      off / 2 ^ 21 * 2 ^ 18 + off % 2 ^ 21 / 8 ∈ s.flow.scratchUe) := by
  and_intros <;> decide

/-- `up` with address translation on, and page requests. -/
def atsUp (alloc : Nat) (pri : List PageReq) : State :=
  { up with cxl := { up.cxl with atsEn := true, pasidEn := true, priEn := true, priAlloc := alloc, pri := pri } }
def page5 (ws : List Waiter) : PageReq := { pasid := 1, page := 5, deadline := 0, waiters := ws }

theorem wit_TranslationsMove :
    (let s : State := { atsUp 4 [] with cxl := { (atsUp 4 []).cxl with invAt := 1, invs := [(1, 5, 2)] } }; s.live = true ∧ s.cxl.up = true ∧
      s.cxl.atsEn = true ∧ s.cxl.pasidEn = true ∧ s.cxl.invAt = s.mclk ∧ ((1, 5, 2) ∈ s.cxl.invs ∧ 0 < 2) ∧ ∀ e ∈ s.cxl.atc, e.since ≠ s.mclk) ∧
    (let s := atsUp 4 []; s.live = true ∧ s.cxl.up = true ∧ s.cxl.atsEn = true ∧ s.cxl.pasidEn = true ∧ s.cxl.invAt ≠ s.mclk ∧ s.cxl.priEn = true ∧
      s.cxl.priSuppressed = false ∧ (∀ p ∈ s.cxl.pri, ¬ (p.pasid = 1 ∧ p.page = 5)) ∧ s.cxl.pri.length < min 512 s.cxl.priAlloc) ∧
    (let s := atsUp 0 []; min 512 s.cxl.priAlloc ≤ s.cxl.pri.length) ∧
    (let s := atsUp 4 [page5 [.cmd 0]]; s.cxl.pri.find? (fun p => p.pasid == 1 && p.page == 5) = some (page5 [.cmd 0]) ∧ s.cxl.priWait = []) ∧
    (let s := atsUp 4 [page5 []]; s.cxl.pri.find? (fun p => p.pasid == 1 && p.page == 5) = some (page5 []) ∧ s.cxl.priWait = [] ∧
      s.passed (page5 []).deadline = true ∧ s.cxl.pri = [page5 []]) := by
  and_intros <;> decide

theorem wit_HostLinkMoves :
    (let s := { up with cxl := { up.cxl with up := false } }; s.cxl.up = false ∧ s.pwr.phase = .running ∧ s.cxl.orphan = false) ∧
    (up.cxl.up = true ∧ up.pwr.resetting = none ∧ (∀ n < 8, up.loaded n = false ∧ (up.slot n).loading = false) ∧ (∀ k < 32, up.ringEn k = false) ∧
      up.pwr.idle = 0) ∧ (job.cxl.up = true ∧ job.pwr.resetting = none ∧ job.loaded 0 = true) ∧
    (let s : State := { job with cxl := { job.cxl with up := false, hostLoss := true }, slots := [(0, { slot0 with killing := true })] };
      s.cxl.hostLoss = true ∧ s.cxl.up = false ∧ (s.slot 0).killing = true ∧ s.pwr.idle < 2 ∧
      ∀ k < 8, k ≠ 0 → (s.slot k).killing = false) := by
  and_intros <;> decide

/-! ### Resets, power, temperature, idle -/

/-- `s` with fields of its power state changed. -/
def withPwr (s : State) (f : PowerState → PowerState) : State := { s with pwr := f s.pwr }
def withClk (s : State) (f : ClockState → ClockState) : State := { s with clk := f s.clk }

theorem wit_ResetsForget :
    (State.reset.pwr.phase = .held ∧ State.reset.pwr.pwrok = false ∧ State.reset.pwr.thermTrip = false ∧ 550 ≤ 550 ∧ 1620 ≤ 1620) ∧
    (let s := withPwr State.reset fun p => { p with pwrok := true }; s.pwr.phase = .held ∧ s.pwr.pwrok = true ∧ s.pwr.thermTrip = false) ∧
    up.clk.locked = true ∧ (549 < 550 ∧ NvOp.flashImage ∉ up.pwr.nvRunning) ∧ up.pwr.thermTrip = false ∧ up.jtag ≠ 3 ∧
    (job.pwr.phase = .running ∧ (withPwr job fun p => { p with pwrok := true }).pwr.pwrok = true ∧ job.pwr.resetting = none ∧
      job.loaded 0 = true ∧ job.cxl.up = true) ∧
    (let s := withPwr up fun p => { p with resetting := some { kinds := [.perst], memClear := false, reboot := false } };
      s.pwr.resetting = some { kinds := [.perst], memClear := false, reboot := false } ∧ keptReg 0x6000 = false) := by
  and_intros <;> decide

def calm : Sensors :=
  { junction := 60, stack := 60, stacksOver95 := 0, stacksUnder90 := 0, stacksOver85 := 0, watts := 100, allUnder95 := true, regWarning := false }

theorem wit_PowerEventsAct :
    (up.pwr.phase = .running ∧ up.rf 0x6010 0 8 < 109 ∧ up.baseStep + up.clk.thermSteps < 3) ∧
    (up.capWatts < 2401 ∧ up.baseStep + up.clk.powerSteps < 3) ∧
    (job.pwr.phase = .running ∧ 110 < { calm with junction := 111, allUnder95 := false }.junction ∧ job.pwr.tripLimit = false ∧ job.loaded 0 = true) ∧
    105 < { calm with stack := 106, allUnder95 := false }.stack ∧ (up.clk.regWarn = false ∧ up.clk.req ≤ 3) ∧
    (let s := withClk up fun c => { c with volt := some { step := 0, since := 0 }, root := usRoot 200 };
      s.clk.volt = some { step := 0, since := 0 } ∧ 0 + usRoot 200 ≤ s.clk.root) ∧
    (let s := withClk up fun c => { c with root := 480, req := 2 }; s.clk.locked = true ∧ s.clk.root % 240 = 0 ∧ s.clk.req ≠ s.clk.step) ∧
    (let s := withClk up fun c => { c with setPoint := 750 }; s.pwr.phase ≠ .held ∧ 709 + 40 < s.clk.setPoint ∧ s.clk.sagThrottle = false ∧
      s.clk.req ≤ 3 ∧ 1739 < 1740) ∧
    (let s := withPwr (withClk up fun c => { c with setPoint := 750 }) fun p => { p with coreLow := true };
      s.clk.setPoint ≤ 710 + 40 ∧ s.pwr.coreLow = true ∧ (withPwr up fun p => { p with ioLow := true }).pwr.ioLow = true) ∧
    (let s := withPwr (withClk up fun c => { c with root := usRoot 100, sagThrottle := true }) fun p => { p with railsBack := some 0 };
      s.pwr.railsBack = some 0 ∧ 0 + usRoot 100 ≤ s.clk.root ∧ s.clk.sagThrottle = true) ∧
    (let s := withPwr (withClk up fun c => { c with root := msRoot 1000 }) fun p =>
        { p with nvWait := [{ op := .flashImage, since := 0, starting := false }], coreLow := true };
      s.pwr.nvWait = [{ op := .flashImage, since := 0, starting := false }] ∧ s.nvOpen = false ∧ 0 + msRoot 1000 ≤ s.clk.root) := by
  and_intros <;> decide

/-- `up` idle for long enough, with the wake time the host allows and IDLE_US of 1. -/
def idleUp (wake : Nat) : State :=
  (withPwr (withClk up fun c => { c with root := usRoot 1000000 }) fun p => { p with wakeUs := wake, idleSince := 0 }).setReg 0x6000 1
/-- The manager's word stands and port 0 is up. -/
def managed (s : State) : State := (s.setPort 0 { s.port 0 with phase := .up }).setReg (portBase 0) 1
def settled (s : State) : State := { s with fab := { s.fab with settled := true, mgr := some 1 } }

theorem wit_IdleStatesMove :
    (let s := idleUp 400; s.live = true ∧ s.deviceIdle = true ∧ s.pwr.idle = 0 ∧ s.pwr.a4Wait = false ∧ s.permitted = 3 ∧
      s.pwr.idleSince + usRoot (s.reg 0x6000) ≤ s.clk.root) ∧
    (let s := settled (managed (idleUp 5000)); s.live = true ∧ s.deviceIdle = true ∧ s.permitted = 4 ∧ s.fabManaged = true ∧ s.portsUp = true) ∧
    (let s := idleUp 5000; s.permitted = 4 ∧ s.fabManaged = false ∧ s.pwr.idle = 0 ∧ (settled (idleUp 5000)).portsUp = false) ∧ (idleUp 1).permitted = 0 ∧
    (let s := withPwr (idleUp 5000) fun p => { p with a4Wait := true }; s.pwr.a4Wait = true ∧ s.deviceIdle = true ∧ s.permitted = 4) ∧
    (let s := withPwr up fun p => { p with idle := 4, waking := some .throttle };
      s.pwr.idle = 4 ∧ s.pwr.waking = some .throttle ∧ s.pwr.heldMem = [] ∧ s.pwr.heldWrites = [] ∧ s.flow.bankWait = []) := by
  and_intros <;> decide

/-! ### Tokens, firings, arrays, scratchpads -/

def ring0 : RingRun := { slot := 0, ctx := 0, station := 0, port := 0, tmpl := 0, toks := [], tail := 0, credits := 4, freed := 0, spill := [] }
def tok0 (p : Payload := .data (zeroBytes 64)) : Token := { tag := 0, pay := p }
def flight0 : Flight := { slot := 0, src := none, site := 0, ring := 0, credit := true, tok := tok0 }
def held0 (p : Payload) : Held := { tok := tok0 p, pos := 0, order := 0, used := 0, indexed := some 0 }
/-- `job` with this station and its ring. -/
def jobOf (st : Station) (g : RingRun := ring0) : State :=
  ({ job with slots := [(0, { slot0 with survey := some { survey0 with stations := [st] } })] } : State).setRng 0 0 (some g)
def withFlights (fs : List Flight) (s : State) : State := { s with flow := { s.flow with flights := fs } }
def refOf (st : Station) : StRef := { slot := 0, survey := { survey0 with stations := [st] }, idx := 0, st := st, dev := 0 }

theorem wit_TokensLand :
    (let s := withFlights [flight0] up; s.flow.flights[0]? = some flight0 ∧
      (∀ g ∈ s.flow.flights.take 0, ¬ (g.src = flight0.src ∧ g.site = flight0.site ∧ g.ring = flight0.ring)) ∧ s.rng 0 0 = none) ∧
    (let s := withFlights [flight0] (jobOf station0); s.rng 0 0 = some ring0 ∧ ring0.slot = flight0.slot ∧ tagSlot flight0.tok.tag = ring0.slot ∧
      (s.slot 0).killing = false ∧ s.ringTmpl ring0 = some tmpl0 ∧ s.ringPort ring0 = some (refOf station0, port0) ∧
      (s.land flight0 ring0 tmpl0 (checkedToken tmpl0 flight0.tok)).1.isSome = true ∧ ring0.slot < 8 ∧ (s.slot 0).survey.isSome = true) ∧
    (let g := { ring0 with credits := 0, toks := List.replicate 4 (held0 (.data [])) }; let f := { flight0 with credit := false };
      let s := withFlights [f] (jobOf station0 g); (s.land f g tmpl0 (checkedToken tmpl0 f.tok)).1 = none) ∧
    ({ ring0 with slot := 1 } : RingRun).slot ≠ flight0.slot ∧
    (let g := { ring0 with freed := 1 }; let s := jobOf station0 g; s.rng 0 0 = some g ∧ g.freed ≠ 0 ∧ g.spill = []) ∧
    (let k := { line := 0, tok := tok0 }; let g := { ring0 with freed := 1, spill := [k] }; let s := jobOf station0 g;
      let b := s.accessBanks 0 ((s.spillLines 0 0 k.line k.tok.lines).map lineBank).dedup; let g1 := { g with spill := [], freed := 0 };
      s.rng 0 0 = some g ∧ g.spill = [k] ∧ s.ringTmpl g = some tmpl0 ∧ s.ringPort g = some (refOf station0, port0) ∧
      tmpl0.spillSite 0 = 0 ∧ b.2 = true ∧ b.1.spillUe 0 0 k = none ∧
      ((b.1.setRng 0 0 (some g1)).intoRing 0 0 g1 tmpl0.slots k.tok).isSome = true) ∧
    (let k := { line := 0, tok := tok0 }; let s := (jobOf station0 { ring0 with freed := 1, spill := [k] }).setBank 0 (lineBank 0) .retain;
      (s.accessBanks 0 ((s.spillLines 0 0 k.line k.tok.lines).map lineBank).dedup).2 = false) := by
  and_intros <;> decide

def issue0 : Issue := { entry := 0, step := 0, limits := List.replicate 4 none, tag := 0, count := 0 }
def firing0 (p : Payload) : Firing := { entry := 0, tag := 0, toks := [(0, held0 p)], last := 0 }
/-- A station of this kind with one entry. -/
def stOf (kind : Nat) (e : Entry := entry0) (p : InPort := port0) : Station := { station0 with kind := kind, ents := [e], ins := [p] }
/-- It holds one matched token; its tile is issued or not. -/
def fireUp (st : Station) (p : Payload) (issued : Bool) : State :=
  (jobOf st { ring0 with toks := [held0 p] }).setRun 0 { StationRun.init with issue := if issued then some issue0 else none }
/-- What TILE_ISSUE asks of a state before terms 4 and 7. -/
abbrev IssueReady (s : State) (r : StRef) (e : Entry) (p : Payload) : Prop :=
  s.station 0 = some r ∧ s.live = true ∧ (s.run r.dev).issue = none ∧ s.tileOpen r = false ∧ ¬ ((s.slot r.slot).stopped = true ∧ r.st.kind = 6) ∧
    s.skippable r = none ∧ firstFiring (s.firings r) = some (firing0 p) ∧ r.st.ents[0]? = some e ∧ r.desc e = none ∧
    s.issueOf r e (firing0 p) = issue0
/-- What STATION_FIRE asks of a state before its cases. -/
abbrev FireReady (s : State) (r : StRef) (e : Entry) (p : Payload) : Prop :=
  s.station 0 = some r ∧ s.live = true ∧ (s.run r.dev).issue = some issue0 ∧ r.st.ents[0]? = some e ∧
    s.issued r issue0 = some (firing0 p) ∧ s.outputsFree r e (firing0 p) = true ∧ s.fillHeld r = false ∧ s.unitBusy r = false
def data64 : Payload := .data (zeroBytes 64)

theorem wit_FiringsAct_issue :
    (let st := stOf 4; let s := fireUp st data64 false; IssueReady s (refOf st) entry0 data64 ∧
      s.term4 (refOf st) entry0 (firing0 data64) = true ∧ s.term7 (refOf st) entry0 = true) ∧
    (let p : Payload := .data (List.replicate 64 0xFF); let st := stOf 4 entry0 { port0 with tkind := 1 }; let s := fireUp st p false;
      IssueReady s (refOf st) entry0 p ∧ s.term4 (refOf st) entry0 (firing0 p) = false) := by
  and_intros <;> decide

theorem wit_FiringsAct_skip :
    let e := { entry0 with lenMask := 1 }
    let st := stOf 4 e { port0 with tkind := 3 }
    let s := fireUp st data64 false
    s.station 0 = some (refOf st) ∧ s.live = true ∧ (s.run 0).issue = none ∧ s.tileOpen (refOf st) = false ∧ st.kind ≠ 6 ∧
      s.skippable (refOf st) = some (0, e, 0, none, some (held0 data64)) := by
  decide

/-- An UPDATE station of three operand ports, each with a token: state, gradient and parameters. -/
def updSt : Station := { station0 with kind := 5, ents := [{ entry0 with inMask := 7 }], ins := (List.range 3).map fun i => { port0 with ring := i } }
def updTok (i : Nat) : Payload := .data (zeroBytes ([12, 4, 16].getD i 0))
def updUp : State := (List.range 3).foldl (fun s i => s.setRng 0 i (some { ring0 with port := i, toks := [held0 (updTok i)] }))
  ((jobOf updSt).setRun 0 { StationRun.init with issue := some issue0 })
def updFiring : Firing := { entry := 0, tag := 0, toks := (List.range 3).map fun i => (i, held0 (updTok i)), last := 0 }

theorem wit_FiringsAct_tokens :
    (let st := stOf 4; let s := fireUp st .error true; FireReady s (refOf st) entry0 .error ∧ (refOf st).errorIn entry0 (firing0 .error) = true) ∧
    (let e := { entry0 with predKEn := true }; let st := stOf 1 e; let s := (fireUp st data64 true).setPanel 0 0 0 { PanelRun.empty with ready := true };
      let r := refOf st; FireReady s r e data64 ∧
      r.errorIn e (firing0 data64) = false ∧ s.sinkSize r e (firing0 data64) issue0 = false ∧ s.nullFiring r e (firing0 data64) = true) ∧
    (let st := stOf 3; let s := fireUp st .null true; let r := refOf st; FireReady s r entry0 .null ∧
      r.errorIn entry0 (firing0 .null) = false ∧ s.sinkSize r entry0 (firing0 .null) issue0 = false ∧
      s.nullFiring r entry0 (firing0 .null) = true) := by
  and_intros <;> decide

/-- The witness of a firing that does its kind's work. -/
abbrev Works (kind : Nat) : Prop :=
  let st := stOf kind
  let s := (fireUp st data64 true).setPanel 0 0 0 { PanelRun.empty with ready := true }
  let r := refOf st
  FireReady s r entry0 data64 ∧ r.errorIn entry0 (firing0 data64) = false ∧ s.sinkSize r entry0 (firing0 data64) issue0 = false ∧
    s.nullFiring r entry0 (firing0 data64) = false
theorem wit_FiringsAct_work :
    (Works 9 ∧ (stOf 9).walks = false) ∧ (Works 4 ∧ (refOf (stOf 4)).dataOf entry0 (firing0 data64) ≠ []) ∧ (Works 6 ∧ (stOf 6).walks = true) ∧
    (Works 1 ∧ (stOf 1).walks = false) ∧ Works 2 ∧ Works 3 ∧
    (let s := updUp; let r := refOf updSt; let e := { entry0 with inMask := 7 }; s.station 0 = some r ∧ s.live = true ∧
      (s.run 0).issue = some issue0 ∧ r.st.ents[0]? = some e ∧ s.issued r issue0 = some updFiring ∧ s.outputsFree r e updFiring = true ∧
      s.fillHeld r = false ∧ s.unitBusy r = false ∧ r.errorIn e updFiring = false ∧ s.sinkSize r e updFiring issue0 = false ∧
      s.nullFiring r e updFiring = false) ∧
    (let s := (jobOf station0).setRun 0 { StationRun.init with tiles := 1 }; s.station 0 = some (refOf station0) ∧ 0 < (s.run 0).tiles) := by
  and_intros <;> decide

def work0 : TileWork :=
  { station := 0, firing := 0, tag := 0, tile := 0, vals := List.replicate 16 0, dest := .acc 0, done := 0
    count := 0, isInt := false, fresh := true, step := none, panel := none }
def withArr (x : ArrayRun) : State := (jobOf station0).setArr 0 0 x
/-- A PRODUCT station whose entry reads its column operand from the region that its port fills. -/
def fillSt : Station := stOf 1 { entry0 with kc := 4 } { port0 with role := 6, ifmt := 8 }

theorem wit_ArraysSwapAndDrain :
    (let x := { ArrayRun.init with next := some (work0, 0) }; let s := withArr x; s.arr 0 0 = x ∧ (x.set (!x.active)).work = none ∧
      (x.set (!x.active)).busy ≤ s.clk.root ∧ x.behind work0 = false) ∧
    (let x := { ArrayRun.init with a := { AccSet.idle with work := some work0 }, active := true }; let s := withArr x; s.arr 0 0 = x ∧
      (x.set false).work = some work0 ∧ x.drainable false work0 s.clk.root = true ∧ s.station work0.station = some (refOf station0) ∧
      work0.dest = .acc 0 ∧ x.next = none) ∧
    (let n := { work0 with fresh := false, tile := 1, firing := 1, dest := .acc 1 };
      let x := { ArrayRun.init with a := { AccSet.idle with work := some work0 }, next := some (n, 0), active := true }; let s := withArr x;
      (x.set false).work = some work0 ∧ x.drainable false work0 s.clk.root = true ∧ x.next = some (n, 0) ∧ (n.fresh = true ∨ false ≠ x.active)) ∧
    (let r := refOf fillSt; let p := { port0 with role := 6, ifmt := 8 }; let x := { PanelRun.empty with bytes := zeroBytes (r.panelBytes p) };
      let s := (jobOf fillSt).setPanel 0 0 0 x; s.station 0 = some r ∧ r.st.ins.find? (fun p => p.role == 6 && p.preg == 0) = some p ∧
      r.panelBytes p ≠ 0 ∧ s.panel r.st.site r.st.ctx 0 = x ∧ x.ready = false ∧ x.used = 0 ∧ r.panelBytes p ≤ x.bytes.length) := by
  and_intros <;> decide

theorem wit_ScratchpadUpkeep :
    (let r := refOf station0; let s := (withClk (jobOf station0) fun c => { c with root := 100000 }).setCoal r { CoalRun.empty with line := some (0, []) };
      s.station 0 = some r ∧ (s.coalOf r).line = some (0, []) ∧
      (s.coalOf r).since + s.rf (siteBase r.st.site) 0 8 * aclkDiv s.clk.step ≤ s.clk.root) ∧
    (let s := (withClk up fun c => { c with root := 1000000000 }).setReg (siteBase 1 + 8) 100; isCu 1 = false ∧ s.live = true ∧ s.pwr.idle = 0 ∧
      s.rf (siteBase 1 + 8) 0 16 ≠ 0 ∧ s.bank 1 0 = .active ∧ s.bankPending 1 0 = false ∧
      tblGet (fun _ => 0) s.flow.bankLast (bankKey 1 0) + s.rf (siteBase 1 + 8) 0 16 * aclkDiv s.clk.step ≤ s.clk.root) ∧
    (let s := (withClk up fun c => { c with root := 1000 }).setBank 1 0 (.entering 0); s.pwr.idle = 0 ∧ s.bank 1 0 = .entering 0 ∧
      0 + 16 * aclkDiv s.clk.step ≤ s.clk.root) ∧
    (let s := (withClk up fun c => { c with root := 1000 }).setBank 1 0 (.waking 0); s.bank 1 0 = .waking 0 ∧
      s.pwr.idle = 0 ∧ 0 + 24 * aclkDiv s.clk.step ≤ s.clk.root) ∧ (spadUp true).pageDirty 1 0 = true ∧
    (let s := { busy (.runStep 0) with ctrs := [(jobBase 0 + 0x28, 2 ^ 40)] }; s.watching 0 = true ∧
      2 ^ s.rf (jobBase 0 + 0x20) 1 6 ≤ s.ctr (jobBase 0 + 0x28)) := by
  and_intros <;> decide

/-! ### Hoists and Mills -/

/-- A packet of a type from device 2 to device 1. -/
def pkt (t : PType) (pl : List Byte := []) : Packet :=
  { ptype := t, ecn := 0, ece := false, flood := false, status := 0, dst := 1, src := 2, epoch := 0, chan := 1, xid := 0, fjob := 0, rslot := 0
    seq := 0, ackSeq := 0, tally := 0, payload := pl }
/-- The device has address 1 and has received a packet. -/
def got (s : State) (k : Packet) : State := { s with fab := { s.fab with addr := some 1, rxq := [⟨0, [], k⟩] } }
def withFlow (s : State) (f : FlowState → FlowState) : State := { s with flow := f s.flow }
/-- `job` with its one layer changed. -/
def jobL (l : Layer) : State := job.setSlot 0 { slot0 with hoist := some { hoist0 with layers := [l] } }

def read0 : GatherRead :=
  { slot := 0, layer := 0, transposed := false, kind := .forward, version := 0, row := 0, rows := 1, num := 0, peer := some 2, rslot := 0, fjob := 0
    fwdOnly := false, latest := false, bg := false, since := 0, awaiting := none, blocks := 0 }
def req0 : GatherReq :=
  { num := 0, slot := 0, layer := 0, transposed := false, kind := .forward, version := 0, row := 0, rows := 1, peer := some 2, fwdOnly := false
    latest := false, got := 0, relay := none }
def copyId0 : CopyId := { slot := 0, layer := 0, transposed := false, regather := false }
def scaled0 : Layer := { layer0 with scheme := 1 }

theorem wit_GathersMove :
    (let s := busy (.runStep 0); (s.stepsOf 0)[0]? = some (startedAs (.runStep 0), 0) ∧ s.layer 0 0 = some (hoist0, layer0) ∧ s.live = true ∧
      (s.slot 0).stopped = false ∧ s.ovfUsed 0 < hoist0.ovfLen ∧ (s.slot 0).fetched.contains (0, 0) = false) ∧
    ({ slot0 with fetched := [(0, 0)] }.fetched.contains (0, 0) = true) ∧ GatherKind.regather ≠ GatherKind.forward ∧
    (let s := withFlow job fun f => { f with chunks := [{ slot := 0, chunk := 0, copy := copyId0, filled := 0, closed := false, read := true }] };
      s.live = true ∧ s.flow.chunks.any (fun y => y.slot == 0 && y.chunk == 0 && y.read) = true ∧ s.flow.staging = [] ∧ s.flow.pieces = []) ∧
    (let k := pkt .gatherReq; (got job k).nextRx (fun k => k.ptype == .gatherReq) = some ⟨0, [], k⟩ ∧ (got job k).jobsRun = true ∧
      (got job k).jobSlot k.fjob = some 0 ∧ (got up k).nextRx (fun k => k.ptype == .gatherReq) = some ⟨0, [], k⟩ ∧ (got up k).jobSlot k.fjob = none) ∧
    (let s := withFlow (jobL scaled0) fun f => { f with reads := [read0] }; let h := { hoist0 with layers := [scaled0] };
      s.live = true ∧ s.flow.reads = [read0] ∧ read0.awaiting = none ∧ s.readLevel read0 = 0 ∧ read0.bg = false ∧ s.forHolder read0 = false ∧ s.layer 0 0 = some (h, scaled0) ∧ s.ruleOf 0 scaled0 = some rule0 ∧
        read0.ownRows h scaled0 = true ∧ { read0 with row := 1 }.ownRows h scaled0 = false ∧ (s.slot 0).stopped = false ∧ scaled0.scheme ≠ 0 ∧
        s.hbm.ue = [] ∧ scaled0.rowGrans false (scaled0.row0 h.shard) 0 1 = [0] ∧ s.sealedAgainst 0 (scaled0.granAddr 0) 4096 = none ∧
        (s.tail (scaled0.granAddr 0)).rec8 = false ∧ (s.tail (scaled0.granAddr 0)).version = 0 ∧ (s.tail (scaled0.granAddr 0)).pend = 0 ∧ (s.serve read0).isSome = true) ∧
    (let r := { read0 with version := 1 }; let s := withFlow (jobL scaled0) fun f => { f with reads := [r] }; s.serve r = none) ∧
    (let r := { read0 with awaiting := some [] }; let s := withFlow job fun f => { f with reads := [r] };
      s.flow.reads.find? (fun r => r.awaiting.isSome) = some r ∧ s.layer r.slot r.layer = some (hoist0, layer0) ∧ s.ruleOf r.slot layer0 = some rule0 ∧
      r.blockCount layer0 ≤ r.blocks + max 1 (r.heldBlocks hoist0 layer0 rule0 (r.blockCount layer0 - r.blocks) r.blocks [])) ∧
    (let k := pkt .gatherRsp (zeroBytes 16); let s := got (withFlow job fun f => { f with reqs := [req0] }) k; let d := s.deliver ⟨0, [], k⟩;
      s.nextRx (fun k => k.ptype == .gatherRsp) = some ⟨0, [], k⟩ ∧ s.jobsRun = true ∧
      d.flow.reqs.find? (fun q => q.num == leAt k.payload 0 2 && q.slot == k.rslot && q.peer == some k.src && d.fjobOf q.slot == k.fjob) = some req0 ∧
      d.layer 0 0 = some (hoist0, layer0) ∧ k.status = 0 ∧ leAt k.payload 4 4 = req0.got ∧
      leAt k.payload 4 4 ≠ { req0 with got := 8 }.got) ∧
    ({ pkt .gatherRsp with status := 3 } : Packet).status ≠ 0 ∧
    (let s := job.setSlot 0 { slot0 with checking := true, hoist := none }; (s.slot 0).checking = true ∧ s.live = true ∧
      s.spansSealed 0 (s.tableSpans 0) = none ∧ s.spansUe (s.tableSpans 0) = none) ∧
    (let s := { job.setSlot 0 { slot0 with checking := true, hoist := none } with hbm := { job.hbm with ue := [0] } };
      (s.slot 0).checking = true ∧ s.spansSealed 0 (s.tableSpans 0) = none ∧ s.spansUe (s.tableSpans 0) = some 0) ∧
    (let s := { job.setSlot 0 { slot0 with checking := true, hoist := none } with sec :=
        { job.sec with sealed := [(0, some { sealed0 with slots := 2, basePg := 0, limitPg := 1 })] } };
      (s.slot 0).checking = true ∧ (s.spansSealed 0 (s.tableSpans 0)).isSome = true) ∧
    (let k := { pkt .error with chan := 16 }; (got job k).nextRx (fun k => k.ptype == .error) = some ⟨0, [], k⟩ ∧
      ((got job k).deliver ⟨0, [], k⟩).errorSlot k = some 0 ∧ 16 ≤ k.chan ∧ ((got up k).deliver ⟨0, [], k⟩).errorSlot k = none) := by
  and_intros <;> decide

def lease0 : Lease := { slot := 0, layer := 0, shard := 0, version := 0, holder := 2, expiry := 0, expired := false }

theorem wit_LeasesMove :
    (let s := withFlow job fun f => { f with leases := [lease0] }; s.flow.leases.find? (fun l => !l.expired && s.passed l.expiry) = some lease0 ∧
      lease0.is 0 0 0 0 2 = true) ∧
    (let k := pkt .lease (zeroBytes 12); (got job k).nextRx (fun k => k.isLease 0) = some ⟨0, [], k⟩ ∧ (got job k).jobsRun = true ∧
      (got job k).jobSlot k.fjob = some 0) ∧
    (let k := pkt .lease (1 :: zeroBytes 11); (got job k).nextRx (fun k => k.isLease 1) = some ⟨0, [], k⟩ ∧ (got job k).jobsRun = true) := by
  and_intros <;> decide

def run0 : Run := { run := 0, step := 1, layer := 0, slot := 0, bf16 := false, vals := zeroBytes 64 }
def param0 : StepParam := { eta := 0, kappa1 := 0, kappa2 := 0, gamma := 0 }
/-- `job` with a layer of two runs, the parameters of step 1, and these runs in Mill 0's buffer. -/
def mill (rs : List Run) : State :=
  (({ job with slots := [(0, { slot0 with
      hoist := some { hoist0 with layers := [{ layer0 with cols := 32 }] }
      params := [some { step := 1, params := [param0], applied := false }, none] })] } : State).setBuf 0 rs)
def place0 : RunPlace := { table := { hoist0 with layers := [{ layer0 with cols := 32 }] }, layer := { layer0 with cols := 32 }, rule := rule0 }

theorem wit_MillsApplyRuns :
    (let s := withFlow (mill []) fun f => { f with dispatch := [run0] }; let m := s.millOf run0;
      s.live = true ∧ s.flow.dispatch.find? (fun r => (s.dropStopped m).millOf r == m) = some run0 ∧ (s.slot 0).stopped = false ∧
        ((s.dropStopped m).buf m).length < 64) ∧
    (let s := mill [{ run0 with run := 2 }]; let u := s.dropStopped 0; u.pickRun (u.buf 0) [] = some { run0 with run := 2 } ∧
      u.runBad { run0 with run := 2 } = some 3) ∧
    (let s := mill [run0]; let u := s.dropStopped 0; let v := (u.setBuf 0 ((u.buf 0).erase run0)).plantUe [];
      s.live = true ∧ u.pickRun (u.buf 0) [] = some run0 ∧ v.runBad run0 = none ∧ v.place run0 = some place0 ∧
      ((v.slot 0).held 1).bind (fun h => h.params[layer0.rule]?) = some param0 ∧ v.sealedAgainst 0 (place0.base run0) 4096 = none ∧
      v.tailOpen (place0.base run0) = false ∧ v.firstUe (place0.base run0 + 4032) 64 = none ∧
      (let w := v.hbmRead (place0.base run0 + 4032) 64; let t : Tail := { version := 0, pend := 1, done := 0, rec8 := false };
        w.tail (place0.base run0) = { t with pend := 0 } ∧
        w.firstUe (place0.addr run0) (16 * recSize false) = none ∧ t.done ||| 2 ^ place0.bit run0 ≠ place0.full run0 ∧
        ((w.openTails (chanOf (place0.base run0))).filter fun e => e.1 != place0.base run0).length < 1024)) ∧
    rule0.nfFault = false ∧
    checkTail false 0 1 { version := 0, pend := 0, done := 0, rec8 := false } = .go { version := 0, pend := 1, done := 0, rec8 := false } ∧
    checkTail false 0 1 { version := 0, pend := 1, done := 1, rec8 := false } = .reject 5 ∧
    checkTail false 0 1 { version := 5, pend := 5, done := 0, rec8 := false } = .version := by
  and_intros <;> first | decide | rfl

/-! ### Sluice and barriers -/

def col0 : Collective := { op := 0, bf16 := false, hbm := false, layer := 0, dst := 0x12000 }
/-- `job` whose table has one collective, 7, on layer 0, over `nd` devices of which this is `dev`. -/
def jobC (c : Collective := col0) (nd : Nat := 1) (dev : Nat := 0) : State :=
  { job with slots := [(0, { slot0 with
      survey := some { survey0 with nSluice := 1 }
      hoist := some { hoist0 with nd := nd, myDev := dev, peers := [1, 3] }
      sluice := [(7, c)] })] }
def tableC (nd dev : Nat) : HoistTable := { hoist0 with nd := nd, myDev := dev, peers := [1, 3] }
def ctx0 : SluiceCtx :=
  { slot := 0, fjob := 0, barrier := false, id := 7, slots := [], ready := [], delivered := [], arrived := [], npart := 0, reserved := true }
def withCtx (s : State) (x : SluiceCtx) : State := withFlow s fun f => { f with sluices := [(0, some x)] }
/-- A RED packet of run 0, its values all 0 or all 1.0, with these residues. -/
def red (res : Nat) (one : Bool := false) : Packet :=
  { pkt .red (zeroBytes 8 ++ [1, 0, 1, 0] ++ zeroBytes 4 ++ (List.replicate 16 (if one then [0, 0, 0x80, 0x3F] else zeroBytes 4)).flatten ++ List.replicate 16 (BitVec.ofNat 8 res)) with xid := 7 }

theorem wit_CollectivesMove_local :
    (let s := withFlow job fun f => { f with contribs := [run0] }; s.live = true ∧ s.contribHeads = [run0] ∧ (s.slot 0).stopped = false ∧
      s.contribution run0 = none ∧ s.millRoom (s.millOf { run0 with run := layer0.ownRun hoist0.shard run0.run }) = true) ∧
    (let s := withFlow (jobC col0 2 1) fun f => { f with contribs := [run0] };
      ∃ k, s.contribution run0 = some k ∧ k.shard % k.table.nd ≠ k.table.myDev) ∧
    (let s := withFlow jobC fun f => { f with contribs := [run0] };
      ∃ k, s.contribution run0 = some k ∧ k.shard % k.table.nd = k.table.myDev ∧ s.redCtx 0 (s.fjobOf 0) k.id = some (0, ctx0) ∧
        s.redRoom (0, ctx0) [{ shard := k.shard, run := k.layer.ownRun k.shard run0.run, step := k.step, cnt := 1
                               vals := widen16 run0.bf16 run0.vals }] = true ∧ s.misses none 0 0 ≠ 3) := by
  refine ⟨?_, ⟨_, rfl, ?_⟩, ⟨_, rfl, ?_⟩⟩ <;> decide

theorem wit_CollectivesMove_red :
    (let k := red 0; (got up k).jobsRun = true ∧ (got up k).redNext = [⟨0, [], k⟩] ∧ (got up k).jobSlot k.fjob = none) ∧
    (let k := red 0; (got job k).jobSlot k.fjob = some 0 ∧ (got job k).redTarget 0 k = none) ∧
    (let k := { red 0 with payload := [] }; redOk k.payload = false) ∧
    (let k := red 0; let s := got jobC k; s.redNext = [⟨0, [], k⟩] ∧ s.redTarget 0 k = some (col0, tableC 1 0, layer0) ∧ redOk k.payload = true ∧
      (∀ y ∈ s.redIns (tableC 1 0) k, y.run < layer0.runs y.shard) ∧ s.redCtx 0 k.fjob k.xid = some (0, ctx0) ∧
      s.redRoom (0, ctx0) (s.redIns (tableC 1 0) k) = true ∧ redResidues k.payload = true) ∧
    (let k := red 0xFF true; let s := got jobC k; redOk k.payload = true ∧ redResidues k.payload = false ∧ s.misses (some k.src) k.chan k.seq < 3) ∧
    (let k := red 0xFF true; let s := withFlow (got jobC k) fun f => { f with retries := [{ src := some 2, chan := 1, seq := 0, misses := 3 }] };
      s.live = true ∧ (s.slot 0).survey.isSome = true ∧
      s.redNext.find? (fun r => s.misses (some r.pkt.src) r.pkt.chan r.pkt.seq == 3) = some ⟨0, [], k⟩ ∧ s.jobSlot k.fjob = some 0) ∧
    (let s := withFlow jobC fun f => { f with contribs := [run0], retries := [{ src := none, chan := 0, seq := 0, misses := 3 }] };
      s.live = true ∧ (s.slot run0.slot).survey.isSome = true ∧ s.contribHeads.find? (fun r => s.misses none r.slot 0 == 3) = some run0) := by
  and_intros <;> decide

def redSlot0 : RedSlot := { shard := 0, run := 0, step := 1, vals := List.replicate 16 0, count := 1 }

theorem wit_CollectivesMove_delivery :
    (let c := { col0 with hbm := true }; let x := { ctx0 with ready := [redSlot0] }; let s := withCtx (jobC c) x;
      s.sluice 0 = some x ∧ (s.slot x.slot).sluice.find? (fun e => e.1 == x.id) = some (7, c) ∧ s.layer x.slot c.layer = some (tableC 1 0, layer0) ∧
      s.live = true ∧ (s.slot x.slot).stopped = false ∧ s.sealedAgainst x.slot (c.dst + 64 * redSlot0.run) 64 = none ∧ redSlot0.vals.length = 16 ∧
      s.firstUe (c.dst + 64 * redSlot0.run) 64 = none) ∧
    (let x := { ctx0 with ready := [redSlot0] }; let s := withCtx jobC x; s.millRoom (s.millOf run0) = true ∧ col0.hbm = false) := by
  and_intros <;> decide

/-- A barrier packet: kind, count, participants. -/
def bar (kind count npart : Nat) : Packet :=
  { pkt .bar ([BitVec.ofNat 8 kind, 0] ++ leBytes 2 count ++ leBytes 2 npart) with xid := 5 }
def barCtx0 : SluiceCtx := { ctx0 with barrier := true, id := 5, npart := 2 }
def barJob0 : BarrierJob := { fjob := 0, bid := 5, npart := 2, tmoLog2 := 0, sent := none }

theorem wit_BarrierTreeMoves :
    (let k := bar 0 1 2; (got up k).jobsRun = true ∧ (got up k).nextRx (fun k => k.isBar 0) = some ⟨0, [], k⟩ ∧ (got up k).jobSlot k.fjob = none) ∧
    (let k := bar 0 1 2; let s := got (jobC col0 2 0) k; s.jobSlot k.fjob = some 0 ∧ (s.slot 0).hoist = some (tableC 2 0) ∧
      s.barCtx 0 k.fjob k.xid (leAt k.payload 4 2) = some (0, barCtx0) ∧ leAt k.payload 4 2 = 1 * 2 ∧
      (barCtx0.arrived.foldl (fun a y => a + y.2) 0) + leAt k.payload 2 2 ≠ 1 * 2) ∧
    (let k := bar 0 1 2; let x := { barCtx0 with arrived := [(1, 1)] }; let s := withCtx (got (jobC col0 2 0) k) x;
      s.barCtx 0 k.fjob k.xid (leAt k.payload 4 2) = some (0, x) ∧ (x.arrived.foldl (fun a y => a + y.2) 0) + leAt k.payload 2 2 = 1 * 2) ∧
    (let k := bar 1 0 0; let s := withCtx (got (jobC col0 2 1) k) barCtx0; s.nextRx (fun k => k.isBar 1) = some ⟨0, [], k⟩ ∧
      (s.slot 0).hoist = some (tableC 2 1) ∧ (tableC 2 1).myDev ≠ 0 ∧ s.ctxOf 0 k.fjob true k.xid = some (0, barCtx0) ∧ s.cage.started = []) ∧
    (let k := bar 2 0 0; let s := withCtx (got (jobC col0 2 1) k) barCtx0; s.nextRx (fun k => k.isBar 2) = some ⟨0, [], k⟩ ∧
      s.jobSlot k.fjob = some 0 ∧ s.ctxOf 0 k.fjob true k.xid = some (0, barCtx0)) ∧
    (let s := withCtx (busy (.barrier barJob0 [])) barCtx0; s.cage.started = [startedAs (.barrier barJob0 [])] ∧
      (startedAs (.barrier barJob0 [])).slot = 0 ∧ (s.ctxOf 0 0 true 5).isSome = true) := by
  and_intros <;> decide

/-! ### Transport, discovery, management -/

def kept0 : Kept := { pkt := pkt .gatherReq, sent := 0, resent := false }
def later (n : Nat) (s : State) : State := withClk s fun c => { c with root := n }
/-- A packet for device 7 by a table that sends it out of port 0. -/
def transit0 : Packet := { pkt .gatherReq with dst := 7 }
def routed : State :=
  let s := got up transit0
  ({ s with fab := { s.fab with cur := [(7, 0x1001)] } } : State).setReg (portBase 0) 1

theorem wit_TransportMoves :
    (let s := withPwr (got up transit0) fun p => { p with idle := 4 }; s.fabLive = true ∧
      s.fab.rxq.find? (fun r => s.isTransit r.pkt) = some ⟨0, [], transit0⟩ ∧ s.pwr.idle = 4) ∧
    (routed.fabLive = true ∧ routed.fab.rxq.find? (fun r => routed.isTransit r.pkt) = some ⟨0, [], transit0⟩ ∧ routed.pwr.idle ≠ 4 ∧
      (routed.dropRx ⟨0, [], transit0⟩).routes transit0 = true) ∧
    (let k := pkt .ack (zeroBytes 8); let s := (got up k).setTxChan 2 1 { TxChan.init with kept := [kept0] }; s.live = true ∧
      s.fab.rxq.find? (fun r => s.isMine r.pkt && r.pkt.ptype == .ack) = some ⟨0, [], k⟩ ∧ leAt k.payload 0 8 = 0 ∧ k.ece = false ∧
      (s.txChan 2 1).queue = [] ∧ 0 < acked (s.txChan 2 1).kept k.ackSeq) ∧
    (let s := (later (usRoot 2) up).setRxChan 2 1 { RxChan.init with first := some 0 }; s.fabLive = true ∧ (s.rxChan 2 1).first = some 0 ∧
      0 + usRoot 2 ≤ s.clk.root) ∧
    (let s := (later (usRoot 100000000) up).setTxChan 2 1 { TxChan.init with kept := [kept0] }; s.timedOut (s.txChan 2 1) = true ∧
      (s.txChan 2 1).timeouts + 1 < s.rf 0xC010 8 4) ∧
    (let s := (later (usRoot 100000000) up).setTxChan 2 0 { TxChan.init with kept := [kept0], timeouts := 14 }; s.timedOut (s.txChan 2 0) = true ∧
      s.rf 0xC010 8 4 ≤ (s.txChan 2 0).timeouts + 1 ∧ s.isMgr = false ∧ (s.txChan 2 0).queue = []) ∧
    (let s := (later (usRoot 100000000) job).setTxChan 2 1 { TxChan.init with kept := [kept0], timeouts := 14 }; s.timedOut (s.txChan 2 1) = true ∧
      s.loaded 0 = true ∧ (∃ x ∈ (s.txChan 2 1).kept, x.pkt.fjob = s.fjobOf 0)) ∧
    (let s := ((later (usRoot 255) up).setLimiter 7 { Limiter.init with rate := 1 }).setReg 0xC014 0x1FFF0000; s.rfBit 0xC014 24 = true ∧
      (s.limiter 7).rate < lineRate ∧ (s.limiter 7).rise + usRoot (s.rf 0xC014 16 8) ≤ s.clk.root) := by
  and_intros <;> decide

/-- Port 0 up with these neighbours. -/
def near (xs : List Neighbour) (s : State) : State := s.setPort 0 { s.port 0 with phase := .up, neigh := xs }
def peer9 : Neighbour := { uid := 9, incarn := 0, addr := none, heard := 0, best := some (true, 9) }
/-- The best candidate is another device's since time 0. -/
def voted : State :=
  let s := later (msRoot 100) (near [{ peer9 with heard := msRoot 100 }] (up.setReg 0xC000 0x14000))
  { s with fab := { s.fab with best := some (true, 9), bestSince := 0 } }

theorem wit_ElectionMoves :
    (let k := pkt .hello (zeroBytes 40); (got up k).fabLive = true ∧ (got up k).fab.rxq.find? (fun r => r.pkt.ptype == .hello) = some ⟨0, [], k⟩) ∧
    ((near [] up).portUp 0 = true ∧ ((near [] up).port 0).helloSent = none) ∧
    (let s := later (msRoot 1000) ((near [] up).setPort 0 { (near [] up).port 0 with helloSent := some 0 });
      s.portUp 0 = true ∧ (s.port 0).helloSent = some 0 ∧ 0 + s.helloPeriod ≤ s.clk.root) ∧ up.isMgr = false ∧
    (voted.fab.settled = false ∧ voted.fab.best = some (true, 9) ∧ voted.bestNow = some (true, 9) ∧
      voted.fab.bestSince + msRoot 100 ≤ voted.clk.root) ∧
    (let s := later (msRoot 1000) (up.setReg 0xC000 0); let t := { s with fab := { s.fab with firstUp := some 0 } };
      t.fab.firstUp = some 0 ∧ t.fab.noMgrRaised = false ∧ t.bestNow = none ∧ 0 + msRoot 1000 ≤ t.clk.root) ∧
    (({ up with fab := { up.fab with noMgrRaised := true } } : State).fab.noMgrRaised = true) := by
  and_intros <;> decide

/-- A flooded message of another device: its unit ID is not this one's, whatever this one's is. -/
def flood (n : Nat) : Packet := { pkt .mgmt (leBytes 8 n ++ zeroBytes 8) with flood := true }
theorem wit_ElectionMoves_flood :
    (∃ n, leAt (flood n).payload 0 8 ≠ ownUid ∧ (got up (flood n)).fab.rxq.find? (fun r => r.pkt.ptype == .mgmt && r.pkt.flood) = some ⟨0, [], flood n⟩ ∧
      (got up (flood n)).fab.seen.contains (leAt (flood n).payload 0 8, leAt (flood n).payload 8 4) = false) ∧
    (∃ m s, (s : State).fabLive = true ∧ s.fab.mgr = some m ∧ s.fab.settled = true ∧ m ≠ ownUid) := by
  refine ⟨?_, ownUid + 1, { up with fab := { up.fab with mgr := some (ownUid + 1), settled := true } }, rfl, rfl, rfl, by omega⟩
  by_cases h : ownUid = 0
  · exact ⟨1, by rw [h]; decide, by decide, by decide⟩
  · exact ⟨0, fun e => h (e.symm.trans (by decide)), by decide, by decide⟩

/-- A designated device that loses to unit 0, when it is not unit 0 itself. -/
def loser : State :=
  let s := later (msRoot 100) (near [{ peer9 with heard := msRoot 100, best := some (true, 0) }] (up.setReg 0xC000 0x14003))
  { s with fab := { s.fab with best := some (true, 0), bestSince := 0 } }
theorem wit_ElectionMoves_conflict (h : ownUid ≠ 0) :
    loser.fab.settled = false ∧ loser.fab.best = some (true, 0) ∧ loser.bestNow = some (true, 0) ∧ 0 ≠ ownUid ∧
      loser.designated = true ∧ loser.eligible = true := by
  refine ⟨rfl, rfl, ?_, h.symm, by decide, by decide⟩
  change higher (some (true, ownUid)) (some (true, 0)) = _
  simp [higher, outranks, Nat.pos_of_ne_zero h]

def member0 : Member := { uid := 9, incarn := 0, addr := some 5, present := true, links := [], transit := true }
/-- This device is the manager of member 0 and moves to epoch 1 since time 0. -/
def mgrUp : State := { later (msRoot 100) up with fab := { up.fab with settled := true, mgr := some ownUid, members := [member0], moving := some (1, 0) } }
def report0 : Report := { uid := 0, incarn := 0, held := none, req := none, epoch := 0, links := [], transit := true, wasReset := false }

theorem wit_ManagerOrdersAct_manager : mgrUp.fabLive = true ∧ mgrUp.isMgr = true ∧ mgrUp.fab.moving = some (1, 0) ∧ 0 + msRoot 100 ≤ mgrUp.clk.root ∧
    member0 ∈ mgrUp.fab.members ∧ member0.present = true ∧ member0.addr = some (5 : Fin 1024).val ∧
    ∃ n, ({ report0 with uid := n } : Report).uid ≠ ownUid :=
  ⟨rfl, by simp [State.isMgr, mgrUp, ownUid], rfl, by decide, List.mem_singleton.mpr rfl, rfl, rfl, ownUid + 1, by simp⟩

theorem wit_ManagerOrdersAct :
    up.isMgr = false ∧ up.fab.addr ≠ some 3 ∧
    (let s := { up with fab := { up.fab with shadow := some (1, []) } }; s.fabLive = true ∧ s.fab.shadow = some (1, [])) ∧
    (let k := pkt .epochMark (zeroBytes 2); (got up k).fab.rxq.find? (fun r => r.pkt.ptype == .epochMark) = some ⟨0, [], k⟩) ∧
    (let s := { up with fab := { up.fab with prevEpoch := some 0 } }; s.fab.prevEpoch = some 0 ∧
      (∀ p < 12, s.portUp p = true → (s.port p).marked = some s.fab.epoch) ∧ s.holdsOld = false) ∧
    (let s := { later (msRoot 10) up with fab := { up.fab with prevEpoch := some 0 } }; s.fab.committed + msRoot 10 ≤ s.clk.root) ∧
    up.jobsOf 5 = [] ∧ (0 : Fin 8) ∈ job.jobsOf 0 ∧ (job.live = true ∧ job.loaded 0 = true ∧ job.fjobOf 0 = 0 ∧ (job.slot 0).killing = false) := by
  and_intros <;> decide

/-! ### Ports, MAC, time -/

/-- `up` with port 0 in a Flecel Direct or Ethernet mode and its state changed. -/
def portIn (mode : Nat) (f : PortState → PortState) (s : State := up) : State :=
  let t := s.setReg (portBase 0) mode
  t.setPort 0 (f (t.port 0))
def at_ (x : PortPhase) (p : PortState) : PortState := { p with phase := x }
/-- A whole flit of a type: one header byte, zeros, and its CRC. -/
def flitOf (t : Byte) : RxFlit :=
  let b := t :: zeroBytes 247
  { bytes := b ++ leBytes 8 (crc64 b).toNat, corrected := 0, uncorrected := 0 }

theorem leAt_end (b : List Byte) (hb : b.length = 248) (c : BitVec 64) : leAt (b ++ leBytes 8 c.toNat) 248 8 = c.toNat := by
  have h := c.isLt
  simp [leAt, leBytes, byteAt, hb]
  omega

theorem slice_front (b c : List Byte) (hb : b.length = 248) : slice (b ++ c) 0 248 = b := by
  simp [slice, zeroBytes, ← hb, Nat.sub_eq_zero_of_le]

theorem flitOf_ok (t : Byte) : leAt (flitOf t).bytes 248 8 = (crc64 (slice (flitOf t).bytes 0 248)).toNat := by
  have l : (t :: zeroBytes 247).length = 248 := congrArg (· + 1) List.length_replicate
  exact (leAt_end _ l _).trans (congrArg (fun x => (crc64 x).toNat) (slice_front _ _ l).symm)

theorem wit_flits : (flitOf 1).bad = false ∧ (flitOf 2).bad = false ∧ (flitOf 3).bad = false ∧ (flitOf 4).bad = true := by
  have h (t : Byte) : (flitOf t).bad = decide (4 ≤ t.toNat % 16) := by
    have b : byteAt (flitOf t).bytes 0 = t.toNat := rfl
    rw [RxFlit.bad, flitOf_ok, b]
    simp
    intro x; exact absurd x (Nat.lt_irrefl 0)
  simp [h]

theorem wit_DirectPortsMove :
    ((portIn 1 (at_ .training)).fabLive = true ∧ (portIn 1 (at_ .training)).isFd 0 = true ∧ ((portIn 1 (at_ .training)).port 0).phase = .training) ∧
    (((portIn 1 (at_ .aligning)).port 0).phase = .aligning ∧ ((portIn 1 (at_ .aligning)).port 0).retrain = false) ∧
    (let s := portIn 1 fun p => { p with phase := .aligning, retrain := true }; (s.port 0).phase = .aligning ∧ (s.port 0).retrain = true) ∧
    (let s := later (msRoot 500) (portIn 1 (at_ .init)); (s.port 0).phase ≠ .down ∧ (s.port 0).phase ≠ .up ∧ (s.port 0).retrain = false ∧
      (s.port 0).since + msRoot 500 ≤ s.clk.root ∧ (s.port 0).phase = .init) ∧
    (portIn 1 (at_ .up)).portUp 0 = true ∧
    (let x : Flit := { seq := 0, vc := 0, payload := [], sent := 0 };
      let s := later (msRoot 1000) (portIn 1 fun p => { p with phase := .up, replay := [x], retries := 15 });
      s.portUp 0 = true ∧ (s.port 0).replay = [x] ∧ x.sent + nsRoot (16 * s.rf (portBase 0 + 8) 0 10) < s.clk.root ∧
      s.rf (portBase 0 + 8) 14 4 ≤ (s.port 0).retries) ∧
    (let s := later (msRoot 500) (portIn 1 fun p => { p with phase := .training, retrain := true }); (s.port 0).phase = .training ∧
      (s.port 0).retrain = true ∧ (s.port 0).since + msRoot 500 ≤ s.clk.root ∧ s.isMgr = false) := by
  and_intros <;> decide

/-- A frame of 60 zero bytes and a check. -/
def frameOf (form : FrameForm) (fcs : List Byte → List Byte) (err : Bool := false) : RxFrame :=
  { form := form, bytes := zeroBytes 60 ++ fcs (zeroBytes 60), codeError := err, corrected := 0, uncorrected := 0, noBuffer := false }
def goodFcs (f : RxFrame) : Bool := f.bytes.drop (f.bytes.length - 4) == fcsOf (f.bytes.take (f.bytes.length - 4))
def goodMcrc (f : RxFrame) : Bool := f.bytes.drop (f.bytes.length - 4) == mcrcOf (f.bytes.take (f.bytes.length - 4))

theorem wit_frames :
    goodFcs (frameOf .express fcsOf) = true ∧ goodFcs (frameOf .express mcrcOf) = false ∧ goodMcrc (frameOf .first mcrcOf) = true ∧
    goodFcs (frameOf .first mcrcOf) = false ∧ 64 ≤ (frameOf .express fcsOf).bytes.length ∧
    (frameOf .express fcsOf).bytes.length ≤ (portIn 2 (at_ .up)).rf (portBase 0 + 0x10) 0 14 := by
  have h : ∃ w x y z, fcsOf (zeroBytes 60) = [w, x, y, z] := ⟨_, _, _, _, rfl⟩
  obtain ⟨w, x, y, z, h⟩ := h
  have n : ∀ w : Byte, (~~~w == w) = false := by decide
  have m : mcrcOf (zeroBytes 60) = [~~~w, ~~~x, y, z] := by simp [mcrcOf, h]
  have d (l : List Byte) : (zeroBytes 60 ++ l).drop 60 = l ∧ (zeroBytes 60 ++ l).take 60 = zeroBytes 60 := by simp [zeroBytes]
  have r : 64 ≤ (portIn 2 (at_ .up)).rf (portBase 0 + 0x10) 0 14 := by decide
  have l : (zeroBytes 60).length = 60 := by simp [zeroBytes]
  simp [goodFcs, goodMcrc, frameOf, m, h, d, l, r, n]

def frame0 : Frame := { bytes := zeroBytes 64, ptp := false }
/-- Port 0 in Ethernet mode, UP, a frame in one queue. -/
def queued (q : Nat) : State := portIn 2 fun p => { p with phase := .up, queues := (List.range 8).map fun i => if i = q then [frame0] else [] }

theorem wit_EthernetPortsMove :
    ((portIn 2 (at_ .training)).fabLive = true ∧ (portIn 2 (at_ .training)).isEth 0 = true ∧ ((portIn 2 (at_ .training)).port 0).phase = .training) ∧
    (((portIn 2 (at_ .up)).port 0).phase = .up ∧ (portIn 2 (at_ .up)).portUp 0 = true ∧ ((portIn 2 (at_ .up)).port 0).asm = none) ∧
    (let s := (portIn 2 (at_ .up)).setReg (portBase 0 + 0x10) 0x20000000; s.portUp 0 = true ∧ bitAt (s.macCfg 0) 29 = true ∧
      bitAt (s.macCfg 0) 30 = false) ∧ (frameOf .express (fun _ => []) true).codeError = true ∧
    (((queued 7).port 0).queues.getD 7 [] = [frame0] ∧ frame0.ptp = false) ∧
    (let s := portIn 2 fun p => { p with phase := .up, cut := some { frame := zeroBytes 200, upTo := 64, count := 0 } };
      (s.port 0).queues.getD 7 [] = [] ∧ (s.port 0).queues.getD 6 [] = [] ∧ (s.port 0).cut = some { frame := zeroBytes 200, upTo := 64, count := 0 }) ∧
    (((queued 5).port 0).queues.getD 7 [] = [] ∧ ((queued 5).port 0).queues.getD 6 [] = [] ∧ ((queued 5).port 0).cut = none ∧
      ((queued 5).port 0).queues.getD 5 [] = [frame0]) := by
  and_intros <;> rfl

theorem wit_TimeIsExchanged :
    (let s := later (msRoot 1000) (portIn 1 (at_ .up)); s.fabLive = true ∧ s.isFd 0 = true ∧ s.portUp 0 = true ∧
      (s.port 0).timexSent + usRoot (2 ^ s.rf (portBase 0 + 8) 10 4) ≤ s.clk.root ∧ s.clk.parentPort ≠ some 0) ∧
    ((withClk (portIn 1 (at_ .up)) fun c => { c with parentPort := some 0 }).clk.parentPort = some 0 ∧
      bitAt (byteAt (zeroBytes 32 ++ [1]) 32) 0 = true) ∧
    (let s := withClk up fun c => { c with sync := .locked }; s.fabLive = true ∧ s.clk.sync = .locked ∧ s.parentPresent = false) ∧
    (let s := withClk (portIn 2 (at_ .up)) fun c => { c with sync := .locked, root := msRoot 125 }; s.isEth 0 = true ∧ s.portUp 0 = true ∧
      s.clk.sync ≠ .free ∧ s.clk.parentPort ≠ some 0 ∧ (s.port 0).ptpSent + msRoot 125 ≤ s.clk.root ∧ 7 < (s.port 0).queues.length) ∧
    (let s := withClk (portIn 2 fun p => { p with phase := .up, origin := some 0 }) fun c => { c with parentPort := some 0 };
      s.isEth 0 = true ∧ s.portUp 0 = true ∧ s.clk.parentPort = some 0 ∧ (s.port 0).origin.isSome = true ∧ 7 < (s.port 0).queues.length) := by
  and_intros <;> decide

/-! ### Faults, HBM upkeep -/

def withRas (s : State) (f : RasState → RasState) : State := { s with ras := f s.ras }

theorem wit_UnitFaultsAct :
    up.live = true ∧ (let s := withRas up fun r => { r with linkReplays := [(4 * 5 + Dir.code .n, 8)] };
      s.live = true ∧ 8 ≤ tblGet (fun _ => 0) s.ras.linkReplays (4 * 5 + Dir.code .n)) ∧
    (let s := withRas job fun r => { r with bridgeReplays := [(1, 8)] }; s.live = true ∧ 8 ≤ tblGet (fun _ => 0) s.ras.bridgeReplays 1 ∧
      s.loaded 0 = true) ∧
    (let thr := up.rf 0x7000 1 15; 0 / thr < (thr + 0) / thr ∧ (0 + 0) / thr ≤ 0 / thr) ∧
    (let s := up.setReg 0x7000 0x10003; s.rfBit 0x7000 0 = true ∧ s.rf 0x7000 16 15 < 2 + 0 ∧ s.unit 5 ≠ .fenced) ∧
    ((up.setReg 0x7000 0x10002).rfBit 0x7000 0 = false ∧ up.ras.ceMills = []) := by
  and_intros <;> decide

theorem wit_HbmIsKeptUp :
    (let s := up.setReg memBase 1; s.live = true ∧ s.rfBit memBase 0 = true ∧ s.pwr.idle < 3 ∧
      (addrOfLocal 767 (0 / 64) + 64 * (0 % 64)) / 64 ∉ s.hbm.ue) ∧ (up.setReg memBase 1).rfBit memBase 8 = false ∧
    (let s := later (nsRoot 70000) (up.setReg 0x40008 100); s.pwr.idle < 2 ∧ s.rf 0x40008 0 16 ≠ 0 ∧ s.pc 1535 = .active ∧ s.pendingWrites 1535 = 0 ∧
      tblGet (fun _ => 0) s.hbm.pcLast 1535 + nsRoot (s.rf 0x40008 0 16) ≤ s.clk.root) ∧
    (let s := (later (nsRoot 8) up).setPc 3 (.entering 0); s.pc 3 = .entering 0 ∧ 0 + nsRoot 8 ≤ s.clk.root) ∧
    (let s := (later (nsRoot 24) up).setPc 3 (.waking 0); s.pc 3 = .waking 0 ∧ 0 + nsRoot 24 ≤ s.clk.root) := by
  and_intros <;> decide

theorem wit_CommandsKeepTheRest : exec .jtagBypass up = .next (onJtagBypass up) ∧ (∃ f, f ∉ footprint .jtagBypass) := ⟨rfl, .regs, by decide⟩

/-! ### Copies and conversions -/

theorem wit_CopyMovesBytes :
    (Starts (copySpec (copy0 0x40).bytes) (copy0 0x40) job ∧ job.copyCheck (byteAt (copy0 0x40).bytes 2 % 8) (copy0 0x40).bytes = none ∧ copyCounts (copy0 0x40).bytes = [4, 1, 1, 1] ∧
      copyFmt (copy0 0x40).bytes false = copyFmt (copy0 0x40).bytes true ∧ fmtBits (copyFmt (copy0 0x40).bytes true) = 8 ∧
      bitOf (copy0 0x40).bytes 34 1 = false ∧ leAt (copy0 0x40).bytes 36 3 + 1 = 4 ∧ copyDev (copy0 0x40).bytes false = false ∧ copyDev (copy0 0x40).bytes true = true) ∧
    (Starts (copySpec (copy0 0x10).bytes) (copy0 0x10) job ∧ job.copyCheck (byteAt (copy0 0x10).bytes 2 % 8) (copy0 0x10).bytes = none ∧ copyCounts (copy0 0x10).bytes = [4, 1, 1, 1] ∧
      copyFmt (copy0 0x10).bytes false = copyFmt (copy0 0x10).bytes true ∧ fmtBits (copyFmt (copy0 0x10).bytes true) = 8 ∧
      bitOf (copy0 0x10).bytes 34 1 = false ∧ leAt (copy0 0x10).bytes 36 3 + 1 = 4 ∧ copyDev (copy0 0x10).bytes false = true ∧ copyDev (copy0 0x10).bytes true = false) ∧ job.hbm.ue = [] := by
  unfold Starts; and_intros <;> decide

theorem wit_CopyMovesBytes_view : ∀ i < 4, noHost.read (0x1000 + i) = .ok 0 := fun _ _ => rfl

theorem wit_ConversionsKeepExactValues : ({ mode := 0, ovf := false, r := 0 } : Rnd).ovf = false ∧ ({ mode := 1, ovf := true, r := 0 } : Rnd).mode = 1 ∧ (Val.isFinite (readElem 4 0x38) = true) ∧
    readElem 4 0x38 ≠ .nan ∧ (0x38 : Nat) < 2 ^ fmtBits 4 := by decide

/-! ### The manual's examples and tables -/

/-- Convert an FP32 code to a format: Table 02-6. -/
def conv (code : Nat) (c : Rnd) (w : Word) : Nat × Mark := writeElem code c (rd w)
def near0 : Rnd := { mode := 0, ovf := false, r := 0 }

/-- Rows 1 and 2: 464 is a tie and goes to 448, 465 saturates. -/
theorem test_e4m3_tie_and_saturation : conv 4 near0 0x43E80000 = (0x7E, .none) ∧ conv 4 near0 0x43E88000 = (0x7E, .sat) := by decide
/-- Row 3: 7.0 saturates to 6 in E2M1. -/
theorem test_e2m1_saturates : conv 8 near0 0x40E00000 = (0x7, .sat) := by decide
/-- Rows 4 and 5: 61,440 to E5M2, to infinity or towards zero. -/
theorem test_e5m2_overflow : conv 5 { near0 with ovf := true } 0x47700000 = (0x7C, .sat) ∧
    conv 5 { mode := 1, ovf := true, r := 0 } 0x47700000 = (0x7B, .none) := by decide
/-- Rows 6 and 7: subnormals of E3M2 and underflow to minus zero. -/
theorem test_e3m2_subnormals : conv 6 near0 0x3DC00000 = (0x02, .none) ∧ conv 6 near0 0xBD000000 = (0x20, .ufz) := by decide
/-- Row 8: stochastic rounding to BF16. -/
theorem test_bf16_stochastic : conv 2 { mode := 2, ovf := false, r := 0x9000 } 0x3F808000 = (0x3F81, .none) ∧
    conv 2 { mode := 2, ovf := false, r := 0x7FFF } 0x3F808000 = (0x3F80, .none) := by decide
/-- Chapter 02: a Scheme A block of E4M3 with the largest magnitude 500 has scale 0x7F; 500 saturates and 300 becomes 0x79. -/
theorem test_scheme_a_block : let b := schemeAScale 4 (amaxOf [rd 0x43FA0000, rd 0x43960000])
    b.code = 0x7F ∧ writeScaled 4 near0 b (rd 0x43FA0000) = (0x7E, .sat) ∧ writeScaled 4 near0 b (rd 0x43960000) = (0x79, .none) := by decide
/-- R46: a Scheme B block whose values are all zero has the scale 1.0. -/
theorem test_scheme_b_zero_block : (schemeBScale 4 0x3F800000 (amaxOf [rd 0])).code = 0x38 := by decide
/-- R43: scales that override the product. -/
theorem test_scale_overrides : (scaleElem 1 (rd 0x3F800000) false 0xFF 0).isFinite = false ∧ scaleElem 2 (rd 0xBF800000) true 0 0x3F800000 = .zero true ∧
    scaleElem 2 .nan false 0 0x3F800000 = .zero false := by decide
/-- R10: L2.(17, 40) is a memory unit and (0, 0) of every Level a compute unit. -/
theorem test_site_kinds : isCu (2 * 2048 + 64 * 17 + 40) = false ∧ isCu 0 = true ∧ isCu 2048 = true ∧ isCu 4096 = true ∧ isCu 6144 = true := by decide
/-- Chapter 10: address 0x1_2345_6000 lies in channel 321, pseudo-channel 1. -/
theorem test_interleave : chanOf 0x123456000 = 321 ∧ pcOf 0x123456000 = 2 * 321 + 1 := by decide
/-- R243: after reset the window covers 64 GiB from address 0. -/
theorem test_window_after_reset : State.reset.winBase = 0 ∧ State.reset.winSize = 2 ^ 36 := by decide

/-! ### Single steps -/

/-- The command at the front of the queue runs; the rest waits. -/
theorem test_step_takes_the_front : step { up with pending := [.jtagBypass, .timexSend 0] } =
    exec .jtagBypass { up with pending := [.timexSend 0] } := rfl
/-- An idle step is one XCLK cycle of 8 root cycles. -/
theorem test_idle_step_counts : (match step up with | .next t => decide (t.clk.root = up.clk.root + 8) | _ => false) = true := by decide
/-- A NOP of ring 0 ends with SUCCESS and its record goes to the host. -/
theorem test_nop_ends : (match exec (.nop (desc [])) ringUp with | .next t => t.cage.started.isEmpty && !t.out.isEmpty | _ => false) = true := by decide
/-- IDLE_US keeps the value written. -/
theorem test_register_keeps_its_value : (match exec (.registerWrite { off := 0x6000, bytes := leBytes 4 7, tee := false }) up with | .next t => t.reg 0x6000 | _ => 0) = 7 := by decide

end Sys2Proof.Tests
end

section
/-! SUPPORT. What a BAR2 access does (11 R265): the counter of one it may not perform, the bank and the byte of one it performs, and what
an uncorrectable word leaves of the scratchpad. -/
namespace Sys2Proof.Machine

/-! ### What a job stop leaves of the flow state (18 R439, R447) -/

/-- Of the flow state only the Sluice contexts differ: a job stop closes those of its barriers. -/
def SluiceFrame (s t : State) : Prop := t.flow = { s.flow with sluices := t.flow.sluices }

theorem SluiceFrame.of_flow {s t : State} (h : t.flow = s.flow) : SluiceFrame s t := by unfold SluiceFrame; rw [h]
theorem SluiceFrame.of_keeps {p : Nat} {s t : State} (h : Keeps p s t) (hp : p.testBit Field.flow.place = false) : SluiceFrame s t :=
  .of_flow (h.frame.same (f := .flow) hp)
theorem SluiceFrame.refl (s : State) : SluiceFrame s s := .of_flow rfl
theorem SluiceFrame.after {s t u : State} (b : SluiceFrame t u) (a : SluiceFrame s t) : SluiceFrame s u := by
  unfold SluiceFrame at *; rw [b, a]
theorem SluiceFrame.scratch {s t : State} (h : SluiceFrame s t) : t.flow.scratch = s.flow.scratch := by rw [h]
theorem SluiceFrame.foldl {β : Type} {f : State → β → State} (h : ∀ s x, SluiceFrame s (f s x)) (l : List β) (s : State) :
    SluiceFrame s (l.foldl f s) := by
  induction l generalizing s with
  | nil => exact .refl s
  | cons x l ih => exact (ih _).after (h s x)

theorem abortBarrier_sluice (s : State) (n fjob bid : Nat) (origin : Option Nat) : SluiceFrame s (s.abortBarrier n fjob bid origin) := by
  have send : ∀ (l : List Nat) (s : State),
      SluiceFrame s (l.foldl (fun (s : State) d => if some d = origin then s else s.sendBar d fjob bid 2 0 0) s) :=
    .foldl fun s d => by
      split
      · exact .refl s
      · exact .of_keeps (State.sendBar_keeps ..) rfl
  have close : ∀ (s : State) (c : Option (Nat × SluiceCtx)),
      SluiceFrame s (match c with | some c => s.setSluice c.1 none | none => s) := fun s c => by cases c <;> rfl
  unfold State.abortBarrier
  refine (SluiceFrame.of_keeps (State.endBarriers_keeps ..) rfl).after ((close _ _).after ?_)
  split
  · exact send _ s
  · exact .refl s

theorem failBarriers_sluice (s : State) (n : Nat) : SluiceFrame s (s.failBarriers n) := by
  unfold State.failBarriers
  refine (SluiceFrame.of_keeps (State.endBarriers_keeps ..) rfl).after ?_
  refine SluiceFrame.foldl (fun s b => ?_) _ s
  exact abortBarrier_sluice s n b.1 b.2 none

theorem stopSlot_sluice (s : State) (n : Fin 8) (code status : Nat) : SluiceFrame s (s.stopSlot n code status) := by
  unfold State.stopSlot
  dsimp only
  split
  · exact .refl s
  split
  · split <;> exact .of_flow rfl
  · exact (failBarriers_sluice _ _).after (.of_flow rfl)

theorem jobFault_sluice (s : State) (n : Fin 8) (code loc sub arg0 arg1 arg2 : Nat) :
    SluiceFrame s (s.jobFault n code loc sub arg0 arg1 arg2) :=
  (stopSlot_sluice ..).after (.of_keeps (State.raise_keeps ..) rfl)

theorem fenceSite_sluice (s : State) (k : Nat) (cause : FenceCause) : SluiceFrame s (s.fenceSite k cause) := by
  unfold State.fenceSite
  refine (SluiceFrame.of_keeps (State.requestNv_keeps ..) rfl).after ((SluiceFrame.foldl (fun s n => stopSlot_sluice s n _ _) _ _).after ?_)
  split
  · exact (SluiceFrame.of_keeps (State.raise_keeps ..) rfl).after (.of_flow rfl)
  · exact (SluiceFrame.foldl (fun s n => .of_keeps (State.raise_keeps ..) rfl) _ _).after (.of_flow rfl)

theorem sramSeen_sluice (s : State) (site : Nat) : SluiceFrame s (s.sramSeen site) := by
  unfold State.sramSeen
  dsimp only
  split
  · exact (fenceSite_sluice ..).after (.of_flow rfl)
  · exact .of_flow rfl

/-- An uncorrectable scratchpad word stops its job or is logged; no byte of a scratchpad changes (04 R85). -/
theorem spadUe_sluice (s : State) (word : Nat) : SluiceFrame s (s.spadUe word) := by
  unfold State.spadUe
  dsimp only
  split
  · exact (sramSeen_sluice ..).after (jobFault_sluice ..)
  · exact (sramSeen_sluice ..).after (.of_keeps (State.raise_keeps ..) rfl)

/-! ### Counters leave the rest alone -/

@[simp] theorem State.bumpMem_flow (s : State) (o n : Nat) : (s.bumpMem o n).flow = s.flow :=
  (State.bumpMem_keeps s o n).frame.same (f := .flow) rfl
@[simp] theorem State.bumpMem_hbm (s : State) (o n : Nat) : (s.bumpMem o n).hbm = s.hbm :=
  (State.bumpMem_keeps s o n).frame.same (f := .hbm) rfl
@[simp] theorem State.bumpMem_out (s : State) (o n : Nat) : (s.bumpMem o n).out = s.out :=
  (State.bumpMem_keeps s o n).frame.same (f := .out) rfl
@[simp] theorem State.bumpSite_flow (s : State) (k o n : Nat) : (s.bumpSite k o n).flow = s.flow :=
  (State.bumpSite_keeps s k o n).frame.same (f := .flow) rfl
@[simp] theorem State.bumpSite_out (s : State) (k o n : Nat) : (s.bumpSite k o n).out = s.out :=
  (State.bumpSite_keeps s k o n).frame.same (f := .out) rfl
@[simp] theorem State.ceSite_flow (s : State) (k st n : Nat) : (s.ceSite k st n).flow = s.flow :=
  (State.ceSite_keeps s k st n).frame.same (f := .flow) rfl
@[simp] theorem State.ceSite_out (s : State) (k st n : Nat) : (s.ceSite k st n).out = s.out :=
  (State.ceSite_keeps s k st n).frame.same (f := .out) rfl

@[simp] theorem State.emit_out (s : State) (o : Output) : (s.emit o).out = o :: s.out := rfl

/-- A counter of the memory block counts to 2^48 − 1, and holds while `CNT_FREEZE` is 1 (03 R83). -/
theorem bumpMem_ctr (s : State) (o n : Nat) :
    (s.bumpMem o n).ctr o = if s.rfBit memBase 8 then s.ctr o else min (s.ctr o + n) (2 ^ 48 - 1) := by
  unfold State.bumpMem
  split
  · rfl
  · exact tblGet_tblSet_same _ _ _

/-! ### Scratchpad bytes -/

/-- What a scratchpad byte reads as depends on the flow state alone. -/
theorem scratchByte_congr {s t : State} (h : t.flow = s.flow) (k a : Nat) : t.scratchByte k a = s.scratchByte k a := by
  have hd : t.spadDefault = s.spadDefault := by funext key; simp only [State.spadDefault, h]
  simp only [State.scratchByte, hd, h]
theorem pageDirty_congr {s t : State} (h : t.flow = s.flow) (k pg : Nat) : t.pageDirty k pg = s.pageDirty k pg := by
  simp only [State.pageDirty, h]
@[simp] theorem State.bumpSite_pageDirty (s : State) (k o n m pg : Nat) : (s.bumpSite k o n).pageDirty m pg = s.pageDirty m pg :=
  pageDirty_congr (State.bumpSite_flow s k o n) m pg
@[simp] theorem State.ceSite_pageDirty (s : State) (k st n m pg : Nat) : (s.ceSite k st n).pageDirty m pg = s.pageDirty m pg :=
  pageDirty_congr (State.ceSite_flow s k st n) m pg
@[simp] theorem State.bumpSite_scratchByte (s : State) (k o n m a : Nat) : (s.bumpSite k o n).scratchByte m a = s.scratchByte m a :=
  scratchByte_congr (State.bumpSite_flow s k o n) m a
@[simp] theorem State.ceSite_scratchByte (s : State) (k st n m a : Nat) : (s.ceSite k st n).scratchByte m a = s.scratchByte m a :=
  scratchByte_congr (State.ceSite_flow s k st n) m a
theorem setScratchByte_same (s : State) (k a : Nat) (v : Byte) : (s.setScratchByte k a v).scratchByte k a = v :=
  tblGet_tblSet_same _ _ _
theorem setScratchByte_other {s : State} {k a m b : Nat} {v : Byte} (h : m * 2 ^ 21 + b ≠ k * 2 ^ 21 + a) :
    (s.setScratchByte k a v).scratchByte m b = s.scratchByte m b :=
  tblGet_tblSet_of_ne h

/-- One byte is never the whole of an 8-byte word. -/
theorem byte_not_whole_word (a : Nat) : (List.range 8).all (fun i => a % 8 == i) = false := by
  rw [List.all_eq_false]
  by_cases h : a % 8 = 0
  · exact ⟨1, by decide, by simp [h]⟩
  · exact ⟨0, by decide, by simpa using h⟩

/-- A byte written to a word without an error stands there, and no output leaves (04 R86). -/
theorem bankWrite_byte_good {s : State} {site a : Nat} (v : Byte) (h : site * 2 ^ 18 + a / 8 ∉ s.flow.scratchUe) :
    (s.bankWrite site [(a, v)]).flow = (s.setScratchByte site a v).flow ∧ (s.bankWrite site [(a, v)]).out = s.out := by
  simp [-Nat.reducePow, State.bankWrite, byte_not_whole_word, h]

/-- A byte written to an uncorrectable word is not stored (04 R86). -/
theorem bankWrite_byte_bad {s : State} {site a : Nat} (v : Byte) (h : site * 2 ^ 18 + a / 8 ∈ s.flow.scratchUe) :
    (s.bankWrite site [(a, v)]).flow.scratch = s.flow.scratch := by
  simp [-Nat.reducePow, State.bankWrite, byte_not_whole_word, h, (spadUe_sluice _ _).scratch]

/-- The state after an access that its bank performs at once: the time of the access is noted (04 R102). -/
def State.touchBank (s : State) (site b : Nat) : State :=
  { s with flow := { s.flow with bankLast := tblSet (fun _ => 0) s.flow.bankLast (bankKey site b) s.clk.root } }

@[simp] theorem State.touchBank_out (s : State) (k b : Nat) : (s.touchBank k b).out = s.out := rfl
@[simp] theorem State.touchBank_scratch (s : State) (k b : Nat) : (s.touchBank k b).flow.scratch = s.flow.scratch := rfl
@[simp] theorem State.touchBank_scratchUe (s : State) (k b : Nat) : (s.touchBank k b).flow.scratchUe = s.flow.scratchUe := rfl
@[simp] theorem State.touchBank_pageDirty (s : State) (k b m pg : Nat) : (s.touchBank k b).pageDirty m pg = s.pageDirty m pg := rfl
@[simp] theorem State.touchBank_scratchByte (s : State) (k b m a : Nat) : (s.touchBank k b).scratchByte m a = s.scratchByte m a := rfl

theorem accessBank_active {s : State} {site b : Nat} (h : s.bank site b = .active) : s.accessBank site b = (s.touchBank site b, true) := by
  unfold State.accessBank; rw [h]; rfl

/-! ### One debug access to a scratchpad byte (04 R85, R86, R104, R105) -/

/-- A read of a dirty page answers 0. -/
theorem spadAccess_read_dirty {s : State} {site off : Nat} (h : s.pageDirty site (off / 4096) = true) (ce : Nat) :
    (s.spadAccess { site := site, off := off, write := none, ce := ce }).flow = s.flow ∧
      (s.spadAccess { site := site, off := off, write := none, ce := ce }).out = .bar2Data (site * 2 ^ 21 + off) 0 :: s.out := by
  simp [State.spadAccess, h]

/-- A read of a word without an uncorrectable error on a clean page answers the byte. -/
theorem spadAccess_read_clean {s : State} {site off : Nat} (h : s.pageDirty site (off / 4096) = false)
    (hw : site * 2 ^ 18 + off / 8 ∉ s.flow.scratchUe) (ce : Nat) :
    (s.spadAccess { site := site, off := off, write := none, ce := ce }).flow = s.flow ∧
      (s.spadAccess { site := site, off := off, write := none, ce := ce }).out =
        .bar2Data (site * 2 ^ 21 + off) (s.scratchByte site off) :: s.out := by
  simp [-Nat.reducePow, State.spadAccess, h, hw]

/-- A write to a clean page writes the byte to its bank, once the errors the access corrected are counted. -/
theorem spadAccess_write_clean {s : State} {site off : Nat} (h : s.pageDirty site (off / 4096) = false) (v : Byte) (ce : Nat) :
    ∃ t : State, t.flow = s.flow ∧ t.out = s.out ∧
      s.spadAccess { site := site, off := off, write := some v, ce := ce } = t.bankWrite site [(off, v)] :=
  ⟨(s.bumpSite site 0x158 ce).ceSite site SramStruct.scratch.code ce, by simp, by simp, by simp [State.spadAccess, h]⟩

/-! ### BAR2 accesses (11 R261, R265) -/

/-- The host reaches BAR2: the device runs its work, BAR accesses are on, and the link carries CXL (11 R261, R266). -/
structure BarTwoOpen (s : State) : Prop where
  live : s.live = true
  bar : s.barOpen = true
  mode : s.cxl.mode = true

/-- Debug access is locked, or no memory unit stands at the offset. -/
def BarTwoUnmapped (off : Nat) (s : State) : Prop := s.spadOpen = false ∨ 8192 ≤ off / 2 ^ 21 ∨ isCu (off / 2 ^ 21) = true

theorem onHostBar2Access_unmapped_read {s : State} {off : Nat} (ho : BarTwoOpen s) (h : BarTwoUnmapped off s) (ce : Nat) :
    onHostBar2Access off none ce s = (s.bumpMem 0x40888).emit (.bar2Data off 0) := by
  unfold onHostBar2Access
  rw [if_neg (by simp [ho.live, ho.bar, ho.mode]), if_pos (by simpa [BarTwoUnmapped] using h)]

theorem onHostBar2Access_unmapped_write {s : State} {off : Nat} (ho : BarTwoOpen s) (h : BarTwoUnmapped off s) (v : Byte) (ce : Nat) :
    onHostBar2Access off (some v) ce s = s.bumpMem 0x40888 := by
  unfold onHostBar2Access
  rw [if_neg (by simp [ho.live, ho.bar, ho.mode]), if_pos (by simpa [BarTwoUnmapped] using h)]

/-- Scratchpad debug is open in A0, and an awake bank of a memory unit stands at the offset. -/
structure BarTwoAwake (off : Nat) (s : State) : Prop extends BarTwoOpen s where
  debug : s.spadOpen = true
  site : off / 2 ^ 21 < 8192
  memory : isCu (off / 2 ^ 21) = false
  idle : s.pwr.idle = 0
  a4 : s.pwr.a4Wait = false
  bank : s.bank (off / 2 ^ 21) (lineBank (off % 2 ^ 21 / 64)) = .active

/-- Such an access is performed at once. -/
theorem onHostBar2Access_awake {s : State} {off : Nat} (h : BarTwoAwake off s) (w : Option Byte) (ce : Nat) :
    onHostBar2Access off w ce s = (s.touchBank (off / 2 ^ 21) (lineBank (off % 2 ^ 21 / 64))).spadAccess
      { site := off / 2 ^ 21, off := off % 2 ^ 21, write := w, ce := ce } := by
  unfold onHostBar2Access
  rw [if_neg (by simp [h.live, h.bar, h.mode]), if_neg (by simp [-Nat.reducePow, h.debug, h.memory, h.site])]
  simp [-Nat.reducePow, wake_open h.idle h.a4, h.idle, accessBank_active h.bank]

/-- The site and the byte of an offset name it. -/
theorem barTwo_offset (off : Nat) : off / 2 ^ 21 * 2 ^ 21 + off % 2 ^ 21 = off := Nat.div_add_mod' off (2 ^ 21)

theorem answers_hostBar2Access {off ce : Nat} {w : Option Byte} {s : State} {p : State → Prop} (h : p (onHostBar2Access off w ce s)) :
    Answers (.hostBar2Access off w ce) s p := ⟨_, rfl, h⟩

theorem barTwo_unmapped {s : State} {off : Nat} (ho : BarTwoOpen s) (h : BarTwoUnmapped off s) (ce : Nat) (w : Option Byte) :
    Answers (.hostBar2Access off w ce) s fun t =>
      t.ctr 0x40888 = (if s.rfBit memBase 8 then s.ctr 0x40888 else min (s.ctr 0x40888 + 1) (2 ^ 48 - 1)) ∧
      t.flow = s.flow ∧ t.hbm = s.hbm ∧ t.out = (if w = none then [.bar2Data off 0] else []) ++ s.out := by
  apply answers_hostBar2Access
  cases w with
  | none =>
    rw [onHostBar2Access_unmapped_read ho h]
    exact ⟨bumpMem_ctr s 0x40888 1, by simp, by simp, by simp⟩
  | some v =>
    rw [onHostBar2Access_unmapped_write ho h]
    exact ⟨bumpMem_ctr s 0x40888 1, by simp, by simp, by simp⟩

section
variable {s : State} {off : Nat} (h : BarTwoAwake off s) (ce : Nat)
include h

theorem barTwo_read_dirty (hp : s.pageDirty (off / 2 ^ 21) (off % 2 ^ 21 / 4096) = true) :
    Answers (.hostBar2Access off none ce) s fun t => t.out = .bar2Data off 0 :: s.out ∧ t.flow.scratch = s.flow.scratch := by
  apply answers_hostBar2Access
  rw [onHostBar2Access_awake h]
  obtain ⟨hf, ho⟩ := spadAccess_read_dirty (s := s.touchBank _ _) hp ce
  rw [hf, ho, barTwo_offset]
  exact ⟨rfl, rfl⟩

theorem barTwo_read_clean (hp : s.pageDirty (off / 2 ^ 21) (off % 2 ^ 21 / 4096) = false)
    (hw : off / 2 ^ 21 * 2 ^ 18 + off % 2 ^ 21 / 8 ∉ s.flow.scratchUe) :
    Answers (.hostBar2Access off none ce) s fun t =>
      t.out = .bar2Data off (s.scratchByte (off / 2 ^ 21) (off % 2 ^ 21)) :: s.out ∧ t.flow.scratch = s.flow.scratch := by
  apply answers_hostBar2Access
  rw [onHostBar2Access_awake h]
  obtain ⟨hf, ho⟩ := spadAccess_read_clean (s := s.touchBank _ _) hp hw ce
  rw [hf, ho, barTwo_offset]
  exact ⟨rfl, rfl⟩

theorem barTwo_write_clean (hp : s.pageDirty (off / 2 ^ 21) (off % 2 ^ 21 / 4096) = false)
    (hw : off / 2 ^ 21 * 2 ^ 18 + off % 2 ^ 21 / 8 ∉ s.flow.scratchUe) (v : Byte) :
    Answers (.hostBar2Access off (some v) ce) s fun t => t.scratchByte (off / 2 ^ 21) (off % 2 ^ 21) = v ∧ t.out = s.out ∧
      ∀ k b, b < 2 ^ 21 → k * 2 ^ 21 + b ≠ off → t.scratchByte k b = s.scratchByte k b := by
  apply answers_hostBar2Access
  rw [onHostBar2Access_awake h]
  obtain ⟨u, uflow, uout, e⟩ := spadAccess_write_clean (s := s.touchBank _ _) hp v ce
  obtain ⟨hf, ho⟩ := bankWrite_byte_good (s := u) v (by rwa [uflow])
  rw [e, ho, uout]
  refine ⟨?_, rfl, fun k b _ hb => ?_⟩
  · rw [scratchByte_congr hf, setScratchByte_same]
  · rw [scratchByte_congr hf, setScratchByte_other (by rwa [barTwo_offset]), scratchByte_congr uflow, State.touchBank_scratchByte]

theorem barTwo_write_bad (hp : s.pageDirty (off / 2 ^ 21) (off % 2 ^ 21 / 4096) = false)
    (hw : off / 2 ^ 21 * 2 ^ 18 + off % 2 ^ 21 / 8 ∈ s.flow.scratchUe) (v : Byte) :
    Answers (.hostBar2Access off (some v) ce) s fun t => t.flow.scratch = s.flow.scratch := by
  apply answers_hostBar2Access
  rw [onHostBar2Access_awake h]
  obtain ⟨u, uflow, -, e⟩ := spadAccess_write_clean (s := s.touchBank _ _) hp v ce
  rw [e, bankWrite_byte_bad v (by rwa [uflow]), uflow, State.touchBank_scratch]

end

/-- Settles O35: the access is unmapped, and counted; or its bank performs it at once, and the page and the word say what becomes of
the byte. -/
theorem barTwoServed : Obligations.BarTwoServed := by
  intro off ce s hl hb hm
  have ho : BarTwoOpen s := ⟨hl, hb, hm⟩
  refine ⟨fun h w => barTwo_unmapped ho h ce w, fun hd hk hc hi ha hbank => ?_⟩
  have h : BarTwoAwake off s := ⟨ho, hd, hk, hc, hi, ha, hbank⟩
  refine ⟨barTwo_read_dirty h ce, fun hp => ⟨fun hw => ⟨barTwo_read_clean h ce hp hw, barTwo_write_clean h ce hp hw⟩, ?_⟩⟩
  exact barTwo_write_bad h ce hp

end Sys2Proof.Machine
end

section
/-! SUPPORT. How a command of Table 12-2 starts (12 R289): every row that names one goes through the one start operation, and that
operation makes the checks in their order. -/
namespace Sys2Proof.Machine

/-! ### The checks of the start operation -/

section
variable {s : State} {spec : CmdSpec} {d : Desc}

/-- An undefined opcode ends with INVALID_OPCODE, whatever command its row was meant to start (check 1). -/
theorem startCmd_invalid_opcode (hop : 0x0F ≤ byteAt d.bytes 0)
    (hr : s.ringReady d.ring.val 1 false (byteAt d.bytes 2 % 8) = true) (extra : Bool) (kind : StartedKind)
    (body : State → Started → State) : EndsAtOnce d 0x03 s (s.startCmd spec d extra kind body) := by
  have hlt : ¬ byteAt d.bytes 0 < 0x0F := by omega
  unfold State.startCmd
  simp only [hlt, hop, hr, false_and, if_false, if_true, decide_false, Bool.false_and, Bool.not_true, Bool.false_eq_true]
  exact begun_complete_ends s { spec with entries := 1, usesSlot := false } kind d 0x03 0 [] (by decide)

section
variable (hop : byteAt d.bytes 0 = spec.opcode) (ho : spec.opcode < 0x0F)
  (hr : s.ringReady d.ring.val spec.entries spec.usesSlot (byteAt d.bytes 2 % 8) = true)
  (kind : StartedKind) (body : State → Started → State)
include hop ho hr

/-- A command whose descriptor is ready meets checks 2 to 6, and then its own part. -/
theorem startCmd_ready : s.startCmd spec d true kind body =
    let n := byteAt d.bytes 2 % 8
    let b := begun spec kind d s
    if spec.admin = true ∧ s.ringAdmin d.ring.val = false then b.1.complete b.2 0x05 0 []
    else if spec.usesSlot = true ∧ bitAt (s.ringSlots d.ring.val) n = false then b.1.complete b.2 0x05 0 []
    else if reservedZero spec d.bytes = false then b.1.complete b.2 0x04 0 []
    else if spec.needsSurvey = true ∧ s.loaded n = false then b.1.complete b.2 0x06 0 []
    else if spec.usesSlot = true ∧ (s.slot n).killing = true then b.1.complete b.2 0x02 0 []
    else body b.1 b.2 := by
  have hge : ¬ 0x0F ≤ spec.opcode := by omega
  unfold State.startCmd
  simp only [hop, ho, hge, hr, ne_eq, not_true_eq_false, and_false, if_false, if_true, decide_true, Bool.true_and, Bool.not_true,
    Bool.false_eq_true, Bool.not_eq_true']
  rfl

/-- The first of checks 2 to 6 that fails gives the status with which the descriptor ends. -/
theorem startCmd_checks :
    let n := byteAt d.bytes 2 % 8
    let t := s.startCmd spec d true kind body
    if spec.admin = true ∧ s.ringAdmin d.ring.val = false then EndsAtOnce d 0x05 s t
    else if spec.usesSlot = true ∧ bitAt (s.ringSlots d.ring.val) n = false then EndsAtOnce d 0x05 s t
    else if reservedZero spec d.bytes = false then EndsAtOnce d 0x04 s t
    else if spec.needsSurvey = true ∧ s.loaded n = false then EndsAtOnce d 0x06 s t
    else if spec.usesSlot = true ∧ (s.slot n).killing = true then EndsAtOnce d 0x02 s t
    else True := by
  have ends (status : Nat) (hs : status < 256) := begun_complete_ends s spec kind d status 0 [] hs
  rw [startCmd_ready hop ho hr]
  dsimp only
  split_ifs
  · exact ends 0x05 (by decide)
  · exact ends 0x05 (by decide)
  · exact ends 0x04 (by decide)
  · exact ends 0x06 (by decide)
  · exact ends 0x02 (by decide)

end
end

/-! ### Every row of a command goes through the start operation -/

/-- The row answers what the start operation makes of its descriptor, with nothing of its own to wait for. -/
def RunsStart (c : Instr) (spec : CmdSpec) (d : Desc) (s : State) : Prop :=
  ∃ kind body, exec c s = .next (s.startCmd spec d true kind body)

theorem RunsStart.of_eq {c : Instr} {spec : CmdSpec} {d : Desc} {s t : State} {extra : Bool} {kind : StartedKind}
    {body : State → Started → State} (hc : exec c s = .next t) (ht : t = s.startCmd spec d extra kind body) (he : extra = true) :
    RunsStart c spec d s :=
  ⟨kind, body, by rw [hc, ht, he]⟩

/-- With no parameter block of the ring still being read, SET_STEP_PARAMS takes the head descriptor (01 R16). -/
theorem setStepParams_runsStart {d : Desc} {view : HostView} {s : State} (h : unheld (.setStepParams d view) s = true) :
    RunsStart (.setStepParams d view) stepParamsSpec d s := by
  obtain ⟨hfree, hread⟩ := Bool.and_eq_true_iff.1 h
  change ∃ kind body, Host.Outcome.next (onSetStepParams d view s) = _
  unfold onSetStepParams
  rw [List.find?_eq_none.2, hfree]
  · exact ⟨_, _, rfl⟩
  · intro x hx
    have hx := List.all_eq_true.1 hread x hx
    cases hk : x.kind with
    | stepParams j => simpa [hk, imp_iff_not_or] using hx
    | _ => simp

/-- With every BARRIER of the ring sent, BARRIER takes the head descriptor (12 R296). -/
theorem barrier_runsStart {d : Desc} {s : State} (h : unheld (.barrier d) s = true) : RunsStart (.barrier d) barrierSpec d s := by
  change ∃ kind body, Host.Outcome.next (onBarrier d s) = _
  unfold onBarrier
  dsimp only
  rw [List.findSome?_eq_none_iff.2]
  · exact ⟨_, _, rfl⟩
  · intro x hx
    have hx := List.all_eq_true.1 h x hx
    cases hk : x.kind with
    | barrier k _ => simpa [hk, ← Option.isSome_iff_ne_none] using hx
    | _ => rfl

/-- Every row of Table 12-2 that waits for nothing of its own runs the start operation. -/
theorem ringCmd_runsStart {c : Instr} {spec : CmdSpec} {d : Desc} {s : State} (hc : ringCmd c = some (spec, d))
    (hu : unheld c s = true) : RunsStart c spec d s := by
  unfold ringCmd at hc
  split at hc <;> cases hc
  · exact .of_eq rfl (onNop.eq_1 ..) rfl
  · exact .of_eq rfl (onSurveyLoad.eq_1 ..) rfl
  · exact .of_eq rfl (onSurveyUnload.eq_1 ..) rfl
  · exact .of_eq rfl (onRunStep.eq_1 ..) hu
  · exact setStepParams_runsStart hu
  · exact .of_eq rfl (onRearmStream.eq_1 ..) rfl
  · exact .of_eq rfl (onCopy.eq_1 ..) rfl
  · exact .of_eq rfl (onFence.eq_1 ..) rfl
  · exact barrier_runsStart hu
  · exact .of_eq rfl (onKillJob.eq_1 ..) rfl
  · exact .of_eq rfl (onBiasSet.eq_1 ..) rfl
  · exact .of_eq rfl (onPowerSet.eq_1 ..) rfl
  · exact .of_eq rfl (onBundleLoad.eq_1 ..) hu
  · exact .of_eq rfl (onSealRelease.eq_1 ..) hu
  · exact .of_eq rfl (onSealExport.eq_1 ..) hu

/-- The opcodes of Table 12-2 lie below the reserved ones. -/
theorem ringCmd_opcode_lt {c : Instr} {spec : CmdSpec} {d : Desc} (hc : ringCmd c = some (spec, d)) : spec.opcode < 0x0F := by
  unfold ringCmd at hc
  split at hc <;> cases hc <;> exact of_decide_eq_true rfl

theorem answers_iff {c : Instr} {s t : State} {p : State → Prop} (h : exec c s = .next t) : Answers c s p ↔ p t := by
  simp [Answers, h]

/-- Settles O10: the columns of Table 12-2 are read off the specs, and every row of the table runs the start operation, which makes
the checks in their order. -/
theorem ringCommandChecks : Obligations.RingCommandChecks := by
  refine ⟨rfl, fun st => ?_, fun c spec d s hc hu => ?_⟩
  · unfold Started.blocks
    cases st.kind <;> rfl
  · obtain ⟨kind, body, hx⟩ := ringCmd_runsStart hc hu
    simp only [answers_iff hx]
    exact ⟨fun hop hr => startCmd_invalid_opcode hop hr true kind body,
      fun hop hr => startCmd_checks hop (ringCmd_opcode_lt hc) hr kind body⟩

end Sys2Proof.Machine
end

section
/-! SUPPORT. The debug unlock (16 R408 to R411): what a write of `DBG_CTL` does, what a SUBMIT makes of the security state, and what
the resets leave of the challenge. -/
namespace Sys2Proof.Machine

/-! ### What operations leave of the security state -/

theorem Keeps.sec_eq {p : Nat} {s t : State} (h : Keeps p s t) (hp : p.testBit Field.sec.place = false) : t.sec = s.sec :=
  h.frame.same (f := .sec) hp

/-- Of the security state only the table of sealed regions differs: releases and preempted bundle jobs change no more of it. -/
def SealedFrame (s t : State) : Prop := t.sec = { s.sec with sealed := t.sec.sealed }

theorem SealedFrame.of_sec {s t : State} (h : t.sec = s.sec) : SealedFrame s t := by unfold SealedFrame; rw [h]
theorem SealedFrame.after {s t u : State} (b : SealedFrame t u) (a : SealedFrame s t) : SealedFrame s u := by
  unfold SealedFrame at *; rw [b, a]
theorem SealedFrame.foldl {β : Type} {f : State → β → State} (h : ∀ s x, SealedFrame s (f s x)) (l : List β) (s : State) :
    SealedFrame s (l.foldl f s) := by
  induction l generalizing s with
  | nil => exact .of_sec rfl
  | cons x l ih => exact (ih _).after (h s x)

theorem killAll_sealed (s : State) : SealedFrame s s.killAll := .of_sec (s.killAll_keeps.sec_eq rfl)
theorem complete_sealed (s : State) (d : Started) (status detail : Nat) (result : List Byte) :
    SealedFrame s (s.complete d status detail result) := .of_sec ((s.complete_keeps d status detail result).sec_eq rfl)
theorem releaseSealed_sealed (s : State) (r : Nat) : SealedFrame s (s.releaseSealed r) := by
  unfold State.releaseSealed
  split
  · rfl
  · exact .of_sec rfl
theorem releaseSealedWhere_sealed (s : State) (p : Sealed → Bool) : SealedFrame s (s.releaseSealedWhere p) := rfl
theorem stopBundles_sealed (s : State) : SealedFrame s s.stopBundles := by
  unfold State.stopBundles
  refine SealedFrame.foldl (fun s d => ?_) _ _
  split
  case h_1 j _ =>
    refine (complete_sealed _ _ _ _ _).after ?_
    split
    · exact .of_sec rfl
    · exact releaseSealed_sealed _ _
  case h_2 => exact complete_sealed _ _ _ _ _
  case h_3 => exact .of_sec rfl

/-! ### Writes of `DBG_CTL` (16 R413) -/

theorem bar0Write_dbgCtl (s : State) (w : Nat) (line : List Byte) : s.bar0Write 0x8040 w line = s.dbgCtlWrite w := by
  simp [State.bar0Write, State.serviceWrite]

section
variable {tee : Bool} {s : State} (hw : WriteOpen tee s) (hv : s.sec.dbg ≠ .verifying) (hs : s.sec.dbg ≠ .scrubbing)
include hw hv hs

/-- With no unlock in progress, writing `CHAL_NEW` draws the challenge. -/
theorem exec_dbgCtlChalNew : exec (.dbgCtlChalNew tee) s = .next s.chalNew := by
  change Host.Outcome.next (s.oneWrite 0x8040 1 tee) = _
  simp [oneWrite_open hw, bar0Write_dbgCtl, State.dbgCtlWrite, hv, hs, bitAt]

/-- With no unlock in progress, writing `SUBMIT` checks the token. -/
theorem exec_dbgCtlSubmit : exec (.dbgCtlSubmit tee) s = .next s.dbgSubmit := by
  change Host.Outcome.next (s.oneWrite 0x8040 2 tee) = _
  simp [oneWrite_open hw, bar0Write_dbgCtl, State.dbgCtlWrite, hv, hs, bitAt]
end

/-! ### SUBMIT (16 R409 to R411) -/

theorem dbgSubmit_unlocked {s : State} (h : s.sec.dbg = .unlocked) :
    s.dbgSubmit = { s with sec := { s.sec with dbgResult := 1, chal := none } } := if_pos h

section
variable {s : State} (h : s.sec.dbg ≠ .unlocked)
include h

/-- A token that fails changes `RESULT`, discards the challenge and raises DEBUG_UNLOCK_FAIL. -/
theorem dbgSubmit_failed (hr : s.tokenResult ≠ 1) :
    s.dbgSubmit = ({ s with sec := { s.sec with dbgResult := s.tokenResult, chal := none } } : State).ev
      0x0070 .warning 0 s.tokenResult 0 0 0 := by
  simp [State.dbgSubmit, h, hr]

/-- A token that passes starts the scrub: kills, preempted bundle jobs and releases touch none of the unlock's own fields. -/
theorem dbgSubmit_passed_sec (hr : s.tokenResult = 1) :
    s.dbgSubmit.sec = { s.sec with
      dbgResult := 1, chal := none, dbg := .scrubbing, scopeWait := leAt s.token 4 4 % 4, sealed := s.dbgSubmit.sec.sealed } := by
  simp only [State.dbgSubmit, h, hr, if_true, if_false]
  exact (releaseSealedWhere_sealed _ _).after ((stopBundles_sealed _).after (killAll_sealed _))

variable (hr : s.tokenResult ≠ 1)
include hr

theorem dbgSubmit_failed_sec :
    s.dbgSubmit.sec = { s.sec with dbgResult := s.tokenResult, chal := none } := by
  rw [dbgSubmit_failed h hr]
  exact (State.ev_keeps _ _ _ _ _ _ _ _).sec_eq rfl

theorem dbgSubmit_failed_slots : s.dbgSubmit.slots = s.slots := by
  rw [dbgSubmit_failed h hr]
  exact (State.ev_keeps _ _ _ _ _ _ _ _).frame.same (f := .slots) rfl

theorem dbgSubmit_failed_hbm : s.dbgSubmit.hbm = s.hbm := by
  rw [dbgSubmit_failed h hr]
  exact (State.ev_keeps _ _ _ _ _ _ _ _).frame.same (f := .hbm) rfl

theorem dbgSubmit_failed_logged : Logged 0x0070 .warning none (genPayload 0 s.tokenResult 0 0 0) s s.dbgSubmit := by
  rw [dbgSubmit_failed h hr]
  exact raise_logged { s with sec := { s.sec with dbgResult := s.tokenResult, chal := none } } _ _ _ _
end

/-- Every SUBMIT discards the challenge (16 R408). -/
theorem dbgSubmit_chal (s : State) : s.dbgSubmit.sec.chal = none := by
  by_cases h : s.sec.dbg = .unlocked
  · rw [dbgSubmit_unlocked h]
  by_cases hr : s.tokenResult = 1
  · rw [dbgSubmit_passed_sec h hr]
  · rw [dbgSubmit_failed_sec h hr]

theorem tdiFrozen_iff (s : State) : s.tdiFrozen = true ↔ s.cxl.tdi = .locked ∨ s.cxl.tdi = .run := by simp [State.tdiFrozen]

/-! ### Resets discard the challenge (16 R408) -/

theorem runImage_chal (s : State) (img : List Byte) (host : Bool) : (s.runImage img host).sec.chal = s.sec.chal := by
  unfold State.runImage
  rw [(State.fabBoot_keeps _).sec_eq rfl]

theorem afterReset_chal (s : State) (p : ResetProgress) : (s.afterReset p).sec.chal = none := by
  unfold State.afterReset
  rw [(State.fabReset_keeps _).sec_eq rfl, (State.reviewClock_keeps _).sec_eq rfl]

theorem reboot_chal (s : State) : s.reboot.sec.chal = s.sec.chal := by
  unfold State.reboot
  dsimp only
  split
  · rw [(State.ev_keeps _ _ _ _ _ _ _ _).sec_eq rfl, runImage_chal]
  · rfl

theorem onResetComplete_chal {s : State} {p : ResetProgress} (h : s.pwr.resetting = some p) :
    (onResetComplete s).sec.chal = none := by
  unfold onResetComplete
  simp only [h]
  split
  · rw [reboot_chal, afterReset_chal]
  · exact afterReset_chal s p

theorem powerOn_chal (s : State) : s.powerOn.sec.chal = none := rfl

theorem onRootLockLoss_chal {s : State} (h : s.clk.locked = true) : (onRootLockLoss s).sec.chal = none := by
  simp [onRootLockLoss, h, powerOn_chal]

theorem onPowerLoss_chal {pwrok : Bool} {core io : Nat} (h : pwrok = false ∨ core < 550 ∨ io < 1620) (s : State) :
    (onPowerLoss pwrok core io s).sec.chal = none := by
  have hdown : ¬ (pwrok && decide (550 ≤ core) && decide (1620 ≤ io)) = true := by
    simp only [Bool.and_eq_true, decide_eq_true_eq]
    rintro ⟨⟨hp, hc⟩, hi⟩
    simp only [hp, Bool.true_eq_false, false_or] at h
    omega
  unfold onPowerLoss
  rw [if_neg hdown]
  dsimp only
  split <;> exact powerOn_chal s.loseImage

theorem onThermtrip_chal {s : State} (h : s.pwr.thermTrip = false) : (onThermtrip s).sec.chal = none := by
  simp [onThermtrip, h, powerOn_chal]

/-! ### The obligations -/

/-- Settles O21: `CHAL_NEW` draws the challenge, every branch of a SUBMIT discards it, and each reset rebuilds the security state
without one. -/
theorem challengeServesOneSubmit : Obligations.ChallengeServesOneSubmit := by
  refine ⟨fun tee s hw hv hs => ⟨?_, ?_⟩, fun s p h => ?_, fun s h => ?_, fun pwrok core io s h => ?_, fun s h => ?_⟩
  · exact (answers_iff (exec_dbgCtlChalNew hw hv hs)).2 ⟨rfl, by simp [State.drbg], rfl⟩
  · exact (answers_iff (exec_dbgCtlSubmit hw hv hs)).2 (dbgSubmit_chal s)
  · exact (answers_iff rfl).2 (onResetComplete_chal h)
  · exact (answers_iff rfl).2 (onRootLockLoss_chal h)
  · exact (answers_iff rfl).2 (onPowerLoss_chal h s)
  · exact (answers_iff rfl).2 (onThermtrip_chal h)

/-- Settles O22: the model's `RESULT` is the statement's chain of checks, and a SUBMIT branches on it. -/
theorem submitChecksInOrder : Obligations.SubmitChecksInOrder := by
  intro tee s hw t0 r
  have hr : s.tokenResult = r := by
    simp only [State.tokenResult, tdiFrozen_iff, Bool.not_eq_true', t0, r]
  refine ⟨fun hd hne => ?_, fun hd h1 => ?_, fun hd => ?_⟩
  · have hl : s.sec.dbg ≠ .unlocked := by simp [hd]
    rw [← hr] at hne ⊢
    rw [answers_iff (exec_dbgCtlSubmit hw (by simp [hd]) (by simp [hd]))]
    exact ⟨dbgSubmit_failed_sec hl hne, dbgSubmit_failed_slots hl hne, dbgSubmit_failed_hbm hl hne, dbgSubmit_failed_logged hl hne⟩
  · rw [answers_iff (exec_dbgCtlSubmit hw (by simp [hd]) (by simp [hd])),
      dbgSubmit_passed_sec (by simp [hd]) (hr.trans h1)]
    exact ⟨rfl, rfl, rfl⟩
  · rw [exec_dbgCtlSubmit hw (by simp [hd]) (by simp [hd]), dbgSubmit_unlocked hd]

end Sys2Proof.Machine
end

section
/-! SUPPORT. What every command keeps, whichever it is: the meaning of each row with its lemma, and what a step inherits from them. -/
namespace Sys2Proof.Machine

/-- Every command answers a next state, which keeps what every operation of the block keeps. -/
theorem exec_keeps (i : Instr) (s : State) : ∃ p t, exec i s = .next t ∧ Keeps p s t :=
  match i with
  | .nop _ => ⟨_, _, rfl, onNop_keeps ..⟩ | .surveyLoad _ _ => ⟨_, _, rfl, onSurveyLoad_keeps ..⟩
  | .surveyLoadComplete _ => ⟨_, _, rfl, onSurveyLoadComplete_keeps ..⟩ | .surveyUnload _ _ => ⟨_, _, rfl, onSurveyUnload_keeps ..⟩
  | .runStep _ => ⟨_, _, rfl, onRunStep_keeps ..⟩ | .runStepComplete _ => ⟨_, _, rfl, onRunStepComplete_keeps ..⟩
  | .setStepParams _ _ => ⟨_, _, rfl, onSetStepParams_keeps ..⟩ | .rearmStream _ => ⟨_, _, rfl, onRearmStream_keeps ..⟩
  | .copy _ _ _ => ⟨_, _, rfl, onCopy_keeps ..⟩ | .copyComplete _ _ _ _ => ⟨_, _, rfl, onCopyComplete_keeps ..⟩
  | .fence _ => ⟨_, _, rfl, onFence_keeps ..⟩ | .fenceComplete _ => ⟨_, _, rfl, onFenceComplete_keeps ..⟩
  | .barrier _ => ⟨_, _, rfl, onBarrier_keeps ..⟩ | .barrierTimeout _ => ⟨_, _, rfl, onBarrierTimeout_keeps ..⟩
  | .killJob _ _ => ⟨_, _, rfl, onKillJob_keeps ..⟩ | .killComplete _ => ⟨_, _, rfl, onKillComplete_keeps ..⟩
  | .biasSet _ => ⟨_, _, rfl, onBiasSet_keeps ..⟩ | .powerSet _ => ⟨_, _, rfl, onPowerSet_keeps ..⟩
  | .bundleLoad _ _ => ⟨_, _, rfl, onBundleLoad_keeps ..⟩ | .bundleLoadComplete _ => ⟨_, _, rfl, onBundleLoadComplete_keeps ..⟩
  | .sealRelease _ => ⟨_, _, rfl, onSealRelease_keeps ..⟩ | .sealExport _ => ⟨_, _, rfl, onSealExport_keeps ..⟩
  | .sealExportComplete _ => ⟨_, _, rfl, onSealExportComplete_keeps ..⟩ | .doorbellSnoop _ _ _ => ⟨_, _, rfl, onDoorbellSnoop_keeps ..⟩
  | .completionHeadPoll _ _ => ⟨_, _, rfl, onCompletionHeadPoll_keeps ..⟩
  | .eventRingHeadPoll _ => ⟨_, _, rfl, onEventRingHeadPoll_keeps ..⟩ | .registerWrite _ => ⟨_, _, rfl, onRegisterWrite_keeps ..⟩
  | .counterLowRead _ => ⟨_, _, rfl, onCounterLowRead_keeps ..⟩ | .ptpTxtsPop _ _ => ⟨_, _, rfl, onPtpTxtsPop_keeps ..⟩
  | .cuCtlCntClr _ _ => ⟨_, _, rfl, onCuCtlCntClr_keeps ..⟩ | .muCtlCntClr _ _ => ⟨_, _, rfl, onMuCtlCntClr_keeps ..⟩
  | .millCtlCntClr _ => ⟨_, _, rfl, onMillCtlCntClr_keeps ..⟩ | .memCtlCntClr _ => ⟨_, _, rfl, onMemCtlCntClr_keeps ..⟩
  | .cxlCtlCntClr _ => ⟨_, _, rfl, onCxlCtlCntClr_keeps ..⟩ | .cageCtlCntClr _ => ⟨_, _, rfl, onCageCtlCntClr_keeps ..⟩
  | .portCtlCntClr _ _ => ⟨_, _, rfl, onPortCtlCntClr_keeps ..⟩ | .fabCfgCntClr _ => ⟨_, _, rfl, onFabCfgCntClr_keeps ..⟩
  | .tallyCfgCntClr _ => ⟨_, _, rfl, onTallyCfgCntClr_keeps ..⟩ | .pwrCtlCntClr _ => ⟨_, _, rfl, onPwrCtlCntClr_keeps ..⟩
  | .rasCfgCntClr _ => ⟨_, _, rfl, onRasCfgCntClr_keeps ..⟩ | .glbCtlCntClr _ => ⟨_, _, rfl, onGlbCtlCntClr_keeps ..⟩
  | .ringCtlEn _ _ _ _ => ⟨_, _, rfl, onRingCtlEn_keeps ..⟩ | .evqEn _ _ => ⟨_, _, rfl, onEvqEn_keeps ..⟩
  | .jobctlHoistCfgEn _ _ _ => ⟨_, _, rfl, onJobctlHoistCfgEn_keeps ..⟩
  | .jobctlSluiceCfgEn _ _ _ => ⟨_, _, rfl, onJobctlSluiceCfgEn_keeps ..⟩ | .tallySetHi _ _ => ⟨_, _, rfl, onTallySetHi_keeps ..⟩
  | .dbgCtlChalNew _ => ⟨_, _, rfl, onDbgCtlChalNew_keeps ..⟩ | .dbgCtlSubmit _ => ⟨_, _, rfl, onDbgCtlSubmit_keeps ..⟩
  | .debugUnlockScrubDone => ⟨_, _, rfl, onDebugUnlockScrubDone_keeps ..⟩ | .rasUnitFence _ _ => ⟨_, _, rfl, onRasUnitFence_keeps ..⟩
  | .rasUnitReturn _ _ => ⟨_, _, rfl, onRasUnitReturn_keeps ..⟩ | .rasUnitRestore _ _ => ⟨_, _, rfl, onRasUnitRestore_keeps ..⟩
  | .siteFence _ _ => ⟨_, _, rfl, onSiteFence_keeps ..⟩ | .selftestComplete _ _ => ⟨_, _, rfl, onSelftestComplete_keeps ..⟩
  | .fwCtlStage _ _ => ⟨_, _, rfl, onFwCtlStage_keeps ..⟩ | .fwWriteComplete => ⟨_, _, rfl, onFwWriteComplete_keeps ..⟩
  | .fwCtlActivate _ => ⟨_, _, rfl, onFwCtlActivate_keeps ..⟩ | .fwCtlCommit _ => ⟨_, _, rfl, onFwCtlCommit_keeps ..⟩
  | .fwCtlRecover => ⟨_, _, rfl, onFwCtlRecover_keeps ..⟩ | .busMasterEnableWrite _ => ⟨_, _, rfl, onBusMasterEnableWrite_keeps ..⟩
  | .priEnableWrite _ => ⟨_, _, rfl, onPriEnableWrite_keeps ..⟩ | .hdmDecoderCommit _ _ _ => ⟨_, _, rfl, onHdmDecoderCommit_keeps ..⟩
  | .lockedItemChange _ => ⟨_, _, rfl, onLockedItemChange_keeps ..⟩ | .lockInterface => ⟨_, _, rfl, onLockInterface_keeps ..⟩
  | .stopInterface => ⟨_, _, rfl, onStopInterface_keeps ..⟩ | .ideKm _ => ⟨_, _, rfl, onIdeKm_keeps ..⟩
  | .ideStreamReceive _ _ => ⟨_, _, rfl, onIdeStreamReceive_keeps ..⟩ | .getVersion _ => ⟨_, _, rfl, onGetVersion_keeps ..⟩
  | .getCapabilities _ => ⟨_, _, rfl, onGetCapabilities_keeps ..⟩
  | .negotiateAlgorithms _ _ => ⟨_, _, rfl, onNegotiateAlgorithms_keeps ..⟩
  | .getCertificate _ _ _ _ => ⟨_, _, rfl, onGetCertificate_keeps ..⟩ | .challenge _ _ _ => ⟨_, _, rfl, onChallenge_keeps ..⟩
  | .getMeasurements _ _ _ _ => ⟨_, _, rfl, onGetMeasurements_keeps ..⟩ | .keyExchange _ => ⟨_, _, rfl, onKeyExchange_keeps ..⟩
  | .keyUpdate _ _ => ⟨_, _, rfl, onKeyUpdate_keeps ..⟩ | .endSession _ _ => ⟨_, _, rfl, onEndSession_keeps ..⟩
  | .heartbeatTimeout _ => ⟨_, _, rfl, onHeartbeatTimeout_keeps ..⟩ | .cdatRead => ⟨_, _, rfl, onCdatRead_keeps ..⟩
  | .pldmFwUpdate _ => ⟨_, _, rfl, onPldmFwUpdate_keeps ..⟩ | .jtagIdcode => ⟨_, _, rfl, onJtagIdcode_keeps ..⟩
  | .jtagBypass => ⟨_, _, rfl, onJtagBypass_keeps ..⟩ | .jtagSamplePreload _ _ => ⟨_, _, rfl, onJtagSamplePreload_keeps ..⟩
  | .jtagExtest => ⟨_, _, rfl, onJtagExtest_keeps ..⟩ | .hostCxlMemRead _ _ _ => ⟨_, _, rfl, onHostCxlMemRead_keeps ..⟩
  | .hostCxlMemWrite _ _ _ => ⟨_, _, rfl, onHostCxlMemWrite_keeps ..⟩ | .hostBar2Access _ _ _ => ⟨_, _, rfl, onHostBar2Access_keeps ..⟩
  | .atsInvalidation _ _ _ => ⟨_, _, rfl, onAtsInvalidation_keeps ..⟩
  | .translationCompletion _ _ _ _ => ⟨_, _, rfl, onTranslationCompletion_keeps ..⟩
  | .pageRequestResponse _ _ _ => ⟨_, _, rfl, onPageRequestResponse_keeps ..⟩
  | .pageRequestTimeout _ _ => ⟨_, _, rfl, onPageRequestTimeout_keeps ..⟩ | .cxlLinkUp _ => ⟨_, _, rfl, onCxlLinkUp_keeps ..⟩
  | .cxlLinkDown => ⟨_, _, rfl, onCxlLinkDown_keeps ..⟩ | .powerOnReset _ _ _ => ⟨_, _, rfl, onPowerOnReset_keeps ..⟩
  | .firmwareBoot _ => ⟨_, _, rfl, onFirmwareBoot_keeps ..⟩ | .rootLockLoss => ⟨_, _, rfl, onRootLockLoss_keeps ..⟩
  | .perst _ _ => ⟨_, _, rfl, onPerst_keeps ..⟩ | .cxlReset _ => ⟨_, _, rfl, onCxlReset_keeps ..⟩
  | .secondaryBusReset => ⟨_, _, rfl, onSecondaryBusReset_keeps ..⟩ | .thermalSample _ => ⟨_, _, rfl, onThermalSample_keeps ..⟩
  | .thermtrip => ⟨_, _, rfl, onThermtrip_keeps ..⟩ | .pmbusAlert _ _ _ => ⟨_, _, rfl, onPmbusAlert_keeps ..⟩
  | .voltageTargetReached _ => ⟨_, _, rfl, onVoltageTargetReached_keeps ..⟩ | .aclkStepChange => ⟨_, _, rfl, onAclkStepChange_keeps ..⟩
  | .sagDetect _ _ => ⟨_, _, rfl, onSagDetect_keeps ..⟩ | .sagRelease => ⟨_, _, rfl, onSagRelease_keeps ..⟩
  | .nvOperationStart => ⟨_, _, rfl, onNvOperationStart_keeps ..⟩ | .nvGateTimeout => ⟨_, _, rfl, onNvGateTimeout_keeps ..⟩
  | .idleEntry => ⟨_, _, rfl, onIdleEntry_keeps ..⟩ | .a4Entry => ⟨_, _, rfl, onA4Entry_keeps ..⟩
  | .tokenArrival _ _ => ⟨_, _, rfl, onTokenArrival_keeps ..⟩ | .stationFire _ _ => ⟨_, _, rfl, onStationFire_keeps ..⟩
  | .tileIssue _ => ⟨_, _, rfl, onTileIssue_keeps ..⟩ | .tileBoundary _ => ⟨_, _, rfl, onTileBoundary_keeps ..⟩
  | .accumulatorSwap _ _ => ⟨_, _, rfl, onAccumulatorSwap_keeps ..⟩ | .shadowDrain _ _ _ _ _ => ⟨_, _, rfl, onShadowDrain_keeps ..⟩
  | .panelFillComplete _ _ _ _ => ⟨_, _, rfl, onPanelFillComplete_keeps ..⟩
  | .ringCreditReturn _ _ => ⟨_, _, rfl, onRingCreditReturn_keeps ..⟩ | .spillReturn _ _ _ => ⟨_, _, rfl, onSpillReturn_keeps ..⟩
  | .coalHoldExpiry _ => ⟨_, _, rfl, onCoalHoldExpiry_keeps ..⟩ | .bankIdleEntry _ _ => ⟨_, _, rfl, onBankIdleEntry_keeps ..⟩
  | .bankRetainEntry _ _ => ⟨_, _, rfl, onBankRetainEntry_keeps ..⟩ | .bankWake _ _ => ⟨_, _, rfl, onBankWake_keeps ..⟩
  | .muckerPageScrubbed _ _ => ⟨_, _, rfl, onMuckerPageScrubbed_keeps ..⟩ | .watchdogExpiry _ => ⟨_, _, rfl, onWatchdogExpiry_keeps ..⟩
  | .hoistGatherRequest _ _ _ _ => ⟨_, _, rfl, onHoistGatherRequest_keeps ..⟩
  | .stagingChunkCredit _ _ => ⟨_, _, rfl, onStagingChunkCredit_keeps ..⟩ | .millRunArrival _ => ⟨_, _, rfl, onMillRunArrival_keeps ..⟩
  | .millRunApply _ _ _ => ⟨_, _, rfl, onMillRunApply_keeps ..⟩ | .gatherReadServe _ _ => ⟨_, _, rfl, onGatherReadServe_keeps ..⟩
  | .amaxExchange => ⟨_, _, rfl, onAmaxExchange_keeps ..⟩ | .leaseExpiry => ⟨_, _, rfl, onLeaseExpiry_keeps ..⟩
  | .leaseClose => ⟨_, _, rfl, onLeaseClose_keeps ..⟩ | .leaseRevoke => ⟨_, _, rfl, onLeaseRevoke_keeps ..⟩
  | .sluiceContribution _ => ⟨_, _, rfl, onSluiceContribution_keeps ..⟩ | .redReceive _ => ⟨_, _, rfl, onRedReceive_keeps ..⟩
  | .sluiceResidueFatal _ => ⟨_, _, rfl, onSluiceResidueFatal_keeps ..⟩ | .runDelivery _ => ⟨_, _, rfl, onRunDelivery_keeps ..⟩
  | .barArrive => ⟨_, _, rfl, onBarArrive_keeps ..⟩ | .barRelease => ⟨_, _, rfl, onBarRelease_keeps ..⟩
  | .barAbort => ⟨_, _, rfl, onBarAbort_keeps ..⟩ | .gatherReqReceive => ⟨_, _, rfl, onGatherReqReceive_keeps ..⟩
  | .gatherRspReceive => ⟨_, _, rfl, onGatherRspReceive_keeps ..⟩ | .fmtErrorReceive => ⟨_, _, rfl, onFmtErrorReceive_keeps ..⟩
  | .fmtTransit => ⟨_, _, rfl, onFmtTransit_keeps ..⟩ | .ackReceive => ⟨_, _, rfl, onAckReceive_keeps ..⟩
  | .ackDelayExpiry _ _ => ⟨_, _, rfl, onAckDelayExpiry_keeps ..⟩ | .retransmitTimeout _ _ => ⟨_, _, rfl, onRetransmitTimeout_keeps ..⟩
  | .fmtChannelFail _ _ => ⟨_, _, rfl, onFmtChannelFail_keeps ..⟩ | .rateIncrease _ => ⟨_, _, rfl, onRateIncrease_keeps ..⟩
  | .hello => ⟨_, _, rfl, onHello_keeps ..⟩ | .helloSend _ => ⟨_, _, rfl, onHelloSend_keeps ..⟩
  | .neighbourTimeout _ => ⟨_, _, rfl, onNeighbourTimeout_keeps ..⟩ | .electionSettled => ⟨_, _, rfl, onElectionSettled_keeps ..⟩
  | .fabricNoManager => ⟨_, _, rfl, onFabricNoManager_keeps ..⟩ | .mgmtFlood => ⟨_, _, rfl, onMgmtFlood_keeps ..⟩
  | .addressAssign _ _ => ⟨_, _, rfl, onAddressAssign_keeps ..⟩ | .routingTableLoad _ _ _ => ⟨_, _, rfl, onRoutingTableLoad_keeps ..⟩
  | .epochCommit _ => ⟨_, _, rfl, onEpochCommit_keeps ..⟩ | .epochMark => ⟨_, _, rfl, onEpochMark_keeps ..⟩
  | .tableRetire => ⟨_, _, rfl, onTableRetire_keeps ..⟩ | .epochConfirmTimeout _ => ⟨_, _, rfl, onEpochConfirmTimeout_keeps ..⟩
  | .joinReport _ => ⟨_, _, rfl, onJoinReport_keeps ..⟩ | .managerLoss => ⟨_, _, rfl, onManagerLoss_keeps ..⟩
  | .peerNew _ => ⟨_, _, rfl, onPeerNew_keeps ..⟩ | .peerLost _ => ⟨_, _, rfl, onPeerLost_keeps ..⟩
  | .mgmtJobKill _ _ _ => ⟨_, _, rfl, onMgmtJobKill_keeps ..⟩ | .dataFlitReceive _ _ => ⟨_, _, rfl, onDataFlitReceive_keeps ..⟩
  | .replayTimeout _ => ⟨_, _, rfl, onReplayTimeout_keeps ..⟩ | .fdRetryExhausted _ => ⟨_, _, rfl, onFdRetryExhausted_keeps ..⟩
  | .fdRetrainTimeout _ => ⟨_, _, rfl, onFdRetrainTimeout_keeps ..⟩ | .fdBringupTimeout _ => ⟨_, _, rfl, onFdBringupTimeout_keeps ..⟩
  | .linkctlFlitReceive _ _ => ⟨_, _, rfl, onLinkctlFlitReceive_keeps ..⟩ | .timexSend _ => ⟨_, _, rfl, onTimexSend_keeps ..⟩
  | .timexFlitReceive _ _ => ⟨_, _, rfl, onTimexFlitReceive_keeps ..⟩ | .tallyHoldover => ⟨_, _, rfl, onTallyHoldover_keeps ..⟩
  | .ptpSyncSend _ => ⟨_, _, rfl, onPtpSyncSend_keeps ..⟩ | .frameReceive _ _ => ⟨_, _, rfl, onFrameReceive_keeps ..⟩
  | .frameTransmit _ _ => ⟨_, _, rfl, onFrameTransmit_keeps ..⟩ | .preemptVerify _ _ => ⟨_, _, rfl, onPreemptVerify_keeps ..⟩
  | .ethernetLinkUp _ => ⟨_, _, rfl, onEthernetLinkUp_keeps ..⟩ | .meshFlitCrcError _ _ _ _ => ⟨_, _, rfl, onMeshFlitCrcError_keeps ..⟩
  | .meshLinkFail _ _ => ⟨_, _, rfl, onMeshLinkFail_keeps ..⟩ | .bridgeFail _ => ⟨_, _, rfl, onBridgeFail_keeps ..⟩
  | .ceThreshold _ _ => ⟨_, _, rfl, onCeThreshold_keeps ..⟩ | .hbmPatrolRead _ _ _ => ⟨_, _, rfl, onHbmPatrolRead_keeps ..⟩
  | .odeccStatusRead _ _ => ⟨_, _, rfl, onOdeccStatusRead_keeps ..⟩ | .hbmRefresh _ _ => ⟨_, _, rfl, onHbmRefresh_keeps ..⟩
  | .pcIdleEntry _ => ⟨_, _, rfl, onPcIdleEntry_keeps ..⟩ | .pcPowerDownEntry _ => ⟨_, _, rfl, onPcPowerDownEntry_keeps ..⟩
  | .pcWake _ => ⟨_, _, rfl, onPcWake_keeps ..⟩ | .powerLoss _ _ _ => ⟨_, _, rfl, onPowerLoss_keeps ..⟩
  | .resetComplete => ⟨_, _, rfl, onResetComplete_keeps ..⟩ | .sealReleaseComplete _ => ⟨_, _, rfl, onSealReleaseComplete_keeps ..⟩
  | .stopInterfaceComplete => ⟨_, _, rfl, onStopInterfaceComplete_keeps ..⟩ | .startInterface => ⟨_, _, rfl, onStartInterface_keeps ..⟩
  | .hoistTableCheckComplete _ _ => ⟨_, _, rfl, onHoistTableCheckComplete_keeps ..⟩
  | .fdTrainingDone _ => ⟨_, _, rfl, onFdTrainingDone_keeps ..⟩ | .fdAlignmentDone _ => ⟨_, _, rfl, onFdAlignmentDone_keeps ..⟩
  | .ethernetLinkDown _ => ⟨_, _, rfl, onEthernetLinkDown_keeps ..⟩ | .hbmChannelFail _ _ => ⟨_, _, rfl, onHbmChannelFail_keeps ..⟩
  | .msixMaskClear _ => ⟨_, _, rfl, onMsixMaskClear_keeps ..⟩ | .cacheEnableWrite _ _ => ⟨_, _, rfl, onCacheEnableWrite_keeps ..⟩
  | .idleExitComplete => ⟨_, _, rfl, onIdleExitComplete_keeps ..⟩ | .ptpDelayReqSend _ => ⟨_, _, rfl, onPtpDelayReqSend_keeps ..⟩

theorem exec_next_keeps {i : Instr} {s t : State} (h : exec i s = .next t) : ∃ p, Keeps p s t := by
  obtain ⟨p, u, hu, hk⟩ := exec_keeps i s
  cases hu.symm.trans h
  exact ⟨p, hk⟩

/-- No step lets the anti-rollback counter fall, neither a cycle of time nor a command (18 R458). -/
theorem step_rollback_le {s t : State} (h : step s = .next t) : s.sec.rollback ≤ t.sec.rollback := by
  unfold step at h
  split at h
  case h_1 =>
    cases h
    exact s.tick_keeps.sec.roll
  case h_2 =>
    obtain ⟨p, hk⟩ := exec_next_keeps h
    exact hk.sec.roll

end Sys2Proof.Machine
end

section
/-! SUPPORT. The firmware service (18 R456 to R459): the writes of `FW_CTL`, the check of an image's SVN, the reset that ACTIVATE begins
and the boot that ends it, and the burn of the anti-rollback counter. -/
namespace Sys2Proof.Machine

/-! ### What an event changes in the service and the power state (18 R444) -/

theorem evLog_ras (s : State) (e : EventRec) : (s.evLog e).ras = { s.ras with log := (e :: s.ras.log).take 8192 } := by
  unfold State.evLog
  split
  case isTrue h => rw [List.take_of_length_le (by simpa using h)]
  case isFalse => rfl

/-- An event numbers and logs its record, and leaves the rest of the service state. -/
theorem raise_ras (s : State) (code : Nat) (cls : EvClass) (slot : Option (Fin 8)) (payload : List Byte) :
    ∃ e, e.code = code ∧ (s.raise code cls slot payload).ras =
      { s.ras with seq := (s.ras.seq + 1) % 2 ^ 32, log := (e :: s.ras.log).take 8192 } := by
  unfold State.raise
  simp only [evPost_ras]
  split <;> exact ⟨_, rfl, evLog_ras _ _⟩

theorem evPost_pwr (s : State) (e : EventRec) : (s.evPost e).pwr = s.pwr := by rw [evPost_record s e]
theorem evLog_pwr (s : State) (e : EventRec) : (s.evLog e).pwr = s.pwr := (s.evLog_keeps e).frame.same (f := .pwr) rfl

/-- An event of a class that the flash log does not keep leaves the power state alone. -/
theorem raise_pwr {cls : EvClass} (h : (cls == .unit || cls == .fatal) = false) (s : State) (code : Nat) (slot : Option (Fin 8))
    (payload : List Byte) : (s.raise code cls slot payload).pwr = s.pwr := by
  unfold State.raise
  simp only [evPost_pwr, h, Bool.false_eq_true, if_false, evLog_pwr]

/-- An event of any class leaves the phase: at most a write to the flash log is asked for. -/
theorem raise_phase (s : State) (code : Nat) (cls : EvClass) (slot : Option (Fin 8)) (payload : List Byte) :
    (s.raise code cls slot payload).pwr.phase = s.pwr.phase := by
  unfold State.raise
  simp only [evPost_pwr]
  split <;> simp only [State.flashLog, evLog_pwr]

theorem ev_phase (s : State) (code : Nat) (cls : EvClass) (loc sub a0 a1 a2 : Nat) :
    (s.ev code cls loc sub a0 a1 a2).pwr.phase = s.pwr.phase :=
  raise_phase s code cls none (genPayload loc sub a0 a1 a2)

/-! ### Writes of `FW_CTL` (18 R456 to R459) -/

theorem bar0Write_fwCtl (s : State) (w : Nat) (line : List Byte) : s.bar0Write 0x7080 w line = s.fwCtlWrite w := by
  simp [State.bar0Write, State.serviceWrite]

/-- The only stored field of `FW_CTL` is `LEN`, which any write sets. -/
theorem fieldWrite_fwCtl (s : State) (w : Nat) : s.fieldWrite 0x7080 w = s.setReg 0x7080 (w % 2 ^ 25) := by
  have hf : regFields 0x7080 = [fld 0 25 .rw 0] := rfl
  have hlen : writeFields (s.rwqBusy 0x7080) [fld 0 25 .rw 0] (s.reg 0x7080) w = w % 2 ^ 25 := by
    simp [writeFields, writeField, fld, clampNat, bits]
    omega
  simp only [State.fieldWrite, hf, hlen]
  simp [changesRwq, fld]

/-- Setting an action's bit in a register that shows no action names this action alone. -/
theorem bitAt_withBit_fwCtl {s : State} (h : s.rf 0x7080 25 4 = 0) {b i : Nat} (hb : b ∈ [25, 26, 27, 28]) (hi : i ∈ [25, 26, 27, 28]) :
    bitAt (s.withBit 0x7080 b) i = decide (i = b) := by
  unfold State.rf bits at h
  unfold State.withBit
  generalize s.reg 0x7080 = r at h ⊢
  simp only [List.mem_cons, List.not_mem_nil, or_false] at hb hi
  rcases hb with rfl | rfl | rfl | rfl <;> rcases hi with rfl | rfl | rfl | rfl <;>
    simp [bitAt, setBits, bits] <;> omega

section
variable {tee : Bool} {s : State} (hw : WriteOpen tee s) (hr : s.rf 0x7080 25 4 = 0)
include hw hr

/-- Writing `ACTIVATE` alone. -/
theorem exec_fwCtlActivate :
    exec (.fwCtlActivate tee) s = .next (s.setReg 0x7080 (s.withBit 0x7080 26 % 2 ^ 25)).fwActivate := by
  change Host.Outcome.next (s.oneWrite 0x7080 (s.withBit 0x7080 26) tee) = _
  simp [oneWrite_open hw, bar0Write_fwCtl, State.fwCtlWrite, fieldWrite_fwCtl, bitAt_withBit_fwCtl hr, -Nat.reducePow]

/-- Writing `COMMIT` alone. -/
theorem exec_fwCtlCommit :
    exec (.fwCtlCommit tee) s = .next (s.setReg 0x7080 (s.withBit 0x7080 27 % 2 ^ 25)).fwCommit := by
  change Host.Outcome.next (s.oneWrite 0x7080 (s.withBit 0x7080 27) tee) = _
  simp [oneWrite_open hw, bar0Write_fwCtl, State.fwCtlWrite, fieldWrite_fwCtl, bitAt_withBit_fwCtl hr, -Nat.reducePow]
end

/-- In recovery a write of one of its registers is carried out (20 R486). -/
theorem oneWrite_recovery {s : State} (hb : s.barOpen = true) (hr : s.pwr.resetting = none) (ht : s.cxl.tdi ≠ .run)
    (hi : s.pwr.idle = 0) (ha : s.pwr.a4Wait = false) {off : Nat} (ho : recoveryOff off = true) (w : Nat) (tee : Bool) :
    s.oneWrite off w tee = s.bar0Write off w [] := by
  simp [State.oneWrite, State.mmioWrite, State.nonTee, hb, hr, ht, ho, wake_open hi ha, hi]

/-- Writing `STAGE` with a length, in recovery. -/
theorem exec_fwCtlStage_recovery {s : State} (hb : s.barOpen = true) (hr : s.pwr.resetting = none) (ht : s.cxl.tdi ≠ .run)
    (hi : s.pwr.idle = 0) (ha : s.pwr.a4Wait = false) (len : Nat) (tee : Bool) :
    exec (.fwCtlStage len tee) s = .next (s.setReg 0x7080 (len % 2 ^ 25)).fwStage := by
  have hbit (i : Nat) (h : i ∈ [25, 26, 27, 28]) : bitAt (len % 2 ^ 25 + 2 ^ 25) i = decide (i = 25) := by
    simp only [List.mem_cons, List.not_mem_nil, or_false] at h
    rcases h with rfl | rfl | rfl | rfl <;> simp [bitAt] <;> omega
  change Host.Outcome.next (s.oneWrite 0x7080 (len % 2 ^ 25 + 2 ^ 25) tee) = _
  rw [oneWrite_recovery hb hr ht hi ha rfl, bar0Write_fwCtl]
  simp [State.fwCtlWrite, fieldWrite_fwCtl, hbit, -Nat.reducePow]

theorem reg_setReg_same (s : State) (off v : Nat) : (s.setReg off v).reg off = v % 2 ^ 32 := by
  simp [State.reg, State.setReg]
theorem reg_setReg_of_ne {s : State} {off o : Nat} (h : o ≠ off) (v : Nat) : (s.setReg off v).reg o = s.reg o := by
  simp [State.reg, State.setReg, tblGet_tblSet_of_ne h]
theorem rf_len_setReg (s : State) (len : Nat) : (s.setReg 0x7080 (len % 2 ^ 25)).rf 0x7080 0 25 = len % 2 ^ 25 := by
  rw [State.rf, reg_setReg_same, bits]
  omega
/-- A register below the image window is none of its words. -/
theorem imageWindow_setReg {off : Nat} (h : off < imageBase) (s : State) (v len : Nat) :
    (s.setReg off v).imageWindow len = s.imageWindow len := by
  unfold State.imageWindow
  simp only [reg_setReg_of_ne (show ∀ {i}, imageBase + 4 * i ≠ off by omega)]

/-! ### Images that the check refuses (16 R389) -/

/-- The checks read the anti-rollback counter and nothing else of the state. -/
theorem imageOk_congr {s t : State} (h : t.sec.rollback = s.sec.rollback) (img : List Byte) : t.imageOk img = s.imageOk img := by
  unfold State.imageOk
  rw [h]
theorem imageOk_of_svn_lt {s : State} {img : List Byte} (h : Config.imageSvn img % 64 < s.sec.rollback) : s.imageOk img = false := by
  simp [State.imageOk, h]

theorem stageImage_refused {s : State} {img : List Byte} (h : s.imageOk img = false) (hw : s.ras.fwState ≠ .writing)
    (hc : s.ras.fwState ≠ .checking) : (s.stageImage img).ras.fwState = .refused := by
  simp only [State.stageImage, hw, hc, h, or_self, if_false, Bool.false_eq_true]
  obtain ⟨e, -, hr⟩ := raise_ras { s with ras := { s.ras with fwSvn := Config.imageSvn img % 64, fwState := .refused } }
    0x0097 .warning none (genPayload 0 3 (Config.imageSvn img % 64) 0 0)
  unfold State.ev
  rw [hr]

theorem onPldmFwUpdate_refused {s : State} {img : List Byte} (h : s.imageOk img = false) (hl : s.live = true)
    (hw : s.ras.fwState ≠ .writing) (hc : s.ras.fwState ≠ .checking) : (onPldmFwUpdate img s).ras.fwState = .refused := by
  simp only [onPldmFwUpdate, hl, if_true]
  rw [(State.holdMctp_keeps _ _).frame.same (f := .ras) rfl]
  exact stageImage_refused h hw hc

/-- The boot ROM refuses an image from the window and stays in recovery (18 R459). -/
theorem fwStage_recovery_refused {s : State} (hp : s.pwr.phase = .recovery)
    (h : s.imageOk (s.imageWindow (min (s.rf 0x7080 0 25) (2 ^ 24))) = false) :
    s.fwStage.ras.fwState = .refused ∧ s.fwStage.pwr.phase = .recovery := by
  simp only [State.fwStage, hp, h, if_true, Bool.false_eq_true, if_false, and_self]

/-! ### The end of a device reset, and the boot after it (17 R432, 18 R457) -/

theorem fabBoot_pwr (s : State) : s.fabBoot.pwr = s.pwr := s.fabBoot_keeps.frame.same (f := .pwr) rfl
theorem runImage_phase (s : State) (img : List Byte) (host : Bool) : (s.runImage img host).pwr.phase = .running := by
  unfold State.runImage
  rw [fabBoot_pwr]
theorem runImage_bootSvn (s : State) (img : List Byte) (host : Bool) :
    (s.runImage img host).sec.bootSvn = Config.imageSvn img % 64 := by
  unfold State.runImage
  rw [(State.fabBoot_keeps _).sec_eq rfl]
theorem runImage_ras (s : State) (img : List Byte) (host : Bool) : (s.runImage img host).ras = s.ras :=
  (s.runImage_keeps img host).frame.same (f := .ras) rfl

theorem killFinish_all_keeps (s : State) : Keeps 0x23c05 s ((List.range 8).foldl State.killFinish s) :=
  Keeps.foldl _ _ _ _ State.killFinish_keeps (.refl s)

theorem hostLost_ras (s : State) :
    ∃ e, s.hostLost.ras = { s.ras with seq := (s.ras.seq + 1) % 2 ^ 32, log := (e :: s.ras.log).take 8192 } := by
  obtain ⟨e, -, h⟩ := raise_ras (s.bump 0x9100) 0x0045 .warning none (genPayload 0 0 0 0 0)
  exact ⟨e, h⟩

/-- The state in which the scrubs of a device reset begin: a host loss that it ends is logged first (11 R278). -/
def lossLogged (s : State) : State := if s.cxl.hostLoss then s.hostLost else s

theorem lossLogged_sec (s : State) : (lossLogged s).sec = s.sec := by
  unfold lossLogged
  split
  · exact s.hostLost_keeps.sec_eq rfl
  · rfl

theorem lossLogged_flash (s : State) : (lossLogged s).ras.flash = s.ras.flash := by
  unfold lossLogged
  split
  · obtain ⟨e, hr⟩ := hostLost_ras s
    rw [hr]
  · rfl

/-- The log is as before, or one record longer. -/
def LogsAtMostOne (s t : State) : Prop := t.ras.log = s.ras.log ∨ ∃ e, t.ras.log = (e :: s.ras.log).take 8192

theorem lossLogged_log (s : State) : LogsAtMostOne s (lossLogged s) := by
  unfold lossLogged
  split
  · obtain ⟨e, hr⟩ := hostLost_ras s
    exact .inr ⟨e, by rw [hr]⟩
  · exact .inl rfl

/-- The state after the scrubs and any memory clear of a device reset. -/
def scrubbed (s : State) (p : ResetProgress) : State :=
  let u := (List.range 8).foldl State.killFinish (lossLogged s)
  (if p.memClear then u.clearMemory else u).flowReset

theorem scrubbed_keeps (s : State) (p : ResetProgress) : Keeps 0x23c05 (lossLogged s) (scrubbed s p) :=
  (State.flowReset_keeps _).after
    (.ite (fun _ => (State.clearMemory_keeps _).after (killFinish_all_keeps _) rfl) fun _ => killFinish_all_keeps _) rfl

/-- Of the service state a completed device reset starts three fields again; the flash and the log stay. -/
theorem afterReset_ras (s : State) (p : ResetProgress) :
    (s.afterReset p).ras = { (lossLogged s).ras with service := false, seq := 0, unitResult := .none } := by
  unfold State.afterReset
  rw [(State.fabReset_keeps _).frame.same (f := .ras) rfl, (State.reviewClock_keeps _).frame.same (f := .ras) rfl]
  change ({ (scrubbed s p).ras with service := false, seq := 0, unitResult := .none } : RasState) = _
  rw [(scrubbed_keeps s p).frame.same (f := .ras) rfl]

theorem afterReset_rollback (s : State) (p : ResetProgress) : (s.afterReset p).sec.rollback = s.sec.rollback := by
  unfold State.afterReset
  rw [(State.fabReset_keeps _).sec_eq rfl, (State.reviewClock_keeps _).sec_eq rfl]
  change (scrubbed s p).sec.rollback = _
  rw [(scrubbed_keeps s p).sec_eq rfl, lossLogged_sec]

theorem afterReset_image (s : State) (p : ResetProgress) : (s.afterReset p).ras.flash.image = s.ras.flash.image := by
  rw [afterReset_ras]
  exact congrArg Flash.image (lossLogged_flash s)

theorem afterReset_log (s : State) (p : ResetProgress) : LogsAtMostOne s (s.afterReset p) := by
  unfold LogsAtMostOne
  rw [afterReset_ras]
  exact lossLogged_log s

theorem afterReset_imageOk (s : State) (p : ResetProgress) (img : List Byte) : (s.afterReset p).imageOk img = s.imageOk img :=
  imageOk_congr (afterReset_rollback s p) img

/-- An event raised after at most one other is among the records that the log has grown by. -/
theorem raised_of_raise {s u : State} (hu : LogsAtMostOne s u) (code : Nat) (cls : EvClass) (slot : Option (Fin 8))
    (payload : List Byte) : Raised code s (u.raise code cls slot payload) := by
  obtain ⟨e, he, hr⟩ := raise_ras u code cls slot payload
  unfold Raised
  rw [hr]
  rcases hu with hu | ⟨x, hu⟩
  · exact ⟨[e], ⟨e, by simp, he⟩, by rw [hu]; rfl⟩
  · exact ⟨[e, x], ⟨e, by simp, he⟩, by simp [hu, List.take_take]⟩

/-- An image that passes its checks runs after the reset, and FW_UPDATE tells it. -/
theorem reboot_passed {s u : State} (h : u.imageOk u.ras.flash.image = true) (hu : LogsAtMostOne s u) :
    u.reboot.pwr.phase = .running ∧ u.reboot.sec.bootSvn = Config.imageSvn u.ras.flash.image % 64 ∧ Raised 0x0097 s u.reboot := by
  have hb : u.reboot = (u.runImage u.ras.flash.image false).ev 0x0097 .info 0 2 (Config.imageSvn u.ras.flash.image % 64) 0 0 := by
    simp [State.reboot, h]
  rw [hb]
  refine ⟨?_, ?_, raised_of_raise ?_ _ _ _ _⟩
  · exact (ev_phase ..).trans (runImage_phase ..)
  · rw [(State.ev_keeps _ _ _ _ _ _ _ _).sec_eq rfl, runImage_bootSvn]
  · unfold LogsAtMostOne at hu ⊢
    rwa [runImage_ras]

theorem reboot_refused {u : State} (h : u.imageOk u.ras.flash.image = false) : u.reboot.pwr.phase = .recovery := by
  simp [State.reboot, h]

theorem onResetComplete_reboot {s : State} {p : ResetProgress} (h : s.pwr.resetting = some p) (hp : p.reboot = true) :
    onResetComplete s = (s.afterReset p).reboot := by
  simp [onResetComplete, h, hp]

section
variable {s : State} {p : ResetProgress} (h : s.pwr.resetting = some p) (hp : p.reboot = true)
include h hp

theorem onResetComplete_passed (hi : s.imageOk s.ras.flash.image = true) :
    (onResetComplete s).pwr.phase = .running ∧ (onResetComplete s).sec.bootSvn = Config.imageSvn s.ras.flash.image % 64 ∧
      Raised 0x0097 s (onResetComplete s) := by
  rw [onResetComplete_reboot h hp]
  have hb := reboot_passed (u := s.afterReset p) (by rw [afterReset_imageOk, afterReset_image]; exact hi) (afterReset_log s p)
  rwa [afterReset_image] at hb

theorem onResetComplete_refused (hi : s.imageOk s.ras.flash.image = false) : (onResetComplete s).pwr.phase = .recovery := by
  rw [onResetComplete_reboot h hp]
  exact reboot_refused (by rw [afterReset_imageOk, afterReset_image]; exact hi)
end

/-! ### The boot after power-on or a loss of lock (16 R389, R390) -/

theorem reportTrip_image (s : State) : s.reportTrip.ras.flash.image = s.ras.flash.image := by
  unfold State.reportTrip
  split <;> rfl
theorem fabPowerOn_image (s : State) : s.fabPowerOn.ras.flash.image = s.ras.flash.image := by
  unfold State.fabPowerOn
  dsimp only
  rw [(Keeps.foldl (p := 1) _ _ _ _ (fun s p => (State.setReg_keeps ..).after (State.setReg_keeps ..) rfl) (.refl _)).frame.same
    (f := .ras) rfl]

theorem stopSlots_pwr (s : State) (l : List (Fin 8)) (code status : Nat) :
    (l.foldl (fun s n => s.stopSlot n code status) s).pwr = s.pwr :=
  (Keeps.foldl _ l s s (fun s n => s.stopSlot_keeps n code status) (.refl s)).frame.same (f := .pwr) rfl
theorem fatal_phase (s : State) (code loc sub arg0 : Nat) : (s.fatal code loc sub arg0).pwr.phase = s.pwr.phase := by
  unfold State.fatal
  rw [stopSlots_pwr]
  exact ev_phase s code .fatal loc sub arg0 0 0

/-- An image that fails its checks leaves the boot in recovery. -/
theorem onFirmwareBoot_refused {s : State} (hp : s.pwr.phase = .booting ∨ s.pwr.phase = .lockLost)
    (h : s.imageOk s.ras.flash.image = false) (e : Bool) : (onFirmwareBoot e s).pwr.phase = .recovery := by
  have ready : ¬ (s.pwr.phase ≠ .booting ∧ s.pwr.phase ≠ .lockLost) := by tauto
  have refused : ∀ u : State, u.ras.flash.image = s.ras.flash.image → u.sec.rollback = s.sec.rollback →
      u.imageOk u.ras.flash.image = false := fun u hf hs => by rw [imageOk_congr hs, hf, h]
  unfold onFirmwareBoot
  rw [if_neg ready]
  dsimp only
  rw [(State.reviewClock_keeps _).frame.same (f := .pwr) rfl, refused]
  · simp only [Bool.false_eq_true, and_false, if_false]
    split
    · exact fatal_phase ..
    · rfl
  · split
    · exact (fabPowerOn_image _).trans (reportTrip_image _)
    · exact reportTrip_image _
  · split
    · rw [(State.fabPowerOn_keeps _).sec_eq rfl, (State.reportTrip_keeps _).sec_eq rfl]
    · rw [(State.reportTrip_keeps _).sec_eq rfl]

/-! ### A kill of every slot with no started descriptor -/

/-- The power state and the Cage are as before. -/
structure PowerCageSame (s t : State) : Prop where
  pwr : t.pwr = s.pwr
  cage : t.cage = s.cage

theorem PowerCageSame.refl (s : State) : PowerCageSame s s := ⟨rfl, rfl⟩
theorem PowerCageSame.after {s t u : State} (b : PowerCageSame t u) (a : PowerCageSame s t) : PowerCageSame s u :=
  ⟨b.pwr.trans a.pwr, b.cage.trans a.cage⟩
theorem PowerCageSame.of_keeps {p : Nat} {s t : State} (h : Keeps p s t) (hp : p.testBit Field.pwr.place = false)
    (hc : p.testBit Field.cage.place = false) : PowerCageSame s t :=
  ⟨h.frame.same (f := .pwr) hp, h.frame.same (f := .cage) hc⟩
/-- A run of operations that each leave both alone while no descriptor is started. -/
theorem PowerCageSame.foldl {β : Type} {f : State → β → State} (h : ∀ s x, s.cage.started = [] → PowerCageSame s (f s x)) (l : List β)
    {s : State} (hs : s.cage.started = []) : PowerCageSame s (l.foldl f s) := by
  induction l generalizing s with
  | nil => exact .refl s
  | cons x l ih => exact (ih (by rw [(h s x hs).cage, hs])).after (h s x hs)

section
variable {s : State} (hs : s.cage.started = [])
include hs

theorem endBarriers_unstarted (n : Nat) (p : BarrierJob → Bool) (status : Nat) (result : List Byte) :
    s.endBarriers n p status result = s := by
  simp [State.endBarriers, hs]
theorem preemptSlot_unstarted (n : Nat) : s.preemptSlot n = s := by
  simp [State.preemptSlot, hs]

theorem abortBarrier_unstarted (n fjob bid : Nat) (origin : Option Nat) : PowerCageSame s (s.abortBarrier n fjob bid origin) := by
  have sends : ∀ l : List Nat,
      PowerCageSame s (l.foldl (fun (s : State) d => if some d = origin then s else s.sendBar d fjob bid 2 0 0) s) :=
    fun l => .foldl (fun s d _ => by
      split
      · exact .refl s
      · exact .of_keeps (State.sendBar_keeps ..) rfl rfl) l hs
  have close : ∀ (t : State) (c : Option (Nat × SluiceCtx)),
      PowerCageSame t (match c with | some c => t.setSluice c.1 none | none => t) := fun t c => by cases c <;> exact ⟨rfl, rfl⟩
  unfold State.abortBarrier
  extract_lets s1 s2
  have h1 : PowerCageSame s s1 := by
    unfold s1
    split
    · exact sends _
    · exact .refl s
  have h2 : PowerCageSame s s2 := (close s1 _).after h1
  rw [endBarriers_unstarted (by rw [h2.cage, hs])]
  exact h2

theorem failBarriers_unstarted (n : Nat) : PowerCageSame s (s.failBarriers n) := by
  unfold State.failBarriers
  extract_lets opened
  have h : PowerCageSame s (opened.foldl (fun s b => s.abortBarrier n b.1 b.2 none) s) :=
    .foldl (fun s b h => abortBarrier_unstarted h n b.1 b.2 none) _ hs
  rw [endBarriers_unstarted (by rw [h.cage, hs])]
  exact h

theorem releaseSlot_unstarted (n : Nat) : PowerCageSame s (s.releaseSlot n) := by
  unfold State.releaseSlot
  extract_lets s1 s2 s3 s4 s5
  have h4 : PowerCageSame s s4 := by
    have h1 : PowerCageSame s s1 := .of_keeps (s.flushTails_keeps n) rfl rfl
    have h2 : PowerCageSame s1 s2 := .of_keeps (Keeps.foldl _ _ _ _ State.releaseCtx_keeps (.refl s1)) rfl rfl
    have h3 : PowerCageSame s2 s3 := .of_keeps (Keeps.foldl _ _ _ _ (fun s k => s.releaseWindows_keeps n k) (.refl s2)) rfl rfl
    have h4 : PowerCageSame s3 s4 := .of_keeps (State.closeRetained_keeps ..) rfl rfl
    exact ((h4.after h3).after h2).after h1
  have h5 : PowerCageSame s s5 := (failBarriers_unstarted (by rw [h4.cage, hs]) n).after h4
  clear_value s5
  exact PowerCageSame.after (t := s5) ⟨rfl, rfl⟩ h5

theorem killStart_unstarted (n : Nat) : PowerCageSame s (s.killStart n) := by
  unfold State.killStart
  extract_lets x
  split
  · exact .refl s
  · have h : PowerCageSame s ((s.setSlot n { x with killing := true }).releaseSlot n) :=
      (releaseSlot_unstarted (s := s.setSlot n _) hs n).after ⟨rfl, rfl⟩
    rw [preemptSlot_unstarted (by rw [h.cage, hs])]
    exact h

theorem killAll_unstarted : PowerCageSame s s.killAll := .foldl (fun _ n h => killStart_unstarted h n) _ hs
end

/-! ### The reset that ACTIVATE begins (17 R432, 18 R457) -/

/-- A reset begins with an empty Cage, and its progress and cause stand while the slots are killed. -/
theorem beginReset_first {s : State} (h : s.pwr.resetting = none) (k : ResetKind) (reboot : Bool) :
    (s.beginReset k false reboot).pwr.resetting = some { kinds := [k], memClear := false, reboot := reboot } ∧
    (s.beginReset k false reboot).pwr.rstCause = (s.pwr.rstCause ||| k.bit) &&& 0x3F ∧
    (s.beginReset k false reboot).cage.started = [] := by
  unfold State.beginReset
  extract_lets p cause u _ _ _ s1
  have hk : PowerCageSame s1 s1.killAll := killAll_unstarted rfl
  have hr : PowerCageSame s1.killAll s1.killAll.reviewClock := .of_keeps (State.reviewClock_keeps _) rfl rfl
  rw [hr.pwr, hr.cage, hk.pwr, hk.cage]
  have hp : p = { kinds := [k], memClear := false, reboot := reboot } := by simp [p, h]
  refine ⟨congrArg some hp, ?_, rfl⟩
  change cause = _
  simp [cause, hp]

theorem teeBound_iff (s : State) : s.teeBound = true ↔ ∃ r x, (r, some x) ∈ s.sec.sealed ∧ x.teeBound = true := by
  simp only [State.teeBound, List.any_eq_true, Prod.exists]
  constructor
  · rintro ⟨r, o, hm, h⟩
    cases o with
    | none => cases h
    | some x => exact ⟨r, x, hm, h⟩
  · rintro ⟨r, x, hm, h⟩
    exact ⟨r, some x, hm, h⟩

/-- What makes ACTIVATE refuse (18 R457). -/
theorem fwActivate_refused {s : State} (h : (∃ n < 8, s.loaded n = true) ∨ ∃ r x, (r, some x) ∈ s.sec.sealed ∧ x.teeBound = true) :
    s.fwActivate = s := by
  unfold State.fwActivate
  rw [if_pos]
  simpa [teeBound_iff] using h

theorem fwActivate_begins {s : State} (hr : s.pwr.resetting = none) (hl : ∀ n < 8, s.loaded n = false)
    (ht : ∀ r x, (r, some x) ∈ s.sec.sealed → x.teeBound = false) :
    s.fwActivate.pwr.resetting = some { kinds := [.perst], memClear := false, reboot := true } ∧ s.fwActivate.cxl.up = false ∧
      s.fwActivate.cage.started = [] ∧ s.fwActivate.pwr.rstCause = (s.pwr.rstCause ||| 0x08) &&& 0x3F := by
  have free : ¬ ((List.range 8).any (fun n => s.loaded n) = true ∨ s.teeBound = true) := by
    simpa [teeBound_iff] using ⟨hl, ht⟩
  obtain ⟨hp, hc, hs⟩ := beginReset_first hr .perst true
  unfold State.fwActivate
  rw [if_neg free]
  generalize s.beginReset .perst false true = b at hp hc hs ⊢
  exact ⟨hp, rfl, hs, hc⟩

/-! ### The burn of the anti-rollback counter (18 R458, 17 R430) -/

/-- The last part of a cycle of time: the idle timer of a device that has work starts again (17 R424). -/
def watchIdle (s : State) : State := if s.deviceIdle then s else { s with pwr := { s.pwr with idleSince := s.clk.root } }

section
variable (s : State)
theorem watchIdle_sec : (watchIdle s).sec = s.sec := by unfold watchIdle; split <;> rfl
theorem watchIdle_ras : (watchIdle s).ras = s.ras := by unfold watchIdle; split <;> rfl
theorem watchIdle_clk : (watchIdle s).clk = s.clk := by unfold watchIdle; split <;> rfl
theorem watchIdle_nvWait : (watchIdle s).pwr.nvWait = s.pwr.nvWait := by unfold watchIdle; split <;> rfl
end

/-- A cycle of time of a running device with no message to deliver: counters and clocks move on, then the writes that start. -/
theorem tick_running {s : State} (h : CycleEnds s) :
    ∃ u : State, u.sec = s.sec ∧ u.pwr = s.pwr ∧ u.ras = s.ras ∧ u.clk.root = s.clk.root + 8 ∧ s.tick = watchIdle u.nvTick := by
  obtain ⟨-, hlock, hphase, -, hmctp⟩ := h
  have quiet : ∀ v : State, v.sec = s.sec → v.mctpTick = v := fun v hv => by simp [State.mctpTick, hv, hmctp]
  unfold State.tick
  rw [if_pos (by simp [hlock, hphase])]
  extract_lets n _ s1 s2
  have hk : Keeps 0x4 s1 ((s1.flowTick n).fabTick s.fclkEdges) := (State.fabTick_keeps _ _).after (s1.flowTick_keeps n) rfl
  refine ⟨(s1.flowTick n).fabTick s.fclkEdges, hk.sec_eq rfl, hk.frame.same (f := .pwr) rfl, hk.frame.same (f := .ras) rfl, ?_, ?_⟩
  · rw [hk.frame.same (f := .clk) rfl]
  · have h2 : s2 = ((s1.flowTick n).fabTick s.fclkEdges).nvTick := congrArg State.nvTick (quiet _ (hk.sec_eq rfl))
    rw [← h2]
    rfl

/-- The end of an MCLK cycle in which the burn alone starts. -/
theorem nvTick_counter {s : State} {v since : Nat} (hr : s.clk.root % 16 = 0)
    (hw : s.pwr.nvWait = [{ op := .counter v, since := since, starting := true }]) :
    s.nvTick = ({ s with pwr := { s.pwr with nvWait := [] } } : State).startNv (.counter v) := by
  simp [State.nvTick, hr, hw]

/-- The counter stands at the SVN, where it is not above it already. -/
def burnt (s : State) (v : Nat) : State := { s with sec := { s.sec with rollback := max s.sec.rollback v } }

theorem startNv_counter (s : State) (v : Nat) :
    s.startNv (.counter v) = (burnt s v).ev 0x0098 .info 0 0 (max s.sec.rollback v) 0 0 := rfl

/-- What a record says of the state before it is its number and its time. -/
theorem Logged.congr {code : Nat} {cls : EvClass} {slot : Option (Fin 8)} {payload : List Byte} {s s' t t' : State}
    (h : Logged code cls slot payload s t) (hr : s'.ras = s.ras) (hc : s'.clk = s.clk) (ht : t'.ras = t.ras) :
    Logged code cls slot payload s' t' := by
  unfold Logged at *
  rwa [hr, hc, ht]

section
variable (s : State) (v : Nat)

theorem startNv_counter_sec : (s.startNv (.counter v)).sec = { s.sec with rollback := max s.sec.rollback v } := by
  rw [startNv_counter, (State.ev_keeps _ _ _ _ _ _ _ _).sec_eq rfl]
  rfl
theorem startNv_counter_pwr : (s.startNv (.counter v)).pwr = s.pwr := by
  rw [startNv_counter, State.ev, raise_pwr rfl]
  rfl
theorem startNv_counter_clk : (s.startNv (.counter v)).clk = s.clk := by
  rw [startNv_counter, (State.ev_keeps _ _ _ _ _ _ _ _).frame.same (f := .clk) rfl]
  rfl
theorem startNv_counter_logged :
    Logged 0x0098 .info none (genPayload 0 0 (max s.sec.rollback v) 0 0) s (s.startNv (.counter v)) := by
  rw [startNv_counter]
  exact raise_logged (burnt s v) _ _ _ _
end

/-- A cycle's end carries out the burn that this cycle started: the counter stands at the SVN, and ROLLBACK_COMMIT is logged. -/
theorem step_counter {s : State} {v since : Nat} (hc : CycleEnds s)
    (hw : s.pwr.nvWait = [{ op := .counter v, since := since, starting := true }]) :
    ∃ t, step s = .next t ∧ t.sec = { s.sec with rollback := max s.sec.rollback v } ∧ t.pwr.nvWait = [] ∧
      Logged 0x0098 .info none (genPayload 0 0 (max s.sec.rollback v) 0 0) { s with clk := t.clk } t := by
  obtain ⟨u, hsec, hpwr, hras, hroot, ht⟩ := tick_running hc
  obtain ⟨hpend, -, -, hend, -⟩ := hc
  rw [nvTick_counter (by rwa [hroot]) (by rw [hpwr, hw])] at ht
  generalize hb : ({ u with pwr := { u.pwr with nvWait := [] } } : State) = b at ht
  have hbs : b.sec = s.sec := by rw [← hb]; exact hsec
  have hbr : b.ras = s.ras := by rw [← hb]; exact hras
  have hbw : b.pwr.nvWait = [] := by rw [← hb]
  refine ⟨s.tick, by simp [step, hpend], ?_, ?_, ?_⟩
  · rw [ht, watchIdle_sec, startNv_counter_sec, hbs]
  · rw [ht, watchIdle_nvWait, startNv_counter_pwr, hbw]
  · rw [ht, ← hbs]
    refine (startNv_counter_logged b v).congr hbr.symm ?_ (watchIdle_ras _)
    exact (watchIdle_clk _).trans (startNv_counter_clk b v)

/-- The running image's SVN is above the counter: COMMIT asks for the burn. -/
theorem fwCommit_above {s : State} (h : s.sec.rollback < s.sec.bootSvn) : s.fwCommit = s.requestNv (.counter s.sec.bootSvn) := if_pos h
theorem fwCommit_burnt {s : State} (h : s.sec.bootSvn ≤ s.sec.rollback) : s.fwCommit = s := if_neg (by omega)

/-! ### The obligations -/

/-- Settles O26: the conditions under which ACTIVATE refuses are those of the model, the reset begins with an empty Cage, and the boot
after it takes the image that the flash held. -/
theorem activateResetsAndReboots : Obligations.ActivateResetsAndReboots := by
  intro tee s hw hr
  refine ⟨fun h => ?_, fun hl ht => ?_, fun u p hp hb => ⟨fun hi => ?_, fun hi => ?_⟩⟩
  · rw [answers_iff (exec_fwCtlActivate hw hr), fwActivate_refused (s := s.setReg _ _) h]
    exact ⟨rfl, rfl, rfl, rfl⟩
  · have he := exec_fwCtlActivate hw hr
    obtain ⟨-, hreset, -⟩ := hw
    exact (answers_iff he).2 (fwActivate_begins (s := s.setReg _ _) hreset hl ht)
  · exact (answers_iff rfl).2 (onResetComplete_passed hp hb hi)
  · exact (answers_iff rfl).2 (onResetComplete_refused hp hb hi)

/-- Settles O27: the burn takes the maximum at the cycle's end, every command keeps the counter from falling, and every way to run or to
stage an image makes the check that the counter is part of. -/
theorem commitBurnsForGood : Obligations.CommitBurnsForGood := by
  refine ⟨fun tee s hw hr => ⟨fun h => ?_, fun h => ?_⟩, fun s v since hc hv => step_counter hc hv, fun s t h => step_rollback_le h,
    fun s h => ⟨fun e hp => ?_, fun p hp hb => ?_⟩, fun img s h hl hwr hch => ?_, fun len tee s hb hr hp ht hi ha h => ?_⟩
  · rw [answers_iff (exec_fwCtlCommit hw hr), fwCommit_above (s := s.setReg _ _) h]
    exact ⟨rfl, rfl⟩
  · rw [answers_iff (exec_fwCtlCommit hw hr), fwCommit_burnt (s := s.setReg _ _) h]
    exact ⟨rfl, rfl⟩
  · exact (answers_iff rfl).2 (onFirmwareBoot_refused hp (imageOk_of_svn_lt h) e)
  · exact (answers_iff rfl).2 (onResetComplete_refused hp hb (imageOk_of_svn_lt h))
  · exact (answers_iff rfl).2 (onPldmFwUpdate_refused (imageOk_of_svn_lt h) hl hwr hch)
  · rw [answers_iff (exec_fwCtlStage_recovery hb hr ht hi ha len tee)]
    refine fwStage_recovery_refused hp (imageOk_of_svn_lt ?_)
    rw [imageWindow_setReg (by decide), rf_len_setReg]
    exact h

end Sys2Proof.Machine
end

section
/-! SUPPORT. The frame of every command and what every step keeps: each row's meaning keeps what its footprint leaves out, and the
invariants that the shared operations keep hold of a step, be it a command or a cycle of time. -/
namespace Sys2Proof.Machine

/-! ### The frame of every command -/

/-- Every kind of state that a mask lets change stands in the list. -/
def maskIn (p : Nat) (l : List Field) : Bool := Field.all.all fun f => l.contains f || !p.testBit f.place

theorem testBit_of_maskIn {p : Nat} {l : List Field} (h : maskIn p l = true) {f : Field} (hf : f ∉ l) : p.testBit f.place = false := by
  have hall : f ∈ Field.all := by cases f <;> decide
  simpa [hf] using List.all_eq_true.1 h f hall

/-- An operation keeps every kind of state outside a list that holds those of its mask. -/
theorem Keeps.rest {p : Nat} {s t : State} {l : List Field} (h : Keeps p s t) (hp : maskIn p l = true) : ∀ f, f ∉ l → f.Same s t :=
  fun _ hf => h.frame.same (testBit_of_maskIn hp hf)

/-- Every command answers a next state that differs at most in the kinds of state of its footprint: the mask of each row's lemma lies
within the row's footprint. -/
theorem exec_footprint (i : Instr) (s : State) : ∃ t, exec i s = .next t ∧ ∀ f, f ∉ footprint i → f.Same s t :=
  match i with
  | .nop _ => ⟨_, rfl, (onNop_keeps ..).rest rfl⟩ | .surveyLoad _ _ => ⟨_, rfl, (onSurveyLoad_keeps ..).rest rfl⟩
  | .surveyLoadComplete _ => ⟨_, rfl, (onSurveyLoadComplete_keeps ..).rest rfl⟩
  | .surveyUnload _ _ => ⟨_, rfl, (onSurveyUnload_keeps ..).rest rfl⟩
  | .runStep _ => ⟨_, rfl, (onRunStep_keeps ..).rest rfl⟩
  | .runStepComplete _ => ⟨_, rfl, (onRunStepComplete_keeps ..).rest rfl⟩
  | .setStepParams _ _ => ⟨_, rfl, (onSetStepParams_keeps ..).rest rfl⟩
  | .rearmStream _ => ⟨_, rfl, (onRearmStream_keeps ..).rest rfl⟩ | .copy _ _ _ => ⟨_, rfl, (onCopy_keeps ..).rest rfl⟩
  | .copyComplete _ _ _ _ => ⟨_, rfl, (onCopyComplete_keeps ..).rest rfl⟩
  | .fence _ => ⟨_, rfl, (onFence_keeps ..).rest rfl⟩ | .fenceComplete _ => ⟨_, rfl, (onFenceComplete_keeps ..).rest rfl⟩
  | .barrier _ => ⟨_, rfl, (onBarrier_keeps ..).rest rfl⟩
  | .barrierTimeout _ => ⟨_, rfl, (onBarrierTimeout_keeps ..).rest rfl⟩
  | .killJob _ _ => ⟨_, rfl, (onKillJob_keeps ..).rest rfl⟩
  | .killComplete _ => ⟨_, rfl, (onKillComplete_keeps ..).rest rfl⟩
  | .biasSet _ => ⟨_, rfl, (onBiasSet_keeps ..).rest rfl⟩ | .powerSet _ => ⟨_, rfl, (onPowerSet_keeps ..).rest rfl⟩
  | .bundleLoad _ _ => ⟨_, rfl, (onBundleLoad_keeps ..).rest rfl⟩
  | .bundleLoadComplete _ => ⟨_, rfl, (onBundleLoadComplete_keeps ..).rest rfl⟩
  | .sealRelease _ => ⟨_, rfl, (onSealRelease_keeps ..).rest rfl⟩
  | .sealExport _ => ⟨_, rfl, (onSealExport_keeps ..).rest rfl⟩
  | .sealExportComplete _ => ⟨_, rfl, (onSealExportComplete_keeps ..).rest rfl⟩
  | .doorbellSnoop _ _ _ => ⟨_, rfl, (onDoorbellSnoop_keeps ..).rest rfl⟩
  | .completionHeadPoll _ _ => ⟨_, rfl, (onCompletionHeadPoll_keeps ..).rest rfl⟩
  | .eventRingHeadPoll _ => ⟨_, rfl, (onEventRingHeadPoll_keeps ..).rest rfl⟩
  | .registerWrite _ => ⟨_, rfl, (onRegisterWrite_keeps ..).rest rfl⟩
  | .counterLowRead _ => ⟨_, rfl, (onCounterLowRead_keeps ..).rest rfl⟩
  | .ptpTxtsPop _ _ => ⟨_, rfl, (onPtpTxtsPop_keeps ..).rest rfl⟩
  | .cuCtlCntClr _ _ => ⟨_, rfl, (onCuCtlCntClr_keeps ..).rest rfl⟩
  | .muCtlCntClr _ _ => ⟨_, rfl, (onMuCtlCntClr_keeps ..).rest rfl⟩
  | .millCtlCntClr _ => ⟨_, rfl, (onMillCtlCntClr_keeps ..).rest rfl⟩
  | .memCtlCntClr _ => ⟨_, rfl, (onMemCtlCntClr_keeps ..).rest rfl⟩
  | .cxlCtlCntClr _ => ⟨_, rfl, (onCxlCtlCntClr_keeps ..).rest rfl⟩
  | .cageCtlCntClr _ => ⟨_, rfl, (onCageCtlCntClr_keeps ..).rest rfl⟩
  | .portCtlCntClr _ _ => ⟨_, rfl, (onPortCtlCntClr_keeps ..).rest rfl⟩
  | .fabCfgCntClr _ => ⟨_, rfl, (onFabCfgCntClr_keeps ..).rest rfl⟩
  | .tallyCfgCntClr _ => ⟨_, rfl, (onTallyCfgCntClr_keeps ..).rest rfl⟩
  | .pwrCtlCntClr _ => ⟨_, rfl, (onPwrCtlCntClr_keeps ..).rest rfl⟩
  | .rasCfgCntClr _ => ⟨_, rfl, (onRasCfgCntClr_keeps ..).rest rfl⟩
  | .glbCtlCntClr _ => ⟨_, rfl, (onGlbCtlCntClr_keeps ..).rest rfl⟩
  | .ringCtlEn _ _ _ _ => ⟨_, rfl, (onRingCtlEn_keeps ..).rest rfl⟩ | .evqEn _ _ => ⟨_, rfl, (onEvqEn_keeps ..).rest rfl⟩
  | .jobctlHoistCfgEn _ _ _ => ⟨_, rfl, (onJobctlHoistCfgEn_keeps ..).rest rfl⟩
  | .jobctlSluiceCfgEn _ _ _ => ⟨_, rfl, (onJobctlSluiceCfgEn_keeps ..).rest rfl⟩
  | .tallySetHi _ _ => ⟨_, rfl, (onTallySetHi_keeps ..).rest rfl⟩
  | .dbgCtlChalNew _ => ⟨_, rfl, (onDbgCtlChalNew_keeps ..).rest rfl⟩
  | .dbgCtlSubmit _ => ⟨_, rfl, (onDbgCtlSubmit_keeps ..).rest rfl⟩
  | .debugUnlockScrubDone => ⟨_, rfl, (onDebugUnlockScrubDone_keeps ..).rest rfl⟩
  | .rasUnitFence _ _ => ⟨_, rfl, (onRasUnitFence_keeps ..).rest rfl⟩
  | .rasUnitReturn _ _ => ⟨_, rfl, (onRasUnitReturn_keeps ..).rest rfl⟩
  | .rasUnitRestore _ _ => ⟨_, rfl, (onRasUnitRestore_keeps ..).rest rfl⟩
  | .siteFence _ _ => ⟨_, rfl, (onSiteFence_keeps ..).rest rfl⟩
  | .selftestComplete _ _ => ⟨_, rfl, (onSelftestComplete_keeps ..).rest rfl⟩
  | .fwCtlStage _ _ => ⟨_, rfl, (onFwCtlStage_keeps ..).rest rfl⟩
  | .fwWriteComplete => ⟨_, rfl, (onFwWriteComplete_keeps ..).rest rfl⟩
  | .fwCtlActivate _ => ⟨_, rfl, (onFwCtlActivate_keeps ..).rest rfl⟩
  | .fwCtlCommit _ => ⟨_, rfl, (onFwCtlCommit_keeps ..).rest rfl⟩
  | .fwCtlRecover => ⟨_, rfl, (onFwCtlRecover_keeps ..).rest rfl⟩
  | .busMasterEnableWrite _ => ⟨_, rfl, (onBusMasterEnableWrite_keeps ..).rest rfl⟩
  | .priEnableWrite _ => ⟨_, rfl, (onPriEnableWrite_keeps ..).rest rfl⟩
  | .hdmDecoderCommit _ _ _ => ⟨_, rfl, (onHdmDecoderCommit_keeps ..).rest rfl⟩
  | .lockedItemChange _ => ⟨_, rfl, (onLockedItemChange_keeps ..).rest rfl⟩
  | .lockInterface => ⟨_, rfl, (onLockInterface_keeps ..).rest rfl⟩
  | .stopInterface => ⟨_, rfl, (onStopInterface_keeps ..).rest rfl⟩ | .ideKm _ => ⟨_, rfl, (onIdeKm_keeps ..).rest rfl⟩
  | .ideStreamReceive _ _ => ⟨_, rfl, (onIdeStreamReceive_keeps ..).rest rfl⟩
  | .getVersion _ => ⟨_, rfl, (onGetVersion_keeps ..).rest rfl⟩
  | .getCapabilities _ => ⟨_, rfl, (onGetCapabilities_keeps ..).rest rfl⟩
  | .negotiateAlgorithms _ _ => ⟨_, rfl, (onNegotiateAlgorithms_keeps ..).rest rfl⟩
  | .getCertificate _ _ _ _ => ⟨_, rfl, (onGetCertificate_keeps ..).rest rfl⟩
  | .challenge _ _ _ => ⟨_, rfl, (onChallenge_keeps ..).rest rfl⟩
  | .getMeasurements _ _ _ _ => ⟨_, rfl, (onGetMeasurements_keeps ..).rest rfl⟩
  | .keyExchange _ => ⟨_, rfl, (onKeyExchange_keeps ..).rest rfl⟩
  | .keyUpdate _ _ => ⟨_, rfl, (onKeyUpdate_keeps ..).rest rfl⟩
  | .endSession _ _ => ⟨_, rfl, (onEndSession_keeps ..).rest rfl⟩
  | .heartbeatTimeout _ => ⟨_, rfl, (onHeartbeatTimeout_keeps ..).rest rfl⟩
  | .cdatRead => ⟨_, rfl, (onCdatRead_keeps ..).rest rfl⟩
  | .pldmFwUpdate _ => ⟨_, rfl, (onPldmFwUpdate_keeps ..).rest rfl⟩
  | .jtagIdcode => ⟨_, rfl, (onJtagIdcode_keeps ..).rest rfl⟩ | .jtagBypass => ⟨_, rfl, (onJtagBypass_keeps ..).rest rfl⟩
  | .jtagSamplePreload _ _ => ⟨_, rfl, (onJtagSamplePreload_keeps ..).rest rfl⟩
  | .jtagExtest => ⟨_, rfl, (onJtagExtest_keeps ..).rest rfl⟩
  | .hostCxlMemRead _ _ _ => ⟨_, rfl, (onHostCxlMemRead_keeps ..).rest rfl⟩
  | .hostCxlMemWrite _ _ _ => ⟨_, rfl, (onHostCxlMemWrite_keeps ..).rest rfl⟩
  | .hostBar2Access _ _ _ => ⟨_, rfl, (onHostBar2Access_keeps ..).rest rfl⟩
  | .atsInvalidation _ _ _ => ⟨_, rfl, (onAtsInvalidation_keeps ..).rest rfl⟩
  | .translationCompletion _ _ _ _ => ⟨_, rfl, (onTranslationCompletion_keeps ..).rest rfl⟩
  | .pageRequestResponse _ _ _ => ⟨_, rfl, (onPageRequestResponse_keeps ..).rest rfl⟩
  | .pageRequestTimeout _ _ => ⟨_, rfl, (onPageRequestTimeout_keeps ..).rest rfl⟩
  | .cxlLinkUp _ => ⟨_, rfl, (onCxlLinkUp_keeps ..).rest rfl⟩
  | .cxlLinkDown => ⟨_, rfl, (onCxlLinkDown_keeps ..).rest rfl⟩
  | .powerOnReset _ _ _ => ⟨_, rfl, (onPowerOnReset_keeps ..).rest rfl⟩
  | .firmwareBoot _ => ⟨_, rfl, (onFirmwareBoot_keeps ..).rest rfl⟩
  | .rootLockLoss => ⟨_, rfl, (onRootLockLoss_keeps ..).rest rfl⟩ | .perst _ _ => ⟨_, rfl, (onPerst_keeps ..).rest rfl⟩
  | .cxlReset _ => ⟨_, rfl, (onCxlReset_keeps ..).rest rfl⟩
  | .secondaryBusReset => ⟨_, rfl, (onSecondaryBusReset_keeps ..).rest rfl⟩
  | .thermalSample _ => ⟨_, rfl, (onThermalSample_keeps ..).rest rfl⟩
  | .thermtrip => ⟨_, rfl, (onThermtrip_keeps ..).rest rfl⟩
  | .pmbusAlert _ _ _ => ⟨_, rfl, (onPmbusAlert_keeps ..).rest rfl⟩
  | .voltageTargetReached _ => ⟨_, rfl, (onVoltageTargetReached_keeps ..).rest rfl⟩
  | .aclkStepChange => ⟨_, rfl, (onAclkStepChange_keeps ..).rest rfl⟩
  | .sagDetect _ _ => ⟨_, rfl, (onSagDetect_keeps ..).rest rfl⟩
  | .sagRelease => ⟨_, rfl, (onSagRelease_keeps ..).rest rfl⟩
  | .nvOperationStart => ⟨_, rfl, (onNvOperationStart_keeps ..).rest rfl⟩
  | .nvGateTimeout => ⟨_, rfl, (onNvGateTimeout_keeps ..).rest rfl⟩
  | .idleEntry => ⟨_, rfl, (onIdleEntry_keeps ..).rest rfl⟩ | .a4Entry => ⟨_, rfl, (onA4Entry_keeps ..).rest rfl⟩
  | .tokenArrival _ _ => ⟨_, rfl, (onTokenArrival_keeps ..).rest rfl⟩
  | .stationFire _ _ => ⟨_, rfl, (onStationFire_keeps ..).rest rfl⟩
  | .tileIssue _ => ⟨_, rfl, (onTileIssue_keeps ..).rest rfl⟩
  | .tileBoundary _ => ⟨_, rfl, (onTileBoundary_keeps ..).rest rfl⟩
  | .accumulatorSwap _ _ => ⟨_, rfl, (onAccumulatorSwap_keeps ..).rest rfl⟩
  | .shadowDrain _ _ _ _ _ => ⟨_, rfl, (onShadowDrain_keeps ..).rest rfl⟩
  | .panelFillComplete _ _ _ _ => ⟨_, rfl, (onPanelFillComplete_keeps ..).rest rfl⟩
  | .ringCreditReturn _ _ => ⟨_, rfl, (onRingCreditReturn_keeps ..).rest rfl⟩
  | .spillReturn _ _ _ => ⟨_, rfl, (onSpillReturn_keeps ..).rest rfl⟩
  | .coalHoldExpiry _ => ⟨_, rfl, (onCoalHoldExpiry_keeps ..).rest rfl⟩
  | .bankIdleEntry _ _ => ⟨_, rfl, (onBankIdleEntry_keeps ..).rest rfl⟩
  | .bankRetainEntry _ _ => ⟨_, rfl, (onBankRetainEntry_keeps ..).rest rfl⟩
  | .bankWake _ _ => ⟨_, rfl, (onBankWake_keeps ..).rest rfl⟩
  | .muckerPageScrubbed _ _ => ⟨_, rfl, (onMuckerPageScrubbed_keeps ..).rest rfl⟩
  | .watchdogExpiry _ => ⟨_, rfl, (onWatchdogExpiry_keeps ..).rest rfl⟩
  | .hoistGatherRequest _ _ _ _ => ⟨_, rfl, (onHoistGatherRequest_keeps ..).rest rfl⟩
  | .stagingChunkCredit _ _ => ⟨_, rfl, (onStagingChunkCredit_keeps ..).rest rfl⟩
  | .millRunArrival _ => ⟨_, rfl, (onMillRunArrival_keeps ..).rest rfl⟩
  | .millRunApply _ _ _ => ⟨_, rfl, (onMillRunApply_keeps ..).rest rfl⟩
  | .gatherReadServe _ _ => ⟨_, rfl, (onGatherReadServe_keeps ..).rest rfl⟩
  | .amaxExchange => ⟨_, rfl, (onAmaxExchange_keeps ..).rest rfl⟩
  | .leaseExpiry => ⟨_, rfl, (onLeaseExpiry_keeps ..).rest rfl⟩
  | .leaseClose => ⟨_, rfl, (onLeaseClose_keeps ..).rest rfl⟩
  | .leaseRevoke => ⟨_, rfl, (onLeaseRevoke_keeps ..).rest rfl⟩
  | .sluiceContribution _ => ⟨_, rfl, (onSluiceContribution_keeps ..).rest rfl⟩
  | .redReceive _ => ⟨_, rfl, (onRedReceive_keeps ..).rest rfl⟩
  | .sluiceResidueFatal _ => ⟨_, rfl, (onSluiceResidueFatal_keeps ..).rest rfl⟩
  | .runDelivery _ => ⟨_, rfl, (onRunDelivery_keeps ..).rest rfl⟩
  | .barArrive => ⟨_, rfl, (onBarArrive_keeps ..).rest rfl⟩ | .barRelease => ⟨_, rfl, (onBarRelease_keeps ..).rest rfl⟩
  | .barAbort => ⟨_, rfl, (onBarAbort_keeps ..).rest rfl⟩
  | .gatherReqReceive => ⟨_, rfl, (onGatherReqReceive_keeps ..).rest rfl⟩
  | .gatherRspReceive => ⟨_, rfl, (onGatherRspReceive_keeps ..).rest rfl⟩
  | .fmtErrorReceive => ⟨_, rfl, (onFmtErrorReceive_keeps ..).rest rfl⟩
  | .fmtTransit => ⟨_, rfl, (onFmtTransit_keeps ..).rest rfl⟩ | .ackReceive => ⟨_, rfl, (onAckReceive_keeps ..).rest rfl⟩
  | .ackDelayExpiry _ _ => ⟨_, rfl, (onAckDelayExpiry_keeps ..).rest rfl⟩
  | .retransmitTimeout _ _ => ⟨_, rfl, (onRetransmitTimeout_keeps ..).rest rfl⟩
  | .fmtChannelFail _ _ => ⟨_, rfl, (onFmtChannelFail_keeps ..).rest rfl⟩
  | .rateIncrease _ => ⟨_, rfl, (onRateIncrease_keeps ..).rest rfl⟩ | .hello => ⟨_, rfl, (onHello_keeps ..).rest rfl⟩
  | .helloSend _ => ⟨_, rfl, (onHelloSend_keeps ..).rest rfl⟩
  | .neighbourTimeout _ => ⟨_, rfl, (onNeighbourTimeout_keeps ..).rest rfl⟩
  | .electionSettled => ⟨_, rfl, (onElectionSettled_keeps ..).rest rfl⟩
  | .fabricNoManager => ⟨_, rfl, (onFabricNoManager_keeps ..).rest rfl⟩
  | .mgmtFlood => ⟨_, rfl, (onMgmtFlood_keeps ..).rest rfl⟩
  | .addressAssign _ _ => ⟨_, rfl, (onAddressAssign_keeps ..).rest rfl⟩
  | .routingTableLoad _ _ _ => ⟨_, rfl, (onRoutingTableLoad_keeps ..).rest rfl⟩
  | .epochCommit _ => ⟨_, rfl, (onEpochCommit_keeps ..).rest rfl⟩
  | .epochMark => ⟨_, rfl, (onEpochMark_keeps ..).rest rfl⟩ | .tableRetire => ⟨_, rfl, (onTableRetire_keeps ..).rest rfl⟩
  | .epochConfirmTimeout _ => ⟨_, rfl, (onEpochConfirmTimeout_keeps ..).rest rfl⟩
  | .joinReport _ => ⟨_, rfl, (onJoinReport_keeps ..).rest rfl⟩
  | .managerLoss => ⟨_, rfl, (onManagerLoss_keeps ..).rest rfl⟩ | .peerNew _ => ⟨_, rfl, (onPeerNew_keeps ..).rest rfl⟩
  | .peerLost _ => ⟨_, rfl, (onPeerLost_keeps ..).rest rfl⟩
  | .mgmtJobKill _ _ _ => ⟨_, rfl, (onMgmtJobKill_keeps ..).rest rfl⟩
  | .dataFlitReceive _ _ => ⟨_, rfl, (onDataFlitReceive_keeps ..).rest rfl⟩
  | .replayTimeout _ => ⟨_, rfl, (onReplayTimeout_keeps ..).rest rfl⟩
  | .fdRetryExhausted _ => ⟨_, rfl, (onFdRetryExhausted_keeps ..).rest rfl⟩
  | .fdRetrainTimeout _ => ⟨_, rfl, (onFdRetrainTimeout_keeps ..).rest rfl⟩
  | .fdBringupTimeout _ => ⟨_, rfl, (onFdBringupTimeout_keeps ..).rest rfl⟩
  | .linkctlFlitReceive _ _ => ⟨_, rfl, (onLinkctlFlitReceive_keeps ..).rest rfl⟩
  | .timexSend _ => ⟨_, rfl, (onTimexSend_keeps ..).rest rfl⟩
  | .timexFlitReceive _ _ => ⟨_, rfl, (onTimexFlitReceive_keeps ..).rest rfl⟩
  | .tallyHoldover => ⟨_, rfl, (onTallyHoldover_keeps ..).rest rfl⟩
  | .ptpSyncSend _ => ⟨_, rfl, (onPtpSyncSend_keeps ..).rest rfl⟩
  | .frameReceive _ _ => ⟨_, rfl, (onFrameReceive_keeps ..).rest rfl⟩
  | .frameTransmit _ _ => ⟨_, rfl, (onFrameTransmit_keeps ..).rest rfl⟩
  | .preemptVerify _ _ => ⟨_, rfl, (onPreemptVerify_keeps ..).rest rfl⟩
  | .ethernetLinkUp _ => ⟨_, rfl, (onEthernetLinkUp_keeps ..).rest rfl⟩
  | .meshFlitCrcError _ _ _ _ => ⟨_, rfl, (onMeshFlitCrcError_keeps ..).rest rfl⟩
  | .meshLinkFail _ _ => ⟨_, rfl, (onMeshLinkFail_keeps ..).rest rfl⟩
  | .bridgeFail _ => ⟨_, rfl, (onBridgeFail_keeps ..).rest rfl⟩
  | .ceThreshold _ _ => ⟨_, rfl, (onCeThreshold_keeps ..).rest rfl⟩
  | .hbmPatrolRead _ _ _ => ⟨_, rfl, (onHbmPatrolRead_keeps ..).rest rfl⟩
  | .odeccStatusRead _ _ => ⟨_, rfl, (onOdeccStatusRead_keeps ..).rest rfl⟩
  | .hbmRefresh _ _ => ⟨_, rfl, (onHbmRefresh_keeps ..).rest rfl⟩
  | .pcIdleEntry _ => ⟨_, rfl, (onPcIdleEntry_keeps ..).rest rfl⟩
  | .pcPowerDownEntry _ => ⟨_, rfl, (onPcPowerDownEntry_keeps ..).rest rfl⟩
  | .pcWake _ => ⟨_, rfl, (onPcWake_keeps ..).rest rfl⟩ | .powerLoss _ _ _ => ⟨_, rfl, (onPowerLoss_keeps ..).rest rfl⟩
  | .resetComplete => ⟨_, rfl, (onResetComplete_keeps ..).rest rfl⟩
  | .sealReleaseComplete _ => ⟨_, rfl, (onSealReleaseComplete_keeps ..).rest rfl⟩
  | .stopInterfaceComplete => ⟨_, rfl, (onStopInterfaceComplete_keeps ..).rest rfl⟩
  | .startInterface => ⟨_, rfl, (onStartInterface_keeps ..).rest rfl⟩
  | .hoistTableCheckComplete _ _ => ⟨_, rfl, (onHoistTableCheckComplete_keeps ..).rest rfl⟩
  | .fdTrainingDone _ => ⟨_, rfl, (onFdTrainingDone_keeps ..).rest rfl⟩
  | .fdAlignmentDone _ => ⟨_, rfl, (onFdAlignmentDone_keeps ..).rest rfl⟩
  | .ethernetLinkDown _ => ⟨_, rfl, (onEthernetLinkDown_keeps ..).rest rfl⟩
  | .hbmChannelFail _ _ => ⟨_, rfl, (onHbmChannelFail_keeps ..).rest rfl⟩
  | .msixMaskClear _ => ⟨_, rfl, (onMsixMaskClear_keeps ..).rest rfl⟩
  | .cacheEnableWrite _ _ => ⟨_, rfl, (onCacheEnableWrite_keeps ..).rest rfl⟩
  | .idleExitComplete => ⟨_, rfl, (onIdleExitComplete_keeps ..).rest rfl⟩
  | .ptpDelayReqSend _ => ⟨_, rfl, (onPtpDelayReqSend_keeps ..).rest rfl⟩

/-- Settles O58: the next state is the one whose frame `exec_footprint` gives. -/
theorem commandsKeepTheRest : Obligations.CommandsKeepTheRest := by
  intro c s t h
  obtain ⟨u, hu, hf⟩ := exec_footprint c s
  cases hu.symm.trans h
  exact hf

/-! ### The invariants -/

/-- Settles O5: every row's meaning keeps the queue. -/
theorem commandsLeaveQueue : Obligations.CommandsLeaveQueue := by
  intro c s t h
  obtain ⟨_, hk⟩ := exec_next_keeps h
  exact hk.pend

/-- What a step makes of the state is what an operation of the block makes of it, the queue apart: a cycle of time, or the command taken
from the front of the queue. -/
theorem step_keeps {s t : State} (h : step s = .next t) : ∃ p q, Keeps p { s with pending := q } t := by
  unfold step at h
  split at h
  case h_1 =>
    cases h
    exact ⟨_, s.pending, s.tick_keeps⟩
  case h_2 =>
    obtain ⟨p, hk⟩ := exec_next_keeps h
    exact ⟨p, _, hk⟩

/-- Settles O6: a step's operation keeps the canonical form. -/
theorem hbmStaysCanonical : Obligations.HbmStaysCanonical := by
  intro s t hs h
  obtain ⟨_, _, hk⟩ := step_keeps h
  exact hk.hbm hs

/-- Settles O7: neither a cycle of time nor a command lets the counter fall. -/
theorem rollbackNeverFalls : Obligations.RollbackNeverFalls := fun _ _ => step_rollback_le

/-- Settles O8: a step's operation keeps the clock steps legal. -/
theorem clockStaysLegal : Obligations.ClockStaysLegal := by
  intro s t hs h
  obtain ⟨_, _, hk⟩ := step_keeps h
  exact hk.clk hs

/-- Settles O9: a step's operation keeps the bound of each store. -/
theorem storesStayBounded : Obligations.StoresStayBounded := by
  intro s t ⟨hlog, hheld, hses, hatc⟩ h
  obtain ⟨_, _, hk⟩ := step_keeps h
  exact ⟨hk.ras hlog, hk.cage hheld, hk.sec.ses hses, hk.cxl hatc⟩

/-! ### The queue, time and reset -/

/-- Settles O1: the queue is not empty, so a step takes its front. -/
theorem stepRunsFront : Obligations.StepRunsFront := fun _ _ _ => rfl

/-- The part of a cycle of time before the end of its MCLK cycle: the clocks move on, then counters, then a held message may go out. -/
def cycled (s : State) : State :=
  ((({ s with clk := { s.clk with root := s.clk.root + 8, tally := s.clk.tally + BitVec.ofNat 64 s.tallyAdvance } } : State).flowTick
    s.aclkEdges).fabTick s.fclkEdges)

theorem cycled_keeps (s : State) :
    Keeps 0x4 { s with clk := { s.clk with root := s.clk.root + 8, tally := s.clk.tally + BitVec.ofNat 64 s.tallyAdvance } } (cycled s) :=
  (State.fabTick_keeps _ _).after (State.flowTick_keeps _ _) rfl

/-- A cycle of time of a device whose root is locked and that is not held: after the clocks the held message, the writes that start and
the idle timer. -/
theorem tick_eq {s : State} (hl : s.clk.locked = true) (hh : s.pwr.phase ≠ .held) (hk : s.pwr.phase ≠ .lockLost) :
    s.tick = watchIdle ((cycled s).mctpTick.nvTick) := by
  unfold State.tick
  rw [if_pos ⟨hl, hh, hk⟩]
  rfl

theorem tick_still {s : State} (hl : s.clk.locked = false) : s.tick = s := if_neg (by simp [hl])

/-- An update of the power state alone. -/
theorem keeps_pwr (s : State) (p : PowerState) : Keeps 0x20 s { s with pwr := p } := by
  refine ⟨Within.ofAny fun f => ?_, rfl, .rfl' _, id, id, id, id, id⟩
  cases f
  case pwr => exact .inl rfl
  all_goals exact .inr rfl

theorem watchIdle_keeps (s : State) : Keeps 0x20 s (watchIdle s) := by
  unfold watchIdle
  exact Keeps.ite (fun _ => Keeps.refl s) fun _ => keeps_pwr s _

/-- After the clocks a cycle of time touches neither clock nor job, byte, dataflow or fabric. -/
theorem tick_keeps_cycled {s : State} (hl : s.clk.locked = true) (hh : s.pwr.phase ≠ .held) (hk : s.pwr.phase ≠ .lockLost) :
    Keeps 0x603e4 (cycled s) s.tick := by
  rw [tick_eq hl hh hk]
  exact (watchIdle_keeps _).after ((State.nvTick_keeps _).after ((State.mctpTick_keeps _).mono rfl) rfl) rfl

/-- With no message held and no write that starts, the rest of the cycle touches only the power state. -/
theorem tick_quiet_keeps {s : State} (hl : s.clk.locked = true) (hh : s.pwr.phase ≠ .held) (hk : s.pwr.phase ≠ .lockLost)
    (hm : s.sec.mctp = []) (hw : ∀ w ∈ s.pwr.nvWait, w.starting = false) : Keeps 0x20 (cycled s) s.tick := by
  have hpwr : (cycled s).pwr = s.pwr := (cycled_keeps s).frame.same (f := .pwr) rfl
  have hmctp : (cycled s).mctpTick = cycled s := by
    have hsec : (cycled s).sec = s.sec := (cycled_keeps s).sec_eq rfl
    simp [State.mctpTick, hsec, hm]
  have hnone : (cycled s).pwr.nvWait.filter (·.starting) = [] := by
    rw [hpwr, List.filter_eq_nil_iff]
    exact fun w h => by simp [hw w h]
  have hnv : Keeps 0x20 (cycled s) (cycled s).nvTick := by
    unfold State.nvTick
    rw [hnone]
    exact Keeps.ite (fun _ => keeps_pwr _ _) fun _ => Keeps.refl _
  rw [tick_eq hl hh hk, hmctp]
  exact (watchIdle_keeps _).after hnv rfl

/-- Settles O2: the clocks move on first, and what follows them leaves them and the parts named alone. -/
theorem stepIdlesOneCycle : Obligations.StepIdlesOneCycle := by
  refine ⟨fun s hp hl hh hk => ⟨s.tick, by simp [step, hp], ?_⟩, fun s hp hl => by simp [step, hp, tick_still hl]⟩
  have hc := cycled_keeps s
  have ht := tick_keeps_cycled hl hh hk
  have hclk : s.tick.clk = { s.clk with root := s.clk.root + 8, tally := s.clk.tally + BitVec.ofNat 64 s.tallyAdvance } :=
    (ht.frame.same (f := .clk) rfl).trans (hc.frame.same (f := .clk) rfl)
  have kept (f : Field) (h1 : Nat.testBit 0x603e4 f.place = false) (h2 : Nat.testBit 0x4 f.place = false) :=
    f.same_trans (hc.frame.same (f := f) h2) (ht.frame.same h1)
  refine ⟨by rw [hclk], by rw [hclk], fun h => ?_, kept .regs rfl rfl, kept .hbm rfl rfl, kept .slots rfl rfl, kept .flow rfl rfl,
    kept .fab rfl rfl, fun hm hw => ?_⟩
  · rw [hclk]
    simp [State.tallyAdvance, h]
  · have hq := tick_quiet_keeps hl hh hk hm hw
    have same (f : Field) (h1 : Nat.testBit 0x20 f.place = false) (h2 : Nat.testBit 0x4 f.place = false) :=
      f.same_trans (hc.frame.same (f := f) h2) (hq.frame.same h1)
    exact ⟨same .sec rfl rfl, same .ras rfl rfl, same .cxl rfl rfl, same .cage rfl rfl⟩

/-- Settles O3: every table of the reset state is empty, so each entry reads its default. -/
theorem resetValues : Obligations.ResetValues := by
  refine ⟨fun _ => rfl, fun _ => rfl, fun _ => rfl, fun _ => rfl, fun r => ?_, ?_⟩
  · rfl
  · exact ⟨rfl, rfl, rfl, rfl, rfl, rfl, rfl, rfl, rfl, rfl, rfl⟩

/-- Settles O4: no byte is listed, the clock stands at step 0 and every store is empty. -/
theorem resetMeetsInvariants : Obligations.ResetMeetsInvariants := by
  refine ⟨rfl, ⟨by decide, by decide, fun w h => ?_⟩, by decide, by decide, by decide, by decide⟩
  cases h

end Sys2Proof.Machine
end

section
/-! SUPPORT. What an event and a completion record leave alone, field by field: the parts of the Cage, of the link, of the power and of
the service state that neither touches (18 R442 to R444, 12 R299). -/
namespace Sys2Proof.Machine

/-! ### Events -/

/-- An event changes its numbering and the log, the writes that wait for the flash, counters, outputs, what the Cage holds of the event
ring and of records, and pending interrupts; nothing else. -/
def EventOnly (s t : State) : Prop :=
  t = { s with
    ctrs := t.ctrs, out := t.out, pwr := { s.pwr with nvWait := t.pwr.nvWait }, ras := { s.ras with seq := t.ras.seq, log := t.ras.log }
    cage := { s.cage with held := t.cage.held, evTail := t.cage.evTail, evPhase := t.cage.evPhase, evLost := t.cage.evLost }
    cxl := { s.cxl with msixPending := t.cxl.msixPending } }

namespace EventOnly
variable {s t u : State}
theorem refl (s : State) : EventOnly s s := rfl
theorem after (b : EventOnly t u) (a : EventOnly s t) : EventOnly s u := by unfold EventOnly at *; rw [b, a]
theorem ite {c : Prop} [Decidable c] (ha : EventOnly s t) (hb : EventOnly s u) : EventOnly s (if c then t else u) := by
  split
  · exact ha
  · exact hb
section
variable (h : EventOnly s t)
include h
theorem regs : t.regs = s.regs := by rw [h]
theorem held : t.held = s.held := by rw [h]
theorem latches : t.latches = s.latches := by rw [h]
theorem clk : t.clk = s.clk := by rw [h]
theorem sec : t.sec = s.sec := by rw [h]
theorem hbm : t.hbm = s.hbm := by rw [h]
theorem slots : t.slots = s.slots := by rw [h]
theorem flow : t.flow = s.flow := by rw [h]
theorem fab : t.fab = s.fab := by rw [h]
theorem jtag : t.jtag = s.jtag := by rw [h]
theorem boundary : t.boundary = s.boundary := by rw [h]
theorem fresh : t.fresh = s.fresh := by rw [h]
theorem pwr : t.pwr = { s.pwr with nvWait := t.pwr.nvWait } := by rw [h]
theorem ras : t.ras = { s.ras with seq := t.ras.seq, log := t.ras.log } := by rw [h]
theorem cxl : t.cxl = { s.cxl with msixPending := t.cxl.msixPending } := by rw [h]
theorem cage : t.cage = { s.cage with
    held := t.cage.held, evTail := t.cage.evTail, evPhase := t.cage.evPhase, evLost := t.cage.evLost } := by rw [h]
theorem started : t.cage.started = s.cage.started := by rw [h.cage]
theorem ring (k : Nat) : t.ring k = s.ring k := by unfold State.ring; rw [h.cage]
theorem reg (off : Nat) : t.reg off = s.reg off := by unfold State.reg; rw [h.regs]
theorem slot (n : Nat) : t.slot n = s.slot n := by unfold State.slot; rw [h.slots]
theorem busOn : t.busOn = s.busOn := by unfold State.busOn; rw [h.cxl]
end
end EventOnly

theorem msix_only (s : State) (v : Nat) : EventOnly s (s.msix v) := .ite rfl (.ite rfl rfl)
theorem evWrite_only (s : State) (e : EventRec) (lost : Nat) : EventOnly s (s.evWrite e lost) := (msix_only _ _).after rfl
theorem evPost_only (s : State) (e : EventRec) : EventOnly s (s.evPost e) := .ite rfl (.ite ((evWrite_only _ _ _).after rfl) (.ite rfl rfl))
theorem evLog_only (s : State) (e : EventRec) : EventOnly s (s.evLog e) := .ite rfl rfl
theorem raise_only (s : State) (code : Nat) (cls : EvClass) (slot : Option (Fin 8)) (payload : List Byte) :
    EventOnly s (s.raise code cls slot payload) := by
  unfold State.raise
  exact (evPost_only _ _).after (.ite (.after rfl ((evLog_only _ _).after rfl)) ((evLog_only _ _).after rfl))
theorem ev_only (s : State) (code : Nat) (cls : EvClass) (loc sub a0 a1 a2 : Nat) : EventOnly s (s.ev code cls loc sub a0 a1 a2) :=
  raise_only _ _ _ _ _
theorem busyWrite_only (s : State) (off : Nat) : EventOnly s (s.busyWrite off) := ev_only _ _ _ _ _ _ _ _
theorem orderLost_only (s : State) (loc : Nat) (w : OrdKind) (wm : Nat) (l : OrdKind) (lm : Nat) :
    EventOnly s (s.orderLost loc w wm l lm) := (ev_only _ _ _ _ _ _ _ _).after rfl

/-! ### Completions -/

/-- A completion changes counters, outputs, the rings' records, what the Cage lists and holds, and pending interrupts; nothing else. -/
def RecordOnly (s t : State) : Prop :=
  t = { s with
    ctrs := t.ctrs, out := t.out
    cage := { s.cage with rings := t.cage.rings, started := t.cage.started, held := t.cage.held, waiting := t.cage.waiting }
    cxl := { s.cxl with msixPending := t.cxl.msixPending } }

namespace RecordOnly
variable {s t u : State}
theorem refl (s : State) : RecordOnly s s := rfl
theorem after (b : RecordOnly t u) (a : RecordOnly s t) : RecordOnly s u := by unfold RecordOnly at *; rw [b, a]
theorem ite {c : Prop} [Decidable c] (ha : RecordOnly s t) (hb : RecordOnly s u) : RecordOnly s (if c then t else u) := by
  split
  · exact ha
  · exact hb
section
variable (h : RecordOnly s t)
include h
theorem regs : t.regs = s.regs := by rw [h]
theorem clk : t.clk = s.clk := by rw [h]
theorem pwr : t.pwr = s.pwr := by rw [h]
theorem ras : t.ras = s.ras := by rw [h]
theorem sec : t.sec = s.sec := by rw [h]
theorem hbm : t.hbm = s.hbm := by rw [h]
theorem slots : t.slots = s.slots := by rw [h]
theorem flow : t.flow = s.flow := by rw [h]
theorem fab : t.fab = s.fab := by rw [h]
theorem cxl : t.cxl = { s.cxl with msixPending := t.cxl.msixPending } := by rw [h]
theorem slot (n : Nat) : t.slot n = s.slot n := by unfold State.slot; rw [h.slots]
end
end RecordOnly

theorem msix_recordOnly (s : State) (v : Nat) : RecordOnly s (s.msix v) := .ite rfl (.ite rfl rfl)
theorem postRecord_only (s : State) (c : Completion) : RecordOnly s (s.postRecord c) := .ite ((msix_recordOnly _ _).after rfl) rfl
theorem finish_only (s : State) (c : Completion) : RecordOnly s (s.finish c) :=
  .ite rfl (.ite ((postRecord_only _ _).after rfl) (.ite rfl rfl))
theorem complete_only (s : State) (d : Started) (status detail : Nat) (result : List Byte) :
    RecordOnly s (s.complete d status detail result) := (finish_only _ _).after rfl

/-! ### What a started command's own part may do before its record -/

/-- What a record depends on besides the descriptor: the ring's registers and completion tail, whether the bus is on, and whether the
Cage has stopped. -/
structure SameRecord (k : Nat) (s u : State) : Prop where
  tail : (u.ring k).cqTail = (s.ring k).cqTail
  bus : u.busOn = s.busOn
  stop : u.cxl.cageStopped = s.cxl.cageStopped
  regs : u.regs = s.regs

theorem SameRecord.after {k : Nat} {s t u : State} (b : SameRecord k t u) (a : SameRecord k s t) : SameRecord k s u :=
  ⟨b.tail.trans a.tail, b.bus.trans a.bus, b.stop.trans a.stop, b.regs.trans a.regs⟩
theorem EventOnly.sameRecord {s t : State} (h : EventOnly s t) (k : Nat) : SameRecord k s t :=
  ⟨by rw [h.ring], h.busOn, by rw [h.cxl], h.regs⟩
theorem begun_sameRecord (s : State) (spec : CmdSpec) (kind : StartedKind) (d : Desc) :
    SameRecord d.ring.val s (begun spec kind d s).1 := ⟨begun_cqTail s spec kind d, rfl, rfl, rfl⟩

/-- A record is due in one state where it is due in the other, and the same record stands for both. -/
theorem SameRecord.finished {d : Started} {s u t : State} {status : Nat} (h : SameRecord d.ring.val s u) (hf : Finished d status u t) :
    Finished d status s t := by
  refine ⟨hf.1, fun ⟨hb, hc, hd⟩ => ?_⟩
  obtain ⟨r, hr, hs⟩ := hf.2 ⟨h.bus.trans hb, h.stop.trans hc, hd⟩
  have htag : u.ringTag d.ring.val = s.ringTag d.ring.val := by
    unfold State.ringTag State.ringPasidEn State.ringPasid State.ringReg State.reg
    rw [h.regs]
  have hcq : u.ringCq d.ring.val = s.ringCq d.ring.val := by simp only [State.ringCq, State.ringReg, State.reg, h.regs]
  rw [h.tail, htag, hcq] at hr
  exact ⟨r, hr, hs⟩

/-- The flags of the listed descriptor are those of the fetched one. -/
theorem begun_flags (s : State) (spec : CmdSpec) (kind : StartedKind) (d : Desc) :
    byteAt (begun spec kind d s).2.header 1 = byteAt d.bytes 1 := by
  simp only [begun, State.begin, byteAt, slice, zeroBytes, List.drop_zero]
  cases d.bytes with
  | nil => rfl
  | cons a l => cases l <;> simp

/-- A descriptor that has begun and ends in the same step, after work that leaves its record's place alone. -/
theorem begun_endsAtOnce {s u : State} {spec : CmdSpec} {kind : StartedKind} {d : Desc} (h : SameRecord d.ring.val (begun spec kind d s).1 u)
    (status detail : Nat) (result : List Byte) (hs : status < 256) :
    EndsAtOnce d status s (u.complete (begun spec kind d s).2 status detail result) := by
  have hf := (h.after (begun_sameRecord s spec kind d)).finished (complete_finished u (begun spec kind d s).2 status detail result hs)
  unfold Finished at hf
  rw [begun_flags] at hf
  exact hf

end Sys2Proof.Machine
end

section
/-! SUPPORT. The small ring commands that start: NOP, REARM_STREAM, BIAS_SET and POWER_SET (12 R289, R290; 05 R138; 10 R244; 15 R371). -/
namespace Sys2Proof.Machine

/-- A row's meaning, rewritten as an operation of the block, has the property. -/
theorem Answers.of {i : Instr} {s u t : State} {p : State → Prop} (h : exec i s = .next u) (e : u = t) (hp : p t) : Answers i s p :=
  ⟨u, h, e ▸ hp⟩

/-- A byte of a slice is the byte at its place, and 0 beyond the bytes. -/
theorem byteAt_slice (b : List Byte) (o n i : Nat) (hi : i < n) : byteAt (slice b o n) i = byteAt b (o + i) := by
  unfold slice byteAt zeroBytes
  congr 1
  by_cases h : i < (b.drop o).length
  · rw [List.getD_append _ _ _ _ (by simp; simp at h; omega)]
    simp [List.getD_eq_getElem?_getD, hi]
  · rw [List.getD_append_right _ _ _ _ (by simp; simp at h; omega), List.getD_eq_default b _ (by simp at h; omega)]
    simp [List.getD_eq_getElem?_getD, List.getElem?_replicate]
    split <;> rfl

theorem setStream_sameRecord (k : Nat) (s : State) (slot tmpl : Nat) (x : StreamRun) : SameRecord k s (s.setStream slot tmpl x) :=
  ⟨rfl, rfl, rfl, rfl⟩
theorem hbm_sameRecord (k : Nat) (s : State) (h : HbmState) : SameRecord k s { s with hbm := h } := ⟨rfl, rfl, rfl, rfl⟩

section
variable {d : Desc} {s : State}

theorem begun_slot (s : State) (spec : CmdSpec) (kind : StartedKind) (d : Desc) :
    (begun spec kind d s).2.slot = byteAt d.bytes 2 % 8 := by
  change byteAt (slice d.bytes 0 16) 2 % 8 = _
  rw [byteAt_slice _ _ _ _ (by decide)]

/-! ### NOP and REARM_STREAM -/

theorem onNop_starts (h : Starts nopSpec d s) : onNop d s = (begun nopSpec .kill d s).1.complete (begun nopSpec .kill d s).2 0 0 [] :=
  startCmd_starts h (by decide) _ _

/-- A generator with the descriptor's fields put before those of its entry. -/
def rearmed (d : Desc) (x : StreamRun) : StreamRun :=
  let e := byteAt d.bytes 18 % 64
  let r : Rearm := { base := leAt d.bytes 20 4, lims := (List.range 5).map fun i => leAt d.bytes (24 + 2 * i) 2 }
  { x with rearms := (e, r) :: x.rearms.filter fun y => y.1 != e }

section
variable {v : Survey} (h : Starts rearmSpec d s) (hv : (s.slot (byteAt d.bytes 2 % 8)).survey = some v)
include h hv

/-- A starting REARM_STREAM whose template has the entry puts its fields first in the entry's list (05 R138). -/
theorem onRearmStream_found {m : Tmpl} (hm : v.tmpls[leAt d.bytes 16 2]? = some m) (he : byteAt d.bytes 18 % 64 < m.rearmN) :
    onRearmStream d s = ((begun rearmSpec .kill d s).1.setStream (byteAt d.bytes 2 % 8) (leAt d.bytes 16 2)
      (rearmed d (s.stream (byteAt d.bytes 2 % 8) (leAt d.bytes 16 2)))).complete (begun rearmSpec .kill d s).2 0 0 [] := by
  unfold onRearmStream
  rw [startCmd_starts h (by decide)]
  have hb : ((begun rearmSpec .kill d s).1.slot (byteAt d.bytes 2 % 8)).survey = some v := hv
  simp only [begun_slot, hb, Option.bind_some, hm, if_neg (Nat.not_le.2 he)]
  rfl

/-- A REARM_STREAM whose entry, or whose template, does not exist is refused. -/
theorem onRearmStream_lacking (hm : ∀ m, v.tmpls[leAt d.bytes 16 2]? = some m → m.rearmN ≤ byteAt d.bytes 18 % 64) :
    onRearmStream d s = (begun rearmSpec .kill d s).1.complete (begun rearmSpec .kill d s).2 4 0 [] := by
  unfold onRearmStream
  rw [startCmd_starts h (by decide)]
  have hb : ((begun rearmSpec .kill d s).1.slot (byteAt d.bytes 2 % 8)).survey = some v := hv
  simp only [begun_slot, hb, Option.bind_some]
  cases ht : v.tmpls[leAt d.bytes 16 2]? with
  | none => rfl
  | some m => simp only [if_pos (hm m ht)]; rfl
end

/-! ### BIAS_SET -/

/-- The pages of host bias once BIAS_SET has given those from `lo` on the bias `host`. -/
def biasPages (lo count : Nat) (host : Bool) (old : List Nat) : List Nat :=
  let rest := old.filter fun p => !(decide (lo ≤ p) && decide (p < lo + count))
  if host then ((List.range count).map (lo + ·)) ++ rest else rest

theorem mem_biasPages (lo count : Nat) (host : Bool) (old : List Nat) (p : Nat) :
    (biasPages lo count host old).contains p = if lo ≤ p ∧ p < lo + count then host else old.contains p := by
  by_cases hin : lo ≤ p ∧ p < lo + count
  · have hr : ∃ a < count, lo + a = p := ⟨p - lo, by omega, by omega⟩
    cases host <;> simp [biasPages, hin, hr]
  · have hr : ¬ ∃ a < count, lo + a = p := by rintro ⟨a, ha, rfl⟩; omega
    have hk : p < lo ∨ lo + count ≤ p := by omega
    cases host <;> simp [biasPages, hin, hr, hk]

section
variable (h : Starts biasSetSpec d s)
include h
/-- The three outcomes of a starting BIAS_SET, in the order of its checks (10 R244). -/
theorem onBiasSet_starts : onBiasSet d s =
    let b := begun biasSetSpec (.powerSet 0) d s
    let lo := s.winBase / 2 ^ 21 + leAt d.bytes 16 4
    let count := leAt d.bytes 20 4
    let host := bitAt (byteAt d.bytes 24) 0
    if count = 0 ∨ s.winSize / 2 ^ 21 < leAt d.bytes 16 4 + count then b.1.complete b.2 4 0 []
    else if host = true ∧ (s.sealedIn (lo * 2 ^ 21) (count * 2 ^ 21)).isSome = true then b.1.complete b.2 5 0 []
    else ({ b.1 with hbm := { s.hbm with hostBias := biasPages lo count host s.hbm.hostBias } } : State).complete b.2 0 0 [] := by
  unfold onBiasSet
  rw [startCmd_starts h (by decide)]
  rfl
end

/-! ### POWER_SET -/

/-- A POWER_SET that has begun is no FENCE or BARRIER of this cycle. -/
theorem begun_fenceTie (spec : CmdSpec) (step : Nat) : (begun spec (.powerSet step) d s).1.fenceTie = s.fenceTie := by
  simp only [State.fenceTie, begun, State.begin, List.findSome?_append]
  simp [State.mclk, State.setRing, State.bump]
  rfl

/-- The outcomes of a starting POWER_SET, in the order of its checks (12 R290, R302; 15 R371). -/
theorem onPowerSet_starts (h : Starts powerSetSpec d s) : onPowerSet d s =
    let step := leAt d.bytes 20 1 % 8
    let b := begun powerSetSpec (.powerSet step) d s
    if 4 ≤ step ∧ step ≠ 7 then b.1.complete b.2 4 0 []
    else if step < s.limitStep then (b.1.orderLost 0x200 .limit 2 .power 0).complete b.2 2 0 b.1.powerResult
    else if s.fenceTie.isSome = true ∧ leAt d.bytes 16 4 ≠ 0 then
      (b.1.orderLost (b.1.fenceTie.getD 0) .fence 0 .power 0).complete b.2 2 0 b.1.powerResult
    else ({ b.1 with
      pwr := { b.1.pwr with wakeUs := leAt d.bytes 16 4 }
      clk := { s.clk with hostStep := if step = 7 then s.clk.hostStep else step } } : State).reviewClock.settlePower := by
  unfold onPowerSet
  rw [startCmd_starts h (by decide)]
  simp only [begun_fenceTie]
  rfl

theorem writeVolt_hostStep (s : State) (mv : Nat) : (s.writeVolt mv).clk.hostStep = s.clk.hostStep := rfl
theorem lowerVolt_hostStep (s : State) : s.lowerVolt.clk.hostStep = s.clk.hostStep := by unfold State.lowerVolt; split <;> rfl
/-- The controller's move leaves the host's step as it is. -/
theorem reviewClock_hostStep (s : State) : s.reviewClock.clk.hostStep = s.clk.hostStep := by
  unfold State.reviewClock
  extract_lets r
  split
  · exact lowerVolt_hostStep _
  split
  · split <;> split <;> rfl
  · exact lowerVolt_hostStep _

end

theorem rearmStream_acts (d : Desc) (s : State) (v : Survey) (h : Starts rearmSpec d s)
    (hv : (s.slot (byteAt d.bytes 2 % 8)).survey = some v) (m : Tmpl) (hm : v.tmpls[leAt d.bytes 16 2]? = some m)
    (he : byteAt d.bytes 18 % 64 < m.rearmN) :
    Answers (.rearmStream d) s fun t => EndsAtOnce d 0 s t ∧
      t.stream (byteAt d.bytes 2 % 8) (leAt d.bytes 16 2) = rearmed d (s.stream (byteAt d.bytes 2 % 8) (leAt d.bytes 16 2)) ∧
      t.slots = s.slots ∧ t.hbm = s.hbm := by
  have hc := complete_only ((begun rearmSpec .kill d s).1.setStream (byteAt d.bytes 2 % 8) (leAt d.bytes 16 2)
    (rearmed d (s.stream (byteAt d.bytes 2 % 8) (leAt d.bytes 16 2)))) (begun rearmSpec .kill d s).2 0 0 []
  refine .of rfl (onRearmStream_found h hv hm he)
    ⟨begun_endsAtOnce (setStream_sameRecord _ _ _ _ _) _ _ _ (by decide), ?_, hc.slots, hc.hbm⟩
  rw [State.stream, hc.flow]
  exact tblGet_tblSet_same _ _ _

/-- Settles O11: each command goes on to its own part, and there each check has its outcome. -/
theorem smallRingCommandsAct : Obligations.SmallRingCommandsAct := by
  refine ⟨fun d s h => .of rfl (onNop_starts h) ?_, fun d s v => ?_, fun d s => ?_, fun d s => ?_⟩
  · have hc := complete_only (begun nopSpec .kill d s).1 (begun nopSpec .kill d s).2 0 0 []
    exact ⟨begun_complete_ends _ _ _ _ _ _ _ (by decide), hc.slots, hc.flow, hc.hbm, hc.regs⟩
  · intro n k e h hv
    refine ⟨fun m hm he => ?_, fun hm => .of rfl (onRearmStream_lacking h hv hm) ?_⟩
    · obtain ⟨t, ht, hend, hx, hs, hh⟩ := rearmStream_acts d s v h hv m hm he
      exact ⟨t, ht, hend, by rw [hx]; rfl, hs, hh⟩
    · exact ⟨begun_complete_ends _ _ _ _ _ _ _ (by decide), (complete_only _ _ _ _ _).flow⟩
  · intro first count host base h
    refine ⟨fun hb => ?_, fun hc hw hh hs => ?_, fun hc hw hs => ?_⟩ <;> refine .of rfl (onBiasSet_starts h) ?_
    · rw [if_pos hb]
      exact ⟨begun_complete_ends _ _ _ _ _ _ _ (by decide), (complete_only _ _ _ _ _).hbm⟩
    · rw [if_neg (by omega), if_pos ⟨hh, hs⟩]
      exact ⟨begun_complete_ends _ _ _ _ _ _ _ (by decide), (complete_only _ _ _ _ _).hbm⟩
    · rw [if_neg (by omega), if_neg (fun ⟨h1, h2⟩ => by rw [hs h1] at h2; cases h2)]
      refine ⟨begun_endsAtOnce (hbm_sameRecord _ _ _) _ _ _ (by decide), ?_, fun p => ?_⟩
      · rw [(complete_only _ _ _ _ _).hbm]
      · rw [(complete_only _ _ _ _ _).hbm]
        exact mem_biasPages _ _ _ _ _
  · intro step h
    have lost (b : State × Started) (loc : Nat) (w : OrdKind) (wm : Nat) := orderLost_only b.1 loc w wm .power 0
    refine ⟨fun h4 h7 => ?_, fun hl h3 => ?_, fun hk hl hf hg => ?_, fun hk hl hf => ?_⟩ <;>
      refine .of rfl (onPowerSet_starts h) ?_
    · rw [if_pos ⟨h4, h7⟩]
      exact ⟨begun_complete_ends _ _ _ _ _ _ _ (by decide), (complete_only _ _ _ _ _).clk⟩
    · rw [if_neg (by omega), if_pos hl]
      exact ⟨begun_endsAtOnce ((lost _ _ _ _).sameRecord _) _ _ _ (by decide),
        (complete_only _ _ _ _ _).clk.trans (lost _ _ _ _).clk⟩
    · rw [if_neg (by omega), if_neg (by omega), if_pos ⟨hf, hg⟩]
      exact ⟨begun_endsAtOnce ((lost _ _ _ _).sameRecord _) _ _ _ (by decide),
        (complete_only _ _ _ _ _).clk.trans (lost _ _ _ _).clk⟩
    · rw [if_neg (by omega), if_neg (by omega), if_neg (fun ⟨h1, h2⟩ => by rcases hf with hf | hf <;> simp_all)]
      constructor
      · rw [(State.settlePower_keeps _).frame.same (f := .pwr) rfl, (State.reviewClock_keeps _).frame.same (f := .pwr) rfl]
      · rw [(State.settlePower_keeps _).frame.same (f := .clk) rfl, reviewClock_hostStep]

end Sys2Proof.Machine
end

section
/-! SUPPORT. The ring commands of jobs, order and seals that start (12 R292, R295 to R298; 01 R14; 07 R179; 09 R215; 16 R399 to R406), and
what a kill marks (12 R297). -/
namespace Sys2Proof.Machine

/-! ### A kill that starts -/

theorem setSlot_slot_of_ne {s : State} {n m : Nat} {x : Slot} (h : m ≠ n) : (s.setSlot n x).slot m = s.slot m := tblGet_tblSet_of_ne h

/-- The slot is loaded, or a load is in progress: there is something to kill. -/
def Slot.killable (x : Slot) : Bool := x.survey.isSome || x.loading

/-- Releasing a slot's units drops the slot's parameter blocks and changes no slot otherwise. -/
theorem releaseSlot_slots (s : State) (n : Nat) :
    (s.releaseSlot n).slots = (s.setSlot n { s.slot n with params := [none, none] }).slots := by
  unfold State.releaseSlot
  extract_lets s1 s2 s3 s4 s5
  have h1 : s1.slots = s.slots := (s.flushTails_keeps n).frame.same (f := .slots) rfl
  have h2 : s2.slots = s1.slots := (Keeps.foldl _ _ _ _ State.releaseCtx_keeps (.refl s1)).frame.same (f := .slots) rfl
  have h3 : s3.slots = s2.slots :=
    (Keeps.foldl _ _ _ _ (fun s k => s.releaseWindows_keeps n k) (.refl s2)).frame.same (f := .slots) rfl
  have h4 : s4.slots = s3.slots := (State.closeRetained_keeps ..).frame.same (f := .slots) rfl
  have h5 : s5.slots = s.slots := ((s4.failBarriers_keeps n).frame.same (f := .slots) rfl).trans (h4.trans (h3.trans (h2.trans h1)))
  clear_value s5
  change (s5.setSlot n { s5.slot n with params := [none, none] }).slots = _
  simp only [State.setSlot, State.slot, h5]
  rfl

theorem preemptSlot_slots (s : State) (n : Nat) : (s.preemptSlot n).slots = s.slots :=
  (s.preemptSlot_keeps n).frame.same (f := .slots) rfl

/-- A kill that starts marks its slot, if there is something to kill, and leaves every Survey in place. -/
theorem killStart_slot (s : State) (n m : Nat) : (s.killStart n).slot m =
    if m = n ∧ (s.slot n).killing = false ∧ (s.slot n).killable = true
    then { s.slot n with killing := true, params := [none, none] } else s.slot m := by
  unfold State.killStart
  extract_lets x
  by_cases hx : x.killing = true ∨ (x.survey.isNone = true ∧ (!x.loading) = true)
  · rw [if_pos hx, if_neg]
    rintro ⟨-, h1, h2⟩
    simp [Slot.killable] at h2
    cases hs : x.survey <;> cases hl : x.loading <;> simp_all [x]
  · rw [if_neg hx, State.slot, preemptSlot_slots, releaseSlot_slots]
    change (State.setSlot _ _ _).slot m = _
    have hk : (s.slot n).killing = false ∧ (s.slot n).killable = true := by
      simp only [Slot.killable]
      cases hs : x.survey <;> cases hl : x.loading <;> cases hk : x.killing <;> simp_all [x]
    by_cases hm : m = n
    · subst hm
      rw [setSlot_slot, setSlot_slot, if_pos ⟨rfl, hk⟩]
    · rw [setSlot_slot_of_ne hm, setSlot_slot_of_ne hm, if_neg (fun h => hm h.1)]

theorem killStart_survey (s : State) (n m : Nat) : ((s.killStart n).slot m).survey = (s.slot m).survey := by
  rw [killStart_slot]
  split
  · next h => rw [h.1]
  · rfl
theorem killStart_killable (s : State) (n m : Nat) : ((s.killStart n).slot m).killable = (s.slot m).killable := by
  rw [killStart_slot]
  split
  · next h => rw [h.1]; rfl
  · rfl
theorem killStart_killing_mono {s : State} {m : Nat} (n : Nat) (h : (s.slot m).killing = true) :
    ((s.killStart n).slot m).killing = true := by
  rw [killStart_slot]
  split
  · rfl
  · exact h
theorem killStart_killing {s : State} {n : Nat} (h : (s.slot n).killable = true) : ((s.killStart n).slot n).killing = true := by
  cases hk : (s.slot n).killing
  · rw [killStart_slot, if_pos ⟨rfl, hk, h⟩]
  · exact killStart_killing_mono n hk

/-- Killing slots in turn marks each of them that has something to kill and leaves every Survey in place. -/
theorem killStarts_slot (l : List Nat) (s : State) (m : Nat) :
    ((l.foldl State.killStart s).slot m).survey = (s.slot m).survey ∧
    ((s.slot m).killing = true → ((l.foldl State.killStart s).slot m).killing = true) ∧
    (m ∈ l → (s.slot m).killable = true → ((l.foldl State.killStart s).slot m).killing = true) := by
  induction l generalizing s with
  | nil => exact ⟨rfl, id, fun h => by cases h⟩
  | cons n l ih =>
    obtain ⟨h1, h2, h3⟩ := ih (s.killStart n)
    refine ⟨h1.trans (killStart_survey s n m), fun h => h2 (killStart_killing_mono n h), fun hm hk => ?_⟩
    rcases List.mem_cons.1 hm with rfl | hm
    · exact h2 (killStart_killing hk)
    · exact h3 hm (by rwa [killStart_killable])

theorem killAll_survey (s : State) (n : Nat) : (s.killAll.slot n).survey = (s.slot n).survey := (killStarts_slot _ s n).1
theorem killAll_killing {s : State} {n : Nat} (hn : n < 8) (h : (s.slot n).killable = true) : (s.killAll.slot n).killing = true :=
  (killStarts_slot _ s n).2.2 (List.mem_range.2 hn) h
theorem killable_of_loaded {s : State} {n : Nat} (h : s.loaded n = true) : (s.slot n).killable = true := by
  simp only [State.loaded, Bool.and_eq_true] at h
  simp [Slot.killable, h.1]

/-- A row's meaning, rewritten twice. -/
theorem exec_eq_of {i : Instr} {s u v t : State} (h : exec i s = .next u) (e : u = v) (e' : v = t) : exec i s = .next t := by
  rw [h, e, e']

/-! ### The commands of a job's ring: RUN_STEP, SURVEY_LOAD, SET_STEP_PARAMS and COPY -/

section
variable {d : Desc} {s : State}

/-- The outcomes of a starting RUN_STEP, in the order of its checks (01 R14, 18 R439, R451). -/
theorem onRunStep_starts (h : Starts runStepSpec d s) (hu : s.stepFree (byteAt d.bytes 2 % 8) = true) : onRunStep d s =
    let n := byteAt d.bytes 2 % 8
    let step := leAt d.bytes 16 4
    let b := begun runStepSpec (.runStep step) d s
    let res := b.1.stepResult n step
    if s.ras.service = true ∨ s.pwr.tripLimit = true then (b.1.orderLost n .limit 2 .ordinary 0).complete b.2 2 0 res
    else if (s.slot n).stopped = true then b.1.complete b.2 0x0A 0 res
    else if (!(s.slot n).nextStep step) = true ∨ s.lacksTable n = true then b.1.complete b.2 4 0 res
    else (b.1.setSlot n { s.slot n with
      lastStep := some step, firstStep := some ((s.slot n).firstStep.getD step) }).sendStarts n step := by
  unfold onRunStep
  have hb : (begun runStepSpec (.runStep (leAt d.bytes 16 4)) d s).1.slot (byteAt d.bytes 2 % 8) = s.slot (byteAt d.bytes 2 % 8) := rfl
  simp only [hu, startCmd_starts h (by decide), begun_slot, hb]
  cases (s.slot (byteAt d.bytes 2 % 8)).firstStep <;> rfl

theorem onSurveyLoad_starts (view : HostView) (h : Starts surveyLoadSpec d s) : onSurveyLoad d view s =
    let b := begun surveyLoadSpec (.surveyLoad { desc := d.bytes, waiting := false, checked := false }) d s
    let len := leAt d.bytes 24 8
    if s.ras.service = true then (b.1.orderLost b.2.slot .limit 2 .ordinary 0).complete b.2 2 0 []
    else if leAt d.bytes 16 8 % 64 ≠ 0 ∨ len < 256 ∨ 2 ^ 28 < len then b.1.complete b.2 4 0 []
    else if s.loads.isEmpty = true then b.1.checkLoad b.2 d.bytes view else b.1 := by
  unfold onSurveyLoad
  rw [startCmd_starts h (by decide)]
  rfl

theorem onSetStepParams_starts (view : HostView) (h : Starts stepParamsSpec d s) (hu : unheld (.setStepParams d view) s = true) :
    onSetStepParams d view s =
      let b := begun stepParamsSpec (.stepParams { desc := d.bytes, waiting := false, checked := false }) d s
      if (s.slot (byteAt d.bytes 2 % 8)).stopped = true then b.1.complete b.2 0x0A 0 []
      else if leAt d.bytes 24 8 % 16 ≠ 0 then b.1.complete b.2 4 0 []
      else b.1.takeParams b.2 d.bytes view := by
  obtain ⟨hfree, hread⟩ := Bool.and_eq_true_iff.1 hu
  unfold onSetStepParams
  rw [List.find?_eq_none.2, hfree]
  · simp only [startCmd_starts h (by decide), begun_slot]
    rfl
  · intro x hx
    have hx := List.all_eq_true.1 hread x hx
    cases hk : x.kind with
    | stepParams j => simpa [hk, imp_iff_not_or] using hx
    | _ => simp

theorem onCopy_starts (view : HostView) (err : HbmErrors) (h : Starts (copySpec d.bytes) d s) : onCopy d view err s =
    let j : CopyJob := { desc := d.bytes, next := copyStart d.bytes, bytes := 0, waiting := none, ended := none }
    let b := begun (copySpec d.bytes) (.copy j) d s
    match s.copyCheck (byteAt d.bytes 2 % 8) d.bytes with
    | some status => b.1.copyEnd b.2 d.bytes status 0 []
    | none => (b.1.foundErrors err).copyMove (copyRuns d.bytes) b.2 j view := by
  unfold onCopy
  simp only [startCmd_starts h (show (6 : Nat) < 15 by decide), begun_slot]
  rfl

end

/-- Settles O12: each command goes on to its own part, and there each check has its outcome. -/
theorem jobRingCommandsAct : Obligations.JobRingCommandsAct := by
  refine ⟨fun d s => ?_, fun d view s => ?_, fun d view s => ?_, fun d view err s => ?_⟩
  · intro n step b h hu
    have lost := orderLost_only b.1 n .limit 2 .ordinary 0
    refine ⟨fun hs ht hx hn hl => exec_eq_of rfl (onRunStep_starts h hu) ?_, fun hs => .of rfl (onRunStep_starts h hu) ?_,
      fun hs ht hx => .of rfl (onRunStep_starts h hu) ?_, fun hs ht hx hn => .of rfl (onRunStep_starts h hu) ?_⟩
    · simp [hs, ht, hx, hn, hl, n, step, b]
    · rw [if_pos (.inl hs)]
      exact begun_endsAtOnce (lost.sameRecord _) _ _ _ (by decide)
    · rw [if_neg (by simp [hs, ht]), if_pos hx]
      exact begun_complete_ends _ _ _ _ _ _ _ (by decide)
    · rw [if_neg (by simp [hs, ht]), if_neg (by simp [n, hx]), if_pos (by simpa [n, step] using hn)]
      exact begun_complete_ends _ _ _ _ _ _ _ (by decide)
  · intro len b h
    refine ⟨fun hs => .of rfl (onSurveyLoad_starts view h) ?_, fun hs hl => .of rfl (onSurveyLoad_starts view h) ?_,
      fun hs h0 h1 h2 => ⟨fun hl => exec_eq_of rfl (onSurveyLoad_starts view h) ?_,
        fun hl => exec_eq_of rfl (onSurveyLoad_starts view h) ?_⟩⟩
    · rw [if_pos hs]
      exact begun_endsAtOnce ((orderLost_only _ _ _ _ _ _).sameRecord _) _ _ _ (by decide)
    · rw [if_neg (by simp [hs]), if_pos hl]
      exact begun_complete_ends _ _ _ _ _ _ _ (by decide)
    · rw [if_neg (by simp [hs]), if_neg (by omega), if_pos (by simp [hl])]
    · rw [if_neg (by simp [hs]), if_neg (by omega), if_neg (by simpa using hl)]
  · intro n b h hu hx
    refine ⟨fun h0 => exec_eq_of rfl (onSetStepParams_starts view h hu) ?_, fun h0 => .of rfl (onSetStepParams_starts view h hu) ?_⟩
    · rw [if_neg (by simp [n, hx]), if_neg (by omega)]
    · rw [if_neg (by simp [n, hx]), if_pos h0]
      exact begun_complete_ends _ _ _ _ _ _ _ (by decide)
  · intro n j b h
    refine ⟨fun hc => exec_eq_of rfl (onCopy_starts view err h) ?_, fun status hc => exec_eq_of rfl (onCopy_starts view err h) ?_⟩
    · simp only [hc, n]
      rfl
    · simp only [hc, n]
      rfl

end Sys2Proof.Machine
end

section
/-! SUPPORT. The ring commands of order and of seals that start (12 R295 to R298, R302; 16 R399 to R406). -/
namespace Sys2Proof.Machine

/-- A run of operations each of which leaves the state alone. -/
theorem foldl_eq_self {α β : Type} {f : α → β → α} {l : List β} {s : α} (h : ∀ x ∈ l, f s x = s) : l.foldl f s = s := by
  induction l with
  | nil => rfl
  | cons x l ih =>
    rw [List.foldl_cons, h x List.mem_cons_self]
    exact ih fun y hy => h y (List.mem_cons_of_mem _ hy)

theorem powerTies_slots (s : State) : s.powerTies.slots = s.slots := s.powerTies_keeps.frame.same (f := .slots) rfl

/-- With no POWER_SET among the started descriptors, none loses. -/
theorem powerTies_none {s : State} (h : ∀ y ∈ s.cage.started, ∀ w, y.kind ≠ .powerSet w) : s.powerTies = s := by
  unfold State.powerTies
  split
  · rfl
  · refine foldl_eq_self fun y hy => ?_
    split
    · next w hk => exact absurd hk (h y hy w)
    · rfl

theorem loseTies_nil (s : State) (n master : Nat) : s.loseTies n [] master = s := foldl_eq_self fun _ _ => by simp
theorem loseTies_slots (s : State) (n : Nat) (tied : List (Fin 32)) (master : Nat) : (s.loseTies n tied master).slots = s.slots :=
  (s.loseTies_keeps n tied master).frame.same (f := .slots) rfl

/-- A kill preempts nothing of a slot that no started descriptor names, kills apart. -/
theorem preemptSlot_none {s : State} {n : Nat} (h : ∀ y ∈ s.cage.started, y.namesSlot = true → y.slot = n → y.kind = .kill) :
    s.preemptSlot n = s := by
  refine foldl_eq_self fun y hy => if_neg fun hc => ?_
  simp only [Bool.and_eq_true, beq_iff_eq] at hc
  obtain ⟨⟨h1, h2⟩, h3⟩ := hc
  rw [h y hy h1 h2] at h3
  cases h3

section
variable {d : Desc} {s : State}

theorem begun_started (s : State) (spec : CmdSpec) (kind : StartedKind) (d : Desc) :
    (begun spec kind d s).1.cage.started = s.cage.started ++ [(begun spec kind d s).2] := rfl

/-- A descriptor that is listed as begun, and stays listed. -/
theorem startedAs_of_mem {kind : StartedKind} {spec : CmdSpec} {t : State} {p : StartedKind → Bool}
    (h : (begun spec kind d s).2 ∈ t.cage.started) (hp : p kind = true) : StartedAs d t p := ⟨_, h, rfl, hp⟩
theorem begun_mem (s : State) (spec : CmdSpec) (kind : StartedKind) (d : Desc) :
    (begun spec kind d s).2 ∈ (begun spec kind d s).1.cage.started := by
  rw [begun_started]
  exact List.mem_append_right _ List.mem_cons_self

/-! ### FENCE and BARRIER -/

/-- What a FENCE waits for: the earlier descriptors of its ring, of the rings and of the slots it names (12 R295). -/
def fenceWaits (d : Desc) (s : State) : List Nat :=
  ((s.cage.started.filter fun x =>
    x.ring.val == d.ring.val || bitAt (leAt d.bytes 16 4) x.ring.val || (x.namesSlot && bitAt (leAt d.bytes 20 1) x.slot)).map (·.serial)) ++
  ((s.cage.waiting.filter fun c =>
    c.ring.val == d.ring.val || bitAt (leAt d.bytes 16 4) c.ring.val || bitAt (leAt d.bytes 20 1) (byteAt c.header 2 % 8)).map (·.serial))

theorem onFence_starts (h : Starts fenceSpec d s) : onFence d s =
    let rings := leAt d.bytes 16 4
    let slots := leAt d.bytes 20 1
    let k := d.ring.val
    let b := begun fenceSpec (.fence rings slots (fenceWaits d s)) d s
    if (!s.ringAdmin k) = true ∧
      ((rings ≠ 0 ∧ rings ≠ 2 ^ k) ∨ (List.range 8).any (fun n => bitAt slots n && !bitAt (s.ringSlots k) n) = true)
    then b.1.complete b.2 5 0 [] else b.1.powerTies := by
  unfold onFence
  rw [startCmd_starts h (by decide)]
  rfl

theorem any_slots {a b : Nat} : (List.range 8).any (fun n => bitAt a n && !bitAt b n) = true ↔ ∃ n < 8, bitAt a n = true ∧ bitAt b n = false := by
  simp

/-- The contribution that a BARRIER's descriptor describes. -/
def barrierJob (d : Desc) (s : State) : BarrierJob :=
  { fjob := s.fjobOf (byteAt d.bytes 2 % 8), bid := byteAt d.bytes 16, npart := leAt d.bytes 18 2 + 1, tmoLog2 := byteAt d.bytes 20, sent := none }
/-- What a BARRIER waits for (12 R296). -/
def barrierWaits (d : Desc) (s : State) : List Nat :=
  (s.onRing d.ring.val).map (·.serial) ++ ((s.cage.waiting.filter fun c => c.ring == d.ring).map (·.serial))

theorem onBarrier_starts (h : Starts barrierSpec d s) (hu : unheld (.barrier d) s = true) : onBarrier d s =
    let n := byteAt d.bytes 2 % 8
    let j := barrierJob d s
    let b := begun barrierSpec (.barrier j (barrierWaits d s)) d s
    if byteAt d.bytes 20 < 10 ∨ (s.slot n).hoist.isNone = true then b.1.complete b.2 4 0 []
    else if (s.slot n).stopped = true then b.1.abortBarrier n j.fjob j.bid none
    else b.1.powerTies.barContribute b.2 j (barrierWaits d s) := by
  unfold onBarrier
  dsimp only
  rw [List.findSome?_eq_none_iff.2]
  · simp only [startCmd_starts h (show (8 : Nat) < 15 by decide), begun_slot]
    rfl
  · intro x hx
    have hx := List.all_eq_true.1 hu x hx
    cases hk : x.kind with
    | barrier k _ => simpa [hk, ← Option.isSome_iff_ne_none] using hx
    | _ => rfl

/-! ### KILL_JOB and SURVEY_UNLOAD -/

theorem onKillJob_starts (h : Starts killSpec d s) (tied : List (Fin 32)) : onKillJob d tied s =
    let n := byteAt d.bytes 2 % 8
    let b := begun killSpec .kill d s
    let u := b.1.loseTies n tied 0
    if (u.slot n).survey.isNone = true ∧ (!(u.slot n).loading) = true then (u.preemptSlot n).complete b.2 0 0 (leBytes 8 0)
    else u.killStart n := by
  unfold onKillJob
  simp only [startCmd_starts h (show (9 : Nat) < 15 by decide), begun_slot]
  rfl

theorem onSurveyUnload_starts (h : Starts unloadSpec d s) : onSurveyUnload d [] s =
    let n := byteAt d.bytes 2 % 8
    let b := begun unloadSpec .kill d s
    if s.running n = true ∨ (s.slot n).loading = true ∨ s.loadQueued n = true then b.1.complete b.2 7 0 []
    else if (s.slot n).survey.isNone = true then b.1.complete b.2 0 0 (leBytes 8 0) else b.1.killStart n := by
  have hrun : (begun unloadSpec .kill d s).1.running (byteAt d.bytes 2 % 8) = s.running (byteAt d.bytes 2 % 8) := by
    simp [State.running, begun, State.begin]
    rfl
  have hload : (begun unloadSpec .kill d s).1.loadQueued (byteAt d.bytes 2 % 8) = s.loadQueued (byteAt d.bytes 2 % 8) := by
    simp [State.loadQueued, begun, State.begin]
    rfl
  unfold onSurveyUnload
  simp only [startCmd_starts h (show (2 : Nat) < 15 by decide), begun_slot, loseTies_nil, hrun, hload]
  rfl

/-- The kill of a slot with something to kill. -/
theorem killStart_marks {u : State} {n : Nat} (hu : u.slots = s.slots) (h : (s.slot n).survey.isSome = true ∨ (s.slot n).loading = true) :
    ((u.killStart n).slot n).killing = true ∧ ((u.killStart n).slot n).survey = (s.slot n).survey := by
  have hs : u.slot n = s.slot n := by unfold State.slot; rw [hu]
  exact ⟨killStart_killing (by rw [hs]; simpa [Slot.killable] using h), by rw [killStart_survey, hs]⟩

end

/-- Settles O13: each command goes on to its own part, and there each check has its outcome. -/
theorem orderRingCommandsAct : Obligations.OrderRingCommandsAct := by
  refine ⟨fun d s => ?_, fun d s h => ?_, fun d tied s => ?_, fun d tied s => ?_⟩
  · intro rings slots k waits h
    refine ⟨fun ha => ?_, fun ha hb => .of rfl (onFence_starts h) ?_⟩
    · have he : onFence d s = (begun fenceSpec (.fence rings slots waits) d s).1.powerTies := by
        rw [onFence_starts h]
        refine if_neg ?_
        rintro ⟨h1, h2⟩
        rw [any_slots] at h2
        rcases ha with ha | ⟨ha, hb⟩
        · simp [k, ha] at h1
        · rcases h2 with ⟨h2, h3⟩ | ⟨n, hn, h2, h3⟩
          · exact ha.elim h2 h3
          · rw [hb n hn h2] at h3
            cases h3
      refine ⟨exec_eq_of rfl he rfl, fun hp => .of rfl he ?_⟩
      rw [powerTies_none]
      · exact startedAs_of_mem (begun_mem ..) (by simp)
      · intro y hy w
        rcases List.mem_append.1 hy with hy | hy
        · exact hp y hy w
        · rw [List.mem_singleton.1 hy]
          exact fun hk => by cases hk
    · rw [if_pos ⟨by simpa [k] using ha, by rw [any_slots]; exact hb⟩]
      exact begun_complete_ends _ _ _ _ _ _ _ (by decide)
  · intro n waits j b hs hu
    refine ⟨fun ht hh hx => exec_eq_of rfl (onBarrier_starts hs hu) ?_, fun ht => .of rfl (onBarrier_starts hs hu) ?_⟩
    · rw [if_neg (by simp [n, hh, ht]), if_neg (by simp [n, hx])]
      rfl
    · rw [if_pos (.inl ht)]
      exact begun_complete_ends _ _ _ _ _ _ _ (by decide)
  · intro n h
    have hslots : ((begun killSpec .kill d s).1.loseTies n tied 0).slots = s.slots := loseTies_slots ..
    have hslot : ((begun killSpec .kill d s).1.loseTies n tied 0).slot n = s.slot n := by unfold State.slot; rw [hslots]
    refine ⟨fun hk => .of rfl (onKillJob_starts h tied) ?_, fun hs hl ht hp => .of rfl (onKillJob_starts h tied) ?_⟩
    · rw [if_neg (by rw [hslot]; rintro ⟨h1, h2⟩; rcases hk with hk | hk <;> simp_all)]
      exact killStart_marks hslots hk
    · rw [if_pos (by rw [hslot, hs, hl]; exact ⟨rfl, rfl⟩), ht, loseTies_nil, preemptSlot_none]
      · exact ⟨begun_complete_ends _ _ _ _ _ _ _ (by decide), (complete_only _ _ _ _ _).slots⟩
      · intro y hy hn hy'
        rcases List.mem_append.1 hy with hy | hy
        · exact absurd hy' (hp y hy hn)
        · rw [List.mem_singleton.1 hy]
  · intro n h ht
    subst ht
    refine ⟨fun hs hr hl hq => .of rfl (onSurveyUnload_starts h) ?_, fun hb => .of rfl (onSurveyUnload_starts h) ?_,
      fun hs hr hl hq => .of rfl (onSurveyUnload_starts h) ?_⟩
    · rw [if_neg (by simp [n, hr, hl, hq]), if_neg (by cases hv : (s.slot n).survey <;> simp_all [n])]
      exact killStart_marks rfl (.inl hs)
    · rw [if_pos hb]
      have hc := complete_only (begun unloadSpec .kill d s).1 (begun unloadSpec .kill d s).2 7 0 []
      exact ⟨begun_complete_ends _ _ _ _ _ _ _ (by decide), hc.slots, hc.flow, hc.hbm⟩
    · rw [if_neg (by simp [n, hr, hl, hq]), if_pos (by simp [n, hs])]
      exact begun_complete_ends _ _ _ _ _ _ _ (by decide)

/-! ### SEAL_RELEASE, SEAL_EXPORT and BUNDLE_LOAD -/

section
variable {d : Desc} {s : State}

theorem onSealRelease_starts (h : Starts sealReleaseSpec d s) (hu : s.exporting (leAt d.bytes 16 1 % 16) = false) : onSealRelease d s =
    let r := leAt d.bytes 16 1 % 16
    let b := begun sealReleaseSpec (.sealRelease r) d s
    match s.sealedAt r with
    | none => b.1.complete b.2 4 0 []
    | some x => if s.sealUsed x = true then b.1.complete b.2 5 0 [] else b.1.releaseSealed r := by
  unfold onSealRelease
  simp only [hu, Bool.not_false, startCmd_starts h (show (0x0D : Nat) < 15 by decide)]
  rfl

theorem releaseSealed_sealedAt {r : Nat} {x : Sealed} (h : s.sealedAt r = some x) :
    s.releaseSealed r = { s with sec := { s.sec with sealed := tblSet (fun _ => none) s.sec.sealed r (some { x with releasing := true }) } } := by
  simp [State.releaseSealed, h]

theorem onSealExport_starts {x : Sealed} (h : Starts sealExportSpec d s) (hu : unheld (.sealExport d) s = true)
    (hx : s.sealedAt (leAt d.bytes 16 1 % 16) = some x) : onSealExport d s =
    let j : BundleJob := { header := [], region := leAt d.bytes 16 1 % 16, desc := d.bytes, waiting := none }
    let b := begun sealExportSpec (.sealExport j) d s
    if leAt d.bytes 32 8 < x.bundleLen then b.1.complete b.2 4 0 [] else b.1 := by
  have hu : s.setRunning x = false := by simpa [unheld, hx] using hu
  have hb (k : StartedKind) : (begun sealExportSpec k d s).1.sealedAt (leAt d.bytes 16 1 % 16) = some x := hx
  unfold onSealExport
  simp only [hx, hu, Bool.not_false, startCmd_starts h (show (0x0E : Nat) < 15 by decide), hb]
  rfl

/-- The length of a bundle as its header in host memory gives it. -/
def bundleLength (d : Desc) (view : HostView) : Nat := match view.range true (leAt d.bytes 16 8 + 8) 8 with
  | .ok b => leAt b 0 8
  | _ => 0

/-- BUNDLE_LOAD, started where its destination is free. -/
def bundleLoadIf (free : Bool) (d : Desc) (view : HostView) (s : State) : State :=
  s.startCmd bundleLoadSpec d free (.bundleLoad { header := [], tee := s.cxl.tdi == .run, region := 0, desc := d.bytes, waiting := none })
    fun s st =>
      if s.ras.service then (s.orderLost 0x200 .limit 2 .ordinary 0).complete st stPreempted 0 []
      else if leAt d.bytes 32 6 % 4096 ≠ 0 then s.complete st stInvalidArgument 0 []
      else s.bundleCheckStart st (s.cxl.tdi == .run) d.bytes view

theorem onBundleLoad_eq (d : Desc) (view : HostView) (s : State) : onBundleLoad d view s =
    bundleLoadIf (!s.copyOver (leAt d.bytes 32 6) (4096 * ceilDiv (bundleLength d view) 4096)) d view s := rfl

theorem onBundleLoad_starts (view : HostView) (h : Starts bundleLoadSpec d s) (hu : unheld (.bundleLoad d view) s = true) :
    onBundleLoad d view s =
      let tee := s.cxl.tdi == .run
      let b := begun bundleLoadSpec (.bundleLoad { header := [], tee := tee, region := 0, desc := d.bytes, waiting := none }) d s
      if s.ras.service = true then (b.1.orderLost 0x200 .limit 2 .ordinary 0).complete b.2 2 0 []
      else if leAt d.bytes 32 6 % 4096 ≠ 0 then b.1.complete b.2 4 0 []
      else b.1.bundleCheckStart b.2 tee d.bytes view := by
  have hfree : (!s.copyOver (leAt d.bytes 32 6) (4096 * ceilDiv (bundleLength d view) 4096)) = true := hu
  rw [onBundleLoad_eq, hfree]
  exact startCmd_starts h (by decide) _ _

end

/-- Settles O14: each command goes on to its own part, and there each check has its outcome. -/
theorem sealRingCommandsAct : Obligations.SealRingCommandsAct := by
  refine ⟨fun d s x => ?_, fun d s h hu hx => ?_, fun d s x => ?_, fun d view s => ?_⟩
  · intro r h hu hx
    have hu : s.exporting r = false := by simpa [unheld] using hu
    have he := onSealRelease_starts h hu
    simp only [show s.sealedAt (leAt d.bytes 16 1 % 16) = some x from hx] at he
    have hb : (begun sealReleaseSpec (.sealRelease r) d s).1.sealedAt r = some x := hx
    refine ⟨fun hn => .of rfl he ?_, fun hn => .of rfl he ?_⟩
    · rw [if_neg (by simp [hn])]
      rw [releaseSealed_sealedAt hb]
      refine ⟨tblGet_tblSet_same _ _ _, rfl, startedAs_of_mem (begun_mem s sealReleaseSpec (.sealRelease r) d) (by simp)⟩
    · rw [if_pos hn]
      exact ⟨begun_complete_ends _ _ _ _ _ _ _ (by decide), (complete_only _ _ _ _ _).sec⟩
  · have hu : s.exporting (leAt d.bytes 16 1 % 16) = false := by simpa [unheld] using hu
    have he := onSealRelease_starts h hu
    simp only [hx] at he
    exact .of rfl he ⟨begun_complete_ends _ _ _ _ _ _ _ (by decide), (complete_only _ _ _ _ _).sec⟩
  · intro r h hu hx
    have he := onSealExport_starts h hu hx
    refine ⟨fun hl => .of rfl he ?_, fun hl => .of rfl he ?_⟩
    · rw [if_neg (by omega)]
      exact ⟨rfl, rfl, startedAs_of_mem (begun_mem ..) (by simp [r])⟩
    · rw [if_pos hl]
      exact begun_complete_ends _ _ _ _ _ _ _ (by decide)
  · intro tee b h hu
    have he := onBundleLoad_starts view h hu
    refine ⟨fun hs => .of rfl he ?_, fun hs h0 => exec_eq_of rfl he ?_, fun hs h0 => .of rfl he ?_⟩
    · rw [if_pos hs]
      exact begun_endsAtOnce ((orderLost_only _ _ _ _ _ _).sameRecord _) _ _ _ (by decide)
    · rw [if_neg (by simp [hs]), if_neg (by omega)]
    · rw [if_neg (by simp [hs]), if_pos h0]
      exact begun_complete_ends _ _ _ _ _ _ _ (by decide)

end Sys2Proof.Machine
end

section
/-! SUPPORT. How started descriptors end (12 R292 to R297; 07 R180; 01 R20, R21; 15 R382; 16 R400, R406). -/
namespace Sys2Proof.Machine

/-! ### What a completion leaves in the outputs -/

theorem postRecord_mem_out {s : State} {o : Output} (h : o ∈ s.out) (c : Completion) : o ∈ (s.postRecord c).out := by
  unfold State.postRecord
  split
  · exact msix_out _ _ _ (List.mem_cons_of_mem _ h)
  · exact List.mem_cons_of_mem _ h
theorem finish_mem_out {s : State} {o : Output} (h : o ∈ s.out) (c : Completion) : o ∈ (s.finish c).out := by
  unfold State.finish
  split
  · exact h
  split
  · exact postRecord_mem_out (s := s.bump 0xA108) h c
  · simp only
    split <;> exact h
/-- A completion keeps the outputs that went before. -/
theorem complete_mem_out {s : State} {o : Output} (h : o ∈ s.out) (d : Started) (status detail : Nat) (result : List Byte) :
    o ∈ (s.complete d status detail result).out :=
  finish_mem_out (s := { s with cage := { s.cage with started := s.cage.started.filter fun x => x.serial != d.serial } }) h _

/-- What ends a descriptor ends it in every state with the same Cage and outputs. -/
theorem Finished.congr {d : Started} {status : Nat} {s t u : State} (h : Finished d status s t) (hc : u.cage = t.cage) (ho : u.out = t.out) :
    Finished d status s u := by
  unfold Finished Recorded at *
  rwa [hc, ho]

/-! ### Loads -/

theorem loaded_slots {s t : State} {n : Nat} (h : t.slots = s.slots) : t.loaded n = s.loaded n := by
  unfold State.loaded State.slot
  rw [h]

theorem setSlot_loaded (s : State) (n : Nat) (x : Slot) : (s.setSlot n x).loaded n = (x.survey.isSome && !x.loading) := by
  rw [State.loaded, setSlot_slot]

/-- Rechecking a slot's tables keeps its Survey loaded: a table refused is given up, nothing more. -/
theorem recheckTables_loaded (s : State) (n : Nat) : (s.recheckTables n).loaded n = s.loaded n := by
  have table (f : TableFail) : (s.refuseTable n f).loaded n = s.loaded n :=
    (loaded_slots (raise_only _ _ _ _ _).slots).trans (setSlot_loaded _ _ _)
  have sluice (i : Nat) : (s.refuseSluice n i).loaded n = s.loaded n :=
    (loaded_slots (raise_only _ _ _ _ _).slots).trans (setSlot_loaded _ _ _)
  unfold State.recheckTables
  split
  · rfl
  · extract_lets fail
    cases fail with
    | some f => exact table f
    | none =>
      dsimp only
      split
      · exact sluice _
      · rfl

/-- A Survey that is placed is loaded. -/
theorem placeSurvey_loaded (s : State) (n : Nat) (v : Survey) (h : (s.slot n).survey.isSome = true) : (s.placeSurvey n v).loaded n = true := by
  unfold State.placeSurvey
  extract_lets s1 s2 _ s3
  have h1 : s1.slots = s.slots :=
    (Keeps.foldl (p := 0xd) _ _ _ _ (fun s m => (s.writeMu_keeps v m).mono rfl) ((s.clearForLoad_keeps n v).mono rfl)).frame.same (f := .slots) rfl
  have h2 : s2.slots = s1.slots := (Keeps.foldl _ _ _ _ (fun s r => s.armRing_keeps n v r) (.refl s1)).frame.same (f := .slots) rfl
  have h3 : s3.slot n = s.slot n := by
    unfold State.slot
    rw [← h1, ← h2]
  rw [setSlot_loaded]
  change ((s3.slot n).survey.isSome && true) = true
  rw [h3, h]
  rfl

/-- The load at the head of the list, checked, that nothing refuses and that may be placed. -/
theorem onSurveyLoadComplete_placed {s : State} {d : Started} {j : LoadJob} {rest : List (Started × LoadJob)} {v : Survey} (view : HostView)
    (hl : s.loads = (d, j) :: rest) (hlive : s.live = true) (hw : j.waiting = false) (hc : j.checked = true)
    (hv : (s.slot d.slot).survey = some v) (h9 : ({ s := s, n := d.slot, img := [], v := v } : Load).check09 = [])
    (hA : ({ s := s, n := d.slot, img := [], v := v } : Load).check0A = []) (hwait : s.loadWaits v = false) :
    onSurveyLoadComplete view s =
      ((s.placeSurvey d.slot v).recheckTables d.slot).complete d 0 0 (zeroBytes 8 ++ leBytes 2 (s.slot d.slot).base) := by
  simp only [onSurveyLoadComplete, hl, hlive, hw, hc, hv, h9, hA, hwait, Bool.not_true, Bool.false_eq_true, or_self, if_false]
  rfl

/-! ### Steps -/

theorem retireStep_finished {d : Started} {status : Nat} {s t : State} (h : Finished d status s t) (n step : Nat) :
    Finished d status s (t.retireStep n step) := h.congr rfl rfl

theorem onRunStepComplete_done {s : State} {n : Fin 8} {d : Started} {step : Nat} {rest : List (Started × Nat)}
    (h : s.stepsOf n.val = (d, step) :: rest) (hs : (s.slot n.val).stopped = false) (h1 : s.stationsDone n.val = true)
    (h2 : s.updatesDone n.val step = true) (h3 : s.sluicesDone n.val step = true) :
    onRunStepComplete n s = (s.complete d 0 0 (s.stepResult n.val step)).retireStep n.val step := by
  simp only [onRunStepComplete, h, hs, h1, h2, h3, Bool.false_eq_true, if_false, and_self, if_true]
  rfl

theorem onRunStepComplete_stopped {s : State} {n : Fin 8} {d : Started} {step : Nat} {rest : List (Started × Nat)}
    (h : s.stepsOf n.val = (d, step) :: rest) (hs : (s.slot n.val).stopped = true) :
    onRunStepComplete n s = ((s.flushTails n.val).complete d (s.slot n.val).firstStatus 0
      ((s.flushTails n.val).stepResult n.val step)).retireStep n.val step := by
  simp only [onRunStepComplete, h, hs, if_true]

/-! ### Copies, fences and barriers -/

theorem copyEnd_quiet {s : State} {d : Started} {desc : List Byte} (h : bitOf desc 34 0 = false) (status detail : Nat) (result : List Byte) :
    s.copyEnd d desc status detail result = s.complete d status detail result := by
  simp [State.copyEnd, h]

section
variable {s : State} {d : Started}

/-- A copy that has nothing to wait for: it is done, or it moves on. -/
theorem onCopyComplete_moves {ring : Fin 32} {index : Nat} {j : CopyJob} (view : HostView) (err : HbmErrors)
    (hf : (s.cage.started.find? fun d => d.ring == ring && d.index == index && (match d.kind with | .copy _ => true | _ => false)) = some d)
    (hk : d.kind = .copy j) (hl : s.live = true) (hb : s.busOn = true) (hw : j.waiting = none) (he : j.ended = none) :
    onCopyComplete ring index view err s = if copyTotal j.desc ≤ j.next then s.copyEnd d j.desc 0 0 (j.result 0)
      else (s.foundErrors err).copyMove (copyRuns j.desc) d j view := by
  unfold onCopyComplete
  split
  · next e => cases e.symm.trans hf
  · next e =>
    cases e.symm.trans hf
    simp only [hk, hl, hb, hw, he, Bool.not_true, Bool.false_eq_true, Option.isSome_none, or_self, if_false]
    rfl

theorem onFenceComplete_found {ring : Fin 32} {rings slots : Nat} {waits : List Nat}
    (hf : ((s.onRing ring.val).find? fun d => match d.kind with | .fence _ _ _ => true | _ => false) = some d)
    (hk : d.kind = .fence rings slots waits) :
    onFenceComplete ring s = if s.allDone waits = true ∧ s.streamsIdle slots = true then s.complete d 0 0 [] else s := by
  unfold onFenceComplete
  split
  · next e =>
    cases e.symm.trans hf
    simp only [hk]
    rfl
  · next e => cases e.symm.trans hf

/-- A barrier's context, if it has one, is given up before its descriptor ends (12 R296). -/
theorem onBarrierTimeout_found {ring : Fin 32} {j : BarrierJob} {deadline : BitVec 64}
    (hf : ((s.onRing ring.val).findSome? fun x => match x.kind with | .barrier k _ => k.sent.map fun t => (x, k, t) | _ => none) =
      some (d, j, deadline)) :
    onBarrierTimeout ring s = if s.passed deadline = false then s
      else match s.ctxOf d.slot j.fjob true j.bid with
        | some c => (s.setSluice c.1 none).complete d 0x11 0 (leBytes 2 (c.2.arrived.foldl (fun a y => a + y.2) 0))
        | none => s.complete d 0x11 0 (leBytes 2 0) := by
  unfold onBarrierTimeout
  split
  · next e => cases e.symm.trans hf
  · next e =>
    cases e.symm.trans hf
    simp only [Bool.not_eq_true']
    rfl

/-! ### Bundles -/

theorem onSealExportComplete_reached {j : BundleJob} {x : Sealed} {bytes : List Byte} (view : HostView) (he : s.engineJob = some d)
    (hk : d.kind = .sealExport j) (hl : s.live = true) (hw : j.waiting = none) (hb : s.busOn = true) (hx : s.sealedAt j.region = some x)
    (hu : s.firstUe x.base x.len = none) (hr : view.range (s.ringPasidEn d.ring.val) (leAt j.desc 24 8) x.bundleLen = .ok bytes) :
    onSealExportComplete view s = ((((s.hbmRead x.base x.len).emit (.hostWrite (if s.ringPasidEn d.ring.val then some (s.ringPasid d.ring.val)
      else none) (leAt j.desc 24 8) (s.checkpoint x))).complete d 0 0 (leBytes 8 x.bundleLen))).draw := by
  simp only [onSealExportComplete, he, hk, hl, hw, hb, hx, hu, hr, Bool.not_true, Bool.false_eq_true, Option.isSome_none, or_self, if_false]
  rfl

theorem onBundleLoadComplete_found {j : BundleJob} (view : HostView) (he : s.engineJob = some d)
    (hk : d.kind = .bundleLoad j) (hl : s.live = true) (hw : j.waiting = none) (hb : s.busOn = true) :
    onBundleLoadComplete view s = if j.header.isEmpty = true then s.bundleCheckStart d j.tee j.desc view else s.bundleFinish d j view := by
  simp only [onBundleLoadComplete, he, hk, hl, hw, hb, Bool.not_true, Bool.false_eq_true, Option.isSome_none, or_self, if_false]

end

/-- Settles O15: each event finds its descriptor, and the rule's status ends it. -/
theorem ringCommandsEnd : Obligations.RingCommandsEnd := by
  refine ⟨fun view s d j rest v hl hlive hw hc hv h9 hA hwait => ⟨?_, ?_⟩, fun n s d step rest h => ⟨fun hs h1 h2 h3 => ?_, fun hs => ?_⟩,
    fun ring index view err s d j hf hk hl hb hw => ⟨fun he hn => ⟨?_, fun hq => ?_⟩, fun he hn => ?_⟩,
    fun ring s d rings slots waits hf hk => ⟨fun ha hi => ?_, fun ha => ?_⟩, fun ring s d j deadline hf => ⟨fun hp => ?_, fun hp => ?_⟩,
    fun view s d j x bytes he hk hl hw hb hx hu hr => ?_, fun view s d j he hk hl hw hb => ⟨fun hh => ?_, fun hh => ?_⟩⟩
  · exact exec_eq_of rfl (onSurveyLoadComplete_placed view hl hlive hw hc hv h9 hA hwait) rfl
  · rw [loaded_slots (complete_only _ _ _ _ _).slots, recheckTables_loaded, placeSurvey_loaded _ _ _ (by rw [hv]; rfl)]
  · refine .of rfl (onRunStepComplete_done h hs h1 h2 h3) ⟨retireStep_finished (complete_finished _ _ _ _ _ (by decide)) _ _, ?_⟩
    exact congrArg HbmState.cells (complete_only s d 0 0 _).hbm
  · exact exec_eq_of rfl (onRunStepComplete_stopped h hs) rfl
  · exact exec_eq_of rfl (onCopyComplete_moves view err hf hk hl hb hw he) (if_pos hn)
  · refine .of rfl ((onCopyComplete_moves view err hf hk hl hb hw he).trans (if_pos hn)) ?_
    rw [copyEnd_quiet hq]
    exact complete_finished _ _ _ _ _ (by decide)
  · exact exec_eq_of rfl (onCopyComplete_moves view err hf hk hl hb hw he) (if_neg (by omega))
  · exact .of rfl ((onFenceComplete_found hf hk).trans (if_pos ⟨ha, hi⟩)) (complete_finished _ _ _ _ _ (by decide))
  · exact exec_eq_of rfl (onFenceComplete_found hf hk) (if_neg (by simp [ha]))
  · refine .of rfl ((onBarrierTimeout_found hf).trans (if_neg (by simp [hp]))) ?_
    split
    · exact complete_finished _ _ _ _ _ (by decide)
    · exact complete_finished _ _ _ _ _ (by decide)
  · exact exec_eq_of rfl (onBarrierTimeout_found hf) (if_pos hp)
  · have hread := (s.hbmRead_keeps x.base x.len).frame
    refine .of rfl (onSealExportComplete_reached view he hk hl hw hb hx hu hr) ⟨?_, ?_, ?_, ?_⟩
    · exact (complete_finished _ d 0 _ _ (by decide)).1
    · exact (complete_only _ _ _ _ _).sec.trans (hread.same (f := .sec) rfl)
    · exact (congrArg HbmState.cells (complete_only _ _ _ _ _).hbm).trans (hread.same (f := .memory) rfl)
    · exact complete_mem_out List.mem_cons_self _ _ _ _
  · exact exec_eq_of rfl (onBundleLoadComplete_found view he hk hl hw hb) (if_neg (by simpa using hh))
  · exact exec_eq_of rfl (onBundleLoadComplete_found view he hk hl hw hb) (if_pos (by simp [hh]))

end Sys2Proof.Machine
end

section
/-! SUPPORT. What kill and release scrubs leave: empty slots and zeroed memory (12 R297, 16 R405). -/
namespace Sys2Proof.Machine

/-! ### Zeroed ranges -/

theorem hbmByte_congr {s t : State} (h : t.hbm.cells = s.hbm.cells) (a : Nat) : t.hbmByte a = s.hbmByte a := by
  unfold State.hbmByte
  rw [h]

/-- A zeroed range reads 0, and every byte outside it as before. -/
theorem hbmZero_byte (s : State) (a n b : Nat) : (s.hbmZero a n).hbmByte b = if a ≤ b ∧ b < a + n then 0 else s.hbmByte b := by
  have ht : (s.touchRange a n).hbm.cells = s.hbm.cells := (s.touchRange_keeps a n).frame.same (f := .memory) rfl
  change tblGet _ (tblClear a (a + n) (s.touchRange a n).hbm.cells) b = _
  rw [ht]
  split
  · next h => exact tblGet_tblClear_in h.1 h.2
  · next h => exact tblGet_tblClear_out (by omega)

/-- Zeroing regions in turn: a byte in one of them reads 0, any other as before. -/
theorem hbmZeros_byte (l : List Region) (s : State) (b : Nat) :
    (l.foldl (fun s r => s.hbmZero r.base r.len) s).hbmByte b =
      if ∃ r ∈ l, r.base ≤ b ∧ b < r.base + r.len then 0 else s.hbmByte b := by
  induction l generalizing s with
  | nil => simp
  | cons r l ih =>
    rw [List.foldl_cons, ih, hbmZero_byte]
    by_cases h1 : ∃ r ∈ l, r.base ≤ b ∧ b < r.base + r.len
    · obtain ⟨x, hx, hb⟩ := h1
      rw [if_pos ⟨x, hx, hb⟩, if_pos ⟨x, List.mem_cons_of_mem _ hx, hb⟩]
    · by_cases h2 : r.base ≤ b ∧ b < r.base + r.len
      · rw [if_neg h1, if_pos h2, if_pos ⟨r, List.mem_cons_self, h2⟩]
      · rw [if_neg h1, if_neg h2, if_neg]
        rintro ⟨x, hx, hb⟩
        rcases List.mem_cons.1 hx with rfl | hx
        · exact h2 hb
        · exact h1 ⟨x, hx, hb⟩

/-! ### Descriptors that end together -/

/-- The started descriptors that meet `p` complete in turn, each with its own status and result. -/
def completeWhere (p : Started → Bool) (status : Nat) (result : State → Started → List Byte) (l : List Started) (s : State) : State :=
  l.foldl (fun s d => if p d = true then s.complete d status 0 (result s d) else s) s

section
variable (p : Started → Bool) (status : Nat) (result : State → Started → List Byte)

theorem completeWhere_only (l : List Started) (s : State) : RecordOnly s (completeWhere p status result l s) := by
  induction l generalizing s with
  | nil => exact .refl s
  | cons d l ih => exact (ih _).after (.ite (complete_only _ _ _ _ _) (.refl s))

/-- What is still listed was listed before, and none of those that were to end is among it. -/
theorem completeWhere_started {l : List Started} {s : State} {x : Started} (h : x ∈ (completeWhere p status result l s).cage.started) :
    x ∈ s.cage.started ∧ ∀ d ∈ l, p d = true → x.serial ≠ d.serial := by
  induction l generalizing s with
  | nil => exact ⟨h, fun d hd => by cases hd⟩
  | cons d l ih =>
    obtain ⟨h1, h2⟩ := ih h
    dsimp only at h1
    by_cases hp : p d = true
    · rw [if_pos hp, complete_started, List.mem_filter] at h1
      refine ⟨h1.1, fun e he hpe => ?_⟩
      rcases List.mem_cons.1 he with rfl | he
      · simpa using h1.2
      · exact h2 e he hpe
    · rw [if_neg hp] at h1
      refine ⟨h1, fun e he hpe => ?_⟩
      rcases List.mem_cons.1 he with rfl | he
      · exact absurd hpe hp
      · exact h2 e he hpe

/-- Of all that were listed, none of those that were to end is left. -/
theorem completeWhere_all {s : State} {x : Started} (h : x ∈ (completeWhere p status result s.cage.started s).cage.started) : p x = false := by
  obtain ⟨h1, h2⟩ := completeWhere_started p status result h
  cases hp : p x
  · rfl
  · exact absurd rfl (h2 x h1 hp)
end

/-! ### KILL_COMPLETE -/

/-- A kill of the slot. -/
def killsSlot (n : Nat) (d : Started) : Bool := d.kind == .kill && d.slot == n

theorem killFinish_slot (s : State) (n : Nat) : (s.killFinish n).slot n = Slot.empty := setSlot_slot _ _ _

theorem killFinish_byte {s : State} {n : Nat} {v : Survey} (h : (s.slot n).survey = some v) (b : Nat) : (s.killFinish n).hbmByte b =
    if ∃ r ∈ v.regions, r.isSealed = false ∧ r.base ≤ b ∧ b < r.base + r.len then 0 else s.hbmByte b := by
  have h1 : (s.killFinish n).hbm.cells = (s.scrubRegions v).hbm.cells := by
    unfold State.killFinish
    rw [h]
    exact ((s.scrubRegions v).scrubSlot_keeps n).frame.same (f := .memory) rfl
  rw [hbmByte_congr h1, State.scrubRegions, hbmZeros_byte]
  simp [List.mem_filter, and_assoc]

theorem lossScrubbed_started (s : State) : s.lossScrubbed.cage.started = s.cage.started := by
  unfold State.lossScrubbed
  split
  · rw [(State.lossIdle_keeps _).frame.same (f := .cage) rfl, State.hostLost, (ev_only _ _ _ _ _ _ _ _).started]
    rfl
  · rfl

theorem onKillComplete_killing {s : State} {n : Fin 8} (h : (s.slot n.val).killing = true) : onKillComplete n s =
    (completeWhere (killsSlot n.val) 0 (fun _ _ => leBytes 8 (s.scrubBytes n.val)) (s.killFinish n.val).cage.started
      (s.killFinish n.val)).lossScrubbed := by
  unfold onKillComplete completeWhere
  rw [if_pos h]
  dsimp only
  congr 2
  funext t d
  unfold killsSlot
  cases d.kind
  case kill => simp; rfl
  all_goals simp

/-! ### SEAL_RELEASE_COMPLETE -/

/-- A release of the region. -/
def releasesRegion (r : Nat) (d : Started) : Bool := d.kind == .sealRelease r

theorem onSealReleaseComplete_releasing {s : State} {r : Fin 16} {x : Sealed} (h : s.sealedAt r.val = some x) (hr : x.releasing = true) :
    onSealReleaseComplete r s = completeWhere (releasesRegion r.val) 0 (fun _ _ => []) s.cage.started (s.freeSealed r.val) := by
  unfold onSealReleaseComplete completeWhere
  simp only [h, hr, if_true]
  congr 1
  funext t d
  unfold releasesRegion
  cases d.kind
  case sealRelease => simp; rfl
  all_goals simp

theorem freeSealed_found {s : State} {r : Nat} {x : Sealed} (h : s.sealedAt r = some x) :
    (s.freeSealed r).sealedAt r = none ∧
    ∀ b, (s.freeSealed r).hbmByte b = if x.base ≤ b ∧ b < x.base + x.len then 0 else s.hbmByte b := by
  unfold State.freeSealed
  rw [h]
  exact ⟨tblGet_tblSet_same _ _ _, fun b => hbmZero_byte s x.base x.len b⟩

/-- Settles O16: the scrub zeroes, the table forgets, and what waited for it completes. -/
theorem scrubsEmptyAndZero : Obligations.ScrubsEmptyAndZero := by
  refine ⟨fun n s v hk hv => .of rfl (onKillComplete_killing hk) ?_, fun r s x hx hr => .of rfl (onSealReleaseComplete_releasing hx hr) ?_⟩
  · generalize hu : completeWhere (killsSlot n.val) 0 (fun _ _ => leBytes 8 (s.scrubBytes n.val)) (s.killFinish n.val).cage.started
      (s.killFinish n.val) = u
    have ho : RecordOnly (s.killFinish n.val) u := hu ▸ completeWhere_only _ _ _ _ _
    have hl := u.lossScrubbed_keeps.frame
    have hslots : u.lossScrubbed.slots = (s.killFinish n.val).slots := (hl.same (f := .slots) rfl).trans ho.slots
    have hbyte (a : Nat) : u.lossScrubbed.hbmByte a = (s.killFinish n.val).hbmByte a :=
      hbmByte_congr ((hl.same (f := .memory) rfl).trans (congrArg HbmState.cells ho.hbm)) a
    refine ⟨?_, fun r hr hs a h1 h2 => ?_, fun a ha => ?_, fun x hx hkill hslot => ?_⟩
    · unfold State.slot
      rw [hslots]
      exact killFinish_slot s n.val
    · rw [hbyte, killFinish_byte hv, if_pos ⟨r, hr, hs, h1, h2⟩]
    · rw [hbyte, killFinish_byte hv, if_neg]
      rintro ⟨r, hr, hs, h1, h2⟩
      have := ha r hr hs
      omega
    · rw [lossScrubbed_started, ← hu] at hx
      have := completeWhere_all _ _ _ hx
      simp [killsSlot, hkill, hslot] at this
  · have ho := completeWhere_only (releasesRegion r.val) 0 (fun _ _ => []) s.cage.started (s.freeSealed r.val)
    obtain ⟨h1, h2⟩ := freeSealed_found hx
    have hbyte (a : Nat) := (hbmByte_congr (congrArg HbmState.cells ho.hbm) a).trans (h2 a)
    refine ⟨?_, fun a ha hb => ?_, fun a ha => ?_⟩
    · unfold State.sealedAt
      rw [ho.sec]
      exact h1
    · rw [hbyte, if_pos ⟨ha, hb⟩]
    · rw [hbyte, if_neg (by omega)]

end Sys2Proof.Machine
end

section
/-! SUPPORT. How the log grows (18 R444), and what polls and doorbells do to a ring (11 R269; 12 R283, R285, R287, R306). -/
namespace Sys2Proof.Machine

/-! ### The log grows -/

/-- The log is as before, or has grown by some records and keeps the newest 8,192. -/
def LogGrown (s t : State) : Prop := t.ras.log = s.ras.log ∨ ∃ new : List EventRec, t.ras.log = (new ++ s.ras.log).take 8192

namespace LogGrown
variable {s t u : State}
theorem of_log (h : t.ras.log = s.ras.log) : LogGrown s t := .inl h
theorem of_ras (h : t.ras = s.ras) : LogGrown s t := .inl (by rw [h])
theorem refl (s : State) : LogGrown s s := .inl rfl
theorem of_keeps {p : Nat} (h : Keeps p s t) (hp : p.testBit Field.ras.place = false) : LogGrown s t := .of_ras (h.frame.same (f := .ras) hp)
theorem after (b : LogGrown t u) (a : LogGrown s t) : LogGrown s u := by
  rcases a with a | ⟨x, a⟩ <;> rcases b with b | ⟨y, b⟩
  · exact .inl (b.trans a)
  · exact .inr ⟨y, by rw [b, a]⟩
  · exact .inr ⟨x, by rw [b, a]⟩
  · exact .inr ⟨y ++ x, by rw [b, a]; simp [List.take_append, List.take_take]; omega⟩
theorem foldl {β : Type} {f : State → β → State} (h : ∀ s x, LogGrown s (f s x)) (l : List β) (s : State) : LogGrown s (l.foldl f s) := by
  induction l generalizing s with
  | nil => exact .refl s
  | cons x l ih => exact (ih _).after (h s x)
theorem ite {c : Prop} [Decidable c] (ha : LogGrown s t) (hb : LogGrown s u) : LogGrown s (if c then t else u) := by
  split
  · exact ha
  · exact hb
theorem raise (s : State) (code : Nat) (cls : EvClass) (slot : Option (Fin 8)) (payload : List Byte) :
    LogGrown s (s.raise code cls slot payload) := by
  obtain ⟨e, -, hr⟩ := raise_ras s code cls slot payload
  exact .inr ⟨[e], by rw [hr]; rfl⟩
theorem ev (s : State) (code : Nat) (cls : EvClass) (loc sub a0 a1 a2 : Nat) : LogGrown s (s.ev code cls loc sub a0 a1 a2) := raise _ _ _ _ _
end LogGrown

section
variable {code : Nat} {s t u : State}
/-- An event raised after the log has grown. -/
theorem LogGrown.raised (h : LogGrown s u) (code : Nat) (cls : EvClass) (slot : Option (Fin 8)) (payload : List Byte) :
    Raised code s (u.raise code cls slot payload) := by
  obtain ⟨e, he, hr⟩ := raise_ras u code cls slot payload
  unfold Raised
  rw [hr]
  rcases h with h | ⟨x, h⟩
  · exact ⟨[e], ⟨e, by simp, he⟩, by rw [h]; rfl⟩
  · exact ⟨e :: x, ⟨e, by simp, he⟩, by simp [h, List.take_take]⟩
/-- Records that follow leave the event among those that the log has grown by. -/
theorem Raised.grown (h : Raised code s t) (hu : LogGrown t u) : Raised code s u := by
  obtain ⟨x, hx, ht⟩ := h
  rcases hu with hu | ⟨y, hu⟩
  · exact ⟨x, hx, hu.trans ht⟩
  · obtain ⟨e, he, hc⟩ := hx
    exact ⟨y ++ x, ⟨e, List.mem_append_right _ he, hc⟩, by rw [hu, ht]; simp [List.take_append, List.take_take]; omega⟩
/-- Records that went before do, too. -/
theorem LogGrown.raised_trans (h : LogGrown s t) (hu : Raised code t u) : Raised code s u := by
  obtain ⟨x, ⟨e, he, hc⟩, hu⟩ := hu
  rcases h with h | ⟨y, h⟩
  · exact ⟨x, ⟨e, he, hc⟩, by rw [hu, h]⟩
  · exact ⟨x ++ y, ⟨e, List.mem_append_left _ he, hc⟩, by rw [hu, h]; simp [List.take_append, List.take_take]; omega⟩
end

/-! ### Rings that stop and take their tails -/

theorem setRing_ring_of_ne {s : State} {k j : Nat} {r : Ring} (h : j ≠ k) : (s.setRing k r).ring j = s.ring j := tblGet_tblSet_of_ne h

section
variable (s : State) (k : Nat)

/-- A ring that has not stopped stops. -/
theorem stopRing_ring {c : RingCause} (h : (s.ring k).err = false) : (s.stopRing k c).ring k = { s.ring k with err := true } := by
  rw [State.stopRing, if_neg (by simp [h]), (ev_only _ _ _ _ _ _ _ _).ring, setRing_ring]
theorem stopRing_other {j : Nat} (hj : j ≠ k) (c : RingCause) : (s.stopRing k c).ring j = s.ring j := by
  unfold State.stopRing
  split
  · rfl
  · rw [(ev_only _ _ _ _ _ _ _ _).ring, setRing_ring_of_ne hj]
theorem stopRing_logged {c : RingCause} (h : (s.ring k).err = false) :
    Logged 0x0003 .warning none (genPayload k c.code 0 0 0) s (s.stopRing k c) := by
  have hl := raise_logged (s.setRing k { s.ring k with err := true }) 0x0003 .warning none (genPayload k c.code 0 0 0)
  rw [State.stopRing, if_neg (by simp [h]), State.ev]
  exact hl.congr rfl rfl rfl
theorem stopRing_raised {c : RingCause} (h : (s.ring k).err = false) : Raised 0x0003 s (s.stopRing k c) := by
  rw [State.stopRing, if_neg (by simp [h]), State.ev]
  exact (LogGrown.of_ras (s := s) (t := s.setRing k { s.ring k with err := true }) rfl).raised _ _ _ _
theorem stopRing_grown (c : RingCause) : LogGrown s (s.stopRing k c) := .ite (.refl s) (.after (.ev _ _ _ _ _ _ _ _) (.of_ras rfl))

theorem takeTail_other {j : Nat} (hj : j ≠ k) (line : List Byte) : (s.takeTail k line).ring j = s.ring j := by
  unfold State.takeTail
  extract_lets t
  split
  · exact stopRing_other s k hj _
  · exact setRing_ring_of_ne hj
theorem takeTail_regs (line : List Byte) : (s.takeTail k line).regs = s.regs := (s.takeTail_keeps k line).frame.same (f := .regs) rfl
theorem takeTail_grown (line : List Byte) : LogGrown s (s.takeTail k line) := by
  unfold State.takeTail
  extract_lets t
  exact .ite (stopRing_grown s k _) (.of_ras rfl)

/-- A ring takes its new tail from the line, or stops when the tail lies outside it (12 R283, R287). -/
theorem takeTail_ring {line : List Byte} (h : (s.ring k).err = false) : (s.takeTail k line).ring k =
    if s.ringSize k ≤ leAt line (8 * s.ringDbWord k) 2 then { s.ring k with err := true }
    else { s.ring k with tail := leAt line (8 * s.ringDbWord k) 2 } := by
  unfold State.takeTail
  extract_lets t
  by_cases ht : s.ringSize k ≤ t
  · rw [if_pos ht, if_pos ht, stopRing_ring s k h]
  · rw [if_neg ht, if_neg ht, setRing_ring]
end

/-- The rings of a line take their tails from it, those that have stopped apart. -/
def takeTails (line : List Byte) (ks : List Nat) (s : State) : State :=
  ks.foldl (fun s k => if (s.ring k).err then s else s.takeTail k line) s

section
variable (line : List Byte)

theorem takeTails_regs (ks : List Nat) (s : State) : (takeTails line ks s).regs = s.regs := by
  induction ks generalizing s with
  | nil => rfl
  | cons k ks ih =>
    refine (ih _).trans ?_
    dsimp only
    split
    · rfl
    · exact takeTail_regs s k line
theorem takeTails_other {ks : List Nat} {k : Nat} (hk : k ∉ ks) (s : State) : (takeTails line ks s).ring k = s.ring k := by
  induction ks generalizing s with
  | nil => rfl
  | cons j ks ih =>
    obtain ⟨hj, hks⟩ := (by simpa using hk : k ≠ j ∧ k ∉ ks)
    refine (ih hks _).trans ?_
    dsimp only
    split
    · rfl
    · exact takeTail_other s j hj line
theorem takeTails_grown (ks : List Nat) (s : State) : LogGrown s (takeTails line ks s) :=
  .foldl (fun s k => .ite (.refl s) (takeTail_grown s k line)) ks s

/-- Each ring of the line takes its own tail, whatever the others do. -/
theorem takeTails_ring {ks : List Nat} {k : Nat} (hn : ks.Nodup) (hk : k ∈ ks) {s : State} (he : (s.ring k).err = false) :
    (takeTails line ks s).ring k = if s.ringSize k ≤ leAt line (8 * s.ringDbWord k) 2 then { s.ring k with err := true }
      else { s.ring k with tail := leAt line (8 * s.ringDbWord k) 2 } := by
  obtain ⟨as, bs, rfl⟩ := List.append_of_mem hk
  obtain ⟨-, hbs, hdis⟩ := List.nodup_append.1 hn
  have ha : k ∉ as := fun h => hdis k h k List.mem_cons_self rfl
  have hb : k ∉ bs := (List.nodup_cons.1 hbs).1
  have hsplit : takeTails line (as ++ k :: bs) s = takeTails line bs (if ((takeTails line as s).ring k).err then takeTails line as s
      else (takeTails line as s).takeTail k line) := by
    unfold takeTails
    rw [List.foldl_append, List.foldl_cons]
  have hring := takeTails_other line ha s
  have hregs := takeTails_regs line as s
  have hsize : (takeTails line as s).ringSize k = s.ringSize k := by unfold State.ringSize State.ringReg State.reg; rw [hregs]
  have hword : (takeTails line as s).ringDbWord k = s.ringDbWord k := by unfold State.ringDbWord State.ringReg State.reg; rw [hregs]
  rw [hsplit, takeTails_other line hb, if_neg (by simp [hring, he]), takeTail_ring _ _ (by rw [hring, he]), hring, hsize, hword]
end

/-- A doorbell line reaches the Cage: its rings take their tails, then each failed read stops the ring it is for. -/
theorem onDoorbellSnoop_taken {s : State} {lineAddr : Nat} (h1 : s.live = true) (h2 : s.cxl.up = true) (h3 : s.cxl.mode = true)
    (h4 : s.cxl.cacheEn = true) (h5 : s.cxl.cageStopped = false) (h6 : s.ringsOf lineAddr ≠ []) (line : List Byte)
    (faults : List (Fin 32 × RingCause)) : onDoorbellSnoop lineAddr line faults s =
      faults.foldl (fun t f => if (t.ringsOf lineAddr).contains f.1.val then t.stopRing f.1.val f.2 else t)
        (takeTails line (s.ringsOf lineAddr) ((s.bump 0x9110).wake .doorbell)) := by
  unfold onDoorbellSnoop
  rw [if_pos (by simp [h1, h2, h3, h4, h5, h6])]
  rfl

theorem onCompletionHeadPoll_held {s : State} {k : Fin 32} {w : HostWord} (h1 : s.cageRuns = true) (h2 : s.limitHolds k.val = true) :
    onCompletionHeadPoll k w s = match w with
      | .ok v => s.setRing k.val { s.ring k.val with cqHead := v.toNat % 65536 % s.ringSize k.val }
      | .ioError => s.stopRing k.val .ioError
      | .pageFail => s.stopRing k.val .page := by
  unfold onCompletionHeadPoll
  exact (if_pos ⟨h1, h2⟩).trans (by cases w <;> rfl)

/-! ### The event ring -/

theorem onEventRingHeadPoll_on {s : State} (h1 : s.live = true) (h2 : s.evqEn = true) (h3 : s.busOn = true) (w : HostWord) :
    onEventRingHeadPoll w s = match w with
      | .ok v => if s.evqFull = true then { s with cage := { s.cage with evHead := v.toNat % 65536 % s.evqSize } } else s
      | _ => s.stopEvq := by
  unfold onEventRingHeadPoll
  exact (if_pos ⟨h1, h2, h3⟩).trans (by cases w <;> rfl)

/-- Clearing bit 0 of a register. -/
theorem rfBit_setRf_zero (s : State) (off : Nat) : (s.setRf off 0 1 0).rfBit off 0 = false := by
  rw [State.rfBit, State.setRf, reg_setReg_same]
  simp only [bitAt, setBits, bits]
  simp
  omega

/-- The event ring with its enable cleared and its error set. -/
def evqStopped (s : State) : State := { s.setRf 0xA040 0 1 0 with cage := { s.cage with evErr := true, evErrSet := s.mclk } }
theorem stopEvq_eq (s : State) : s.stopEvq = (evqStopped s).ev 0x0003 .warning 32 2 0 0 0 := rfl

/-- An error stops the event ring and is logged (18 R443). -/
theorem stopEvq_stops (s : State) : s.stopEvq.evqEn = false ∧ s.stopEvq.cage.evErr = true ∧
    Logged 0x0003 .warning none (genPayload 32 2 0 0 0) s s.stopEvq := by
  have ho := ev_only (evqStopped s) 0x0003 .warning 32 2 0 0 0
  have hl := raise_logged (evqStopped s) 0x0003 .warning none (genPayload 32 2 0 0 0)
  rw [stopEvq_eq]
  refine ⟨?_, by rw [ho.cage]; rfl, hl.congr rfl rfl rfl⟩
  rw [State.evqEn, State.rfBit, ho.reg]
  exact rfBit_setRf_zero s 0xA040

/-- Settles O17: a line's rings take their tails one by one, and a stopped ring is logged. -/
theorem ringWordsAreTaken : Obligations.RingWordsAreTaken := by
  refine ⟨fun lineAddr line k s => ?_, fun k s hrun hlim => ?_, fun s hl he hb => ?_⟩
  · intro v h1 h2 h3 h4 h5 hk herr
    have hne : s.ringsOf lineAddr ≠ [] := List.ne_nil_of_mem hk
    have hx := onDoorbellSnoop_taken h1 h2 h3 h4 h5 hne line
    have hnd : (s.ringsOf lineAddr).Nodup := List.nodup_range.filter _
    have hw := (((s.bump 0x9110).wake_keeps .doorbell)).frame
    have hregs : ((s.bump 0x9110).wake .doorbell).regs = s.regs := hw.same (f := .regs) rfl
    have hcage : ((s.bump 0x9110).wake .doorbell).cage = s.cage := hw.same (f := .cage) rfl
    have hras : ((s.bump 0x9110).wake .doorbell).ras = s.ras := hw.same (f := .ras) rfl
    generalize (s.bump 0x9110).wake .doorbell = u at hx hregs hcage hras
    have hring : u.ring k.val = s.ring k.val := by unfold State.ring; rw [hcage]
    have hsize : u.ringSize k.val = s.ringSize k.val := by unfold State.ringSize State.ringReg State.reg; rw [hregs]
    have hword : u.ringDbWord k.val = s.ringDbWord k.val := by unfold State.ringDbWord State.ringReg State.reg; rw [hregs]
    have htake := takeTails_ring line hnd hk (s := u) (by rw [hring, herr])
    rw [hring, hsize, hword] at htake
    refine ⟨fun hv => .of rfl (hx []) ?_, fun hv => .of rfl (hx []) ?_, fun c hv => .of rfl (hx [(k, c)]) ?_⟩
    · exact htake.trans (if_neg (by omega))
    · exact htake.trans (if_pos hv)
    · have ht : (takeTails line (s.ringsOf lineAddr) u).ring k.val = { s.ring k.val with tail := v } := htake.trans (if_neg (by omega))
      have hsame : (takeTails line (s.ringsOf lineAddr) u).ringsOf lineAddr = s.ringsOf lineAddr := by
        unfold State.ringsOf State.ringEn State.ringDbLine State.ringReg State.reg
        rw [takeTails_regs, hregs]
      rw [List.foldl_cons, List.foldl_nil, if_pos (by rw [hsame]; simpa using hk)]
      refine ⟨?_, ?_⟩
      · rw [stopRing_ring _ _ (by rw [ht]; exact herr), ht]
      · exact ((takeTails_grown line _ u).after (.of_ras hras)).raised_trans (stopRing_raised _ _ (by rw [ht]; exact herr))
  · have herr : (s.ring k.val).err = false := by
      simp only [State.limitHolds, Bool.and_eq_true, Bool.not_eq_true'] at hlim
      exact hlim.1.1.2
    have hx (w : HostWord) := onCompletionHeadPoll_held (w := w) hrun hlim
    exact ⟨fun v => .of rfl (hx (.ok v)) ⟨setRing_ring _ _ _, rfl⟩,
      .of rfl (hx .ioError) ⟨stopRing_ring s _ herr, stopRing_logged s _ herr⟩,
      .of rfl (hx .pageFail) ⟨stopRing_ring s _ herr, stopRing_logged s _ herr⟩⟩
  · exact ⟨fun v hf => .of rfl (onEventRingHeadPoll_on hl he hb (.ok v)) (if_pos hf),
      .of rfl (onEventRingHeadPoll_on hl he hb .ioError) (stopEvq_stops s)⟩

end Sys2Proof.Machine
end

section
/-! SUPPORT. BAR0 reads and writes (20 R484; 00 R9; 03 R83; 13 R332). -/
namespace Sys2Proof.Machine

/-! ### Writes -/

theorem onRegisterWrite_whole {x : BarWrite} {off w : Nat} {s : State} (h : WriteOpen x.tee s) (hw : wholeWords x.off x.bytes = some [(off, w)]) :
    onRegisterWrite x s = s.bar0Write off w [] := by
  simp only [onRegisterWrite, h.1, hw, Bool.not_true, Bool.false_eq_true, if_false, List.foldl_cons, List.foldl_nil]
  exact mmioWrite_open h off w []

theorem onRegisterWrite_partial {x : BarWrite} {s : State} (hb : s.barOpen = true) (hw : wholeWords x.off x.bytes = none)
    (hr : s.pwr.resetting = none) (hp : s.pwr.phase ≠ .recovery) : onRegisterWrite x s = s.bump 0x100 := by
  simp only [onRegisterWrite, hb, hw, hr, hp, Bool.not_true, Bool.false_eq_true, Option.isSome_none, or_self, if_false]

/-- A write of an offset below 0x4000 without writable fields changes nothing (00 R9). -/
theorem bar0Write_unassigned (s : State) {off : Nat} (h : off < 0x4000) (h1 : off ≠ 0x08C) (hf : regFields off = []) (w : Nat)
    (line : List Byte) : s.bar0Write off w line = s := by
  rw [State.bar0Write, if_pos h, if_neg h1]
  simp [State.fieldWrite, hf]

/-! ### Reads -/

theorem nonTee_none {s : State} {tee : Bool} (h : s.cxl.tdi = .run → tee = true) (off : Nat) : s.nonTee tee off = none := by
  rw [State.nonTee, if_neg]
  rintro ⟨h1, h2⟩
  simp [h h1] at h2

theorem slice_leBytes (n v : Nat) : slice (leBytes n v) 0 n = leBytes n v := by
  have hlen : ∀ n v, (leBytes n v).length = n := fun n => by
    induction n with
    | zero => exact fun _ => rfl
    | succ n ih => exact fun v => by simp [leBytes, ih]
  simp [slice, zeroBytes, hlen]

section
variable {s : State} {tee : Bool} (hb : s.barOpen = true) (hr : s.pwr.resetting = none) (hp : s.pwr.phase ≠ .recovery)
  (ht : s.cxl.tdi = .run → tee = true)
include hb hr hp ht

/-- A read of an aligned word does what the word's read does besides returning it, and answers the word. -/
theorem onCounterLowRead_word {off : Nat} (ha : off % 4 = 0) : onCounterLowRead { off := off, len := 4, tee := tee } s =
    (s.readSide off).emit (.bar0Data off (leBytes 4 (s.bar0Word off))) := by
  have h1 : off / 4 * 4 = off := by omega
  have h2 : (off + 4 - 1) / 4 - off / 4 + 1 = 1 := by omega
  simp only [onCounterLowRead, reduceCtorEq, if_false, hb, Bool.not_true, Bool.false_eq_true, nonTee_none ht, State.bar0Read, hr,
    Option.isSome_none, h1, h2]
  simp [hp, slice_leBytes]
end

theorem isCounterLow_aligned {off : Nat} (h : isCounterLow off = true) : off % 8 = 0 := by
  simp only [isCounterLow, Bool.and_eq_true, beq_iff_eq] at h
  exact h.1

theorem isCounterLow_high {off : Nat} (h : isCounterLow off = true) : isCounterLow (off + 4) = false := by
  have := isCounterLow_aligned h
  cases hc : isCounterLow (off + 4)
  · rfl
  · have := isCounterLow_aligned hc
    omega

theorem fabReadSide_latches (s : State) (off : Nat) : (s.fabReadSide off).latches = s.latches :=
  (s.fabReadSide_keeps off).frame.same (f := .latches) rfl

/-- The time stamps of a port are read at an offset that is no counter, where a read pops them. -/
theorem readSide_stamps (s : State) (p : Fin 12) :
    s.readSide (portBase p.val + 0x028) = s.setPort p.val { s.port p.val with stamps := (s.port p.val).stamps.drop 1 } := by
  have h0 : isCounterLow (portBase p.val + 0x028) = false := by revert p; decide
  have hp := p.isLt
  have h1 : 0x10000 ≤ portBase p.val + 0x028 ∧ portBase p.val + 0x028 < 0x1C000 ∧ (portBase p.val + 0x028) % 0x1000 = 0x028 := by
    unfold portBase; omega
  have h2 : (portBase p.val + 0x028 - 0x10000) / 0x1000 = p.val := by unfold portBase; omega
  rw [State.readSide, if_neg (by simp [h0]), if_neg (by omega), State.fabReadSide, if_pos h1, h2]

/-- Settles O18: a word written is carried out, and a word read answers and latches. -/
theorem registerAccess : Obligations.RegisterAccess := by
  refine ⟨fun x off w s h hw => ⟨exec_eq_of rfl (onRegisterWrite_whole h hw) rfl, fun h0 h1 hf =>
      exec_eq_of rfl (onRegisterWrite_whole h hw) (bar0Write_unassigned s h0 h1 hf w [])⟩,
    fun x s hb hw hr hp => exec_eq_of rfl (onRegisterWrite_partial hb hw hr hp) rfl, fun off tee s hb hr hp ht hc => ⟨?_, ?_⟩,
    fun p tee s hb hr hp ht => ?_⟩
  · have ha := isCounterLow_aligned hc
    refine .of rfl (onCounterLowRead_word hb hr hp ht (by omega)) ?_
    simp only [State.readSide, State.bar0Word, hc, if_true]
    exact ⟨tblGet_tblSet_same _ _ _, rfl, rfl⟩
  · have ha := isCounterLow_aligned hc
    have hh := isCounterLow_high hc
    refine .of rfl (onCounterLowRead_word hb hr hp ht (by omega)) ?_
    have hw : s.bar0Word (off + 4) = tblGet (fun _ => 0) s.latches off := by
      rw [State.bar0Word, if_neg (by simp [hh]), if_pos ⟨by omega, by simpa using hc⟩]
      simp
    have hs : s.readSide (off + 4) = s.fabReadSide (off + 4) := by
      rw [State.readSide, if_neg (by simp [hh]), if_neg (by omega)]
    rw [hw, hs]
    exact ⟨fabReadSide_latches s _, rfl⟩
  · have hp' := p.isLt
    refine .of rfl (onCounterLowRead_word hb hr hp ht (off := portBase p.val + 0x028) (by unfold portBase; omega)) ?_
    rw [readSide_stamps]
    change ((s.setPort p.val _).port p.val).stamps = _
    rw [State.port, State.setPort]
    simp [State.port]

end Sys2Proof.Machine
end

section
/-! SUPPORT. The counter clears of each block (03 R83; 05 R141; 10 R255). -/
namespace Sys2Proof.Machine

/-! ### Counters -/

theorem bump_ctr_same (s : State) (o n : Nat) : (s.bump o n).ctr o = min (s.ctr o + n) ctrMax := tblGet_tblSet_same ..

theorem bump_ctr_of_ne (s : State) {o k : Nat} (h : k ≠ o) (n : Nat) : (s.bump o n).ctr k = s.ctr k := tblGet_tblSet_of_ne h ..

theorem msix_ctr (s : State) (v k : Nat) : (s.msix v).ctr k = s.ctr k := by
  unfold State.msix
  split
  · rfl
  · split <;> rfl

/-- An event counts in the event ring's counters and in that of the log, and nowhere else. -/
theorem raise_ctr (s : State) {k : Nat} (h1 : k ≠ 0x7120) (h2 : k ≠ 0x7128) (h3 : k ≠ 0x7130) (code : Nat) (cls : EvClass)
    (slot : Option (Fin 8)) (payload : List Byte) : (s.raise code cls slot payload).ctr k = s.ctr k := by
  have hlog : ∀ (u : State) e, (u.evLog e).ctr k = u.ctr k := fun u e => by
    unfold State.evLog
    split
    · rfl
    · exact bump_ctr_of_ne _ h3 _
  have hlose : ∀ u : State, u.evLose.ctr k = u.ctr k := fun u => bump_ctr_of_ne _ h2 _
  have hpost : ∀ (u : State) e, (u.evPost e).ctr k = u.ctr k := fun u e => by
    unfold State.evPost
    split
    · exact hlose u
    · split
      · exact (msix_ctr _ _ _).trans (bump_ctr_of_ne _ h1 _)
      · split
        · rfl
        · exact hlose u
  unfold State.raise
  refine (hpost _ _).trans ?_
  split <;> exact hlog _ _

theorem ev_ctr (s : State) {k : Nat} (h1 : k ≠ 0x7120) (h2 : k ≠ 0x7128) (h3 : k ≠ 0x7130) (code : Nat) (cls : EvClass)
    (loc sub a0 a1 a2 : Nat) : (s.ev code cls loc sub a0 a1 a2).ctr k = s.ctr k := raise_ctr s h1 h2 h3 _ _ _ _

theorem setReg_ctr (s : State) (off v k : Nat) : (s.setReg off v).ctr k = s.ctr k := rfl

theorem fieldWrite_ctr (s : State) {k : Nat} (h1 : k ≠ 0x7120) (h2 : k ≠ 0x7128) (h3 : k ≠ 0x7130) (off w : Nat) :
    (s.fieldWrite off w).ctr k = s.ctr k := by
  unfold State.fieldWrite
  dsimp only
  split
  · rfl
  · split
    · rw [State.busyWrite, ev_ctr _ h1 h2 h3, setReg_ctr]
    · exact setReg_ctr ..

/-! ### Cleared ranges -/

namespace CountersZero
variable {lo hi lo' hi' : Nat} {s t : State}

theorem congr (h : CountersZero lo hi s) (hc : ∀ o, lo ≤ o → o < hi → t.ctr o = s.ctr o) (hl : t.latches = s.latches) :
    CountersZero lo hi t := fun o h1 h2 => ⟨(hc o h1 h2).trans (h o h1 h2).1, by rw [hl]; exact (h o h1 h2).2⟩

theorem of_tables (h : CountersZero lo hi s) (hc : t.ctrs = s.ctrs) (hl : t.latches = s.latches) : CountersZero lo hi t :=
  h.congr (fun o _ _ => by rw [State.ctr, hc]; rfl) hl

/-- Clearing more counters leaves a cleared range cleared. -/
theorem clearCtrs (h : CountersZero lo hi s) (a b : Nat) : CountersZero lo hi (s.clearCtrs a b) := fun o h1 h2 => by
  by_cases hin : a ≤ o ∧ o < b
  · exact clearCtrs_zero s a b o hin.1 hin.2
  · have hout : o < a ∨ b ≤ o := by omega
    exact ⟨(tblGet_tblClear_out hout).trans (h o h1 h2).1, (tblGet_tblClear_out hout).trans (h o h1 h2).2⟩
end CountersZero

theorem clearSite_zero (s : State) (k : Nat) : CountersZero (siteBase k + 0x100) (siteBase k + 0x200) (s.clearSite k) ∧
    CountersZero (siteBase k + 0x400) (siteBase k + 0x600) (s.clearSite k) := by
  let s1 := (s.clearCtrs (siteBase k + 0x100) (siteBase k + 0x200)).clearCtrs (siteBase k + 0x400) (siteBase k + 0x600)
  have hkeep : (s.clearSite k).ctrs = s1.ctrs ∧ (s.clearSite k).latches = s1.latches :=
    List.foldlRecOn (motive := fun t : State => t.ctrs = s1.ctrs ∧ t.latches = s1.latches) _ _ ⟨rfl, rfl⟩ fun _ h _ _ => h
  have h1 : CountersZero (siteBase k + 0x100) (siteBase k + 0x200) s1 := (clearCtrs_zero _ _ _).clearCtrs _ _
  have h2 : CountersZero (siteBase k + 0x400) (siteBase k + 0x600) s1 := clearCtrs_zero _ _ _
  exact ⟨h1.of_tables hkeep.1 hkeep.2, h2.of_tables hkeep.1 hkeep.2⟩

/-! ### The bit that is written -/

theorem bitAt_withBit (s : State) (off b : Nat) : bitAt (s.withBit off b) b = true := by
  unfold State.withBit setBits bits bitAt
  generalize s.reg off = w
  have hpos : 0 < 2 ^ b := by positivity
  have hdiv : (w - w / 2 ^ b % 2 ^ 1 * 2 ^ b + 1 % 2 ^ 1 * 2 ^ b) / 2 ^ b = w / 2 ^ b - w / 2 ^ b % 2 ^ 1 + 1 := by
    rw [Nat.add_mul_div_right _ _ hpos, mul_comm (w / 2 ^ b % 2 ^ 1), Nat.sub_mul_div]
    rfl
  rw [hdiv]
  simp only [beq_iff_eq]
  omega

theorem clearIf_true (s : State) {b : Bool} (h : b = true) (lo hi : Nat) : s.clearIf b lo hi = s.clearCtrs lo hi := if_pos h

/-! ### The blocks -/

section
variable (s : State) {w : Nat} (line : List Byte)

theorem bar0Write_glbClear (h : bitAt w 0 = true) : s.bar0Write 0x08C w line = s.clearCtrs 0x100 0x108 := clearIf_true _ h _ _

theorem bar0Write_tallyClear (h : bitAt w 31 = true) :
    s.bar0Write 0x5018 w line = (s.fieldWrite 0x5018 w).syncHold.clearCtrs 0x5100 0x5130 := clearIf_true _ h _ _

theorem bar0Write_pwrClear (h : bitAt w 16 = true) : s.bar0Write 0x6000 w line = (s.fieldWrite 0x6000 w).clearCtrs 0x6100 0x6158 :=
  clearIf_true _ h _ _

theorem bar0Write_rasClear (h : bitAt w 31 = true) : s.bar0Write 0x7000 w line = (s.fieldWrite 0x7000 w).clearCtrs 0x7100 0x7138 :=
  clearIf_true _ h _ _

theorem bar0Write_cxlClear (h : bitAt w 8 = true) : s.bar0Write 0x9010 w line = (s.fieldWrite 0x9010 w).clearCtrs 0x9100 0x9148 :=
  clearIf_true _ h _ _

theorem bar0Write_cageClear (h : bitAt w 0 = true) : s.bar0Write 0xA000 w line = s.clearCtrs 0xA100 0xA130 := clearIf_true _ h _ _

theorem bar0Write_fabClear (h : bitAt w 20 = true) : s.bar0Write 0xC000 w line = (s.fieldWrite 0xC000 w).clearCtrs 0xC100 0xC178 :=
  clearIf_true _ h _ _

theorem bar0Write_memClear (h : bitAt w 9 = true) : s.bar0Write 0x40000 w line = (s.fieldWrite 0x40000 w).memClear := if_pos h

theorem bar0Write_millClear (h : bitAt w 0 = true) :
    s.bar0Write 0x2000C4 w line = (s.clearCtrs 0x2000C8 0x200120).clearCtrs 0x300000 0x330000 := by
  rw [← clearIf_true s h, ← clearIf_true _ h]
  rfl
end

theorem fin_portBase (p : Fin 12) : (portBase p.val - 0x10000) / 0x1000 = p.val ∧ portBase p.val % 0x1000 = 0 := by
  unfold portBase; omega

theorem bar0Write_port (s : State) (p : Fin 12) (w : Nat) (line : List Byte) :
    s.bar0Write (portBase p.val) w line = s.portWrite p.val 0 w := by
  have hlo : 0x10000 ≤ portBase p.val := by unfold portBase; omega
  have hhi : portBase p.val < 0x20000 := by unfold portBase; omega
  rw [State.bar0Write, if_neg (by omega), if_neg (by omega), if_neg (by omega), if_neg (by omega), if_neg (by omega), if_pos hhi,
    State.fabricWrite, if_neg (by omega), if_neg (by omega), (fin_portBase p).1, (fin_portBase p).2]

theorem bar0Write_site (s : State) (k : Fin 8192) (w : Nat) (line : List Byte) :
    s.bar0Write (siteBase k.val) w line = s.siteWrite (siteBase k.val) w := by
  have hlo : 0x1000000 ≤ siteBase k.val := by unfold siteBase; omega
  have hhi : siteBase k.val < 0x2000000 := by unfold siteBase; omega
  rw [State.bar0Write, if_neg (by omega), if_neg (by omega), if_neg (by omega), if_neg (by omega), if_neg (by omega), if_neg (by omega),
    if_neg (by omega), if_neg (by omega), if_pos hhi]

/-- `CNT_CLR` of a unit clears its counters after the write has been taken. -/
theorem siteWrite_clear (s : State) (k : Fin 8192) {w : Nat} (h : bitAt w 17 = true) :
    ∃ u : State, s.siteWrite (siteBase k.val) w = u.clearSite k.val := by
  have hk : (siteBase k.val - 0x1000000) / 0x800 = k.val := by unfold siteBase; omega
  have ho : siteBase k.val % 0x800 = 0 := by unfold siteBase; omega
  rw [State.siteWrite, hk]
  simp only [ho, h, and_self, if_true]
  exact ⟨_, rfl⟩

theorem portModeSet_tables (s : State) (p w : Nat) : (s.portModeSet p w).ctrs = s.ctrs ∧ (s.portModeSet p w).latches = s.latches :=
  ⟨(s.portModeSet_keeps p w).frame.same (f := .ctrs) rfl, (s.portModeSet_keeps p w).frame.same (f := .latches) rfl⟩

theorem portWrite_clear (s : State) (p : Fin 12) {w : Nat} (h : bitAt w 9 = true) :
    CountersZero (portBase p.val + 0x100) (portBase p.val + 0x1B8) (s.portWrite p.val 0 w) := by
  have hz := clearCtrs_zero s (portBase p.val + 0x100) (portBase p.val + 0x1B8)
  have hlo : 0x10000 ≤ portBase p.val := by unfold portBase; omega
  simp only [State.portWrite, if_neg (Nat.not_le.mpr p.isLt), clearIf_true s h, if_true]
  split
  · exact hz.congr (fun o h1 _ => fieldWrite_ctr _ (by omega) (by omega) (by omega) _ _)
      ((State.fieldWrite_keeps ..).frame.same (f := .latches) rfl)
  · exact hz.of_tables (portModeSet_tables ..).1 (portModeSet_tables ..).2

/-- The slots, the bytes of the memory and the security state are as before. -/
def JobsKept (s t : State) : Prop := t.slots = s.slots ∧ t.hbm.cells = s.hbm.cells ∧ t.sec = s.sec

theorem Keeps.jobsKept {p : Nat} {s t : State} (h : Keeps p s t) (h1 : p.testBit Field.slots.place = false)
    (h2 : p.testBit Field.memory.place = false) (h3 : p.testBit Field.sec.place = false) : JobsKept s t :=
  ⟨h.frame.same (f := .slots) h1, h.frame.same (f := .memory) h2, h.frame.same (f := .sec) h3⟩

theorem JobsKept.after {s t u : State} (b : JobsKept t u) (a : JobsKept s t) : JobsKept s u :=
  ⟨b.1.trans a.1, b.2.1.trans a.2.1, b.2.2.trans a.2.2⟩

theorem clearCtrs_jobsKept (s : State) (lo hi : Nat) : JobsKept s (s.clearCtrs lo hi) := ⟨rfl, rfl, rfl⟩

theorem fieldWrite_jobsKept (s : State) (off w : Nat) : JobsKept s (s.fieldWrite off w) :=
  (State.fieldWrite_keeps ..).jobsKept rfl rfl rfl

/-- Settles O19: each CNT_CLR is one whole-word write of its block, which clears the block's ranges after, or for a port before, the
fields have been taken. -/
theorem counterClears : Obligations.CounterClears := by
  unfold Obligations.CounterClears
  intro tee s ho kept
  have hone := oneWrite_open ho
  have site : ∀ k : Fin 8192, CountersZero (siteBase k.val + 0x100) (siteBase k.val + 0x200)
        (s.bar0Write (siteBase k.val) (s.withBit (siteBase k.val) 17) []) ∧
      CountersZero (siteBase k.val + 0x400) (siteBase k.val + 0x600)
        (s.bar0Write (siteBase k.val) (s.withBit (siteBase k.val) 17) []) ∧
      kept (s.bar0Write (siteBase k.val) (s.withBit (siteBase k.val) 17) []) := fun k => by
    rw [bar0Write_site]
    have hkept := (State.siteWrite_keeps s (siteBase k.val) (s.withBit (siteBase k.val) 17)).jobsKept rfl rfl rfl
    obtain ⟨u, hu⟩ := siteWrite_clear s k (bitAt_withBit s (siteBase k.val) 17)
    rw [hu] at hkept ⊢
    exact ⟨(clearSite_zero u k.val).1, (clearSite_zero u k.val).2, hkept⟩
  refine ⟨fun k hk => ?cu, fun k hk => ?mu, ?mill, ?mem, ?cxl, ?cage, fun p => ?port, ?fab, ?tally, ?pwr, ?ras, ?glb⟩
  case cu => exact .of rfl ((if_pos hk).trans (hone ..)) (site k)
  case mu => exact .of rfl ((if_neg (by simp [hk])).trans (hone ..)) (site k)
  case mill =>
    exact .of rfl ((hone ..).trans (bar0Write_millClear s [] rfl))
      ⟨(clearCtrs_zero _ _ _).clearCtrs _ _, clearCtrs_zero _ _ _, (clearCtrs_jobsKept ..).after (clearCtrs_jobsKept ..)⟩
  case mem =>
    exact .of rfl ((hone ..).trans (bar0Write_memClear s [] (bitAt_withBit ..)))
      ⟨((clearCtrs_zero _ _ _).clearCtrs _ _).of_tables rfl rfl, (clearCtrs_zero _ _ _).of_tables rfl rfl, rfl, rfl,
        ((State.memClear_keeps _).jobsKept rfl rfl rfl).after (fieldWrite_jobsKept ..)⟩
  case cxl =>
    exact .of rfl ((hone ..).trans (bar0Write_cxlClear s [] (bitAt_withBit ..)))
      ⟨clearCtrs_zero _ _ _, (clearCtrs_jobsKept ..).after (fieldWrite_jobsKept ..)⟩
  case cage => exact .of rfl ((hone ..).trans (bar0Write_cageClear s [] rfl)) ⟨clearCtrs_zero _ _ _, clearCtrs_jobsKept ..⟩
  case port =>
    refine .of rfl ((hone ..).trans (bar0Write_port s p _ [])) ⟨portWrite_clear s p (bitAt_withBit ..), ?_⟩
    exact (State.portWrite_keeps ..).jobsKept rfl rfl rfl
  case fab =>
    exact .of rfl ((hone ..).trans (bar0Write_fabClear s [] (bitAt_withBit ..)))
      ⟨clearCtrs_zero _ _ _, (clearCtrs_jobsKept ..).after (fieldWrite_jobsKept ..)⟩
  case tally =>
    exact .of rfl ((hone ..).trans (bar0Write_tallyClear s [] (bitAt_withBit ..))) ⟨clearCtrs_zero _ _ _, (clearCtrs_jobsKept ..).after
      (((State.syncHold_keeps _).jobsKept rfl rfl rfl).after (fieldWrite_jobsKept ..))⟩
  case pwr =>
    exact .of rfl ((hone ..).trans (bar0Write_pwrClear s [] (bitAt_withBit ..)))
      ⟨clearCtrs_zero _ _ _, (clearCtrs_jobsKept ..).after (fieldWrite_jobsKept ..)⟩
  case ras =>
    exact .of rfl ((hone ..).trans (bar0Write_rasClear s [] (bitAt_withBit ..)))
      ⟨clearCtrs_zero _ _ _, (clearCtrs_jobsKept ..).after (fieldWrite_jobsKept ..)⟩
  case glb => exact .of rfl ((hone ..).trans (bar0Write_glbClear s [] rfl)) ⟨clearCtrs_zero _ _ _, clearCtrs_jobsKept ..⟩

end Sys2Proof.Machine
end

section
/-! SUPPORT. The enable bits of the rings, of the event ring, of the layer and collective tables, and the Tally words (12 R306, R307; 08
R186, R208; 14 R360; 15 R384). -/
namespace Sys2Proof.Machine

/-! ### The low bit of a written word -/

theorem bitAt_zero_congr {a b : Nat} (h : a % 2 = b % 2) : bitAt a 0 = bitAt b 0 := by simp [bitAt, h]

theorem foldl_field_parity (busy : Bool) (old new : Nat) {fs : List RField} (h : ∀ f ∈ fs, f.lo ≠ 0) (a : Nat) :
    fs.foldl (fun w f => w + writeField busy old new f * 2 ^ f.lo) a % 2 = a % 2 := by
  induction fs generalizing a with
  | nil => rfl
  | cons f fs ih =>
    obtain ⟨hf, hfs⟩ := List.forall_mem_cons.mp h
    obtain ⟨n, hn⟩ := Nat.exists_eq_succ_of_ne_zero hf
    rw [List.foldl_cons, ih hfs, hn, pow_succ, ← mul_assoc]
    omega

/-- A register whose only field at bit 0 is one bit wide holds the bit written, or the bit it held when the field is RWQ and the block is
busy (R7). -/
theorem bitAt_writeFields (busy : Bool) (acc : Acc) (r : Nat) {fs : List RField} (h : ∀ f ∈ fs, f.lo ≠ 0) (old new : Nat) :
    bitAt (writeFields busy (fld 0 1 acc r :: fs) old new) 0 = bitAt (if acc = .rwq ∧ busy = true then old else new) 0 := by
  refine bitAt_zero_congr ?_
  rw [writeFields, List.foldl_cons, foldl_field_parity _ _ _ h]
  by_cases hb : acc = .rwq ∧ busy = true <;> simp [writeField, fld, bits, clampNat, hb]
  split <;> omega

theorem rfBit_setReg (s : State) (off v : Nat) : (s.setReg off v).rfBit off 0 = bitAt v 0 := by
  rw [State.rfBit, reg_setReg_same]
  exact bitAt_zero_congr (by omega)

/-! ### Rings -/

theorem bar0Write_ringCtl (s : State) (k : Fin 32) (w : Nat) (line : List Byte) :
    s.bar0Write (ringBase k.val) w line = s.ringCtlWrite k.val w line := by
  have hk : (ringBase k.val - 0xB000) / 0x40 = k.val := by unfold ringBase; omega
  have h1 : 0xB000 ≤ ringBase k.val := by unfold ringBase; omega
  have h2 : ringBase k.val < 0xB800 := by unfold ringBase; omega
  have h3 : ringBase k.val % 0x40 = 0 := by unfold ringBase; omega
  rw [State.bar0Write, if_neg (by omega), if_neg (by omega), if_neg (by omega), if_neg (by omega), if_pos (by omega), State.cageWrite,
    if_neg (by omega), if_neg (by omega), if_neg (by omega), if_pos ⟨h1, h2, h3⟩, hk]

theorem ringFields_en : ∀ f ∈ (ringFields 0).tail, f.lo ≠ 0 := by decide

section
variable {s : State} {k : Nat} {w : Nat}

/-- Setting `EN` of a ring that is off and has nothing on it starts it at entry 0 (12 R307). -/
theorem ringCtlWrite_enable (h : bitAt w 0 = true) (he : s.ringEn k = false) (ha : s.ringActive k = false) (hc : s.cxl.cacheEn = false)
    (line : List Byte) : s.ringCtlWrite k w line =
      (s.setReg (ringBase k) (writeFields false (ringFields 0) (s.reg (ringBase k)) w)).setRing k { Ring.init with phase := true } := by
  have he' : bitAt (s.reg (ringBase k)) 0 = false := he
  simp only [State.ringCtlWrite, he', ha, h]
  simp [State.setRing, State.setReg, hc]

/-- Clearing `EN` of a ring leaves it off, whatever else of the write is refused. -/
theorem ringCtlWrite_disable (h : bitAt w 0 = false) (line : List Byte) : (s.ringCtlWrite k w line).ringEn k = false := by
  have hbit : ∀ busy, bitAt (writeFields busy (ringFields 0) (s.reg (ringBase k)) w) 0 = false := fun busy =>
    (bitAt_writeFields busy .rw 0 ringFields_en _ _).trans (by simp [h])
  simp only [State.ringCtlWrite, h, Bool.false_and, Bool.false_eq_true, if_false, Bool.false_or]
  split
  · exact (congrArg (bitAt · 0) ((busyWrite_only _ _).reg _)).trans ((rfBit_setReg ..).trans (hbit _))
  · exact (rfBit_setReg ..).trans (hbit _)
end

theorem setRing_ringEn (s : State) (k : Nat) (r : Ring) (j : Nat) : (s.setRing k r).ringEn j = s.ringEn j := rfl

/-! ### The event ring -/

theorem bar0Write_evq (s : State) (w : Nat) (line : List Byte) : s.bar0Write 0xA040 w line = s.evqWriteReg w := rfl

theorem evqFields : regFields 0xA040 = [fld 0 1 .rw 0, fldB 1 4 .rwq 4 4 15, fld 5 6 .rwq 0] := rfl

theorem evqWriteReg_enable {s : State} {w : Nat} (h : bitAt w 0 = true) (he : s.evqEn = false) : s.evqWriteReg w =
    let s1 := s.setReg 0xA040 (writeFields false (regFields 0xA040) (s.reg 0xA040) w)
    { s1 with cage := { s1.cage with evTail := 0, evPhase := true, evHead := 0 } } := by
  have he' : bitAt (s.reg 0xA040) 0 = false := he
  simp [State.evqWriteReg, he', h]

theorem evqWriteReg_evqEn {s : State} {w : Nat} (busy : Bool) :
    bitAt (writeFields busy (regFields 0xA040) (s.reg 0xA040) w) 0 = bitAt w 0 := by
  rw [evqFields]
  exact (bitAt_writeFields busy .rw 0 (by decide) _ _).trans (by simp)

theorem evqWriteReg_disable {s : State} {w : Nat} (h : bitAt w 0 = false) : (s.evqWriteReg w).evqEn = false := by
  simp only [State.evqWriteReg, h, Bool.false_and, Bool.false_eq_true, if_false]
  split
  · exact (congrArg (bitAt · 0) ((busyWrite_only _ _).reg _)).trans ((rfBit_setReg ..).trans ((evqWriteReg_evqEn _).trans h))
  · exact (rfBit_setReg ..).trans ((evqWriteReg_evqEn _).trans h)

/-! ### The tables of a job -/

section
variable {s : State} {n : Fin 8} {w : Nat}

theorem jobBase_lt (n : Fin 8) : 0x4000 ≤ jobBase n.val ∧ jobBase n.val + 0x38 < 0x4200 ∧
    jobBase n.val % 0x40 = 0 := by unfold jobBase; omega

theorem jobBase_slot (n : Fin 8) {o : Nat} (h : o < 0x40) : (jobBase n.val + o - 0x4000) / 0x40 = n.val := by unfold jobBase; omega

theorem bar0Write_hoistCfg (line : List Byte) : s.bar0Write (jobBase n.val + 0x38) w line = s.hoistCfgWrite n.val w := by
  obtain ⟨h1, h2, h4⟩ := jobBase_lt n
  rw [State.bar0Write, if_neg (by omega), if_pos (by omega)]
  exact (if_pos (by omega)).trans (by rw [jobBase_slot n (by decide)])

theorem bar0Write_sluiceCfg (line : List Byte) : s.bar0Write (jobBase n.val + 0x08) w line = s.sluiceCfgWrite n.val w := by
  obtain ⟨h1, h2, h4⟩ := jobBase_lt n
  rw [State.bar0Write, if_neg (by omega), if_pos (by omega)]
  exact (if_neg (by omega)).trans ((if_pos (by omega)).trans (by rw [jobBase_slot n (by decide)]))

theorem regFields_job {o : Nat} (ho : o < 0x40) (h4 : o % 4 = 0) : regFields (jobBase n.val + o) = jobFields o := by
  obtain ⟨h1, h2, h5⟩ := jobBase_lt n
  have hm : (jobBase n.val + o) % 0x40 = o := by omega
  rw [regFields, if_neg (by omega), if_neg (by omega), if_pos (by omega), hm]

theorem rwqBusy_job {o : Nat} (ho : o < 0x40) : s.rwqBusy (jobBase n.val + o) = s.running n.val := by
  obtain ⟨h1, h2, h5⟩ := jobBase_lt n
  rw [State.rwqBusy, if_pos (by omega), jobBase_slot n ho]

variable (hr : s.running n.val = false)
include hr

theorem hoistCfgWrite_idle : s.hoistCfgWrite n.val w =
    let s1 := s.fieldWrite (jobBase n.val + 0x38) w
    if bitAt w 0 = false then s1.setSlot n.val { s1.slot n.val with checking := false, hoist := none }
    else if s.rfBit (jobBase n.val + 0x38) 0 = true then s1
    else (s1.setRf (jobBase n.val + 0x38) 0 1 0).setSlot n.val { s1.slot n.val with checking := true } := by
  rw [State.hoistCfgWrite, rwqBusy_job (by decide), hr]
  simp

theorem sluiceCfgWrite_idle : s.sluiceCfgWrite n.val w =
    let s1 := s.fieldWrite (jobBase n.val + 0x08) w
    if bitAt w 0 = false then s1.setSlot n.val { s1.slot n.val with sluice := [] }
    else if s.rfBit (jobBase n.val + 0x08) 0 = true then s1
    else s1.checkSluice n.val := by
  rw [State.sluiceCfgWrite, rwqBusy_job (by decide), hr]
  simp
end

/-! ### Tally -/

theorem bar0Write_tallyHi (s : State) (w : Nat) (line : List Byte) : s.bar0Write 0x5014 w line = s.tallySetHi w := rfl

theorem stepTally_clk (s : State) (d : BitVec 64) : (s.stepTally d).clk = { s.clk with tally := s.clk.tally + d } :=
  (ev_only ..).clk

/-- Settles O20: each is the one write of its register; what the write does beside the stored fields is read off, and of the stored
fields the low bit alone matters. -/
theorem enableBitsAct : Obligations.EnableBitsAct := by
  unfold Obligations.EnableBitsAct
  intro w tee s ho
  have hone := oneWrite_open ho
  refine ⟨fun k line => ⟨fun hw he ha hc => ?ringOn, fun hw => ?ringOff⟩, fun hw he => ?evOn, fun hw => ?evOff, fun n hr => ⟨fun hw he => ?hoistOn,
    fun hw => ?hoistOff, fun hw he => ?sluiceOn, fun hw => ?sluiceOff⟩, fun hf => ?tally, fun hf => ?tallyBusy⟩
  case ringOn =>
    refine .of rfl ((if_pos ho.1).trans ((mmioWrite_open ho ..).trans ((bar0Write_ringCtl ..).trans
      (ringCtlWrite_enable hw he ha hc line)))) ⟨setRing_ring .., ?_⟩
    · rw [setRing_ringEn]
      exact (rfBit_setReg ..).trans ((bitAt_writeFields false .rw 0 ringFields_en _ _).trans (by simp [hw]))
  case ringOff =>
    exact .of rfl ((if_pos ho.1).trans ((mmioWrite_open ho ..).trans (bar0Write_ringCtl ..))) (ringCtlWrite_disable hw line)
  case evOn =>
    refine .of rfl ((hone ..).trans ((bar0Write_evq ..).trans (evqWriteReg_enable hw he))) ⟨?_, rfl, rfl, rfl⟩
    exact (rfBit_setReg s 0xA040 _).trans ((evqWriteReg_evqEn _).trans hw)
  case evOff => exact .of rfl ((hone ..).trans (bar0Write_evq ..)) (evqWriteReg_disable hw)
  case hoistOn =>
    refine .of rfl ((hone ..).trans ((bar0Write_hoistCfg _).trans (hoistCfgWrite_idle hr))) ?_
    simp only [hw, he, Bool.true_eq_false, Bool.false_eq_true, if_false]
    exact ⟨by rw [setSlot_slot], rfBit_setRf_zero _ _⟩
  case hoistOff =>
    refine .of rfl ((hone ..).trans ((bar0Write_hoistCfg _).trans (hoistCfgWrite_idle hr))) ?_
    simp only [hw, if_true, setSlot_slot, and_self]
  case sluiceOn =>
    refine exec_eq_of rfl ((hone ..).trans ((bar0Write_sluiceCfg _).trans (sluiceCfgWrite_idle hr))) ?_
    simp only [hw, he, Bool.true_eq_false, Bool.false_eq_true, if_false]
  case sluiceOff =>
    refine .of rfl ((hone ..).trans ((bar0Write_sluiceCfg _).trans (sluiceCfgWrite_idle hr))) ?_
    simp only [hw, if_true, setSlot_slot]
  case tally =>
    refine .of rfl ((hone ..).trans ((bar0Write_tallyHi ..).trans (if_pos hf))) ⟨?_, ?_, ?_⟩
    · rw [stepTally_clk, add_sub_cancel]
    · exact (State.stepTally_keeps ..).frame.same (f := .hbm) rfl
    · exact (State.stepTally_keeps ..).frame.same (f := .slots) rfl
  case tallyBusy =>
    exact .of rfl ((hone ..).trans ((bar0Write_tallyHi ..).trans (if_neg hf))) ⟨(busyWrite_only ..).clk, raise_logged ..⟩

end Sys2Proof.Machine
end

section
/-! SUPPORT. Debug unlock (16 R410), unit service (18 R447 to R449), and the check and the write of firmware images (18 R456). -/
namespace Sys2Proof.Machine

/-! ### Sealed regions are freed -/

theorem freeSealed_sealed (s : State) (r : Nat) : SealedFrame s (s.freeSealed r) := by
  unfold State.freeSealed
  split
  · next x _ =>
      have h : (s.hbmZero x.base x.len).sec = s.sec := (s.hbmZero_keeps _ _).sec_eq rfl
      unfold SealedFrame
      rw [← h]
  · rfl

theorem freeSealed_other {s : State} {r q : Nat} (h : q ≠ r) : (s.freeSealed r).sealedAt q = s.sealedAt q := by
  unfold State.freeSealed
  split
  · exact (tblGet_tblSet_of_ne h).trans (congrArg (fun x => tblGet (fun _ => none) x.sealed q) ((s.hbmZero_keeps _ _).sec_eq rfl))
  · rfl

/-- A byte is in a region of the table. -/
def InSealed (s : State) (r a : Nat) : Prop := ∃ x, s.sealedAt r = some x ∧ x.base ≤ a ∧ a < x.base + x.len

theorem freeSealed_zero {s : State} {r a : Nat} (h : s.hbmByte a = 0 ∨ InSealed s r a) : (s.freeSealed r).hbmByte a = 0 := by
  cases hx : s.sealedAt r with
  | none =>
    have hs : s.freeSealed r = s := by unfold State.freeSealed; rw [hx]
    rcases h with h | ⟨x, h, -⟩
    · rwa [hs]
    · rw [hx] at h; contradiction
  | some x =>
    rw [(freeSealed_found hx).2]
    split
    · rfl
    · next hn =>
      rcases h with h | ⟨y, hy, h1, h2⟩
      · exact h
      · obtain rfl : x = y := Option.some.inj (hx.symm.trans hy)
        exact absurd ⟨h1, h2⟩ hn

/-- Freeing one region after another leaves each of them free and zero. -/
theorem freeSealeds_free (l : List Nat) {s : State} {r : Nat} (h : s.sealedAt r = none ∨ r ∈ l) : (l.foldl State.freeSealed s).sealedAt r = none := by
  induction l generalizing s with
  | nil => simpa using h
  | cons q l ih =>
    rw [List.foldl_cons]
    refine ih ?_
    by_cases hq : r = q
    · subst hq
      cases hx : s.sealedAt r with
      | none => exact .inl (by unfold State.freeSealed; rw [hx]; exact hx)
      | some x => exact .inl (freeSealed_found hx).1
    · rw [freeSealed_other hq]
      exact h.imp_right fun h => (List.mem_cons.mp h).resolve_left hq

theorem freeSealeds_zero (l : List Nat) {s : State} {a : Nat} (h : s.hbmByte a = 0 ∨ ∃ r ∈ l, InSealed s r a) :
    (l.foldl State.freeSealed s).hbmByte a = 0 := by
  induction l generalizing s with
  | nil => simpa using h
  | cons q l ih =>
    rw [List.foldl_cons]
    refine ih ?_
    rcases h with h | ⟨r, hr, hin⟩
    · exact .inl (freeSealed_zero (.inl h))
    · by_cases hq : r = q
      · exact .inl (freeSealed_zero (.inr (hq ▸ hin)))
      · exact .inr ⟨r, (List.mem_cons.mp hr).resolve_left hq, by unfold InSealed; rwa [freeSealed_other hq]⟩

theorem sealedAt_mem {s : State} {r : Nat} {x : Sealed} (h : s.sealedAt r = some x) : r ∈ s.sec.sealed.map (·.1) := by
  by_contra hn
  have habs : s.sealedAt r = none := tblGet_of_absent fun e he hr => hn (List.mem_map.mpr ⟨e, he, hr⟩)
  rw [h] at habs
  contradiction

/-- Every sealed region is free, the sessions are over and the token's scope is open, before the event. -/
def unlocked (s : State) : State :=
  let s1 := (s.sec.sealed.map (·.1)).foldl State.freeSealed s
  { s1 with sec := { s1.sec with sessions := [], dbg := .unlocked, scope := s.sec.scopeWait } }

theorem onDebugUnlockScrubDone_done {s : State} (hd : s.sec.dbg = .scrubbing) (hk : ∀ n < 8, (s.slot n).killing = false) :
    onDebugUnlockScrubDone s = (unlocked s).ev 0x0071 .info 0 s.sec.scopeWait 0 0 0 :=
  if_pos ⟨hd, by simpa using hk⟩

theorem onDebugUnlockScrubDone_waits {s : State} {n : Fin 8} (hk : (s.slot n.val).killing = true) : onDebugUnlockScrubDone s = s := by
  refine if_neg fun h => ?_
  have := List.all_eq_true.mp h.2 n.val (by simp)
  simp [hk] at this

/-- Settles O23: the regions are freed one by one, then the scope opens and the event tells it. -/
theorem unlockOpensAfterScrub : Obligations.UnlockOpensAfterScrub := by
  refine ⟨fun s hd hk => .of rfl (onDebugUnlockScrubDone_done hd hk) ?_, fun n s hk => congrArg Host.Outcome.next (onDebugUnlockScrubDone_waits hk)⟩
  have ho : EventOnly (unlocked s) ((unlocked s).ev 0x0071 .info 0 s.sec.scopeWait 0 0 0) := ev_only ..
  have hsec := ho.sec
  have hseal : SealedFrame s ((s.sec.sealed.map (·.1)).foldl State.freeSealed s) := .foldl freeSealed_sealed _ _
  have hroll : (unlocked s).sec.rollback = s.sec.rollback := by
    change ((s.sec.sealed.map (·.1)).foldl State.freeSealed s).sec.rollback = _
    rw [hseal]
  have hkeep : Keeps 0x20c84 s ((s.sec.sealed.map (·.1)).foldl State.freeSealed s) := .foldl _ _ _ _ (fun s r => s.freeSealed_keeps r) (.refl s)
  refine ⟨by rw [hsec]; rfl, by rw [hsec]; rfl, by rw [hsec]; rfl, ?_, fun r x hx => ⟨?_, fun a h1 h2 => ?_⟩, ?_⟩
  · rw [hsec]
    exact hroll
  · unfold State.sealedAt
    rw [hsec]
    exact freeSealeds_free _ (.inr (sealedAt_mem hx))
  · rw [hbmByte_congr (congrArg HbmState.cells ho.hbm)]
    exact freeSealeds_zero _ (.inr ⟨r, sealedAt_mem hx, x, hx, h1, h2⟩)
  · have hl : LogGrown s (unlocked s) := .of_ras (hkeep.frame.same (f := .ras) rfl)
    rw [State.ev]
    exact hl.raised ..

/-! ### Fences and unit service -/

theorem EventOnly.foldl {β : Type} {f : State → β → State} (h : ∀ s x, EventOnly s (f s x)) (l : List β) (s : State) :
    EventOnly s (l.foldl f s) := by
  induction l generalizing s with
  | nil => exact .refl s
  | cons x l ih => exact (ih _).after (h s x)

/-- A fence changes this of the service state, and what its events log. -/
def fencedRas (s : State) (k : Nat) : RasState := { s.ras with
  units := tblSet (fun _ => UnitState.inService) s.ras.units k .fenced
  testSince := tblSet (fun _ => 0) s.ras.testSince k 0
  fencedAt := tblSet (fun _ => 0) s.ras.fencedAt k s.mclk
  unitResult := if s.ras.movedAt = (k, s.mclk) then .busy else s.ras.unitResult
  gen := if s.unit k = .fenced ∨ s.unit k = .testing then s.ras.gen else (s.ras.gen + 1) % 2 ^ 32 }

/-- The events of a fence: one for the site, or one for each slot that uses it. -/
def fenceEvents (k : Nat) (cause : FenceCause) (users : List (Fin 8)) (s : State) : State :=
  if users.isEmpty then s.raise 0x0090 .unit none (genPayload k cause.code 0 0 0)
  else users.foldl (fun s n => s.raise 0x0090 .unit (some n) (genPayload k cause.code 0 0 0)) s

theorem fenceEvents_only (k : Nat) (cause : FenceCause) (users : List (Fin 8)) (s : State) : EventOnly s (fenceEvents k cause users s) :=
  .ite (raise_only ..) (.foldl (fun _ _ => raise_only ..) _ _)

theorem fenceEvents_raised {s u : State} (h : LogGrown s u) (k : Nat) (cause : FenceCause) (users : List (Fin 8)) :
    Raised 0x0090 s (fenceEvents k cause users u) := by
  cases users with
  | nil =>
    rw [fenceEvents, if_pos List.isEmpty_nil]
    exact h.raised ..
  | cons n l =>
    rw [fenceEvents, if_neg (by simp), List.foldl_cons]
    have hr := h.raised 0x0090 .unit (some n) (genPayload k cause.code 0 0 0)
    exact hr.grown (.foldl (fun _ _ => .raise ..) l _)

theorem fenceSite_ras (s : State) (k : Nat) (cause : FenceCause) : Raised 0x0090 s (s.fenceSite k cause) ∧
    (s.fenceSite k cause).ras = { fencedRas s k with seq := (s.fenceSite k cause).ras.seq, log := (s.fenceSite k cause).ras.log } := by
  let s1 : State := ({ s with ras := fencedRas s k } : State).bump 0x7108
  have hstop : ∀ (l : List (Fin 8)) (u : State), ((l.foldl (fun s n => s.stopSlot n 0x0090 stJobFault) u).requestNv .flashUnitMap).ras = u.ras :=
    fun l u => (Keeps.foldl _ l u u (fun s n => s.stopSlot_keeps n 0x0090 stJobFault) (.refl u)).frame.same (f := .ras) rfl
  have hras : ∃ users, (s.fenceSite k cause).ras = (fenceEvents k cause users s1).ras := ⟨_, hstop _ _⟩
  obtain ⟨users, hras⟩ := hras
  have hr : Raised 0x0090 s (fenceEvents k cause users s1) := fenceEvents_raised (.of_log rfl) k cause users
  refine ⟨?_, ?_⟩
  · unfold Raised
    rw [hras]
    exact hr
  · rw [hras]
    exact (fenceEvents_only k cause users s1).ras

/-- After a fence the site is FENCED and the generation counts one where the bitmap changes (18 R447, 20 R492). -/
theorem fenceSite_fenced (s : State) (k : Nat) (cause : FenceCause) : (s.fenceSite k cause).unit k = .fenced ∧
    (s.fenceSite k cause).ras.gen = if s.unit k = .fenced ∨ s.unit k = .testing then s.ras.gen else (s.ras.gen + 1) % 2 ^ 32 := by
  have h := (fenceSite_ras s k cause).2
  unfold State.unit
  rw [h]
  exact ⟨tblGet_tblSet_same .., rfl⟩

/-! ### `RAS_UNIT_CMD` -/

theorem bar0Write_unitCmd (s : State) {w : Nat} (h : bitAt w 15 = true) (line : List Byte) :
    s.bar0Write 0x7008 w line = (s.fieldWrite 0x7008 w).unitCmd := if_pos h

/-- A field that takes any value stores the bits written. -/
theorem writeField_rw (busy : Bool) (old new lo width r : Nat) : writeField busy old new (fld lo width .rw r) = bits new lo width := by
  have hlt : bits new lo width < 2 ^ width := Nat.mod_lt _ (by positivity)
  simp only [writeField, fld, clampNat, reduceCtorEq, false_and, if_false, Nat.not_lt_zero]
  exact if_neg (by omega)

theorem fieldWrite_unitCmd (s : State) (w : Nat) : s.fieldWrite 0x7008 w = s.setReg 0x7008 (w % 2 ^ 15) := by
  have hf : regFields 0x7008 = [fld 0 13 .rw 0, fld 13 2 .rw 0] := rfl
  have hv : writeFields (s.rwqBusy 0x7008) [fld 0 13 .rw 0, fld 13 2 .rw 0] (s.reg 0x7008) w = w % 2 ^ 15 := by
    simp only [writeFields, List.foldl_cons, List.foldl_nil, writeField_rw]
    simp only [bits, fld]
    omega
  simp only [State.fieldWrite, hf, hv]
  simp [changesRwq, fld]

section
variable {tee : Bool} {s : State} (hw : WriteOpen tee s) (k : Fin 8192)
include hw

/-- A unit command of site `k` acts on the state with the command in its register. -/
theorem oneWrite_unitWord {op : Nat} (ho : op < 4) :
    ∃ v, s.oneWrite 0x7008 (unitWord k.val op) tee = (s.setReg 0x7008 v).unitCmd ∧ (s.setReg 0x7008 v).rf 0x7008 0 13 = k.val ∧
      (s.setReg 0x7008 v).rf 0x7008 13 2 = op := by
  have hk := k.isLt
  have hbit : bitAt (unitWord k.val op) 15 = true := by
    simp only [bitAt, unitWord, beq_iff_eq]; omega
  refine ⟨_, (oneWrite_open hw ..).trans ((bar0Write_unitCmd s hbit []).trans (by rw [fieldWrite_unitCmd])), ?_, ?_⟩ <;>
    rw [State.rf, reg_setReg_same] <;> simp only [bits, unitWord] <;> omega
end

/-! ### RETURN, RESTORE and the self-test -/

/-- RESTORE has taken the site back in service, before the event that tells it. -/
def restored (s : State) (k : Nat) : State := ((s.setUnit k .inService).unitMoved k).mapChanged

section
variable {s : State} {k : Nat}

theorem setUnit_unit (s : State) (k : Nat) (u : UnitState) : (s.setUnit k u).unit k = u := tblGet_tblSet_same ..

theorem unitReturn_fenced (hj : s.justFenced k = false) (hu : s.unit k = .fenced) (hi : s.siteInUse k = false) : s.unitReturn k =
    let s1 := (s.setUnit k .testing).unitMoved k
    { s1 with ras := { s1.ras with testSince := tblSet (fun _ => 0) s1.ras.testSince k s.clk.root } } := by simp [State.unitReturn, hj, hu, hi]

theorem unitReturn_inUse (hu : s.unit k = .fenced) (hi : s.siteInUse k = true) : s.unitReturn k = s.unitDone .busy := by
  simp [State.unitReturn, hu, hi]

theorem unitReturn_refused (hj : s.justFenced k = false) (hu : s.unit k ≠ .fenced) : s.unitReturn k = s.unitDone .refused := by
  simp [State.unitReturn, hj, hu]

theorem unitReturn_justFenced (hj : s.justFenced k = true) : s.unitReturn k = s.unitDone .busy := if_pos hj

theorem unitRestore_routerOnly (hj : s.justFenced k = false) (hu : s.unit k = .routerOnly) : s.unitRestore k =
    (restored s k).ev 0x0093 .info k 0 (restored s k).ras.gen 0 0 := by simp [State.unitRestore, hj, hu, restored]

theorem unitRestore_refused (hj : s.justFenced k = false) (hu : s.unit k ≠ .routerOnly) : s.unitRestore k = s.unitDone .refused := by
  simp [State.unitRestore, hj, hu]

theorem unitRestore_justFenced (hj : s.justFenced k = true) : s.unitRestore k = s.unitDone .busy := if_pos hj
end

/-- The self-test of the site is over: its start is forgotten. -/
def testOver (s : State) (k : Nat) : State := { s with ras := { s.ras with testSince := tblSet (fun _ => 0) s.ras.testSince k 0 } }

/-- The site is back as a router only, its memory zero, before the event that tells it. -/
def routerBack (s : State) (k : Nat) : State := (((testOver s k).siteZero k).setUnit k .routerOnly).mapChanged

theorem onSelftestComplete_over {s : State} {k : Fin 8192} (hu : s.unit k.val = .testing)
    (ht : tblGet (fun _ => 0) s.ras.testSince k.val + msRoot 4 ≤ s.clk.root) (r : Option (BitVec 16)) : onSelftestComplete k r s =
      match r with
      | none => (routerBack s k.val).ev 0x0092 .info k.val 0 (routerBack s k.val).ras.gen 0 0
      | some w => ((testOver s k.val).setUnit k.val .fenced).ev 0x0091 .unit k.val w.toNat 0 0 0 := by
  cases r <;> simp only [onSelftestComplete, hu, ht, and_self, if_true, routerBack, testOver]

theorem mapChanged_unit (s : State) (k : Nat) : s.mapChanged.unit k = s.unit k := rfl

theorem setUnit_mapChanged {s u : State} (h : u.ras = s.ras) (k : Nat) (x : UnitState) :
    (u.setUnit k x).mapChanged.ras.gen = (s.ras.gen + 1) % 2 ^ 32 ∧ (u.setUnit k x).mapChanged.ras.log = s.ras.log := by
  rw [← h]
  exact ⟨rfl, rfl⟩

theorem routerBack_ras (s : State) (k : Nat) : (routerBack s k).unit k = .routerOnly ∧
    (routerBack s k).ras.gen = (s.ras.gen + 1) % 2 ^ 32 ∧ (routerBack s k).ras.log = s.ras.log := by
  have h : ((testOver s k).siteZero k).ras = (testOver s k).ras := (State.siteZero_keeps ..).frame.same (f := .ras) rfl
  refine ⟨(mapChanged_unit _ k).trans (setUnit_unit ..), ?_⟩
  exact setUnit_mapChanged h k .routerOnly

/-- The unit states and the generation that the event of a moved site leaves. -/
theorem EventOnly.units {s t : State} (h : EventOnly s t) (k : Nat) : t.unit k = s.unit k ∧ t.ras.gen = s.ras.gen := by
  unfold State.unit
  rw [h.ras]
  exact ⟨rfl, rfl⟩

/-- Settles O24: a command of the register acts on the site its word names, and each arm of the action says where the site goes. -/
theorem unitServiceMovesSites : Obligations.UnitServiceMovesSites := by
  unfold Obligations.UnitServiceMovesSites
  intro counted
  refine ⟨fun k tee s ho => ?_, fun k cause s hl => ?_, fun k s hu => ⟨fun ht => ⟨?_, fun w => ?_⟩, fun ht r => ?_⟩⟩
  · obtain ⟨v1, he1, hk1, ho1⟩ := oneWrite_unitWord ho k (op := 1) (by decide)
    obtain ⟨v2, he2, hk2, ho2⟩ := oneWrite_unitWord ho k (op := 2) (by decide)
    obtain ⟨v3, he3, hk3, ho3⟩ := oneWrite_unitWord ho k (op := 3) (by decide)
    have e1 : (s.setReg 0x7008 v1).unitCmd = ((s.setReg 0x7008 v1).fenceSite k.val .host).unitDone .done := by
      simp [State.unitCmd, hk1, ho1]
    have e2 : (s.setReg 0x7008 v2).unitCmd = (s.setReg 0x7008 v2).unitReturn k.val := by simp [State.unitCmd, hk2, ho2]
    have e3 : (s.setReg 0x7008 v3).unitCmd = (s.setReg 0x7008 v3).unitRestore k.val := by simp [State.unitCmd, hk3, ho3]
    have r1 := he1.trans e1
    have r2 := he2.trans e2
    have r3 := he3.trans e3
    refine ⟨?fence, fun hj hu hi => ?back, fun hu hi => ?inUse, fun hj hu => ?refused, fun hj hu => ?restore, fun hj hu => ?noRestore,
      fun hj => ⟨?busy, ?busy'⟩⟩
    case fence =>
      obtain ⟨hf, hg⟩ := fenceSite_fenced (s.setReg 0x7008 v1) k.val .host
      exact .of rfl r1 ⟨hf, rfl, (fenceSite_ras (s.setReg 0x7008 v1) k.val .host).1, hg⟩
    case back => exact .of rfl (r2.trans (unitReturn_fenced hj hu hi)) ⟨setUnit_unit .., rfl, tblGet_tblSet_same ..⟩
    case inUse => exact .of rfl (r2.trans (unitReturn_inUse hu hi)) ⟨hu, rfl⟩
    case refused => exact .of rfl (r2.trans (unitReturn_refused hj hu)) ⟨rfl, rfl⟩
    case restore =>
      have ho : EventOnly (restored (s.setReg 0x7008 v3) k.val) _ := ev_only _ 0x0093 .info k.val 0 (restored (s.setReg 0x7008 v3) k.val).ras.gen 0 0
      have hl : LogGrown s (restored (s.setReg 0x7008 v3) k.val) := .of_log rfl
      refine .of rfl (r3.trans (unitRestore_routerOnly hj hu)) ⟨(ho.units _).1.trans ?_, by rw [ho.ras]; rfl, (ho.units k.val).2, ?_, ho.slots⟩
      · exact setUnit_unit ..
      · rw [State.ev]
        exact hl.raised ..
    case noRestore => exact .of rfl (r3.trans (unitRestore_refused hj hu)) ⟨rfl, rfl⟩
    case busy => exact .of rfl (r2.trans (unitReturn_justFenced hj)) ⟨rfl, rfl⟩
    case busy' => exact .of rfl (r3.trans (unitRestore_justFenced hj)) ⟨rfl, rfl⟩
  · obtain ⟨hf, hg⟩ := fenceSite_fenced s k.val cause
    exact .of rfl (if_pos hl) ⟨hf, (fenceSite_ras s k.val cause).1, hg⟩
  · obtain ⟨h1, h2, h3⟩ := routerBack_ras s k.val
    have ho : EventOnly (routerBack s k.val) _ := ev_only _ 0x0092 .info k.val 0 (routerBack s k.val).ras.gen 0 0
    refine .of rfl (onSelftestComplete_over hu ht none) ⟨(ho.units _).1.trans h1, (ho.units k.val).2.trans h2, ?_⟩
    rw [State.ev]
    exact (LogGrown.of_log h3).raised ..
  · have ho : EventOnly ((testOver s k.val).setUnit k.val .fenced) _ := ev_only _ 0x0091 .unit k.val w.toNat 0 0 0
    have hl := raise_logged ((testOver s k.val).setUnit k.val .fenced) 0x0091 .unit none (genPayload k.val w.toNat 0 0 0)
    exact .of rfl (onSelftestComplete_over hu ht (some w)) ⟨(ho.units _).1.trans (setUnit_unit ..), hl⟩
  · exact congrArg Host.Outcome.next (if_neg fun h => absurd h.2 (by omega))

end Sys2Proof.Machine
end

section
/-! SUPPORT. The check, the staging and the write of firmware images (16 R389; 17 R430; 18 R456, R459). -/
namespace Sys2Proof.Machine

theorem EventOnly.flash {s t : State} (h : EventOnly s t) : t.ras.flash = s.ras.flash := by rw [h.ras]

/-- An image that passes its checks is staged, before the event and the request for its write. -/
def staged (s : State) (img : List Byte) : State :=
  { s with ras := { s.ras with fwSvn := Config.imageSvn img % 64, staged := img, fwState := .checking } }

/-- An image that fails a check is refused, before the event. -/
def imageRefused (s : State) (img : List Byte) : State :=
  { s with ras := { s.ras with fwSvn := Config.imageSvn img % 64, fwState := .refused } }

section
variable {s : State} {img : List Byte} (hw : s.ras.fwState ≠ .writing) (hc : s.ras.fwState ≠ .checking)
include hw hc

theorem stageImage_passes (h : s.imageOk img = true) : s.stageImage img =
    ((staged s img).ev 0x0097 .info 0 0 (Config.imageSvn img % 64) 0 0).requestNv .flashImage := by
  simp [State.stageImage, hw, hc, h, staged]

theorem stageImage_fails (h : s.imageOk img = false) : s.stageImage img =
    (imageRefused s img).ev 0x0097 .warning 0 3 (Config.imageSvn img % 64) 0 0 := by
  simp [State.stageImage, hw, hc, h, imageRefused]

/-- The image stands staged and its write is asked for; the image in flash stays (18 R456). -/
theorem stageImage_taken (h : s.imageOk img = true) : (s.stageImage img).ras.staged = img ∧ (s.stageImage img).ras.fwState = .checking ∧
    (s.stageImage img).ras.flash.image = s.ras.flash.image ∧
    (s.stageImage img).pwr.nvWait = s.pwr.nvWait ++ [{ op := .flashImage, since := s.clk.root, starting := s.nvOpen }] := by
  rw [stageImage_passes hw hc h]
  have ho : EventOnly (staged s img) _ := ev_only _ 0x0097 .info 0 0 (Config.imageSvn img % 64) 0 0
  have hp := raise_pwr (cls := .info) rfl (staged s img) 0x0097 none (genPayload 0 0 (Config.imageSvn img % 64) 0 0)
  rw [← State.ev] at hp
  generalize (staged s img).ev 0x0097 .info 0 0 (Config.imageSvn img % 64) 0 0 = u at ho hp
  have hn : u.nvOpen = s.nvOpen := by unfold State.nvOpen; rw [hp, ho.clk]; rfl
  refine ⟨?_, ?_, ?_, ?_⟩
  · exact (congrArg RasState.staged ho.ras)
  · exact (congrArg RasState.fwState ho.ras)
  · exact congrArg Flash.image ho.flash
  · simp only [State.requestNv, hn, hp, ho.clk]
    rfl

theorem stageImage_refusedLog (h : s.imageOk img = false) : (s.stageImage img).ras.fwState = .refused ∧
    (s.stageImage img).ras.flash.image = s.ras.flash.image ∧
    Logged 0x0097 .warning none (genPayload 0 3 (Config.imageSvn img % 64) 0 0) s (s.stageImage img) := by
  rw [stageImage_fails hw hc h]
  have ho : EventOnly (imageRefused s img) _ := ev_only _ 0x0097 .warning 0 3 (Config.imageSvn img % 64) 0 0
  have hl := raise_logged (imageRefused s img) 0x0097 .warning none (genPayload 0 3 (Config.imageSvn img % 64) 0 0)
  exact ⟨congrArg RasState.fwState ho.ras, congrArg Flash.image ho.flash, hl⟩
end

/-- PLDM stages the image and holds its answer for the bus. -/
theorem onPldmFwUpdate_live {s : State} (h : s.live = true) (img : List Byte) : onPldmFwUpdate img s =
    (s.stageImage img).holdMctp { type := 1, code := (s.stageImage img).ras.fwState.code, body := [] } := if_pos h

theorem holdMctp_rest (s : State) (m : MctpMsg) : (s.holdMctp m).ras = s.ras ∧ (s.holdMctp m).pwr = s.pwr := by
  unfold State.holdMctp
  dsimp only
  split <;> exact ⟨rfl, rfl⟩

/-- `STAGE` stages the bytes of the window that its length names. -/
theorem exec_fwCtlStage {s : State} {tee : Bool} (h : WriteOpen tee s) (len : Nat) :
    exec (.fwCtlStage len tee) s = .next ((s.setReg 0x7080 (len % 2 ^ 25)).stageImage (s.imageWindow (min (len % 2 ^ 25) (2 ^ 24)))) := by
  have hbit (i : Nat) (h : i ∈ [25, 26, 27, 28]) : bitAt (len % 2 ^ 25 + 2 ^ 25) i = decide (i = 25) := by
    simp only [List.mem_cons, List.not_mem_nil, or_false] at h
    rcases h with rfl | rfl | rfl | rfl <;> simp [bitAt] <;> omega
  have hrun : (s.setReg 0x7080 (len % 2 ^ 25)).pwr.phase ≠ .recovery := by
    rw [show (s.setReg 0x7080 (len % 2 ^ 25)).pwr = s.pwr from rfl, h.2.2.1]
    decide
  have hstage : (s.setReg 0x7080 (len % 2 ^ 25)).fwStage =
      (s.setReg 0x7080 (len % 2 ^ 25)).stageImage (s.imageWindow (min (len % 2 ^ 25) (2 ^ 24))) := by
    rw [State.fwStage, rf_len_setReg, imageWindow_setReg (by decide)]
    exact if_neg hrun
  refine exec_eq_of rfl ((oneWrite_open h ..).trans ((bar0Write_fwCtl ..).trans ?_)) hstage
  simp [State.fwCtlWrite, fieldWrite_fwCtl, hbit, -Nat.reducePow]

/-! ### The write to flash -/

theorem onNvOperationStart_open {s : State} (h : s.nvOpen = true) :
    onNvOperationStart s = { s with pwr := { s.pwr with nvWait := startFirst s.pwr.nvWait } } := if_pos h

/-- The end of an MCLK cycle in which the write of the image alone starts. -/
theorem nvTick_flashImage {s : State} {since : Nat} (hr : s.clk.root % 16 = 0)
    (hw : s.pwr.nvWait = [{ op := .flashImage, since := since, starting := true }]) :
    s.nvTick = ({ s with pwr := { s.pwr with nvWait := [] } } : State).startNv .flashImage := by
  simp [State.nvTick, hr, hw]

theorem watchIdle_nvRunning (s : State) : (watchIdle s).pwr.nvRunning = s.pwr.nvRunning := by unfold watchIdle; split <;> rfl

theorem step_flashImage {s : State} {since : Nat} (hc : CycleEnds s)
    (hw : s.pwr.nvWait = [{ op := .flashImage, since := since, starting := true }]) :
    ∃ t, step s = .next t ∧ t.ras.fwState = .writing ∧ NvOp.flashImage ∈ t.pwr.nvRunning ∧ t.pwr.nvWait = [] := by
  obtain ⟨u, hsec, hpwr, hras, hroot, ht⟩ := tick_running hc
  obtain ⟨hpend, -, -, hend, -⟩ := hc
  rw [nvTick_flashImage (by rwa [hroot]) (by rw [hpwr, hw])] at ht
  refine ⟨s.tick, by simp [step, hpend], ?_, ?_, ?_⟩
  · rw [ht, watchIdle_ras]
    rfl
  · rw [ht, watchIdle_nvRunning]
    simp [State.startNv]
  · rw [ht, watchIdle_nvWait]
    rfl

/-- The staged image stands in flash, before the event. -/
def imageWritten (s : State) : State :=
  { s with
    pwr := { s.pwr with nvRunning := s.pwr.nvRunning.filter (· != .flashImage) }
    ras := { s.ras with fwState := .written, flash := { s.ras.flash with image := s.ras.staged } } }

theorem onFwWriteComplete_running {s : State} (h : NvOp.flashImage ∈ s.pwr.nvRunning) :
    onFwWriteComplete s = (imageWritten s).ev 0x0097 .info 0 1 s.ras.fwSvn 0 0 := if_pos (by simpa using h)

/-- Settles O25: staging is one function for `STAGE` and for PLDM; the write starts at a cycle's end and is over when it completes. -/
theorem imagesAreCheckedAndWritten : Obligations.ImagesAreCheckedAndWritten := by
  unfold Obligations.ImagesAreCheckedAndWritten
  refine ⟨fun img s hl hw hc => ⟨fun hi => ?_, fun hi => ?_⟩, fun len tee s ho hw hc => ⟨fun hi => ?_, fun hi => ?_⟩,
    fun s w ws hws hw => ⟨fun ho => ?_, fun ho => ?_⟩, fun s since hc hw => step_flashImage hc hw, fun s hr => ?_,
    fun s hb => congrArg Host.Outcome.next (if_pos hb)⟩
  · obtain ⟨h1, h2, h3⟩ := stageImage_refusedLog hw hc hi
    obtain ⟨hr, -⟩ := holdMctp_rest (s.stageImage img) { type := 1, code := (s.stageImage img).ras.fwState.code, body := [] }
    exact .of rfl (onPldmFwUpdate_live hl img) ⟨by rw [hr, h1], by rw [hr, h2], h3.congr rfl rfl hr⟩
  · obtain ⟨h1, h2, h3, h4⟩ := stageImage_taken hw hc hi
    obtain ⟨hr, hp⟩ := holdMctp_rest (s.stageImage img) { type := 1, code := (s.stageImage img).ras.fwState.code, body := [] }
    exact .of rfl (onPldmFwUpdate_live hl img) ⟨by rw [hr, h1], by rw [hr, h2], by rw [hr, h3], by rw [hp, h4]⟩
  · exact (answers_iff (exec_fwCtlStage ho len)).2 (stageImage_refusedLog (s := s.setReg _ _) hw hc hi)
  · exact (answers_iff (exec_fwCtlStage ho len)).2 (stageImage_taken (s := s.setReg _ _) hw hc hi)
  · refine .of rfl (onNvOperationStart_open ho) ?_
    simp [hws, startFirst, hw]
  · exact congrArg Host.Outcome.next (if_neg (by simp [ho]))
  · have ho : EventOnly (imageWritten s) _ := ev_only _ 0x0097 .info 0 1 s.ras.fwSvn 0 0
    have hp := raise_pwr (cls := .info) rfl (imageWritten s) 0x0097 none (genPayload 0 1 s.ras.fwSvn 0 0)
    refine .of rfl (onFwWriteComplete_running hr) ⟨congrArg Flash.image ho.flash, congrArg RasState.fwState ho.ras, ?_⟩
    rw [State.ev, hp]
    simp [imageWritten]

end Sys2Proof.Machine
end

section
/-! SUPPORT. What a kill leaves of the host link, the TDI and the IDE streams (11 R271, R272), and the test port (19 R479, 20 R488). -/
namespace Sys2Proof.Machine

/-! ### A kill leaves the link as it is -/

/-- The link is as before, but for the interrupts that wait; while the link is down and the Cage stopped, no record or event is held in
addition. -/
structure LinkKept (s t : State) : Prop where
  cxl : t.cxl = { s.cxl with msixPending := t.cxl.msixPending }
  held : s.cxl.cageStopped = true → s.cxl.up = false → t.cage.held = s.cage.held

namespace LinkKept
variable {s t u : State}
theorem of_same (h : t.cxl = s.cxl) (hc : t.cage.held = s.cage.held) : LinkKept s t := ⟨by rw [h], fun _ _ => hc⟩
theorem refl (s : State) : LinkKept s s := .of_same rfl rfl
theorem after (b : LinkKept t u) (a : LinkKept s t) : LinkKept s u :=
  ⟨by rw [b.cxl, a.cxl], fun h1 h2 => (b.held (by rw [a.cxl]; exact h1) (by rw [a.cxl]; exact h2)).trans (a.held h1 h2)⟩
theorem of_keeps {p : Nat} (h : Keeps p s t) (hp : p.testBit Field.cxl.place = false) (hc : p.testBit Field.cage.place = false) :
    LinkKept s t := .of_same (h.frame.same (f := .cxl) hp) (congrArg CageState.held (h.frame.same (f := .cage) hc))
theorem foldl {β : Type} {f : State → β → State} (h : ∀ s x, LinkKept s (f s x)) (l : List β) (s : State) : LinkKept s (l.foldl f s) := by
  induction l generalizing s with
  | nil => exact .refl s
  | cons x l ih => exact (ih _).after (h s x)
theorem ite {c : Prop} [Decidable c] (ha : LinkKept s t) (hb : LinkKept s u) : LinkKept s (if c then t else u) := by
  split
  · exact ha
  · exact hb
end LinkKept

/-- With the link down an event is lost, not held (18 R443). -/
theorem raise_held {s : State} (h : s.cxl.up = false) (code : Nat) (cls : EvClass) (slot : Option (Fin 8)) (payload : List Byte) :
    (s.raise code cls slot payload).cage.held = s.cage.held := by
  have hpost (u : State) (hu : u.cxl.up = false) (e : EventRec) : (u.evPost e).cage.held = u.cage.held := by
    unfold State.evPost
    rw [if_pos (by simp [hu])]
    rfl
  have hlog (u : State) (e : EventRec) : (u.evLog e).cage = u.cage ∧ (u.evLog e).cxl = u.cxl := by
    unfold State.evLog
    split <;> exact ⟨rfl, rfl⟩
  unfold State.raise
  dsimp only
  rw [hpost]
  · split <;> exact congrArg CageState.held (hlog _ _).1
  · split <;> exact (congrArg CxlState.up (hlog _ _).2).trans h

theorem raise_link (s : State) (code : Nat) (cls : EvClass) (slot : Option (Fin 8)) (payload : List Byte) :
    LinkKept s (s.raise code cls slot payload) := ⟨(raise_only ..).cxl, fun _ h => raise_held h ..⟩

theorem complete_link (s : State) (d : Started) (status detail : Nat) (result : List Byte) :
    LinkKept s (s.complete d status detail result) := by
  refine ⟨(complete_only ..).cxl, fun h _ => ?_⟩
  unfold State.complete State.finish
  dsimp only
  rw [if_pos (.inr h)]
  rfl

theorem copyAborted_link (s : State) (d : Started) : LinkKept s (s.copyAborted d) := by
  unfold State.copyAborted
  split
  · split
    · split
      · next j _ _ r p _ => exact (raise_link ..).after (.of_keeps (State.send_keeps ..) rfl rfl)
      · exact .refl s
    · exact .refl s
  · exact .refl s

theorem preemptSlot_link (s : State) (n : Nat) : LinkKept s (s.preemptSlot n) :=
  .foldl (fun _ _ => .ite ((copyAborted_link ..).after (complete_link ..)) (.refl _)) _ _

theorem endBarriers_link (s : State) (n : Nat) (p : BarrierJob → Bool) (status : Nat) (result : List Byte) :
    LinkKept s (s.endBarriers n p status result) := by
  refine .foldl (fun s d => ?_) _ _
  split
  · exact .ite (complete_link ..) (.refl s)
  · exact .refl s

theorem abortBarrier_link (s : State) (n fjob bid : Nat) (origin : Option Nat) : LinkKept s (s.abortBarrier n fjob bid origin) := by
  unfold State.abortBarrier
  extract_lets s1 s2
  have h1 : LinkKept s s1 := by
    unfold s1
    split
    · exact .foldl (fun s d => .ite (.refl s) (.of_keeps (State.sendBar_keeps ..) rfl rfl)) _ _
    · exact .refl s
  have h2 : LinkKept s1 s2 := by
    unfold s2
    split
    · exact .of_keeps (State.setSluice_keeps ..) rfl rfl
    · exact .refl s1
  exact (endBarriers_link ..).after (h2.after h1)

theorem failBarriers_link (s : State) (n : Nat) : LinkKept s (s.failBarriers n) := by
  unfold State.failBarriers
  have hb (s : State) (b : Nat × Nat) : LinkKept s (s.abortBarrier n b.1 b.2 none) := abortBarrier_link s n b.1 b.2 none
  extract_lets opened
  have h := LinkKept.foldl hb opened s
  exact (endBarriers_link _ n (fun _ => true) 0x10 []).after h

theorem releaseSlot_link (s : State) (n : Nat) : LinkKept s (s.releaseSlot n) := by
  unfold State.releaseSlot
  extract_lets s1 s2 s3 s4 s5
  have h1 : LinkKept s s1 := .of_keeps (s.flushTails_keeps n) rfl rfl
  have h2 : LinkKept s1 s2 := .of_keeps (Keeps.foldl _ _ _ _ State.releaseCtx_keeps (.refl s1)) rfl rfl
  have h3 : LinkKept s2 s3 := .of_keeps (Keeps.foldl _ _ _ _ (fun s k => s.releaseWindows_keeps n k) (.refl s2)) rfl rfl
  have h4 : LinkKept s3 s4 := .of_keeps (State.closeRetained_keeps ..) rfl rfl
  have h5 : LinkKept s4 s5 := failBarriers_link s4 n
  clear_value s1 s2 s3 s4 s5
  refine LinkKept.after (t := s5) ?_ ((((h5.after h4).after h3).after h2).after h1)
  exact .of_same rfl rfl

theorem killStart_link (s : State) (n : Nat) : LinkKept s (s.killStart n) := by
  unfold State.killStart
  exact .ite (.refl s) ((preemptSlot_link ..).after ((releaseSlot_link ..).after (.of_same rfl rfl)))

theorem killAll_link (s : State) : LinkKept s s.killAll := .foldl killStart_link _ _

/-- A TDI that is not in ERROR yet goes there; the rest of the link stays but for the interrupts that wait. -/
theorem tdiError_cxl (s : State) (item : Nat) (h : s.cxl.tdi ≠ .error) :
    (s.tdiError item).cxl = { s.cxl with tdi := .error, msixPending := (s.tdiError item).cxl.msixPending } := by
  have ho : EventOnly s _ := ev_only s 0x0042 .warning 0 item 0 0 0
  unfold State.tdiError
  rw [if_neg h]
  dsimp only
  generalize s.ev 0x0042 .warning 0 item 0 0 0 = u at ho
  have hk := (killAll_link { u with cxl := { u.cxl with tdi := .error } }).cxl
  generalize State.killAll { u with cxl := { u.cxl with tdi := .error } } = v at hk
  change v.cxl = { s.cxl with tdi := .error, msixPending := v.cxl.msixPending }
  rw [hk]
  dsimp only
  rw [ho.cxl]

/-! ### IDE streams -/

theorem setIde_ideKeys (s : State) (st : IdeStream) (k : IdeKeys) : (s.setIde st k).ideKeys st = k := tblGet_tblSet_same ..

theorem tdiError_ide {s : State} (h : s.cxl.tdi ≠ .error) (item : Nat) : (s.tdiError item).cxl.tdi = .error ∧
    ∀ st, (s.tdiError item).ideKeys st = s.ideKeys st := by
  have hc := tdiError_cxl s item h
  refine ⟨by rw [hc], fun st => ?_⟩
  unfold State.ideKeys
  rw [hc]

section
variable {s : State} (hl : s.live = true) (hu : s.cxl.up = true) (hs : s.sec.sessions ≠ [])
include hl hu hs

theorem onIdeKm_session (op : IdeKmOp) : onIdeKm op s = match op with
    | .program st k => s.setIde st { s.ideKeys st with programmed := some k }
    | .start st k =>
      if (s.ideKeys st).programmed = some k then s.setIde st { state := .secure, keySet := k, programmed := none } else s
    | .stop st => s.lockedChange (s.setIde st IdeKeys.none) 3 := by
  unfold onIdeKm
  exact (if_neg (by simp [hl, hu, hs])).trans (by cases op <;> rfl)
end

/-- A stream whose integrity check failed is Insecure, and the error is noted in the link's registers, before the event. -/
def ideBroken (s : State) (st : IdeStream) : State :=
  let s0 : State := if st = .cachemem then { s with cxl := { s.cxl with rasUncor := s.cxl.rasUncor ||| 0x10000 } }
    else { s with cxl := { s.cxl with aer := s.cxl.aer ||| 0x10000000 } }
  (s0.setIde st { s.ideKeys st with state := .insecure }).bump 0x9138

theorem ideBroken_rest (s : State) (st : IdeStream) : (ideBroken s st).ideKeys st = { s.ideKeys st with state := .insecure } ∧
    (ideBroken s st).cxl.tdi = s.cxl.tdi ∧ (ideBroken s st).ras = s.ras ∧ (ideBroken s st).clk = s.clk := by
  unfold ideBroken
  dsimp only
  refine ⟨setIde_ideKeys .., ?_⟩
  split <;> exact ⟨rfl, rfl, rfl⟩

section
variable {s : State} {st : IdeStream} (hu : s.cxl.up = true) (hs : (s.ideKeys st).state = .secure)
include hu hs

theorem onIdeStreamReceive_bad : onIdeStreamReceive st false s =
    if s.cxl.tdi = .run then ((ideBroken s st).ev 0x0041 .warning st.code 0 0 0 0).tdiError 3
    else (ideBroken s st).ev 0x0041 .warning st.code 0 0 0 0 := by
  unfold onIdeStreamReceive
  exact if_neg (by simp [hu, hs])

end

theorem onIdeStreamReceive_good (s : State) (st : IdeStream) : onIdeStreamReceive st true s = s := if_pos (.inr (.inr rfl))

/-- Settles O31: the streams' keys are one table of the link, which neither the event nor the kill that an ERROR brings touches. -/
theorem ideStreamsMove : Obligations.IdeStreamsMove := by
  unfold Obligations.IdeStreamsMove
  refine ⟨fun st k s hl hu hs => ?_, fun st s hu hs => ?_⟩
  · have hkm := onIdeKm_session hl hu hs
    refine ⟨.of rfl (hkm _) (setIde_ideKeys ..), fun hp => ?_, fun hf => ?_, fun hf => ?_⟩
    · exact .of rfl ((hkm _).trans (if_pos hp)) (setIde_ideKeys ..)
    · refine .of rfl ((hkm _).trans (if_neg (by simp [hf]))) ?_
      rw [setIde_ideKeys]
      rfl
    · have ht : (s.setIde st IdeKeys.none).cxl.tdi ≠ .error := fun h => by
        have h' : s.cxl.tdi = .error := h
        simp [State.tdiFrozen, h'] at hf
      exact .of rfl ((hkm _).trans (if_pos hf)) (tdiError_ide ht 3).1
  · obtain ⟨hk, ht, hr, hc⟩ := ideBroken_rest s st
    have hev : EventOnly (ideBroken s st) _ := ev_only _ 0x0041 .warning st.code 0 0 0 0
    have hkeys : ((ideBroken s st).ev 0x0041 .warning st.code 0 0 0 0).ideKeys st = { s.ideKeys st with state := .insecure } := by
      rw [← hk]
      unfold State.ideKeys
      rw [hev.cxl]
    refine ⟨fun hn => ?_, fun hn => ?_, congrArg Host.Outcome.next (onIdeStreamReceive_good s st)⟩
    · have hl := raise_logged (ideBroken s st) 0x0041 .warning none (genPayload st.code 0 0 0 0)
      exact .of rfl ((onIdeStreamReceive_bad hu hs).trans (if_neg hn)) ⟨by rw [hkeys], hl.congr hr.symm hc.symm rfl⟩
    · have ht' : ((ideBroken s st).ev 0x0041 .warning st.code 0 0 0 0).cxl.tdi ≠ .error := by
        rw [hev.cxl]
        simp [ht, hn]
      obtain ⟨h1, h2⟩ := tdiError_ide ht' 3
      exact .of rfl ((onIdeStreamReceive_bad hu hs).trans (if_pos hn)) ⟨by rw [h2, hkeys], h1⟩

/-! ### STOP_INTERFACE_COMPLETE -/

theorem zeroUnsealed_byte {s : State} (h : s.sec.sealed = []) {a : Nat} (ha : hbmSize ≤ a) : s.zeroUnsealed.hbmByte a = s.hbmByte a := by
  have hz : s.zeroUnsealed = s.hbmZero 0 hbmSize := by simp [State.zeroUnsealed, State.unsealed, h]
  rw [hz, hbmZero_byte, if_neg (by omega)]

/-- With no slot and no region left, the bytes after the interface has stopped are those that the scrub leaves. -/
theorem onStopInterfaceComplete_byte {s : State} (h1 : s.cxl.stopping = true) (h2 : ∀ n < 8, (s.slot n).killing = false)
    (h3 : s.sec.sealed = []) (a : Nat) : (onStopInterfaceComplete s).hbmByte a = s.zeroUnsealed.hbmByte a := by
  have he : onStopInterfaceComplete s =
      (s.zeroUnsealed.withCxl { s.zeroUnsealed.cxl with stopping := false, tdi := .unlocked }).emit (.tdisp true) :=
    if_pos ⟨h1, by simpa using h2, by simp [h3]⟩
  have hk := State.withCxl_keeps s.zeroUnsealed { s.zeroUnsealed.cxl with stopping := false, tdi := .unlocked } id
  have hcells := hk.frame.same (f := .memory) rfl
  rw [he]
  exact hbmByte_congr (s := s.zeroUnsealed) hcells a

/-- A state that stops its interface with no slot and no region, and whose memory lists a byte beyond the last address of HBM. -/
def strayByte : State :=
  { State.reset with
    cxl := { State.reset.cxl with stopping := true }, hbm := { State.reset.hbm with cells := [(hbmSize, 1)] } }

theorem strayByte_hbmByte : strayByte.hbmByte hbmSize = 1 := by simp [State.hbmByte, strayByte, tblGet]

/-- Refutes O30: the scrub that ends STOP_INTERFACE zeroes the addresses of HBM, and the statement asks for a zero at every number; a
state whose memory lists a byte at the first number beyond HBM keeps that byte. -/
theorem not_interfaceMoves : ¬ Obligations.InterfaceMoves := by
  unfold Obligations.InterfaceMoves
  rintro ⟨-, h⟩
  have hkill : ∀ n < 8, (strayByte.slot n).killing = false := fun _ _ => rfl
  have hnone : strayByte.sec.sealed = [] := rfl
  obtain ⟨t, ht, -, -, -, hzero⟩ := h strayByte rfl hkill (by simp [hnone])
  obtain rfl : onStopInterfaceComplete strayByte = t := Host.Outcome.next.inj ht
  have h0 := hzero hbmSize (by simp [hnone])
  rw [onStopInterfaceComplete_byte rfl hkill hnone, zeroUnsealed_byte hnone le_rfl, strayByte_hbmByte] at h0
  exact absurd h0 (by decide)

/-! ### The test port -/

/-- Bits below the revision's four. -/
theorem bitAt_below (d c : Nat) {i : Nat} (h : i < 28) : bitAt (d * 2 ^ 28 + c) i = bitAt c i := by
  unfold bitAt
  interval_cases i <;> simp only [beq_eq_beq] <;> omega

/-- The revision's bits. -/
theorem bitAt_above (d : Nat) {c i : Nat} (hc : c < 2 ^ 28) (h : i < 4) : bitAt (d % 16 * 2 ^ 28 + c) (28 + i) = bitAt d i := by
  unfold bitAt
  interval_cases i <;> simp only [beq_eq_beq] <;> omega

/-- The IDCODE of a part of metal revision `d`; with the revision a variable, its arithmetic stays symbolic. -/
def idcodeOf (d : Byte) : Nat := d.toNat % 16 * 2 ^ 28 + 0x96244A3

theorem idcode_eq : idcode = idcodeOf Config.devRev := rfl

theorem idcodeOf_low (d : Byte) {i : Nat} (h : i < 28) : bitAt (idcodeOf d) i = bitAt 0x96244A3 i := bitAt_below _ _ h

theorem idcodeOf_high (d : Byte) {i : Nat} (h : i < 4) : bitAt (idcodeOf d) (28 + i) = bitAt d.toNat i := bitAt_above _ (by norm_num) h

theorem idcode_bits {n i : Nat} (h : i < n) : ((List.range n).map fun i => bitAt idcode i)[i]? = some (bitAt idcode i) := by
  rw [List.getElem?_map, List.getElem?_range h]
  rfl

/-- Settles O33: each instruction acts where the tap is up, which a running device's is. -/
theorem testPortActs : Obligations.TestPortActs := by
  unfold Obligations.TestPortActs
  intro s hp
  have hup : s.tapUp = true := by simp [State.tapUp, hp]
  refine ⟨.of rfl (if_pos hup) ⟨rfl, _, rfl, by simp, fun i hi => ?_, fun i hi => ?_⟩, congrArg Host.Outcome.next (if_pos hup),
    fun lands load => congrArg Host.Outcome.next (if_pos hup), fun h => ?_, fun h => ?_⟩
  · rw [idcode_bits (by omega), idcode_eq, idcodeOf_low _ hi]
  · rw [idcode_bits (by omega), idcode_eq, idcodeOf_high _ hi]
  · exact congrArg Host.Outcome.next ((if_neg (by simp [hup])).trans (if_neg (by simp [h])))
  · exact .of rfl ((if_neg (by simp [hup])).trans (if_pos h)) ⟨rfl, rfl, rfl⟩

end Sys2Proof.Machine
end

section
/-! SUPPORT. The SPDM responder (16 R391 to R394; 19 R476). -/
namespace Sys2Proof.Machine

/-! ### Responses -/

/-- A response goes out over DOE, or waits for the bus. -/
def Said (m : Bool) (s t : State) : Prop := if m = true then t.sec.mctp.length = s.sec.mctp.length + 1 else t.out.length = s.out.length + 1

theorem spdm_doe (s : State) (code : Nat) (body : List Byte) : s.spdm false code body = s.emit (.spdm code body) := rfl

theorem spdm_mctp (s : State) (code : Nat) (body : List Byte) :
    (s.spdm true code body).sec = { s.sec with mctp := s.sec.mctp ++ [{ type := 5, code := code, body := body }] } := by
  unfold State.spdm State.holdMctp
  dsimp only
  rw [if_pos rfl]
  split <;> rfl

/-- A response changes nothing of the security state but the messages that wait. -/
theorem spdm_sec (s : State) (m : Bool) (code : Nat) (body : List Byte) :
    (s.spdm m code body).sec = { s.sec with mctp := (s.spdm m code body).sec.mctp } := by
  cases m
  · rfl
  · rw [spdm_mctp]

theorem spdm_said {s u : State} (m : Bool) (h1 : u.sec.mctp = s.sec.mctp) (h2 : u.out = s.out) (code : Nat) (body : List Byte) :
    Said m s (u.spdm m code body) := by
  unfold Said
  cases m
  · simp [spdm_doe, State.emit, h2]
  · simp [spdm_mctp, h1]

section
variable {m : Bool} {s : State} (hup : s.spdmUp m = true)
include hup

theorem onGetVersion_up : onGetVersion m s =
    ({ s with sec := { s.sec with conn := .version } } : State).spdm m 0x04 (Config.spdmBody 0x84 [] 0) := if_pos hup
theorem onGetCapabilities_up : onGetCapabilities m s = if s.sec.conn = .none ∨ s.sec.conn = .failed then s.spdm m 0x7F []
    else ({ s with sec := { s.sec with conn := .capabilities } } : State).spdm m 0x61 (Config.spdmBody 0xE1 [] 0) := if_neg (by simp [hup])
theorem onNegotiateAlgorithms_up (o : SpdmOffer) : onNegotiateAlgorithms m o s = if s.sec.conn ≠ .capabilities then s.spdm m 0x7F []
    else if o.asym && o.hash && o.measHash && o.dhe && o.aead && o.keySched then
      ({ s with sec := { s.sec with conn := .negotiated } } : State).spdm m 0x63 (Config.spdmBody 0xE3 [] 0)
    else ({ s with sec := { s.sec with conn := .failed } } : State).spdm m 0x7F [] := if_neg (by simp [hup])
theorem onGetCertificate_up (slot offset len : Nat) : onGetCertificate m slot offset len s =
    if !s.negotiated ∨ slot ≠ 0 then s.spdm m 0x7F [] else s.spdm m 0x02 ((Config.certChain.drop offset).take len) := if_neg (by simp [hup])
theorem onChallenge_signed (hn : s.sec.conn = .negotiated) (nonce : List Byte) :
    ∃ body, onChallenge m 0 nonce s = (s.spdm m 0x03 body).draw := by
  simp only [onChallenge, hup, State.negotiated, hn]
  exact ⟨_, rfl⟩
theorem onChallenge_refused (hn : s.negotiated = false) (slot : Nat) (nonce : List Byte) : onChallenge m slot nonce s = s.spdm m 0x7F [] :=
  (if_neg (by simp [hup])).trans (if_pos (by simp [hn]))
theorem onKeyExchange_up : onKeyExchange m s = if !s.negotiated then s.spdm m 0x7F []
    else if 4 ≤ s.sec.sessions.length then s.spdm m 0x7F [0x0A]
    else (({ s with sec := { s.sec with
      sessions := s.sec.sessions ++ [{ id := s.sec.sessionSerial, keyGen := 0 }], sessionSerial := s.sec.sessionSerial + 1 } } : State).spdm m
        0x64 (s.drbg 64)).draw := if_neg (by simp [hup])

/-- A signed answer draws a nonce; what it says is no matter of the state. -/
theorem onGetMeasurements_signed (hn : s.sec.conn = .negotiated) (q : MeasReq) (nonce : List Byte) :
    ∃ body, onGetMeasurements m q true nonce s = (s.spdm m 0x60 body).draw := by
  simp only [onGetMeasurements, hup, State.negotiated, hn]
  exact ⟨_, rfl⟩
theorem onGetMeasurements_count (hn : s.sec.conn = .negotiated) (nonce : List Byte) : onGetMeasurements m .count false nonce s = s.spdm m 0x60 [29] := by
  simp only [onGetMeasurements, hup, State.negotiated, hn]
  rfl
theorem onGetMeasurements_one (hn : s.sec.conn = .negotiated) (i : Nat) (nonce : List Byte) :
    onGetMeasurements m (.one i) false nonce s = s.spdm m 0x60 (leBytes 1 i ++ s.measurement i) := by
  simp only [onGetMeasurements, hup, State.negotiated, hn]
  rfl
theorem onGetMeasurements_refused (hn : s.sec.conn ≠ .negotiated) (q : MeasReq) (sign : Bool) (nonce : List Byte) :
    onGetMeasurements m q sign nonce s = s.spdm m 0x7F [] := by
  have hn' : s.negotiated = false := by simpa [State.negotiated] using hn
  unfold onGetMeasurements
  rw [if_neg (by simp [hup]), if_pos (by simp [hn'])]
  rfl

variable {x : SpdmSession} (hx : x ∈ s.sec.sessions)
include hx

theorem onKeyUpdate_open : onKeyUpdate m x.id s = ({ s with sec := { s.sec with sessions := s.sec.sessions.map fun y =>
    if y.id = x.id then { y with keyGen := y.keyGen + 1 } else y } } : State).spdm m 0x69 [] :=
  if_pos (by simp only [hup, Bool.true_and, List.any_eq_true]; exact ⟨x, hx, by simp⟩)
theorem onEndSession_open : onEndSession m x.id s = (s.closeSession x.id).spdm m 0x6C [] :=
  if_pos (by simp only [hup, Bool.true_and, List.any_eq_true]; exact ⟨x, hx, by simp⟩)
end

theorem draw_rest (s : State) : s.draw.sec = s.sec ∧ s.draw.out = s.out := ⟨rfl, rfl⟩

theorem closeSession_gone (s : State) (id : Nat) : ∀ y ∈ (s.closeSession id).sec.sessions, y.id ≠ id := fun y hy => by
  simpa using (List.mem_filter.mp hy).2

theorem closeSession_others {s : State} {id : Nat} {y : SpdmSession} (hy : y ∈ s.sec.sessions) (h : y.id ≠ id) :
    y ∈ (s.closeSession id).sec.sessions := List.mem_filter.mpr ⟨hy, by simpa using h⟩

/-- Settles O32: each request is answered with one response, over DOE or held for the bus, and changes of the security state what its
arm says. -/
theorem responderAnswers : Obligations.ResponderAnswers := by
  unfold Obligations.ResponderAnswers
  refine ⟨fun code body s => ⟨spdm_doe .., spdm_mctp ..⟩, fun m s hl hm => ?_, fun s hl hu => congrArg Host.Outcome.next (if_pos ⟨hl, hu⟩)⟩
  intro said refused
  have hup : s.spdmUp m = true := by
    unfold State.spdmUp
    rcases hm with rfl | hm <;> simp [*]
  have hsaid {u : State} (h1 : u.sec.mctp = s.sec.mctp) (h2 : u.out = s.out) (code : Nat) (body : List Byte) :
      said (u.spdm m code body) := spdm_said m h1 h2 code body
  refine ⟨?version, fun h1 h2 => ?caps, fun h => ?noCaps, fun o => ⟨fun h => ?alg, fun h => ?noAlg⟩, fun hn => ?negotiated, fun hn => ?refused,
    fun x hx => ⟨?update, ?finish, ?beat⟩⟩
  case version =>
    refine .of rfl (onGetVersion_up hup) ⟨?_, ?_, hsaid (by rfl) (by rfl) _ _⟩ <;> rw [spdm_sec]
  case caps =>
    refine .of rfl ((onGetCapabilities_up hup).trans (if_neg (by simp [h1, h2]))) ⟨?_, hsaid (by rfl) (by rfl) _ _⟩
    rw [spdm_sec]
  case noCaps => exact exec_eq_of rfl (onGetCapabilities_up hup) (if_pos h)
  case alg =>
    refine .of rfl ((onNegotiateAlgorithms_up hup o).trans (if_neg (by simp [h]))) ?_
    split
    · exact ⟨hsaid (by rfl) (by rfl) _ _, by rw [spdm_sec]⟩
    · exact ⟨hsaid (by rfl) (by rfl) _ _, by rw [spdm_sec]⟩
  case noAlg => exact exec_eq_of rfl (onNegotiateAlgorithms_up hup o) (if_pos h)
  case negotiated =>
    have hneg : s.negotiated = true := by simp [State.negotiated, hn]
    refine ⟨fun offset len => ?_, fun nonce => ?_, fun nonce => ?_, fun i nonce => ?_, fun q nonce => ?_, fun h => ?_, fun h => ?_⟩
    · exact exec_eq_of rfl (onGetCertificate_up hup ..) (if_neg (by simp [hneg]))
    · obtain ⟨body, hb⟩ := onChallenge_signed hup hn nonce
      refine .of rfl hb ⟨?_, ?_, hsaid (by rfl) (by rfl) _ _⟩ <;> rw [(draw_rest _).1, spdm_sec]
      exact hn
    · exact congrArg Host.Outcome.next (onGetMeasurements_count hup hn nonce)
    · exact congrArg Host.Outcome.next (onGetMeasurements_one hup hn i nonce)
    · obtain ⟨body, hb⟩ := onGetMeasurements_signed hup hn q nonce
      refine .of rfl hb ⟨?_, hsaid (by rfl) (by rfl) _ _⟩
      rw [(draw_rest _).1, spdm_sec]
    · refine .of rfl ((onKeyExchange_up hup).trans ((if_neg (by simp [hneg])).trans (if_neg (by omega)))) ⟨hsaid (by rfl) (by rfl) _ _, ?_⟩
      rw [(draw_rest _).1, spdm_sec]
    · exact exec_eq_of rfl (onKeyExchange_up hup) ((if_neg (by simp [hneg])).trans (if_pos h))
  case refused =>
    have hneg : s.negotiated = false := by simpa [State.negotiated] using hn
    intro slot offset len q sign nonce
    exact ⟨exec_eq_of rfl (onGetCertificate_up hup ..) (if_pos (by simp [hneg])), congrArg Host.Outcome.next (onChallenge_refused hup hneg slot nonce),
      congrArg Host.Outcome.next (onGetMeasurements_refused hup hn q sign nonce), exec_eq_of rfl (onKeyExchange_up hup) (if_pos (by simp [hneg]))⟩
  case update =>
    refine .of rfl (onKeyUpdate_open hup hx) ⟨?_, ?_, hsaid (by rfl) (by rfl) _ _⟩ <;> rw [spdm_sec]
    · exact List.mem_map.mpr ⟨x, hx, if_pos rfl⟩
    · exact List.length_map ..
  case finish =>
    refine .of rfl (onEndSession_open hup hx) ⟨?_, fun y hy hne => ?_, hsaid (by rfl) (by rfl) _ _⟩ <;> rw [spdm_sec]
    · exact closeSession_gone s x.id
    · exact closeSession_others hy hne
  case beat => exact .of rfl rfl (closeSession_gone s x.id)

end Sys2Proof.Machine
end

section
/-! SUPPORT. Host CXL.mem reads and writes (10 R245, R246; 11 R267). -/
namespace Sys2Proof.Machine

/-! ### Bytes stored -/

theorem putBytes_byte (l : List Byte) (s : State) (a b : Nat) :
    (s.putBytes a l).hbmByte b = if a ≤ b ∧ b < a + l.length then l.getD (b - a) 0 else s.hbmByte b := by
  induction l generalizing s a with
  | nil => exact (if_neg (by simp)).symm
  | cons x l ih =>
    rw [State.putBytes, ih]
    by_cases h : a + 1 ≤ b ∧ b < a + 1 + l.length
    · obtain ⟨n, hn⟩ : ∃ n, b - a = n + 1 := ⟨b - a - 1, by omega⟩
      rw [if_pos h, if_pos (by simp only [List.length_cons]; omega), hn, show b - (a + 1) = n by omega]
      rfl
    · rw [if_neg h]
      by_cases hb : b = a
      · subst hb
        rw [if_pos (by simp), setHbmByte_same, Nat.sub_self]
        rfl
      · rw [if_neg (by simp only [List.length_cons]; omega), setHbmByte_other hb]

theorem hbmBytes_getD (s : State) (a n : Nat) {i : Nat} (h : i < n) : (s.hbmBytes a n).getD i 0 = s.hbmByte (a + i) := by
  simp [State.hbmBytes, h]

theorem merge_getD (old new : List Byte) (mask : BitVec 64) {i : Nat} (h : i < 64) :
    (merge old new mask).getD i 0 = if mask.getLsbD i then new.getD i 0 else old.getD i 0 := by
  simp [merge, h]

/-! ### One access -/

/-- An access to a pseudo-channel that sleeps waits for it, and takes its place in the line's order at once (log entry 24). -/
def noteWaiting (s : State) (a : Nat) (h : HostMem) : State :=
  match s.pc (pcOf a) with
  | .powerDown | .waking _ => { s with hbm := { s.hbm with waiting := s.hbm.waiting ++ [h] } }
  | _ => s

theorem noteWaiting_hbm (s : State) (a : Nat) (h : HostMem) : noteWaiting s a h = { s with hbm := (noteWaiting s a h).hbm } ∧
    (noteWaiting s a h).hbm = { s.hbm with waiting := (noteWaiting s a h).hbm.waiting } := by
  unfold noteWaiting
  split <;> exact ⟨rfl, rfl⟩

theorem noteWaiting_keeps (s : State) (a : Nat) (h : HostMem) : Keeps 0x800 s (noteWaiting s a h) := by
  have waits : Keeps 0x800 s { s with hbm := { s.hbm with waiting := s.hbm.waiting ++ [h] } } :=
    .mk' (.refl s) (.rfl' _) id id id id id <| .ofAny fun f => by
      cases f <;> simp [Field.Same, Field.place]
      exact .inl rfl
  unfold noteWaiting
  split
  · exact waits
  · exact waits
  · exact .refl s

section
variable {s : State} {l a : Nat} (hw : s.windowAddr (64 * l) = some a) (ht : s.cxl.tdi ≠ .error) (hi : s.pwr.idle = 0)
  (h4 : s.pwr.a4Wait = false)
include hw ht hi h4

theorem hostMem_read : s.hostMem { line := l, write := none } = (noteWaiting s a { line := l, write := none }).hostReadLine (64 * l) a := by
  simp only [State.hostMem, hw, ht, if_false, wake_open hi h4, hi, Nat.lt_irrefl]
  rfl

theorem hostMem_write (d : List Byte) (m : BitVec 64) : s.hostMem { line := l, write := some (d, m) } =
    (noteWaiting s a { line := l, write := some (d, m) }).hostWriteLine (64 * l) a d m := by
  simp only [State.hostMem, hw, ht, if_false, wake_open hi h4, hi, Nat.lt_irrefl]
  rfl
end

/-! ### A line read -/

/-- A line that may be read, before its bytes go out: its channel's counters have moved. -/
def lineCounted (s : State) (a : Nat) : State := ((s.touchPc (a / 64)).bumpMem (chanBase (chanOf a))).bumpMem (chanBase (chanOf a) + 0x10)

theorem lineCounted_keeps (s : State) (a : Nat) : Keeps 0x804 s (lineCounted s a) :=
  (State.bumpMem_keeps ..).after ((State.bumpMem_keeps ..).after (State.touchPc_keeps ..) rfl) rfl

section
variable {s : State} {hpa a : Nat}

theorem hostReadLine_sealed {r : Nat} {x : Sealed} (h : s.sealedIn (64 * (a / 64)) 64 = some (r, x)) :
    s.hostReadLine hpa a = ((s.touchPc (a / 64)).sealViolation r hpa).emit (.memData (a / 64) ones64) := by
  simp only [State.hostReadLine, h]

theorem hostReadLine_ue (h : s.sealedIn (64 * (a / 64)) 64 = none) (hu : a / 64 ∈ s.hbm.ue) :
    s.hostReadLine hpa a = ((lineCounted s a).hbmUe (a / 64) 4).emit (.memData (a / 64) ones64) := by
  simp only [State.hostReadLine, h, List.contains_eq_mem, hu, decide_true, if_true]
  rfl

theorem hostReadLine_clean (h : s.sealedIn (64 * (a / 64)) 64 = none) (hu : a / 64 ∉ s.hbm.ue) :
    s.hostReadLine hpa a = (lineCounted s a).emit (.memData (a / 64) (s.hbmBytes (64 * (a / 64)) 64)) := by
  simp only [State.hostReadLine, h, List.contains_eq_mem, hu, decide_false, Bool.false_eq_true, if_false]
  rfl

theorem hbmBytes_congr {s t : State} (h : SameMemory s t) (a n : Nat) : t.hbmBytes a n = s.hbmBytes a n := by
  unfold State.hbmBytes
  simp only [h _]

theorem emit_head (s : State) (o : Output) : (s.emit o).out.head? = some o := rfl

theorem Keeps.sameMemory {p : Nat} {s t : State} (h : Keeps p s t) (hp : p.testBit Field.memory.place = false) : SameMemory s t :=
  hbmByte_congr (h.frame.same (f := .memory) hp)

/-! ### A line written -/

/-- A line that may be written, before its bytes are stored: its channel's counters have moved. -/
def lineWriteCounted (s : State) (a : Nat) : State :=
  ((s.touchPc (a / 64)).bumpMem (chanBase (chanOf a) + 0x08)).bumpMem (chanBase (chanOf a) + 0x18)

/-- Forgets an uncorrectable error of the line. -/
def dropUe (s : State) (line : Nat) : State := { s with hbm := { s.hbm with ue := s.hbm.ue.filter (· != line) } }

/-- The line holds the bytes of the mask, its counters have moved, and an error it had is gone. -/
def lineStored (s : State) (a : Nat) (data : List Byte) (mask : BitVec 64) : State :=
  dropUe ((lineWriteCounted s a).putBytes (64 * (a / 64)) (merge (s.hbmBytes (64 * (a / 64)) 64) data mask)) (a / 64)

theorem dropUe_rest (s : State) (line : Nat) : (dropUe s line).out = s.out ∧ (dropUe s line).regs = s.regs ∧
    (dropUe s line).slots = s.slots ∧ (dropUe s line).flow = s.flow ∧ (dropUe s line).sec = s.sec := ⟨rfl, rfl, rfl, rfl, rfl⟩

theorem dropUe_byte (s : State) (line b : Nat) : (dropUe s line).hbmByte b = s.hbmByte b := rfl

theorem lineWriteCounted_keeps (s : State) (a : Nat) : Keeps 0x804 s (lineWriteCounted s a) :=
  (State.bumpMem_keeps ..).after ((State.bumpMem_keeps ..).after (State.touchPc_keeps ..) rfl) rfl

theorem hostWriteLine_sealed {r : Nat} {x : Sealed} (h : s.sealedIn (64 * (a / 64)) 64 = some (r, x)) (data : List Byte)
    (mask : BitVec 64) : s.hostWriteLine hpa a data mask = (s.touchPc (a / 64)).sealViolation r hpa := by
  simp only [State.hostWriteLine, h]

theorem hostWriteLine_clean (h : s.sealedIn (64 * (a / 64)) 64 = none) (hu : a / 64 ∉ s.hbm.ue) (data : List Byte) (mask : BitVec 64) :
    s.hostWriteLine hpa a data mask = lineStored s a data mask := by
  simp only [State.hostWriteLine, h, List.contains_eq_mem, hu, decide_false, Bool.false_eq_true, false_and, if_false]
  rfl

theorem lineStored_byte (s : State) (a : Nat) (data : List Byte) (mask : BitVec 64) (b : Nat) :
    (lineStored s a data mask).hbmByte b = if 64 * (a / 64) ≤ b ∧ b < 64 * (a / 64) + 64 then
      if mask.getLsbD (b - 64 * (a / 64)) then data.getD (b - 64 * (a / 64)) 0 else s.hbmByte b else s.hbmByte b := by
  have hlen : (merge (s.hbmBytes (64 * (a / 64)) 64) data mask).length = 64 := by simp [merge]
  rw [lineStored, dropUe_byte, putBytes_byte, hlen, (lineWriteCounted_keeps s a).sameMemory rfl b]
  split
  · next h =>
    rw [merge_getD _ _ _ (by omega), hbmBytes_getD _ _ _ (by omega), show 64 * (a / 64) + (b - 64 * (a / 64)) = b by omega]
  · rfl

theorem lineStored_rest (s : State) (a : Nat) (data : List Byte) (mask : BitVec 64) : (lineStored s a data mask).out = s.out ∧
    (lineStored s a data mask).regs = s.regs ∧ (lineStored s a data mask).slots = s.slots ∧ (lineStored s a data mask).flow = s.flow ∧
    (lineStored s a data mask).sec = s.sec := by
  have hk : Keeps 0xc04 s ((lineWriteCounted s a).putBytes (64 * (a / 64)) (merge (s.hbmBytes (64 * (a / 64)) 64) data mask)) :=
    (State.putBytes_keeps ..).after ((lineWriteCounted_keeps s a).mono rfl) rfl
  obtain ⟨h1, h2, h3, h4, h5⟩ := dropUe_rest ((lineWriteCounted s a).putBytes (64 * (a / 64)) (merge (s.hbmBytes (64 * (a / 64)) 64) data mask))
    (a / 64)
  have hf := hk.frame
  exact ⟨h1.trans (hf.same (f := .out) rfl), h2.trans (hf.same (f := .regs) rfl), h3.trans (hf.same (f := .slots) rfl),
    h4.trans (hf.same (f := .flow) rfl), h5.trans (hf.same (f := .sec) rfl)⟩
end

/-! ### What the controller found -/

/-- What the controller found of the line is noted before the access. -/
def lineFound (ue ce : Bool) (s : State) (a : Nat) : State :=
  if ue then s.plantUe [a / 64] else if ce then s.foundErrors { ue := [], ce := [a / 64] } else s

theorem touchPc_ue (s : State) (line : Nat) : (s.touchPc line).hbm.ue = s.hbm.ue := by
  unfold State.touchPc
  dsimp only
  split
  · rw [(State.bumpMem_keeps ..).frame.same (f := .hbm) rfl]
  · rfl

theorem correct_ue (s : State) (line : Nat) : (s.correct line).hbm.ue = s.hbm.ue := by
  unfold State.correct
  rw [(State.ceMill_keeps ..).frame.same (f := .hbm) rfl, (State.bumpMem_keeps ..).frame.same (f := .hbm) rfl]
  unfold State.touchLine
  dsimp only
  split
  · exact (congrArg HbmState.ue ((State.bumpMem_keeps ..).frame.same (f := .hbm) rfl)).trans
      ((congrArg HbmState.ue ((State.bumpMem_keeps ..).frame.same (f := .hbm) rfl)).trans (touchPc_ue s line))
  · rw [(State.bumpMem_keeps ..).frame.same (f := .hbm) rfl, touchPc_ue]

theorem lineFound_keeps (ue ce : Bool) (s : State) (a : Nat) : Keeps 0x20844 s (lineFound ue ce s a) :=
  .ite (fun _ => (s.plantUe_keeps _).mono rfl) fun _ => .ite (fun _ => s.foundErrors_keeps _) fun _ => .refl s

theorem lineFound_ue (ce : Bool) (s : State) (a : Nat) : a / 64 ∈ (lineFound true ce s a).hbm.ue := by
  by_cases h : a / 64 ∈ s.hbm.ue <;> simp [lineFound, State.plantUe, h]

theorem lineFound_clean {s : State} {a : Nat} (h : a / 64 ∉ s.hbm.ue) (ce : Bool) : a / 64 ∉ (lineFound false ce s a).hbm.ue := by
  cases ce
  · exact h
  · simp [lineFound, State.foundErrors, State.plantUe, correct_ue, h]

section
variable {s : State} {hpa a : Nat} (hm : s.memOpen = true) (hw : s.windowAddr (64 * (hpa / 64)) = some a) (ht : s.cxl.tdi ≠ .error)
  (hi : s.pwr.idle = 0) (h4 : s.pwr.a4Wait = false)
include hm hw ht hi h4

/-- A host read is one line's read from a state that differs from the one before in what the controller found and in what waits for the
pseudo-channel. -/
theorem onHostCxlMemRead_line (ue ce : Bool) : ∃ v, onHostCxlMemRead hpa ue ce s = v.hostReadLine (64 * (hpa / 64)) a ∧
    Keeps 0x20844 s v ∧ v.hbm.ue = (lineFound ue ce s a).hbm.ue ∧ v.out = (lineFound ue ce s a).out := by
  have hk := lineFound_keeps ue ce s a
  have hc : (lineFound ue ce s a).cxl = s.cxl := hk.frame.same (f := .cxl) rfl
  have hp : (lineFound ue ce s a).pwr = s.pwr := hk.frame.same (f := .pwr) rfl
  have hr : (lineFound ue ce s a).regs = s.regs := hk.frame.same (f := .regs) rfl
  have he : onHostCxlMemRead hpa ue ce s = (lineFound ue ce s a).hostMem { line := hpa / 64, write := none } := by
    simp only [onHostCxlMemRead, hm, hw]
    rfl
  have hw' : (lineFound ue ce s a).windowAddr (64 * (hpa / 64)) = some a := by
    rw [← hw]
    unfold State.windowAddr State.winBase State.rf State.reg
    rw [hc, hr]
  generalize lineFound ue ce s a = u at hk hc hp he hw'
  obtain ⟨h1, h2⟩ := noteWaiting_hbm u a { line := hpa / 64, write := none }
  refine ⟨noteWaiting u a { line := hpa / 64, write := none },
    he.trans (hostMem_read hw' (by rwa [hc]) (by rwa [hp]) (by rwa [hp])),
    (noteWaiting_keeps ..).after hk rfl, by rw [h2], by rw [h1]⟩

theorem onHostCxlMemWrite_line (data : List Byte) (mask : BitVec 64) :
    ∃ v, onHostCxlMemWrite hpa data mask s = v.hostWriteLine (64 * (hpa / 64)) a data mask ∧ Keeps 0x800 s v ∧ v.hbm.ue = s.hbm.ue := by
  obtain ⟨-, h2⟩ := noteWaiting_hbm s a { line := hpa / 64, write := some (data, mask) }
  exact ⟨_, (if_neg (by simp [hm])).trans (hostMem_write hw ht hi h4 data mask), noteWaiting_keeps .., by rw [h2]⟩
end

theorem sealedIn_congr {s t : State} (h : t.sec = s.sec) (a n : Nat) : t.sealedIn a n = s.sealedIn a n := by
  unfold State.sealedIn
  rw [h]

/-- Settles O34: an access is one line read or written; a region refuses it, a bad line reads as ones, and what the controller found is
noted before. -/
theorem hostMemoryServed : Obligations.HostMemoryServed := by
  unfold Obligations.HostMemoryServed
  intro hpa a s hm hw ht hi h4
  have read := onHostCxlMemRead_line hm hw ht hi h4
  have write := onHostCxlMemWrite_line hm hw ht hi h4
  refine ⟨fun hs hu => ⟨?read, ?corrected, fun data mask => ?write⟩, fun hs ce => ?bad, fun r x hs => ⟨?sealed, fun data mask => ?refused⟩⟩
  case read =>
    obtain ⟨v, he, hk, hue, hout⟩ := read false false
    have hs' : v.sealedIn (64 * (a / 64)) 64 = none := (sealedIn_congr (hk.frame.same (f := .sec) rfl) _ _).trans hs
    have hu' : a / 64 ∉ v.hbm.ue := hue ▸ lineFound_clean hu false
    have hl : Keeps 0x20844 s (lineCounted v a) := (lineCounted_keeps v a).after hk rfl
    have hf := hl.frame
    refine .of rfl (he.trans (hostReadLine_clean hs' hu')) ⟨hl.sameMemory rfl, hf.same (f := .regs) rfl, hf.same (f := .slots) rfl,
      hf.same (f := .flow) rfl, ?_⟩
    rw [State.emit_out, (lineCounted_keeps v a).frame.same (f := .out) rfl, hout, hbmBytes_congr (hk.sameMemory rfl)]
    rfl
  case corrected =>
    obtain ⟨v, he, hk, hue, hout⟩ := read false true
    have hs' : v.sealedIn (64 * (a / 64)) 64 = none := (sealedIn_congr (hk.frame.same (f := .sec) rfl) _ _).trans hs
    have hu' : a / 64 ∉ v.hbm.ue := hue ▸ lineFound_clean hu true
    have hl : Keeps 0x20844 s (lineCounted v a) := (lineCounted_keeps v a).after hk rfl
    refine .of rfl (he.trans (hostReadLine_clean hs' hu')) ⟨hl.sameMemory rfl, hl.frame.same (f := .slots) rfl, hl.frame.same (f := .flow) rfl, ?_⟩
    rw [emit_head, hbmBytes_congr (hk.sameMemory rfl)]
    rfl
  case write =>
    obtain ⟨v, he, hk, hue⟩ := write data mask
    have hs' : v.sealedIn (64 * (a / 64)) 64 = none := (sealedIn_congr (hk.frame.same (f := .sec) rfl) _ _).trans hs
    have hu' : a / 64 ∉ v.hbm.ue := hue ▸ hu
    have hbyte (b : Nat) := (lineStored_byte v a data mask b).trans (by rw [hk.sameMemory rfl b])
    obtain ⟨h1, h2, h3, h4, h5⟩ := lineStored_rest v a data mask
    have hf := hk.frame
    refine .of rfl (he.trans (hostWriteLine_clean hs' hu' data mask)) ⟨fun i hi => ?_, fun b hb => ?_, h1.trans (hf.same (f := .out) rfl),
      h2.trans (hf.same (f := .regs) rfl), h3.trans (hf.same (f := .slots) rfl), h4.trans (hf.same (f := .flow) rfl),
      h5.trans (hf.same (f := .sec) rfl)⟩
    · rw [hbyte, if_pos (by omega), Nat.add_sub_cancel_left]
    · rw [hbyte, if_neg (by omega)]
  case bad =>
    obtain ⟨v, he, hk, hue, hout⟩ := read true ce
    have hs' : v.sealedIn (64 * (a / 64)) 64 = none := (sealedIn_congr (hk.frame.same (f := .sec) rfl) _ _).trans hs
    have hu' : a / 64 ∈ v.hbm.ue := hue ▸ lineFound_ue ce s a
    have hl : Keeps 0x27b64 s ((lineCounted v a).hbmUe (a / 64) 4) :=
      (State.hbmUe_keeps ..).after ((lineCounted_keeps v a).after (hk.mono rfl) rfl) rfl
    exact .of rfl (he.trans (hostReadLine_ue hs' hu')) ⟨hl.sameMemory rfl, rfl⟩
  case sealed =>
    obtain ⟨v, he, hk, hue, hout⟩ := read false false
    have hs' : v.sealedIn (64 * (a / 64)) 64 = some (r, x) := (sealedIn_congr (hk.frame.same (f := .sec) rfl) _ _).trans hs
    have hl : Keeps 0x20b64 s ((v.touchPc (a / 64)).sealViolation r (64 * (hpa / 64))) :=
      (State.sealViolation_keeps ..).after ((State.touchPc_keeps ..).after (hk.mono rfl) rfl) rfl
    exact .of rfl (he.trans (hostReadLine_sealed hs')) ⟨hl.sameMemory rfl, rfl⟩
  case refused =>
    obtain ⟨v, he, hk, hue⟩ := write data mask
    have hs' : v.sealedIn (64 * (a / 64)) 64 = some (r, x) := (sealedIn_congr (hk.frame.same (f := .sec) rfl) _ _).trans hs
    have hl : Keeps 0x20b64 s ((v.touchPc (a / 64)).sealViolation r (64 * (hpa / 64))) :=
      (State.sealViolation_keeps ..).after ((State.touchPc_keeps ..).after (hk.mono rfl) rfl) rfl
    exact .of rfl (he.trans (hostWriteLine_sealed hs' data mask)) (hl.sameMemory rfl)

end Sys2Proof.Machine
end

section
/-! SUPPORT. Address translations and page requests (11 R273, R274). -/
namespace Sys2Proof.Machine

/-! ### Invalidations -/

/-- The entry is one of the pages of the range. -/
def atcHit (pasid page count : Nat) (e : AtcEntry) : Bool := e.pasid == pasid && page ≤ e.page && e.page < page + count

/-- The range is gone and its invalidation is answered. -/
def invalidated (s : State) (pasid page count : Nat) : State :=
  (({ s with cxl := { s.cxl with
    atc := s.cxl.atc.filter fun e => !atcHit pasid page count e
    invAt := s.mclk, invs := (pasid, page, count) :: (if s.cxl.invAt = s.mclk then s.cxl.invs else []) } } : State).bump 0x9118).emit
      (.invalidationDone pasid page)

/-- Requests again what completed in this cycle. -/
def requestAgain (s : State) (l : List AtcEntry) : State :=
  l.foldl (fun (s : State) e => s.emit (.translationRequest e.pasid e.page)) s

theorem requestAgain_rest (s : State) (l : List AtcEntry) : (requestAgain s l).cxl = s.cxl ∧ ∀ o ∈ s.out, o ∈ (requestAgain s l).out := by
  induction l generalizing s with
  | nil => exact ⟨rfl, fun _ h => h⟩
  | cons e l ih =>
    obtain ⟨h1, h2⟩ := ih (s.emit (.translationRequest e.pasid e.page))
    exact ⟨h1, fun o ho => h2 o (List.mem_cons_of_mem _ ho)⟩

section
variable {s : State} (hl : s.live = true) (hu : s.cxl.up = true) (ha : s.cxl.atsEn = true)
include hl hu ha

theorem onAtsInvalidation_on (pasid page count : Nat) : onAtsInvalidation pasid page count s =
    requestAgain (invalidated s pasid page count) (s.cxl.atc.filter fun e => atcHit pasid page count e && e.since == s.mclk) :=
  if_neg (by simp [hl, hu, ha])

/-! ### Completions -/

variable {pasid page : Nat} (hp : s.cxl.pasidEn = true)
include hp

theorem onTranslationCompletion_again (hc : s.cxl.invAt = s.mclk) {n : Nat} (hn : (pasid, page, n) ∈ s.cxl.invs) (h0 : 0 < n)
    (r : AtsResult) (w : Waiter) : onTranslationCompletion pasid page r w s = s.emit (.translationRequest pasid page) := by
  unfold onTranslationCompletion
  rw [if_neg (by simp [hl, hu, ha, hp]), if_pos]
  exact ⟨hc, List.any_eq_true.mpr ⟨_, hn, by simp [h0]⟩⟩

theorem onTranslationCompletion_taken (hc : s.cxl.invAt ≠ s.mclk) (r : AtsResult) (w : Waiter) :
    onTranslationCompletion pasid page r w s = match r with
    | .present a =>
      { s with cxl := { s.cxl with atc :=
        ({ pasid := pasid, page := page, addr := a, since := s.mclk } :: s.cxl.atc.filter fun e => !(e.pasid == pasid && e.page == page)).take 1024 } }
    | .notPresent => s.pageFault pasid page w := by
  unfold onTranslationCompletion
  exact (if_neg (by simp [hl, hu, ha, hp])).trans ((if_neg (by simp [hc])).trans (by cases r <;> rfl))
end

/-! ### Page requests -/

section
variable {s : State} {pasid page : Nat}

theorem pageFault_allowed (he : s.cxl.priEn = true) (hs : s.cxl.priSuppressed = false)
    (hn : ∀ p ∈ s.cxl.pri, ¬ (p.pasid = pasid ∧ p.page = page)) (w : Waiter) : s.pageFault pasid page w =
      if s.cxl.pri.length < s.priLimit then
        (({ s with cxl := { s.cxl with pri := s.cxl.pri ++
          [{ pasid := pasid, page := page, deadline := s.deadline s.priUs, waiters := [w] }] } } : State).bump 0x9120).emit
            (.pageRequest pasid page)
      else { s with cxl := { s.cxl with priWait := s.cxl.priWait ++ [(pasid, page, w)] } } := by
  have hd : s.pageDenied = none := by simp [State.pageDenied, he, hs]
  have hf : s.cxl.pri.find? (fun p => p.pasid == pasid && p.page == page) = none :=
    List.find?_eq_none.mpr fun p hp => by simpa using hn p hp
  simp only [State.pageFault, hd, State.issuePage, hf]

theorem promotePages_none (h : s.cxl.priWait = []) : s.promotePages = s := by
  unfold State.promotePages
  rw [h, List.foldl_nil, ← h]

variable {p : PageReq} (hf : s.cxl.pri.find? (fun p => p.pasid == pasid && p.page == page) = some p)
include hf

theorem onPageRequestResponse_found (c : PriCode) : onPageRequestResponse pasid page c s = match c with
    | .success => (p.waiters.foldl State.resumeWaiter ((s.dropPage pasid page).emit (.translationRequest pasid page))).promotePages
    | .invalid => (p.waiters.foldl (fun s w => s.endWaiter 1 page w) ((s.dropPage pasid page).bump 0x9128)).promotePages
    | .failure =>
      let all := (s.cxl.pri.map fun q => q.waiters.map fun w => (q.page, w)).flatten ++ s.cxl.priWait.map fun x => (x.2.1, x.2.2)
      let s1 : State := { s with cxl := { s.cxl with pri := [], priWait := [], priSuppressed := true } }
      all.foldl (fun s x => s.endWaiter 2 x.1 x.2) (s1.ev 0x0043 .warning 0 0 (4096 * page) 0 0) := by
  cases c <;> simp only [onPageRequestResponse, hf]

theorem onPageRequestTimeout_passed (hd : s.passed p.deadline = true) : onPageRequestTimeout pasid page s =
    (p.waiters.foldl (fun s w => s.endWaiter 3 page w)
      (((s.dropPage pasid page).bump 0x9130).ev 0x0044 .warning 0 0 (4096 * page) 0 0)).promotePages := by
  simp only [onPageRequestTimeout, hf, hd, if_true]
end

theorem resumeWaiter_rest (s : State) (w : Waiter) : (s.resumeWaiter w).cxl = s.cxl ∧ (s.resumeWaiter w).out = s.out := by
  unfold State.resumeWaiter
  split
  · exact ⟨rfl, rfl⟩
  · split
    · split <;> exact ⟨rfl, rfl⟩
    · exact ⟨rfl, rfl⟩

/-- Settles O36: each answer of the host is one arm over the tables of translations and requests, and nothing that waits is left to
move. -/
theorem translationsMove : Obligations.TranslationsMove := by
  unfold Obligations.TranslationsMove
  refine ⟨fun pasid page count s hl hu ha => ⟨?inv, fun hp hc hn r w => ?again, fun hp hc w => ⟨fun addr => ?present, fun he hs hn =>
    ⟨fun hlen => ?ask, fun hlen => ?wait⟩⟩⟩, fun pasid page p s hf => ⟨fun hw => ⟨fun n hn => ?ok, fun hn => ?invalid, fun hn hd => ?late⟩,
    fun hp hn hw => ?failed⟩⟩
  case inv =>
    obtain ⟨h1, h2⟩ := requestAgain_rest (invalidated s pasid page count)
      (s.cxl.atc.filter fun e => atcHit pasid page count e && e.since == s.mclk)
    refine .of rfl (onAtsInvalidation_on hl hu ha ..) ⟨h2 _ List.mem_cons_self, fun hn => ?_, fun e => ?_⟩
    · have hnone : (s.cxl.atc.filter fun e => atcHit pasid page count e && e.since == s.mclk) = [] :=
        List.filter_eq_nil_iff.mpr fun e he => by simp [hn e he]
      rw [hnone]
      rfl
    · rw [h1]
      change e ∈ s.cxl.atc.filter (fun e => !atcHit pasid page count e) ↔ _
      rw [List.mem_filter]
      simp [atcHit]
      omega
  case again =>
    obtain ⟨n, hn, h0⟩ := hn
    exact congrArg Host.Outcome.next (onTranslationCompletion_again hl hu ha hp hc hn h0 r w)
  case present =>
    refine .of rfl (onTranslationCompletion_taken hl hu ha hp hc _ _) ⟨rfl, List.length_take_le .., fun e he h1 h2 => ?_⟩
    rcases List.mem_cons.mp (List.mem_of_mem_take he) with rfl | he
    · rfl
    · have := (List.mem_filter.mp he).2
      simp [h1, h2] at this
  case ask =>
    refine .of rfl ((onTranslationCompletion_taken hl hu ha hp hc _ _).trans ((pageFault_allowed he hs hn w).trans (if_pos hlen))) ⟨rfl, ?_⟩
    exact List.length_append
  case wait =>
    exact .of rfl ((onTranslationCompletion_taken hl hu ha hp hc _ _).trans ((pageFault_allowed he hs hn w).trans (if_neg (Nat.not_lt.mpr hlen))))
      ⟨rfl, rfl, rfl⟩
  case ok =>
    let u := (s.dropPage pasid page).emit (.translationRequest pasid page)
    obtain ⟨h1, h2⟩ := resumeWaiter_rest u (.cmd n)
    have hnone : (u.resumeWaiter (.cmd n)).cxl.priWait = [] := by rw [h1]; exact hw
    refine .of rfl ((onPageRequestResponse_found hf .success).trans ?_) ⟨h2, by rw [h1]; rfl⟩
    rw [hn]
    exact promotePages_none hnone
  case invalid =>
    refine .of rfl ((onPageRequestResponse_found hf .invalid).trans ?_) (t := (s.dropPage pasid page).bump 0x9128) ⟨rfl, bump_ctr_same ..⟩
    rw [hn]
    exact promotePages_none hw
  case late =>
    let u := (s.dropPage pasid page).bump 0x9130
    have ho : EventOnly u (u.ev 0x0044 .warning 0 0 (4096 * page) 0 0) := ev_only ..
    have hnone : (u.ev 0x0044 .warning 0 0 (4096 * page) 0 0).cxl.priWait = [] := by rw [ho.cxl]; exact hw
    have hl : Logged 0x0044 .warning none (genPayload 0 0 (4096 * page) 0 0) u (u.ev 0x0044 .warning 0 0 (4096 * page) 0 0) := raise_logged ..
    refine .of rfl ((onPageRequestTimeout_passed hf hd).trans ?_) (t := u.ev 0x0044 .warning 0 0 (4096 * page) 0 0) ⟨?_, hl⟩
    · rw [hn]
      exact promotePages_none hnone
    · rw [ho.cxl]
      rfl
  case failed =>
    let u : State := { s with cxl := { s.cxl with pri := [], priWait := [], priSuppressed := true } }
    have ho : EventOnly u (u.ev 0x0043 .warning 0 0 (4096 * page) 0 0) := ev_only ..
    have hl : Logged 0x0043 .warning none (genPayload 0 0 (4096 * page) 0 0) u (u.ev 0x0043 .warning 0 0 (4096 * page) 0 0) := raise_logged ..
    refine .of rfl ((onPageRequestResponse_found hf .failure).trans ?_) (t := u.ev 0x0043 .warning 0 0 (4096 * page) 0 0)
      ⟨by rw [ho.cxl], by rw [ho.cxl], hl⟩
    simp only [hp, hw, hn, List.map_cons, List.map_nil, List.flatten_cons, List.flatten_nil, List.append_nil, List.foldl_nil]
    rfl

end Sys2Proof.Machine
end

section
/-! SUPPORT. The host link comes up and goes down (11 R261, R277). -/
namespace Sys2Proof.Machine

/-! ### Up -/

/-- Of the link only the interrupts that wait have changed. -/
def MsixOnly (s t : State) : Prop := t.cxl = { s.cxl with msixPending := t.cxl.msixPending }

theorem MsixOnly.refl (s : State) : MsixOnly s s := rfl
theorem MsixOnly.after {s t u : State} (b : MsixOnly t u) (a : MsixOnly s t) : MsixOnly s u := by unfold MsixOnly at *; rw [b, a]
theorem MsixOnly.foldl {β : Type} {f : State → β → State} (h : ∀ s x, MsixOnly s (f s x)) (l : List β) (s : State) : MsixOnly s (l.foldl f s) := by
  induction l generalizing s with
  | nil => exact .refl s
  | cons x l ih => exact (ih _).after (h s x)
theorem MsixOnly.ite {c : Prop} [Decidable c] {s t u : State} (ha : MsixOnly s t) (hb : MsixOnly s u) : MsixOnly s (if c then t else u) := by
  split
  · exact ha
  · exact hb

theorem bump_msixOnly (s : State) (off n : Nat) : MsixOnly s (s.bump off n) := rfl

theorem flushHeld_cxl (s : State) : MsixOnly s s.flushHeld := by
  have record (s : State) (c : Completion) : MsixOnly s (s.postRecord c) := (postRecord_only ..).cxl
  have event (s : State) (e : EventRec) (lost : Nat) : MsixOnly s (s.evWrite e lost) := (evWrite_only ..).cxl
  unfold State.flushHeld
  dsimp only
  refine (MsixOnly.foldl (fun s c => ?_) _ _).after ((MsixOnly.foldl (fun s h => ?_) _ _).after rfl)
  · exact (record _ c).after rfl
  split
  · exact (record _ _).after rfl
  · exact .ite (event ..) rfl

theorem withCxl_cxl (s : State) (c : CxlState) : MsixOnly { s with cxl := c } (s.withCxl c) := .ite (flushHeld_cxl _) rfl

theorem drainMsix_cxl (s : State) : MsixOnly s s.drainMsix := by
  unfold State.drainMsix
  refine .foldl (fun s v => ?_) _ s
  exact .ite rfl (.refl s)

/-- LINK_DEGRADED, where it is due, is the only thing that a link below its full rate and width brings. -/
theorem linkDegraded_only (s : State) (l : LinkUp) : EventOnly s (s.linkDegraded l) := .ite (ev_only ..) (.refl s)

theorem linkDegraded_logged {l : LinkUp} (h : l.rate.val ≠ 2 ∨ l.width.val ≠ 2) (s : State) :
    Logged 0x0040 .warning none (genPayload 0 (l.width.val + 16 * l.rate.val) 0 0 0) s (s.linkDegraded l) := by
  unfold State.linkDegraded
  rw [if_pos h]
  exact raise_logged s 0x0040 .warning none (genPayload 0 (l.width.val + 16 * l.rate.val) 0 0 0)

/-! ### Down -/

theorem hostLost_only (s : State) : EventOnly s s.hostLost := (ev_only ..).after rfl

theorem hostLost_logged (s : State) : Logged 0x0045 .warning none (genPayload 0 0 0 0 0) s s.hostLost := by
  have hl := raise_logged (s.bump 0x9100) 0x0045 .warning none (genPayload 0 0 0 0 0)
  exact hl

theorem hostLost_raised {s u : State} (h : LogGrown s u) : Raised 0x0045 s u.hostLost := by
  have hb : LogGrown s (u.bump 0x9100) := h
  exact hb.raised 0x0045 .warning none (genPayload 0 0 0 0 0)

theorem hostLost_pwr (s : State) : s.hostLost.pwr = s.pwr := raise_pwr rfl (s.bump 0x9100) 0x0045 none (genPayload 0 0 0 0 0)

theorem lossIdle_sleeps {s : State} (h1 : s.cxl.up = false) (h2 : s.pwr.idle < 2) : s.lossIdle.pwr.idle = 2 := by
  unfold State.lossIdle
  rw [if_pos ⟨by simp [h1], h2⟩]
  rfl

theorem lossIdle_rest (s : State) : s.lossIdle.cxl = s.cxl ∧ s.lossIdle.ras = s.ras :=
  ⟨s.lossIdle_keeps.frame.same (f := .cxl) rfl, s.lossIdle_keeps.frame.same (f := .ras) rfl⟩

/-- HOST_LOST, and with no host attached A2. -/
theorem hostLost_lossIdle {s : State} (h1 : s.cxl.up = false) (h2 : s.pwr.idle < 2) : s.hostLost.lossIdle.pwr.idle = 2 ∧
    s.hostLost.lossIdle.cxl.hostLoss = s.cxl.hostLoss ∧ s.hostLost.lossIdle.cxl.up = false ∧
    Logged 0x0045 .warning none (genPayload 0 0 0 0 0) s s.hostLost.lossIdle := by
  have ho := hostLost_only s
  obtain ⟨hc, hr⟩ := lossIdle_rest s.hostLost
  refine ⟨lossIdle_sleeps (by rw [ho.cxl]; exact h1) (by rw [hostLost_pwr]; exact h2), by rw [hc, ho.cxl], by rw [hc, ho.cxl]; exact h1, ?_⟩
  exact (hostLost_logged s).congr rfl rfl hr

/-- The link as training settled it. -/
def trained (l : LinkUp) (mode : Bool) (c : CxlState) : CxlState :=
  { c with mode := mode && l.rate.val != 3, rate := l.rate.val, width := l.width.val }

theorem withCxl_rest {s : State} {c : CxlState} (h : c.atc = s.cxl.atc) : (s.withCxl c).ras = s.ras ∧ (s.withCxl c).clk = s.clk := by
  have hk := State.withCxl_keeps s c (by rw [h]; exact id)
  exact ⟨hk.frame.same (f := .ras) rfl, hk.frame.same (f := .clk) rfl⟩

/-- A link that was up before counts that it is up again. -/
def countRetrain (b : Bool) (s : State) : State := if b then s.bump 0x9108 else s

theorem countRetrain_rest (b : Bool) (s : State) : MsixOnly s (countRetrain b s) ∧ (countRetrain b s).ras = s.ras ∧
    (countRetrain b s).clk = s.clk := by
  cases b <;> exact ⟨rfl, rfl, rfl⟩

theorem onCxlLinkUp_first {s : State} (hp : s.pwr.phase = .running) (hu : s.cxl.up = false) (ho : s.cxl.orphan = false) (l : LinkUp) :
    ∃ u : State, onCxlLinkUp l s = u.linkDegraded l ∧
      MsixOnly { s with cxl := trained l l.cxl { s.cxl with up := true, everUp := true } } u ∧ u.ras = s.ras ∧ u.clk = s.clk := by
  let c := trained l l.cxl { s.cxl with up := true, everUp := true }
  obtain ⟨hr, hc⟩ := withCxl_rest (s := s) (c := c) rfl
  have hd := (s.withCxl c).drainMsix_keeps.frame
  obtain ⟨hm', hr', hc'⟩ := countRetrain_rest s.cxl.everUp (s.withCxl c).drainMsix
  have hm := hm'.after ((drainMsix_cxl (s.withCxl c)).after (withCxl_cxl s c))
  refine ⟨countRetrain s.cxl.everUp (s.withCxl c).drainMsix, ?_, hm, hr'.trans ((hd.same (f := .ras) rfl).trans hr),
    hc'.trans ((hd.same (f := .clk) rfl).trans hc)⟩
  have horph : ((countRetrain s.cxl.everUp (s.withCxl c).drainMsix).linkDegraded l).cxl.orphan = false := by
    rw [(linkDegraded_only _ l).cxl, hm]
    exact ho
  unfold onCxlLinkUp
  rw [if_neg (by simp [hp]), if_neg (by simp [hu])]
  exact if_neg (by rw [Bool.not_eq_true]; exact horph)

theorem onCxlLinkUp_again {s : State} (hp : s.pwr.phase = .running) (hu : s.cxl.up = true) (l : LinkUp) :
    ∃ u : State, onCxlLinkUp l s = u.linkDegraded l ∧ MsixOnly { s with cxl := trained l s.cxl.mode s.cxl } u := by
  refine ⟨_, (if_neg (by simp [hp])).trans (if_pos hu), ?_⟩
  exact (bump_msixOnly ..).after (withCxl_cxl s (trained l s.cxl.mode s.cxl))

/-- A host loss with jobs begins: the link is down, the Cage stopped, and its records are dropped. -/
def lossStarts (s : State) : State := { s with
  cxl := { s.cxl with up := false, mode := false, orphan := true, hostLoss := true, cageStopped := true }
  cage := { s.cage with held := [], waiting := [] } }

/-- The host's bias is over. -/
def dropHostBias (s : State) : State := { s with hbm := { s.hbm with hostBias := [] } }

theorem onCxlLinkDown_loss {s : State} (hu : s.cxl.up = true) (hr : s.pwr.resetting = none) {n : Nat} (hn : n < 8) (hl : s.loaded n = true) :
    onCxlLinkDown s = (dropHostBias (lossStarts s).killAll).lossScrubbed := by
  have hloss : ((List.range 8).any (fun n => s.loaded n || (s.slot n).loading) || (List.range 32).any s.ringEn) = true := by
    rw [Bool.or_eq_true]
    exact .inl (List.any_eq_true.mpr ⟨n, List.mem_range.mpr hn, by simp [hl]⟩)
  unfold onCxlLinkDown
  rw [if_neg (by simp [hu, hr])]
  dsimp only
  rw [hloss]
  simp only [dropHostBias, lossStarts, if_true]

theorem dropHostBias_rest (s : State) : (dropHostBias s).slots = s.slots ∧ (dropHostBias s).cxl = s.cxl ∧
    (dropHostBias s).cage = s.cage ∧ (dropHostBias s).hbm.hostBias = [] := ⟨rfl, rfl, rfl, rfl⟩

theorem killFinish_slot_of_ne {s : State} {n k : Nat} (h : k ≠ n) : (s.killFinish n).slot k = s.slot k := by
  unfold State.killFinish
  extract_lets s1 s2 s3
  have h1 : s1.slots = s.slots := by
    unfold s1
    split
    · exact (State.scrubRegions_keeps ..).frame.same (f := .slots) rfl
    · rfl
  have h2 : (s1.scrubSlot n).slots = s1.slots := (State.scrubSlot_keeps ..).frame.same (f := .slots) rfl
  have h3 : s2.slot k = (s1.scrubSlot n).slot k := setSlot_slot_of_ne h
  change s2.slot k = _
  rw [h3]
  unfold State.slot
  rw [h2, h1]

theorem lossScrubbed_waits {s : State} {n : Nat} (hn : n < 8) (h : (s.slot n).killing = true) : s.lossScrubbed = s := by
  refine if_neg fun hc => ?_
  have := List.all_eq_true.mp hc.2 n (List.mem_range.mpr hn)
  simp [h] at this

/-- The scrub of the host loss is over. -/
def lossOver (s : State) : State := { s with cxl := { s.cxl with hostLoss := false } }

theorem lossScrubbed_done {s : State} (h : s.cxl.hostLoss = true) (hk : ∀ k < 8, (s.slot k).killing = false) :
    s.lossScrubbed = (lossOver s).hostLost.lossIdle :=
  if_pos ⟨h, by simpa using hk⟩

/-- Settles O37: the fields that training settles stay while records flush; the kill of a host loss keeps the link and holds no record. -/
theorem hostLinkMoves : Obligations.HostLinkMoves := by
  unfold Obligations.HostLinkMoves
  refine ⟨fun l s hp => ⟨fun hu ho => ?up, fun hu => ?retrain⟩, fun s hu hr => ⟨fun hn hring hi => ?idle, fun n hn hload => ?loss⟩,
    fun n s hh hu hk hi hother => ?scrubbed⟩
  case up =>
    obtain ⟨u, he, hm, hr, hc⟩ := onCxlLinkUp_first hp hu ho l
    have hcxl := (linkDegraded_only u l).cxl
    rw [hm] at hcxl
    refine .of rfl he ⟨by rw [hcxl]; rfl, by rw [hcxl]; rfl, by rw [hcxl]; rfl, by rw [hcxl]; rfl, fun hd => ?_⟩
    exact (linkDegraded_logged hd u).congr hr.symm hc.symm rfl
  case retrain =>
    obtain ⟨u, he, hm⟩ := onCxlLinkUp_again hp hu l
    have hcxl := (linkDegraded_only u l).cxl
    rw [hm] at hcxl
    exact .of rfl he ⟨by rw [hcxl]; exact hu, by rw [hcxl]; rfl, by rw [hcxl]; rfl, by rw [hcxl]; rfl⟩
  case idle =>
    let s1 : State := { s with cxl := { s.cxl with up := false, mode := false, orphan := true } }
    have he : onCxlLinkDown s = s1.hostLost.lossIdle := by
      have hloss : ((List.range 8).any (fun n => s.loaded n || (s.slot n).loading) || (List.range 32).any s.ringEn) = false := by
        rw [Bool.or_eq_false_iff]
        refine ⟨List.any_eq_false.mpr fun n h => ?_, List.any_eq_false.mpr fun k h => ?_⟩
        · simp [hn n (List.mem_range.mp h)]
        · simp [hring k (List.mem_range.mp h)]
      unfold onCxlLinkDown
      rw [if_neg (by simp [hu, hr])]
      dsimp only
      rw [hloss]
      rfl
    obtain ⟨h1, -, h3, h4⟩ := hostLost_lossIdle (s := s1) rfl (by rw [show s1.pwr = s.pwr from rfl, hi]; decide)
    exact .of rfl he ⟨h3, h1, h4⟩
  case loss =>
    have hkill : ((lossStarts s).killAll.slot n).killing = true := killAll_killing hn (killable_of_loaded (s := lossStarts s) hload)
    have hlink := killAll_link (lossStarts s)
    have hc := hlink.cxl
    have hh : (lossStarts s).killAll.cage.held = [] := hlink.held rfl rfl
    have he := onCxlLinkDown_loss hu hr hn hload
    generalize (lossStarts s).killAll = u at hkill hc hh he
    obtain ⟨h1, h2, h3, h4⟩ := dropHostBias_rest u
    have hkill' : ((dropHostBias u).slot n).killing = true := by unfold State.slot; rwa [h1]
    refine .of rfl (he.trans (lossScrubbed_waits hn hkill')) ⟨?_, ?_, ?_, hkill', h4, by rw [h3, hh]⟩ <;> rw [h2, hc] <;> rfl
  case scrubbed =>
    let u := completeWhere (killsSlot n.val) 0 (fun _ _ => leBytes 8 (s.scrubBytes n.val)) (s.killFinish n.val).cage.started (s.killFinish n.val)
    have ho : RecordOnly (s.killFinish n.val) u := completeWhere_only ..
    have hf := (s.killFinish_keeps n.val).frame
    have hcxl : (s.killFinish n.val).cxl = s.cxl := hf.same (f := .cxl) rfl
    have hpwr : u.pwr = s.pwr := ho.pwr.trans (hf.same (f := .pwr) rfl)
    have hras : u.ras = s.ras := ho.ras.trans (hf.same (f := .ras) rfl)
    have hloss : u.cxl.hostLoss = true := by rw [ho.cxl, hcxl]; exact hh
    have hdown : u.cxl.up = false := by rw [ho.cxl, hcxl]; exact hu
    have hslots (k : Nat) (hk8 : k < 8) : (u.slot k).killing = false := by
      rw [ho.slot]
      by_cases hkn : k = n.val
      · rw [hkn, killFinish_slot]
        rfl
      · rw [killFinish_slot_of_ne hkn]
        exact hother k hk8 hkn
    have hkc : onKillComplete n s = u.lossScrubbed := onKillComplete_killing hk
    clear_value u
    have he := hkc.trans (lossScrubbed_done hloss hslots)
    obtain ⟨h1, h2, h3, h4⟩ := hostLost_lossIdle (s := lossOver u) hdown (by rw [← hpwr] at hi; exact hi)
    exact .of rfl he ⟨h2, h1, (hostLost_raised (u := lossOver u) (.of_ras hras)).grown (.of_ras (lossIdle_rest _).2)⟩

end Sys2Proof.Machine
end

section
/-! SUPPORT. Power-on reset, loss of power and of lock, device resets (17 R420, R428, R432; 15 R370; 11 R279; 20 R494). -/
namespace Sys2Proof.Machine

/-! ### Everything forgotten -/

theorem fabPowerOn_ras (s : State) : s.fabPowerOn.ras =
    { s.ras with flash := { s.ras.flash with incarn := (s.ras.flash.incarn + 1) % 65536 } } := by
  unfold State.fabPowerOn
  dsimp only
  rw [(Keeps.foldl (p := 1) _ _ _ _ (fun s p => (State.setReg_keeps ..).after (State.setReg_keeps ..) rfl) (.refl _)).frame.same
    (f := .ras) rfl]

/-- What stands once power is back, before the fabric's part. -/
def poweredOn (s : State) (air recovery clear : Bool) (smb core io : Nat) : State :=
  let s1 := s.powerOn
  { s1 with
    pwr := { s1.pwr with
      phase := if clear then .booting else .held
      pwrok := true, coreMv := core, ioMv := io, air := air, thermTrip := s.pwr.thermTrip, strapRecovery := recovery, smbAddr := smb
      rstCause := 1 }
    clk := { s1.clk with locked := clear, step := if air then 2 else 0, req := if air then 2 else 0 } }

theorem poweredOn_keeps (s : State) (air recovery clear : Bool) (smb core io : Nat) :
    Keeps 0x44041 (poweredOn s air recovery clear smb core io) (poweredOn s air recovery clear smb core io).fabPowerOn.draw :=
  (State.draw_keeps _).after ((State.fabPowerOn_keeps _).mono rfl) rfl

theorem draw_ras (s : State) : s.draw.ras = s.ras := rfl

/-- What the flash and the fuses keep through a reset of the power. -/
theorem poweredOn_kept (s : State) (air recovery clear : Bool) (smb core io : Nat) :
    (poweredOn s air recovery clear smb core io).fabPowerOn.draw.ras.flash.image = s.ras.flash.image ∧
      (poweredOn s air recovery clear smb core io).fabPowerOn.draw.ras.log = [] := by
  rw [draw_ras, fabPowerOn_ras]
  exact ⟨rfl, rfl⟩

section
variable {s : State} (h : s.pwr.phase = .held) {core io : Nat}
include h

theorem onPowerOnReset_sampled (hp : s.pwr.pwrok = false) (air recovery : Option Bool) (addr : Option (Fin 4)) : ∃ smb,
    onPowerOnReset { profile := air, recovery := recovery, addr := addr } core io s =
      (poweredOn s (s.strapBit air 0) (s.strapBit recovery 1) (decide (550 ≤ core) && decide (1620 ≤ io) && !s.pwr.thermTrip)
        smb core io).fabPowerOn.draw := by
  unfold onPowerOnReset
  simp only [h, hp, ne_eq, not_true, if_false, Bool.false_eq_true]
  exact ⟨_, rfl⟩

theorem onPowerOnReset_again (hp : s.pwr.pwrok = true) (straps : Straps) : onPowerOnReset straps core io s =
    (poweredOn s s.pwr.air s.pwr.strapRecovery (decide (550 ≤ core) && decide (1620 ≤ io) && !s.pwr.thermTrip) s.pwr.smbAddr
      core io).fabPowerOn.draw := by
  unfold onPowerOnReset
  simp only [h, hp, ne_eq, not_true, if_false, if_true]
  rfl
end

/-! ### Power and lock are lost -/

theorem loseImage_rest (s : State) : s.loseImage.sec = s.sec ∧ (NvOp.flashImage ∉ s.pwr.nvRunning → s.loseImage = s) := by
  unfold State.loseImage
  constructor
  · split <;> rfl
  · intro h
    exact if_neg (by simpa using h)

/-- What loss of power leaves, before THERMTRIP# is released. -/
def poweredOff (s : State) (pwrok : Bool) (core io : Nat) : State :=
  let s1 := s.loseImage.powerOn
  { s1 with pwr := { s1.pwr with
    pwrok := pwrok, coreMv := core, ioMv := io, thermTrip := s.pwr.thermTrip && 1620 ≤ io
    air := s.pwr.air, strapRecovery := s.pwr.strapRecovery, smbAddr := s.pwr.smbAddr } }

theorem poweredOff_kept (s : State) (pwrok : Bool) (core io : Nat) : (poweredOff s pwrok core io).sec.rollback = s.sec.rollback ∧
    (NvOp.flashImage ∉ s.pwr.nvRunning → (poweredOff s pwrok core io).ras.flash = s.ras.flash) := by
  obtain ⟨h1, h2⟩ := loseImage_rest s
  have he : (poweredOff s pwrok core io).sec.rollback = s.loseImage.sec.rollback ∧
    (poweredOff s pwrok core io).ras.flash = s.loseImage.ras.flash := ⟨rfl, rfl⟩
  exact ⟨he.1.trans (by rw [h1]), fun hn => he.2.trans (by rw [h2 hn])⟩

theorem onPowerLoss_lost {pwrok : Bool} {core io : Nat} (h : pwrok = false ∨ core < 550 ∨ io < 1620) (s : State) :
    ∃ out, onPowerLoss pwrok core io s = { poweredOff s pwrok core io with out := out } := by
  unfold onPowerLoss
  rw [if_neg (by simp only [Bool.and_eq_true, decide_eq_true_eq]; rintro ⟨⟨rfl, h1⟩, h2⟩; simp at h; omega)]
  dsimp only
  split
  · exact ⟨_, rfl⟩
  · exact ⟨_, rfl⟩

/-- What THERMTRIP# leaves, before the pin. -/
def tripped (s : State) : State :=
  let s1 := s.loseImage.powerOn
  { s1 with
    pwr := { s1.pwr with
      thermTrip := true, pwrok := s.pwr.pwrok, coreMv := s.pwr.coreMv, ioMv := s.pwr.ioMv
      air := s.pwr.air, strapRecovery := s.pwr.strapRecovery, smbAddr := s.pwr.smbAddr }
    ras := { s1.ras with flash := { s1.ras.flash with tripUnreported := true } } }

theorem tripped_rollback (s : State) : (tripped s).sec.rollback = s.sec.rollback := by
  have he : (tripped s).sec.rollback = s.loseImage.sec.rollback := rfl
  rw [he, (loseImage_rest s).1]

theorem onThermtrip_trips {s : State} (h : s.pwr.thermTrip = false) : onThermtrip s = (tripped s).emit (.pin .thermTrip true) := by
  unfold onThermtrip
  rw [if_neg (by simp [h])]
  rfl

/-! ### A device reset begins -/

/-- The orders that a reset wins against are logged. -/
theorem resetTies_only (s : State) : EventOnly s s.resetTies := by
  unfold State.resetTies
  refine .foldl (fun s d => ?_) _ s
  exact .ite (orderLost_only ..) (.refl s)

theorem orderLost_pwr (s : State) (loc : Nat) (w : OrdKind) (wm : Nat) (l : OrdKind) (lm : Nat) : (s.orderLost loc w wm l lm).pwr = s.pwr := by
  rw [State.orderLost, State.ev, raise_pwr rfl]
  rfl

theorem resetTies_pwr (s : State) : s.resetTies.pwr = s.pwr := by
  unfold State.resetTies
  refine List.foldlRecOn (motive := fun t : State => t.pwr = s.pwr) _ _ rfl fun t ht d _ => ?_
  split
  · rw [orderLost_pwr, ht]
  · exact ht

/-- The reset of kind `k` is under way: the Cage is empty and the accesses that waited are dropped. -/
def resetStarts (s : State) (k : ResetKind) (memClear reboot : Bool) : State :=
  let cause := (s.pwr.rstCause ||| k.bit) &&& (if memClear then 0x7F else 0x3F) ||| (if memClear then 0x40 else 0)
  let u := s.resetTies
  { u with
    pwr := { u.pwr with
      resetting := some { kinds := [k], memClear := memClear, reboot := reboot }, rstCause := cause, heldMem := [], heldWrites := []
      waking := none, a4Wait := false }
    cage := { CageState.reset with serial := u.cage.serial }
    clk := { u.clk with hostStep := 0 } }

section
variable {s : State} (h : s.pwr.resetting = none) (k : ResetKind) (memClear reboot : Bool)
include h

theorem beginReset_starts : s.beginReset k memClear reboot = (resetStarts s k memClear reboot).killAll.reviewClock := by
  simp only [State.beginReset, resetStarts, h]

/-- A reset that begins kills every slot that holds a Survey, and leaves the link up or down. -/
theorem beginReset_kills : (s.beginReset k memClear reboot).pwr.resetting = some { kinds := [k], memClear := memClear, reboot := reboot } ∧
    (s.beginReset k memClear reboot).pwr.perst = s.pwr.perst ∧ (s.beginReset k memClear reboot).cxl.up = s.cxl.up ∧
    ∀ n < 8, s.loaded n = true → ((s.beginReset k memClear reboot).slot n).killing = true := by
  have ho := resetTies_only s
  have hpwr : (resetStarts s k memClear reboot).pwr.resetting = some { kinds := [k], memClear := memClear, reboot := reboot } ∧
      (resetStarts s k memClear reboot).pwr.perst = s.pwr.perst := by
    rw [← resetTies_pwr s]
    exact ⟨rfl, rfl⟩
  have hcxl : (resetStarts s k memClear reboot).cxl.up = s.cxl.up := by
    change s.resetTies.cxl.up = _
    rw [ho.cxl]
  have hload (n : Nat) : (resetStarts s k memClear reboot).loaded n = s.loaded n := loaded_slots (t := resetStarts s k memClear reboot) ho.slots
  have hkill : PowerCageSame _ (resetStarts s k memClear reboot).killAll := killAll_unstarted rfl
  have hlink := (killAll_link (resetStarts s k memClear reboot)).cxl
  have hr := (State.reviewClock_keeps (resetStarts s k memClear reboot).killAll).frame
  rw [beginReset_starts h]
  have hslots : (State.reviewClock _).slots = _ := hr.same (f := .slots) rfl
  refine ⟨?_, ?_, ?_, fun n hn hl => ?_⟩
  · rw [hr.same (f := .pwr) rfl, hkill.pwr]
    exact hpwr.1
  · rw [hr.same (f := .pwr) rfl, hkill.pwr]
    exact hpwr.2
  · rw [hr.same (f := .cxl) rfl, hlink]
    exact hcxl
  · have hk := killAll_killing hn (killable_of_loaded ((hload n).trans hl))
    unfold State.slot at hk ⊢
    rwa [hslots]
end

/-- The level of PERST# is noted, and under EXTEST the pads follow it. -/
def perstLevel (s : State) (asserted : Bool) : State :=
  let s00 : State := { s with pwr := { s.pwr with perst := asserted } }
  if s.jtag = 3 ∧ s.pwr.perst ≠ asserted then s00.emit (.pin .boundary asserted) else s00

theorem perstLevel_rest (s : State) (asserted : Bool) : (perstLevel s asserted).pwr = { s.pwr with perst := asserted } ∧
    (perstLevel s asserted).slots = s.slots := by
  unfold perstLevel
  dsimp only
  split <;> exact ⟨rfl, rfl⟩

/-- The link is down. -/
def linkOff (s : State) : State := { s with cxl := { s.cxl with up := false, mode := false } }

theorem linkOff_rest (s : State) : (linkOff s).pwr = s.pwr ∧ (linkOff s).slots = s.slots ∧ (linkOff s).cxl.up = false := ⟨rfl, rfl, rfl⟩

section
variable {s : State} {us : Nat} (asserted : Bool)

theorem onPerst_short (h : us < 100) (hj : s.jtag ≠ 3) : onPerst us asserted s = { s with pwr := { s.pwr with perst := asserted } } := by
  unfold onPerst
  rw [if_neg (by omega), if_neg (by simp [hj])]

theorem onPerst_resets (h : 100 ≤ us) (hk : s.pwr.pwrok = true) (hp : s.pwr.phase = .running) :
    onPerst us asserted s = linkOff ((perstLevel s asserted).beginReset .perst false false) := by
  unfold onPerst perstLevel linkOff
  dsimp only
  rw [if_pos ⟨hk, h, .inl hp⟩]
end

theorem onSecondaryBusReset_resets {s : State} (hp : s.pwr.phase = .running) (hu : s.cxl.up = true) :
    onSecondaryBusReset s = linkOff (s.beginReset .sbr false false) := if_pos ⟨hp, hu⟩

/-! ### A device reset is over -/

/-- What a completed device reset leaves, before the clock's and the fabric's own parts (17 R432, 20 R494). -/
def resetLeave (u : State) : State := { u with
  regs := u.regs.filter fun e => keptReg e.1
  held := [], ctrs := [], latches := [], slots := []
  cage := { CageState.reset with serial := u.cage.serial }
  cxl := { CxlState.reset with up := u.cxl.up, mode := u.cxl.mode, rate := u.cxl.rate, width := u.cxl.width, everUp := u.cxl.everUp }
  sec := { u.sec with conn := .none, sessions := [], dbg := .locked, dbgResult := 0, chal := none, scope := 0, scopeWait := 0 }
  hbm := { u.hbm with hostBias := [], waiting := [], violArmed := true, viol := [], ueValid := false, ueSrc := 0, ueAddr := 0 }
  ras := { u.ras with service := false, seq := 0, unitResult := .none }
  pwr := { u.pwr with
    resetting := none, wakeUs := 0, idle := 0, wakeCause := .none, tripped := false, sagSeen := false, idleSince := u.clk.root }
  clk := { u.clk with hostStep := 0 } }

theorem afterReset_eq (s : State) (p : ResetProgress) : s.afterReset p = (resetLeave (scrubbed s p)).reviewClock.fabReset := rfl

theorem resetLeave_rest (u : State) : (resetLeave u).pwr.resetting = none ∧ (resetLeave u).slots = [] ∧ (resetLeave u).sec.sessions = [] ∧
    (resetLeave u).sec.dbg = .locked ∧ (resetLeave u).sec.sealed = u.sec.sealed ∧ (resetLeave u).flow = u.flow ∧
    (resetLeave u).cage.started = [] := ⟨rfl, rfl, rfl, rfl, rfl, rfl, rfl⟩

/-- A register that the reset keeps reads as before, any other reads its Reset column. -/
theorem resetLeave_reg (u : State) (off : Nat) : (resetLeave u).reg off = if keptReg off = true then u.reg off else (regReset off).toNat := by
  unfold State.reg resetLeave
  dsimp only
  split
  · next h => rw [tblGet_filter fun _ => h]
  · next h => rw [tblGet_filter_out fun _ => by simpa using h]

theorem setRf_reg {s : State} {off lo width v o : Nat} (h : o ≠ off) : (s.setRf off lo width v).reg o = s.reg o := reg_setReg_of_ne h _

theorem killFinish_reg {s : State} {n off : Nat} (hn : n < 8) (h : off < 0x4000 ∨ 0x4200 ≤ off) : (s.killFinish n).reg off = s.reg off := by
  unfold State.killFinish
  extract_lets s1 s2 s3
  have h1 : s1.regs = s.regs := by
    unfold s1
    split
    · exact (State.scrubRegions_keeps ..).frame.same (f := .regs) rfl
    · rfl
  have h2 : s2.regs = s.regs := ((State.scrubSlot_keeps ..).frame.same (f := .regs) rfl).trans h1
  have hj : off ≠ jobBase n + 0x38 ∧ off ≠ jobBase n + 0x08 := by unfold jobBase; omega
  have h3 : s3.reg off = s2.reg off := (setRf_reg hj.2).trans (setRf_reg hj.1)
  change s3.reg off = _
  rw [h3]
  unfold State.reg
  rw [h2]

theorem flowReset_regs (u : State) : u.flowReset.regs = u.regs := rfl

theorem scrubbed_reg {s : State} {p : ResetProgress} {off : Nat} (h : off < 0x4000 ∨ 0x4200 ≤ off) : (scrubbed s p).reg off = s.reg off := by
  have hloss : (lossLogged s).regs = s.regs := by
    unfold lossLogged
    split
    · exact s.hostLost_keeps.frame.same (f := .regs) rfl
    · rfl
  have hkill : ((List.range 8).foldl State.killFinish (lossLogged s)).reg off = (lossLogged s).reg off :=
    List.foldlRecOn (motive := fun t : State => t.reg off = (lossLogged s).reg off) _ _ rfl fun t ht n hn =>
      (killFinish_reg (List.mem_range.mp hn) h).trans ht
  have hmem (u : State) : (if p.memClear then u.clearMemory else u).flowReset.regs = u.regs := by
    rw [flowReset_regs]
    split
    · exact (State.clearMemory_keeps u).frame.same (f := .regs) rfl
    · rfl
  unfold State.reg at hkill ⊢
  rw [← hloss, ← hkill]
  exact congrArg (fun r => (tblGet regReset r off).toNat) (hmem _)

theorem flowReset_flow (u : State) : u.flowReset.flow = FlowState.reset := rfl

theorem scrubbed_flow (s : State) (p : ResetProgress) : (scrubbed s p).flow = FlowState.reset := by
  unfold scrubbed
  exact flowReset_flow _

theorem scrubbed_sealed (s : State) (p : ResetProgress) : (scrubbed s p).sec.sealed = s.sec.sealed :=
  congrArg SecState.sealed (((scrubbed_keeps s p).sec_eq rfl).trans (lossLogged_sec s))

/-- The clock's review and the fabric's part of a reset leave what the reset has put in place. -/
theorem afterReset_keeps (s : State) (p : ResetProgress) : Keeps 0x24010 (resetLeave (scrubbed s p)) (s.afterReset p) := by
  rw [afterReset_eq]
  exact (State.fabReset_keeps _).after ((State.reviewClock_keeps _).mono rfl) rfl

theorem keptReg_of_range {off : Nat} (h : (0x5000 ≤ off ∧ off < 0x6000) ∨ (0xC000 ≤ off ∧ off < 0x20000)) : keptReg off = true := by
  unfold keptReg
  rcases h with ⟨h1, h2⟩ | ⟨h1, h2⟩
  · simp [h1, h2]
  · simp [h1, h2]

/-- Settles O38: each reset is the Reset state with what outlives it put back, and a device reset keeps the registers that its filter
keeps. -/
theorem resetsForget : Obligations.ResetsForget := by
  unfold Obligations.ResetsForget
  refine ⟨fun air recovery addr core io s hp hk ht hc hi => ?on, fun straps core io s hp hk ht hc hi => ?again, fun s hl => ?lock,
    fun pwrok core io s h => ?off, fun s ht => ?trip, fun s hp => ⟨fun us asserted hk hu hr => ?perst, fun us asserted hu hj => ?short,
    fun hu hr => ⟨fun c => ?cxl, ?sbr⟩⟩, fun s p hr hb => ?done⟩
  case on =>
    obtain ⟨smb, he⟩ := onPowerOnReset_sampled hp (core := core) (io := io) hk (some air) recovery addr
    have hclear : (decide (550 ≤ core) && decide (1620 ≤ io) && !s.pwr.thermTrip) = true := by simp [hc, hi, ht]
    rw [hclear] at he
    have hf := (poweredOn_keeps s (s.strapBit (some air) 0) (s.strapBit recovery 1) true smb core io).frame
    obtain ⟨himg, hlog⟩ := poweredOn_kept s (s.strapBit (some air) 0) (s.strapBit recovery 1) true smb core io
    refine .of rfl he ?_
    rw [hf.same (f := .pwr) rfl, hf.same (f := .clk) rfl, hf.same (f := .slots) rfl, hf.same (f := .hbm) rfl, hf.same (f := .flow) rfl,
      hf.same (f := .cxl) rfl, hf.same (f := .sec) rfl]
    exact ⟨rfl, rfl, rfl, rfl, rfl, rfl, rfl, rfl, rfl, rfl, rfl, himg, hlog⟩
  case again =>
    have he := onPowerOnReset_again hp (core := core) (io := io) hk straps
    have hclear : (decide (550 ≤ core) && decide (1620 ≤ io) && !s.pwr.thermTrip) = true := by simp [hc, hi, ht]
    rw [hclear] at he
    have hf := (poweredOn_keeps s s.pwr.air s.pwr.strapRecovery true s.pwr.smbAddr core io).frame
    refine .of rfl he ?_
    rw [hf.same (f := .pwr) rfl, hf.same (f := .clk) rfl]
    exact ⟨rfl, rfl, rfl, rfl, rfl⟩
  case lock => exact .of rfl (if_neg (by simp [hl])) ⟨rfl, rfl, rfl, rfl, rfl, rfl, rfl⟩
  case off =>
    obtain ⟨out, he⟩ := onPowerLoss_lost h s
    obtain ⟨h1, h2⟩ := poweredOff_kept s pwrok core io
    exact .of rfl he ⟨rfl, rfl, rfl, rfl, rfl, h1, rfl, h2⟩
  case trip => exact .of rfl (onThermtrip_trips ht) ⟨rfl, rfl, rfl, rfl, rfl, tripped_rollback s⟩
  case perst =>
    obtain ⟨hpw, hsl⟩ := perstLevel_rest s asserted
    have hres : (perstLevel s asserted).pwr.resetting = none := by rw [hpw]; exact hr
    obtain ⟨h1, h2, -, h4⟩ := beginReset_kills hres .perst false false
    refine .of rfl (onPerst_resets asserted hu hk hp) ?_
    generalize (perstLevel s asserted).beginReset .perst false false = u at h1 h2 h4
    exact ⟨h1, rfl, h2.trans (by rw [hpw]), fun n hn hl => h4 n hn ((loaded_slots hsl).trans hl)⟩
  case short => exact congrArg Host.Outcome.next (onPerst_short asserted hu hj)
  case cxl =>
    obtain ⟨h1, -, h3, h4⟩ := beginReset_kills hr .cxl c false
    exact .of rfl (if_pos ⟨hp, hu⟩) ⟨h1, h3, h4⟩
  case sbr =>
    obtain ⟨h1, -, -, h4⟩ := beginReset_kills hr .sbr false false
    refine .of rfl (onSecondaryBusReset_resets hp hu) ?_
    generalize s.beginReset .sbr false false = u at h1 h4
    exact ⟨h1, rfl, h4⟩
  case done =>
    have he : onResetComplete s = s.afterReset p := by simp [onResetComplete, hr, hb]
    have hf := (afterReset_keeps s p).frame
    have hregs : (s.afterReset p).regs = _ := hf.same (f := .regs) rfl
    obtain ⟨h1, h2, h3, h4, h5, h6, h7⟩ := resetLeave_rest (scrubbed s p)
    refine .of rfl he ?_
    rw [hf.same (f := .pwr) rfl, hf.same (f := .slots) rfl, hf.same (f := .sec) rfl, hf.same (f := .flow) rfl, hf.same (f := .cage) rfl]
    refine ⟨h1, h2, h3, h4, h5.trans (scrubbed_sealed s p), h6.trans (scrubbed_flow s p), h7, fun off ho => ?_, fun off ho => ?_⟩
    · have hr := resetLeave_reg (scrubbed s p) off
      rw [if_neg (by simp [ho])] at hr
      rwa [State.reg, hregs]
    · have hr := resetLeave_reg (scrubbed s p) off
      rw [if_pos (keptReg_of_range ho), scrubbed_reg (by omega)] at hr
      rwa [State.reg, hregs]

end Sys2Proof.Machine
end

section
/-! SUPPORT. Temperature, rails, voltage and the non-volatile gate (17 R417, R426 to R430; 15 R372). -/
namespace Sys2Proof.Machine

/-! ### What a wake event, a completion and an event leave -/

/-- Only what says how the device sleeps may differ in the power state. -/
def IdleOnly (s t : State) : Prop := t.pwr = { s.pwr with
  a4Wait := t.pwr.a4Wait, idleSince := t.pwr.idleSince, idle := t.pwr.idle, waking := t.pwr.waking, wakeCause := t.pwr.wakeCause }

theorem IdleOnly.refl (s : State) : IdleOnly s s := rfl
theorem IdleOnly.after {s t u : State} (b : IdleOnly t u) (a : IdleOnly s t) : IdleOnly s u := by unfold IdleOnly at *; rw [b, a]
theorem IdleOnly.ite {c : Prop} [Decidable c] {s t u : State} (ha : IdleOnly s t) (hb : IdleOnly s u) : IdleOnly s (if c then t else u) := by
  split
  · exact ha
  · exact hb
theorem IdleOnly.of_same {s t : State} (h : t.pwr = s.pwr) : IdleOnly s t := by unfold IdleOnly; rw [h]
theorem IdleOnly.of_keeps {p : Nat} {s t : State} (h : Keeps p s t) (hp : p.testBit Field.pwr.place = false) : IdleOnly s t :=
  .of_same (h.frame.same (f := .pwr) hp)

theorem wake_idleOnly (s : State) (c : WakeCause) : IdleOnly s (s.wake c) := by
  have htransit (u : State) : IdleOnly u (u.fabTransit true) := .of_keeps (u.fabTransit_keeps true) rfl
  unfold State.wake
  refine .ite ((htransit _).after rfl) (.ite (.refl s) (.ite ?_ rfl))
  exact .ite ((htransit _).after rfl) rfl

theorem throttleEvent_idleOnly (s : State) (step : Nat) : IdleOnly s (s.throttleEvent step) :=
  (wake_idleOnly _ _).after (.of_same (raise_pwr rfl ..))

theorem throttleEvent_clk (s : State) (step : Nat) : (s.throttleEvent step).clk = s.clk :=
  (s.throttleEvent_keeps step).frame.same (f := .clk) rfl

theorem complete_ctr (s : State) {k : Nat} (h : k ≠ 0xA108) (d : Started) (status detail : Nat) (result : List Byte) :
    (s.complete d status detail result).ctr k = s.ctr k := by
  have hpost (u : State) (c : Completion) : (u.postRecord c).ctr k = u.ctr k := by
    unfold State.postRecord
    split
    · exact msix_ctr ..
    · rfl
  have hfinish (u : State) (c : Completion) : (u.finish c).ctr k = u.ctr k := by
    unfold State.finish
    split
    · exact bump_ctr_of_ne _ h _
    split
    · exact (hpost _ _).trans (bump_ctr_of_ne _ h _)
    · dsimp only
      split
      · exact bump_ctr_of_ne _ h _
      · rfl
  exact hfinish _ _

theorem settlePower_ctr (s : State) {k : Nat} (h : k ≠ 0xA108) : s.settlePower.ctr k = s.ctr k := by
  unfold State.settlePower
  split
  · refine List.foldlRecOn (motive := fun t : State => t.ctr k = s.ctr k) _ _ rfl fun t ht d _ => ?_
    split
    · exact (complete_ctr _ h ..).trans ht
    · exact ht
  · rfl

/-- An event keeps the outputs that went before. -/
theorem raise_mem_out {s : State} {o : Output} (h : o ∈ s.out) (code : Nat) (cls : EvClass) (slot : Option (Fin 8)) (payload : List Byte) :
    o ∈ (s.raise code cls slot payload).out := by
  have hlog (u : State) (e : EventRec) (hu : o ∈ u.out) : o ∈ (u.evLog e).out := by
    unfold State.evLog
    split <;> exact hu
  have hpost (u : State) (e : EventRec) (hu : o ∈ u.out) : o ∈ (u.evPost e).out := by
    unfold State.evPost
    split
    · exact hu
    split
    · exact msix_out _ _ _ (List.mem_cons_of_mem _ hu)
    split
    · exact hu
    · exact hu
  unfold State.raise
  refine hpost _ _ ?_
  split <;> exact hlog _ _ h

/-! ### The controller's requests -/

/-- The controller changes only what it requests of the dividers and of the regulator. -/
def RequestOnly (s t : State) : Prop := t.clk = { s.clk with req := t.clk.req, volt := t.clk.volt, setPoint := t.clk.setPoint }

theorem lowerVolt_clk (s : State) : s.lowerVolt.clk = { s.clk with setPoint := s.lowerVolt.clk.setPoint } := by
  unfold State.lowerVolt
  split <;> rfl

theorem reviewClock_requests (s : State) : RequestOnly s s.reviewClock := by
  have hlow {u : State} (h : RequestOnly s u) : RequestOnly s u.lowerVolt := by unfold RequestOnly at *; rw [lowerVolt_clk, h]
  unfold State.reviewClock
  extract_lets r
  split
  · exact hlow rfl
  split
  · split <;> split <;> rfl
  · exact hlow rfl

/-- Where /8 is asked for and the step requested is no slower, /8 is what the controller requests. -/
theorem reviewClock_slowest {s : State} (h : s.clk.sagThrottle = true ∨ s.clk.regWarn = true) (hr : s.clk.req ≤ 3) :
    s.reviewClock.clk.req = 3 := by
  have hw : s.wantedStep = 3 := by
    unfold State.wantedStep State.stepNoSag
    rcases h with h | h <;> simp [h]
  unfold State.reviewClock
  rw [hw]
  dsimp only
  split
  · rw [lowerVolt_clk]
  · rw [if_neg (by omega), lowerVolt_clk]
    dsimp only
    omega

theorem reviewClock_pwr (s : State) : s.reviewClock.pwr = s.pwr := (s.reviewClock_keeps).frame.same (f := .pwr) rfl

/-! ### One sample of the sensors -/

/-- What the later parts of a sample keep of it, beside the throttle's and the regulator's inputs. -/
def SampleKept (s t : State) : Prop := t.pwr.tMax = s.pwr.tMax ∧ t.pwr.tHbm = s.pwr.tHbm ∧ t.pwr.watts = s.pwr.watts

theorem SampleKept.after {s t u : State} (b : SampleKept t u) (a : SampleKept s t) : SampleKept s u :=
  ⟨b.1.trans a.1, b.2.1.trans a.2.1, b.2.2.trans a.2.2⟩

theorem IdleOnly.sample {s t : State} (h : IdleOnly s t) : SampleKept s t := by
  unfold IdleOnly at h
  unfold SampleKept
  rw [h]
  exact ⟨rfl, rfl, rfl⟩

theorem throttleInput_above {now base steps : Nat} {cool : Option Nat} {above : Bool} (below : Bool) (ha : above = true)
    (h : base + steps < 3) : throttleInput now base steps cool above below = (steps + 1, none, true) := by
  simp [throttleInput, ha, h]

/-- The readings of a sample. -/
def readings (r : Sensors) (s : State) : State := { s with pwr := { s.pwr with
  tMax := r.junction, tHbm := r.stack, watts := r.watts, hotStacks := r.stacksOver85
  throttledStacks := (s.pwr.throttledStacks ||| r.stacksOver95) &&& ~~~r.stacksUnder90 } }

/-- The temperature input holds these steps. -/
def heldHeat (t : Nat × Option Nat × Bool) (s : State) : State :=
  { s with clk := { s.clk with thermSteps := t.1 }, pwr := { s.pwr with thermCool := t.2.1 } }

/-- The power input holds these steps. -/
def heldWatts (t : Nat × Option Nat × Bool) (s : State) : State :=
  { s with clk := { s.clk with powerSteps := t.1 }, pwr := { s.pwr with powerCool := t.2.1 } }

/-- An input that moved is counted and told. -/
def inputMoved (off : Nat) (t : Nat × Option Nat × Bool) (s : State) : State :=
  if t.2.2 then (s.bump off).throttleEvent (min 3 (s.baseStep + t.1)) else s

theorem inputMoved_rest (off : Nat) (t : Nat × Option Nat × Bool) (s : State) : IdleOnly s (inputMoved off t s) ∧
    (inputMoved off t s).clk = s.clk ∧ (inputMoved off t s).slots = s.slots := by
  unfold inputMoved
  split
  · have hf := ((s.bump off).throttleEvent_keeps (min 3 (s.baseStep + t.1))).frame
    exact ⟨throttleEvent_idleOnly (s.bump off) _, throttleEvent_clk (s.bump off) _, hf.same (f := .slots) rfl⟩
  · exact ⟨.refl s, rfl, rfl⟩

/-- How the temperature input of a sample moves. -/
def heatInput (r : Sensors) (s : State) : Nat × Option Nat × Bool :=
  throttleInput s.clk.root s.baseStep s.clk.thermSteps s.pwr.thermCool (s.rf 0x6010 0 8 < r.junction)
    (r.junction + s.rf 0x6010 8 4 < s.rf 0x6010 0 8)

/-- How its power input moves. -/
def wattInput (r : Sensors) (s : State) : Nat × Option Nat × Bool :=
  throttleInput s.clk.root s.baseStep s.clk.powerSteps s.pwr.powerCool (s.capWatts < r.watts) (100 * r.watts < 95 * s.capWatts)

theorem sampleHeat_eq (r : Sensors) (s : State) :
    s.sampleHeat r = inputMoved 0x6128 (heatInput r s) (heldHeat (heatInput r s) (readings r s)) := rfl

theorem sampleWatts_eq (r : Sensors) (s : State) :
    s.sampleWatts r = inputMoved 0x6130 (wattInput r s) (heldWatts (wattInput r s) s) := rfl

theorem sampleHeat_rest (r : Sensors) (s : State) :
    (s.sampleHeat r).clk = { s.clk with thermSteps := (heatInput r s).1 } ∧ (s.sampleHeat r).slots = s.slots ∧
    IdleOnly (heldHeat (heatInput r s) (readings r s)) (s.sampleHeat r) := by
  rw [sampleHeat_eq]
  obtain ⟨h1, h2, h3⟩ := inputMoved_rest 0x6128 (heatInput r s) (heldHeat (heatInput r s) (readings r s))
  exact ⟨h2, h3, h1⟩

theorem sampleWatts_rest (r : Sensors) (s : State) :
    (s.sampleWatts r).clk = { s.clk with powerSteps := (wattInput r s).1 } ∧ (s.sampleWatts r).slots = s.slots ∧
    IdleOnly (heldWatts (wattInput r s) s) (s.sampleWatts r) := by
  rw [sampleWatts_eq]
  obtain ⟨h1, h2, h3⟩ := inputMoved_rest 0x6130 (wattInput r s) (heldWatts (wattInput r s) s)
  exact ⟨h2, h3, h1⟩

/-- The regulator's warning is over. -/
def warningOver (s : State) : State := ({ s with clk := { s.clk with regWarn := false } } : State).bump 0x6128

theorem sampleRegulator_rest (r : Sensors) (s : State) : IdleOnly s (s.sampleRegulator r) ∧ (s.sampleRegulator r).slots = s.slots ∧
    (s.sampleRegulator r).clk = { s.clk with regWarn := (s.sampleRegulator r).clk.regWarn } := by
  have he : s.sampleRegulator r = if s.clk.regWarn && !r.regWarning then (warningOver s).throttleEvent s.baseStep else s := rfl
  rw [he]
  split
  · have hf := ((warningOver s).throttleEvent_keeps s.baseStep).frame
    refine ⟨throttleEvent_idleOnly (warningOver s) _, hf.same (f := .slots) rfl, ?_⟩
    rw [throttleEvent_clk]
    rfl
  · exact ⟨.refl s, rfl, rfl⟩

/-! ### The first trip stage -/

/-- The pin, the limit and the request of a trip. -/
def tripLimited (s : State) : State :=
  (({ s with
    pwr := { s.pwr with thermAlert := true, tripped := true, trippedSet := s.mclk, tripLimit := true }
    clk := { s.clk with tripThrottle := true } } : State).bump 0x6138).emit (.pin .thermAlert true)

/-- The trip is a fault of every loaded slot, or an event where no slot is loaded. -/
def tripFaults (hottest : Nat) (held : List (Fin 8)) (s : State) : State :=
  if held.isEmpty then s.ev 0x0082 .job 0 1 hottest 0 0
  else held.foldl (fun s n => s.jobFault n 0x0082 0 1 hottest 0 0) s

theorem trip_eq (s : State) (hottest : Nat) :
    s.trip hottest = (tripFaults hottest ((List.finRange 8).filter fun n => s.loaded n.val) (tripLimited s)).reviewClock := rfl

theorem jobFault_pwr (s : State) (n : Fin 8) (code loc sub arg0 arg1 arg2 : Nat) : (s.jobFault n code loc sub arg0 arg1 arg2).pwr = s.pwr :=
  ((State.stopSlot_keeps _ n code _).frame.same (f := .pwr) rfl).trans (raise_pwr rfl ..)

theorem jobFault_clk (s : State) (n : Fin 8) (code loc sub arg0 arg1 arg2 : Nat) : (s.jobFault n code loc sub arg0 arg1 arg2).clk = s.clk :=
  (s.jobFault_keeps n code loc sub arg0 arg1 arg2).frame.same (f := .clk) rfl

theorem stopSlot_slot_of_ne (s : State) {n : Fin 8} {k : Nat} (h : k ≠ n.val) (code status : Nat) : (s.stopSlot n code status).slot k = s.slot k := by
  have hne (x : Slot) : (s.setSlot n.val x).slot k = s.slot k := setSlot_slot_of_ne h
  unfold State.stopSlot
  extract_lets x
  split
  · rfl
  split
  · split
    · exact hne _
    · rfl
  · unfold State.slot at hne ⊢
    rw [(State.failBarriers_keeps _ _).frame.same (f := .slots) rfl]
    exact hne _

/-- A stop leaves the slot's Survey, and stops the slot where it holds one. -/
theorem stopSlot_slot (s : State) (n : Fin 8) (code status : Nat) : ((s.stopSlot n code status).slot n.val).survey = (s.slot n.val).survey ∧
    ((s.slot n.val).survey.isSome = true → ((s.stopSlot n code status).slot n.val).stopped = true) := by
  unfold State.stopSlot
  extract_lets x
  split
  · next h => exact ⟨rfl, fun hs => absurd hs (by simpa [x] using h)⟩
  split
  · next h =>
    split
    · rw [setSlot_slot]
      exact ⟨rfl, fun _ => h⟩
    · exact ⟨rfl, fun _ => h⟩
  · have hb (u : State) : ((u.bump 0x7100).failBarriers n.val).slots = u.slots :=
      ((u.bump 0x7100).failBarriers_keeps n.val).frame.same (f := .slots) rfl
    have hs := setSlot_slot s n.val { x with stopped := true, stoppedAt := s.mclk, firstFault := code, firstStatus := status }
    unfold State.slot at hs ⊢
    rw [hb, hs]
    exact ⟨rfl, fun _ => rfl⟩

theorem jobFault_slot_of_ne (s : State) {n : Fin 8} {k : Nat} (h : k ≠ n.val) (code loc sub arg0 arg1 arg2 : Nat) :
    (s.jobFault n code loc sub arg0 arg1 arg2).slot k = s.slot k := by
  have hr : (s.raise code .job (some n) (genPayload loc sub arg0 arg1 arg2)).slots = s.slots := (raise_only ..).slots
  refine (stopSlot_slot_of_ne _ h ..).trans ?_
  unfold State.slot
  rw [hr]

theorem jobFault_slot (s : State) (n : Fin 8) (code loc sub arg0 arg1 arg2 : Nat) :
    ((s.jobFault n code loc sub arg0 arg1 arg2).slot n.val).survey = (s.slot n.val).survey ∧
    ((s.slot n.val).survey.isSome = true → ((s.jobFault n code loc sub arg0 arg1 arg2).slot n.val).stopped = true) := by
  have hr : (s.raise code .job (some n) (genPayload loc sub arg0 arg1 arg2)).slots = s.slots := (raise_only ..).slots
  have hs := stopSlot_slot (s.raise code .job (some n) (genPayload loc sub arg0 arg1 arg2)) n code stJobFault
  have he : (s.raise code .job (some n) (genPayload loc sub arg0 arg1 arg2)).slot n.val = s.slot n.val := by unfold State.slot; rw [hr]
  rwa [he] at hs

/-- A fault of each slot of a list stops those that hold a Survey and leaves every Survey. -/
theorem jobFaults_slot (code loc sub arg0 arg1 arg2 : Nat) (l : List (Fin 8)) (s : State) (k : Fin 8) :
    ((l.foldl (fun s n => s.jobFault n code loc sub arg0 arg1 arg2) s).slot k.val).survey = (s.slot k.val).survey ∧
    ((s.slot k.val).survey.isSome = true → (s.slot k.val).stopped = true ∨ k ∈ l →
      ((l.foldl (fun s n => s.jobFault n code loc sub arg0 arg1 arg2) s).slot k.val).stopped = true) := by
  induction l generalizing s with
  | nil => exact ⟨rfl, fun _ h => h.resolve_right (by simp)⟩
  | cons n l ih =>
    obtain ⟨h1, h2⟩ := ih (s.jobFault n code loc sub arg0 arg1 arg2)
    by_cases hk : k = n
    · subst hk
      obtain ⟨g1, g2⟩ := jobFault_slot s k code loc sub arg0 arg1 arg2
      exact ⟨h1.trans g1, fun hs _ => h2 (g1 ▸ hs) (.inl (g2 hs))⟩
    · have he := jobFault_slot_of_ne s (n := n) (k := k.val) (fun h => hk (Fin.ext h)) code loc sub arg0 arg1 arg2
      rw [he] at h1 h2
      refine ⟨h1, fun hs h => h2 hs (h.imp_right fun hm => ?_)⟩
      exact (List.mem_cons.mp hm).resolve_left hk

theorem tripFaults_rest (hottest : Nat) (held : List (Fin 8)) (s : State) : (tripFaults hottest held s).pwr = s.pwr ∧
    (tripFaults hottest held s).clk = s.clk := by
  unfold tripFaults
  split
  · exact ⟨raise_pwr rfl .., (ev_only ..).clk⟩
  · exact List.foldlRecOn (motive := fun t : State => t.pwr = s.pwr ∧ t.clk = s.clk) _ _ ⟨rfl, rfl⟩ fun t ht n _ =>
      ⟨(jobFault_pwr ..).trans ht.1, (jobFault_clk ..).trans ht.2⟩

/-- The trip stops the loaded slots and leaves their Surveys. -/
theorem tripFaults_slot (hottest : Nat) {held : List (Fin 8)} (s : State) {k : Fin 8} (hk : k ∈ held) (hs : (s.slot k.val).survey.isSome = true) :
    ((tripFaults hottest held s).slot k.val).stopped = true ∧ ((tripFaults hottest held s).slot k.val).survey = (s.slot k.val).survey := by
  unfold tripFaults
  rw [if_neg (by simpa using List.ne_nil_of_mem hk)]
  obtain ⟨h1, h2⟩ := jobFaults_slot 0x0082 0 1 hottest 0 0 held s k
  exact ⟨h2 hs (.inr hk), h1⟩

theorem trip_pwr (s : State) (hottest : Nat) : (s.trip hottest).pwr =
    { s.pwr with thermAlert := true, tripped := true, trippedSet := s.mclk, tripLimit := true } := by
  rw [trip_eq, reviewClock_pwr, (tripFaults_rest ..).1]
  rfl

theorem trip_clk (s : State) (hottest : Nat) : (s.trip hottest).clk = { s.clk with
    tripThrottle := true, req := (s.trip hottest).clk.req, volt := (s.trip hottest).clk.volt, setPoint := (s.trip hottest).clk.setPoint } := by
  rw [trip_eq]
  have h := reviewClock_requests (tripFaults hottest ((List.finRange 8).filter fun n => s.loaded n.val) (tripLimited s))
  unfold RequestOnly at h
  rw [h, (tripFaults_rest ..).2]
  rfl

theorem trip_slot (s : State) (hottest : Nat) {n : Nat} (hn : n < 8) (hl : s.loaded n = true) :
    ((s.trip hottest).slot n).stopped = true ∧ ((s.trip hottest).slot n).survey = (s.slot n).survey := by
  have hs : (s.slot n).survey.isSome = true := by
    unfold State.loaded at hl
    exact (Bool.and_eq_true_iff.mp hl).1
  rw [trip_eq]
  unfold State.slot
  rw [(State.reviewClock_keeps _).frame.same (f := .slots) rfl]
  exact tripFaults_slot hottest (k := ⟨n, hn⟩) (tripLimited s) (by simpa using hl) hs

/-- The first trip stage comes, where a sensor is above its limit. -/
def tripComes (r : Sensors) (s : State) : State :=
  if (110 < r.junction ∨ 105 < r.stack) ∧ s.pwr.tripLimit = false then s.trip (max r.junction r.stack) else s

/-- The trip's limit is over. -/
def tripOver (s : State) : State :=
  ({ s with pwr := { s.pwr with thermAlert := false, tripLimit := false }
            clk := { s.clk with tripThrottle := false } } : State).emit (.pin .thermAlert false)

theorem sampleTrip_eq (r : Sensors) (s : State) : s.sampleTrip r =
    if (tripComes r s).pwr.tripLimit ∧ r.allUnder95 then tripOver (tripComes r s) else tripComes r s := rfl

theorem sampleTrip_kept (r : Sensors) (s : State) : SampleKept s (s.sampleTrip r) ∧
    (s.sampleTrip r).clk.thermSteps = s.clk.thermSteps ∧ (s.sampleTrip r).clk.powerSteps = s.clk.powerSteps := by
  have hover (u : State) : SampleKept u (tripOver u) ∧ (tripOver u).clk.thermSteps = u.clk.thermSteps ∧
      (tripOver u).clk.powerSteps = u.clk.powerSteps := ⟨⟨rfl, rfl, rfl⟩, rfl, rfl⟩
  have hcomes : SampleKept s (tripComes r s) ∧ (tripComes r s).clk.thermSteps = s.clk.thermSteps ∧
      (tripComes r s).clk.powerSteps = s.clk.powerSteps := by
    unfold tripComes
    split
    · unfold SampleKept
      rw [trip_pwr, trip_clk]
      exact ⟨⟨rfl, rfl, rfl⟩, rfl, rfl⟩
    · exact ⟨⟨rfl, rfl, rfl⟩, rfl, rfl⟩
  obtain ⟨c1, c2, c3⟩ := hcomes
  rw [sampleTrip_eq]
  split
  · obtain ⟨o1, o2, o3⟩ := hover (tripComes r s)
    exact ⟨o1.after c1, o2.trans c2, o3.trans c3⟩
  · exact ⟨c1, c2, c3⟩

theorem sampleTrip_trips {r : Sensors} {s : State} (h : 110 < r.junction ∨ 105 < r.stack) (hl : s.pwr.tripLimit = false)
    (hr : r.allUnder95 = false) : s.sampleTrip r = s.trip (max r.junction r.stack) := by
  rw [sampleTrip_eq, if_neg (by simp [hr]), tripComes, if_pos ⟨h, hl⟩]

/-! ### A whole sample -/

theorem settlePower_rest (s : State) : s.settlePower.pwr = s.pwr ∧ s.settlePower.clk = s.clk ∧ s.settlePower.slots = s.slots :=
  have hf := s.settlePower_keeps.frame
  ⟨hf.same (f := .pwr) rfl, hf.same (f := .clk) rfl, hf.same (f := .slots) rfl⟩

/-- The first three parts of a sample. -/
def sampled (r : Sensors) (s : State) : State := ((s.sampleHeat r).sampleWatts r).sampleRegulator r

section
variable (r : Sensors) {s : State}

theorem onThermalSample_eq (h : s.pwr.phase = .running) : onThermalSample r s = ((sampled r s).sampleTrip r).reviewClock.settlePower :=
  if_neg (by simp [h])

theorem sampled_rest (s : State) : (sampled r s).clk.thermSteps = (heatInput r s).1 ∧
    (sampled r s).clk.powerSteps = (wattInput r (s.sampleHeat r)).1 ∧ (sampled r s).pwr.tMax = r.junction ∧
    (sampled r s).pwr.tHbm = r.stack ∧ (sampled r s).pwr.watts = r.watts ∧ (sampled r s).pwr.tripLimit = s.pwr.tripLimit ∧
    (sampled r s).slots = s.slots := by
  obtain ⟨h1, h2, h3⟩ := sampleHeat_rest r s
  obtain ⟨w1, w2, w3⟩ := sampleWatts_rest r (s.sampleHeat r)
  obtain ⟨g1, g2, g3⟩ := sampleRegulator_rest r ((s.sampleHeat r).sampleWatts r)
  unfold IdleOnly at h3 w3 g1
  have hp : (sampled r s).pwr.tMax = r.junction ∧ (sampled r s).pwr.tHbm = r.stack ∧ (sampled r s).pwr.watts = r.watts ∧
      (sampled r s).pwr.tripLimit = s.pwr.tripLimit := by
    unfold sampled
    rw [g1, w3, heldWatts, h3]
    exact ⟨rfl, rfl, rfl, rfl⟩
  obtain ⟨p1, p2, p3, p4⟩ := hp
  refine ⟨?_, ?_, p1, p2, p3, p4, g2.trans (w2.trans h2)⟩
  · unfold sampled
    rw [g3, w1, h1]
  · unfold sampled
    rw [g3, w1]

/-- What a sample leaves in the throttle's inputs and the readings. -/
theorem onThermalSample_rest (h : s.pwr.phase = .running) : (onThermalSample r s).clk.thermSteps = (heatInput r s).1 ∧
    (onThermalSample r s).clk.powerSteps = (wattInput r (s.sampleHeat r)).1 ∧ (onThermalSample r s).pwr.tMax = r.junction ∧
    (onThermalSample r s).pwr.tHbm = r.stack ∧ (onThermalSample r s).pwr.watts = r.watts := by
  obtain ⟨a1, a2, a3, a4, a5, -, -⟩ := sampled_rest r s
  obtain ⟨⟨b3, b4, b5⟩, b1, b2⟩ := sampleTrip_kept r (sampled r s)
  have hq := reviewClock_requests ((sampled r s).sampleTrip r)
  unfold RequestOnly at hq
  rw [onThermalSample_eq r h, (settlePower_rest _).1, (settlePower_rest _).2.1, reviewClock_pwr, hq]
  exact ⟨b1.trans a1, b2.trans a2, b3.trans a3, b4.trans a4, b5.trans a5⟩

theorem wattInput_sampleHeat (s : State) : wattInput r (s.sampleHeat r) =
    throttleInput s.clk.root s.baseStep s.clk.powerSteps s.pwr.powerCool (s.capWatts < r.watts) (100 * r.watts < 95 * s.capWatts) := by
  obtain ⟨h1, -, h3⟩ := sampleHeat_rest r s
  unfold IdleOnly at h3
  unfold wattInput State.baseStep State.ceiling State.capWatts
  rw [h3, h1]
  rfl
end

/-! ### Voltage, steps, sags and the gate -/

theorem onVoltageTargetReached_taken {reported : Bool} {w : VoltWait} {s : State} (h : s.clk.volt = some w)
    (hr : reported = true ∨ w.since + usRoot 200 ≤ s.clk.root) :
    onVoltageTargetReached reported s = ({ s with clk := { s.clk with volt := none, req := w.step } } : State).settlePower := by
  unfold onVoltageTargetReached
  rw [h]
  exact if_pos hr

/-- The dividers take the requested step. -/
def stepTaken (s : State) : State := ({ s with clk := { s.clk with step := s.clk.req, aclkResume := s.clk.root + 240 } } : State).bump 0x5100

theorem onAclkStepChange_taken {s : State} (hl : s.clk.locked = true) (hb : s.clk.root % 240 = 0) (hr : s.clk.req ≠ s.clk.step) :
    onAclkStepChange s = (stepTaken s).lowerVolt.settlePower := if_pos ⟨hl, hb, hr⟩

/-- A sag: the writes that were about to start stay, and the rails are not back. -/
def sagged (core io : Nat) (s : State) : State :=
  { s with pwr := { s.pwr with
    coreMv := core, ioMv := io, coreLow := decide (core + 40 < s.clk.setPoint), ioLow := decide (io < 1740)
    sagSeen := true, sagSet := s.mclk, railsBack := none, nvWait := s.pwr.nvWait.map fun w => { w with starting := false } } }

/-- The sag throttle is asked for, and counted. -/
def sagThrottled (core io : Nat) (s : State) : State :=
  let u := sagged core io s
  ({ u with clk := { u.clk with sagThrottle := true } } : State).bump 0x6140

/-- The rails are back. -/
def railsBack (core io : Nat) (s : State) : State :=
  { s with pwr := { s.pwr with
    coreMv := core, ioMv := io, coreLow := decide (core + 40 < s.clk.setPoint), ioLow := decide (io < 1740)
    railsBack := some s.clk.root, gateOpen := s.clk.root } }

section
variable {core io : Nat} {s : State} (h : s.pwr.phase ≠ .held)
include h

theorem onSagDetect_sags (hv : core + 40 < s.clk.setPoint ∨ io < 1740) (hs : s.clk.sagThrottle = false) : onSagDetect core io s =
    (((sagThrottled core io s).ev 0x0083 .warning 0
      (b2n (decide (core + 40 < s.clk.setPoint)) + 2 * b2n (decide (io < 1740))) 0 0 0).reviewClock).wake .throttle := by
  unfold onSagDetect
  rw [if_neg h]
  dsimp only
  rw [if_pos (by simpa using hv), if_neg (by simp [hs])]
  rfl

theorem onSagDetect_back (h1 : s.clk.setPoint ≤ core + 40) (h2 : 1740 ≤ io) (hw : s.pwr.coreLow = true ∨ s.pwr.ioLow = true) :
    onSagDetect core io s = railsBack core io s := by
  unfold onSagDetect
  rw [if_neg h]
  dsimp only
  rw [if_neg (by simp; omega), if_pos (by simpa using hw)]
  rfl
end

/-- The sag throttle is released. -/
def sagReleased (s : State) : State := { s with clk := { s.clk with sagThrottle := false }, pwr := { s.pwr with railsBack := none } }

theorem onSagRelease_released {s : State} {b : Nat} (h : s.pwr.railsBack = some b) (hb : b + usRoot 100 ≤ s.clk.root)
    (hs : s.clk.sagThrottle = true) : onSagRelease s = ((sagReleased s).reviewClock.settlePower).wake .throttle := by
  unfold onSagRelease
  rw [h]
  exact if_pos ⟨hb, hs⟩

/-- A write that the gate held for too long is dropped. -/
def gateFailed (w : NvWait) (ws : List NvWait) (s : State) : State :=
  let s1 : State := { s with pwr := { s.pwr with nvWait := ws } }
  match w.op with
  | .flashImage => { s1 with ras := { s1.ras with fwState := .refused } }
  | _ => s1

theorem gateFailed_rest (w : NvWait) (ws : List NvWait) (s : State) :
    (gateFailed w ws s).pwr = { s.pwr with nvWait := ws } ∧ (gateFailed w ws s).sec = s.sec ∧ (gateFailed w ws s).clk = s.clk ∧
    (gateFailed w ws s).ctrs = s.ctrs ∧ (gateFailed w ws s).ras = { s.ras with fwState := (gateFailed w ws s).ras.fwState } ∧
    (w.op = .flashImage → (gateFailed w ws s).ras.fwState = .refused) := by
  unfold gateFailed
  obtain ⟨op, since, starting⟩ := w
  cases op
  case flashImage => exact ⟨rfl, rfl, rfl, rfl, rfl, fun _ => rfl⟩
  all_goals exact ⟨rfl, rfl, rfl, rfl, rfl, nofun⟩

theorem onNvGateTimeout_fails {w : NvWait} {ws : List NvWait} {s : State} (h : s.pwr.nvWait = w :: ws) (hg : s.nvOpen = false)
    (ht : w.since + msRoot 1000 ≤ s.clk.root) :
    onNvGateTimeout s = ((gateFailed w ws s).bump 0x6148).ev 0x0084 .warning 0 w.op.code 0 0 0 := by
  unfold onNvGateTimeout
  rw [h]
  exact if_pos ⟨ht, by simp [hg]⟩

/-- A PMBus alert is told to the host and logged. -/
def alerted (rail : Fin 8) (status : BitVec 16) (s : State) : State :=
  (s.emit (.pmbus rail.val status.toNat)).ev 0x0080 .warning rail.val status.toNat 0 0 0

/-- The regulator's warning is noted and counted. -/
def warningNoted (s : State) : State := ({ s with clk := { s.clk with regWarn := true } } : State).bump 0x6128

theorem alerted_clk (rail : Fin 8) (status : BitVec 16) (s : State) : (alerted rail status s).clk = s.clk := (ev_only ..).clk

theorem alerted_told (rail : Fin 8) (status : BitVec 16) (s : State) : Output.pmbus rail.val status.toNat ∈ (alerted rail status s).out ∧
    Logged 0x0080 .warning none (genPayload rail.val status.toNat 0 0 0) s (alerted rail status s) := by
  have hl := raise_logged (s.emit (.pmbus rail.val status.toNat)) 0x0080 .warning none (genPayload rail.val status.toNat 0 0 0)
  unfold alerted State.ev
  exact ⟨raise_mem_out List.mem_cons_self .., hl.congr rfl rfl rfl⟩

section
variable {s : State} (h : s.pwr.phase = .running) (rail : Fin 8) (status : BitVec 16)
include h

theorem onPmbusAlert_told : onPmbusAlert rail status false s = alerted rail status s := by
  unfold onPmbusAlert
  rw [if_neg (by simp [h])]
  rfl

theorem onPmbusAlert_warns (hw : s.clk.regWarn = false) :
    onPmbusAlert rail status true s = ((warningNoted (alerted rail status s)).throttleEvent 3).reviewClock := by
  unfold onPmbusAlert
  rw [if_neg (not_not.mpr h)]
  exact if_pos (by simp [hw])
end

theorem wake_rest (s : State) (c : WakeCause) : (s.wake c).clk = s.clk ∧ (s.wake c).ras = s.ras :=
  have hf := (s.wake_keeps c).frame
  ⟨hf.same (f := .clk) rfl, hf.same (f := .ras) rfl⟩

/-- What the wake of a throttle leaves of the rails and of the gate. -/
theorem IdleOnly.gate {s t : State} (h : IdleOnly s t) : t.pwr.coreLow = s.pwr.coreLow ∧ t.pwr.ioLow = s.pwr.ioLow ∧
    t.pwr.nvWait = s.pwr.nvWait ∧ t.pwr.railsBack = s.pwr.railsBack := by
  unfold IdleOnly at h
  rw [h]
  exact ⟨rfl, rfl, rfl, rfl⟩

theorem nvOpen_of_low {s : State} (h : s.pwr.coreLow = true ∨ s.pwr.ioLow = true) : s.nvOpen = false := by
  unfold State.nvOpen
  rcases h with h | h <;> simp [h]

/-- Settles O39: each part of a sample keeps what the others measure; a request for /8 is what the controller then requests; a sag and a
trip leave the limits they set. -/
theorem powerEventsAct : Obligations.PowerEventsAct := by
  unfold Obligations.PowerEventsAct
  refine ⟨fun r s hp => ⟨fun hj hb => ?heat, fun hw hb => ?watts, fun h hl hr => ?trip⟩,
    fun rail status s hp => ⟨?alert, fun hw hr => ?warn⟩, fun reported w s h hr => ?volt, fun s hl hb hr => ?step,
    fun core io s hp => ⟨fun hv hs hr => ?sag, fun h1 h2 hw => ?back⟩, fun b s h hb hs => ?release, fun w ws s h hg ht => ?gate⟩
  case heat =>
    obtain ⟨h1, -, h2⟩ := onThermalSample_rest r hp
    refine .of rfl rfl ⟨h1.trans ?_, h2⟩
    rw [heatInput, throttleInput_above _ (by simpa using hj) hb]
  case watts =>
    obtain ⟨-, h1, -⟩ := onThermalSample_rest r hp
    refine .of rfl rfl (h1.trans ?_)
    rw [wattInput_sampleHeat, throttleInput_above _ (by simpa using hw) hb]
  case trip =>
    obtain ⟨-, -, -, -, -, a6, a7⟩ := sampled_rest r s
    have he := sampleTrip_trips h (a6.trans hl) hr
    refine .of rfl (onThermalSample_eq r hp) ?_
    rw [he, (settlePower_rest _).1, (settlePower_rest _).2.1, reviewClock_pwr]
    have hq := reviewClock_requests ((sampled r s).trip (max r.junction r.stack))
    unfold RequestOnly at hq
    rw [hq, trip_pwr, trip_clk]
    refine ⟨rfl, rfl, rfl, fun n hn hs => ?_⟩
    have ht := trip_slot (sampled r s) (max r.junction r.stack) hn ((loaded_slots a7).trans hs)
    unfold State.slot at ht ⊢
    rw [(settlePower_rest _).2.2, (State.reviewClock_keeps _).frame.same (f := .slots) rfl, ← a7]
    exact ht
  case alert =>
    exact .of rfl (onPmbusAlert_told hp rail status) ⟨alerted_clk .., alerted_told ..⟩
  case warn =>
    have hc : (warningNoted (alerted rail status s)).clk = { s.clk with regWarn := true } := by
      rw [← alerted_clk rail status s]
      rfl
    have ht := (throttleEvent_clk (warningNoted (alerted rail status s)) 3).trans hc
    have hq := reviewClock_requests ((warningNoted (alerted rail status s)).throttleEvent 3)
    unfold RequestOnly at hq
    refine .of rfl (onPmbusAlert_warns hp rail status hw) ⟨?_, reviewClock_slowest (.inr (by rw [ht])) (by rw [ht]; exact hr)⟩
    rw [hq, ht]
  case volt => exact .of rfl (onVoltageTargetReached_taken h hr) (settlePower_rest _).2.1
  case step =>
    refine .of rfl (onAclkStepChange_taken hl hb hr) ?_
    have hctr : (stepTaken s).lowerVolt.ctr 0x5100 = (stepTaken s).ctr 0x5100 := by
      have hf : (stepTaken s).lowerVolt.ctrs = (stepTaken s).ctrs := (State.lowerVolt_keeps _).frame.same (f := .ctrs) rfl
      unfold State.ctr
      rw [hf]
    rw [(settlePower_rest _).2.1, settlePower_ctr _ (by decide), lowerVolt_clk, hctr]
    exact ⟨rfl, rfl, rfl, bump_ctr_same ..⟩
  case sag =>
    have hc : ∀ v : State, v = (sagThrottled core io s).ev 0x0083 .warning 0
        (b2n (decide (core + 40 < s.clk.setPoint)) + 2 * b2n (decide (io < 1740))) 0 0 0 →
        v.clk = { s.clk with sagThrottle := true } ∧ v.pwr = (sagged core io s).pwr ∧ Logged 0x0083 .warning none
          (genPayload 0 (b2n (decide (core + 40 < s.clk.setPoint)) + 2 * b2n (decide (io < 1740))) 0 0 0) s v := by
      rintro v rfl
      refine ⟨(ev_only ..).clk, raise_pwr rfl .., ?_⟩
      exact raise_logged (sagThrottled core io s) 0x0083 .warning none _
    refine .of rfl (onSagDetect_sags hp hv hs) ?_
    generalize hu : (sagThrottled core io s).ev 0x0083 .warning 0
      (b2n (decide (core + 40 < s.clk.setPoint)) + 2 * b2n (decide (io < 1740))) 0 0 0 = v
    obtain ⟨c1, c2, c3⟩ := hc v hu.symm
    obtain ⟨w1, w2⟩ := wake_rest v.reviewClock .throttle
    obtain ⟨g1, g2, g3, -⟩ := (wake_idleOnly v.reviewClock .throttle).gate
    have hq := reviewClock_requests v
    unfold RequestOnly at hq
    rw [reviewClock_pwr, c2] at g1 g2 g3
    refine ⟨?_, ?_, nvOpen_of_low ?_, ?_, ?_⟩
    · rw [w1, hq, c1]
    · rw [w1]
      exact reviewClock_slowest (.inl (by rw [c1])) (by rw [c1]; exact hr)
    · rw [g1, g2]
      exact hv.imp (fun h => decide_eq_true h) fun h => decide_eq_true h
    · rw [g3]
      intro w hw
      obtain ⟨x, -, rfl⟩ := List.mem_map.mp hw
      rfl
    · exact c3.congr rfl rfl (w2.trans ((State.reviewClock_keeps v).frame.same (f := .ras) rfl))
  case back =>
    refine .of rfl (onSagDetect_back hp h1 h2 hw) ⟨rfl, rfl, ?_, ?_⟩
    · exact decide_eq_false (by omega)
    · exact decide_eq_false (by omega)
  case release =>
    refine .of rfl (onSagRelease_released h hb hs) ?_
    obtain ⟨w1, -⟩ := wake_rest (sagReleased s).reviewClock.settlePower .throttle
    obtain ⟨-, -, -, g4⟩ := (wake_idleOnly (sagReleased s).reviewClock.settlePower .throttle).gate
    have hq := reviewClock_requests (sagReleased s)
    unfold RequestOnly at hq
    rw [w1, g4, (settlePower_rest _).1, (settlePower_rest _).2.1, reviewClock_pwr, hq]
    exact ⟨rfl, rfl⟩
  case gate =>
    obtain ⟨g1, g2, g3, g4, g5, g6⟩ := gateFailed_rest w ws s
    have hl := raise_logged ((gateFailed w ws s).bump 0x6148) 0x0084 .warning none (genPayload 0 w.op.code 0 0 0)
    have ho : EventOnly ((gateFailed w ws s).bump 0x6148) (((gateFailed w ws s).bump 0x6148).ev 0x0084 .warning 0 w.op.code 0 0 0) := ev_only ..
    have hr := ho.ras
    have hb : ((gateFailed w ws s).bump 0x6148).ras = { s.ras with fwState := (gateFailed w ws s).ras.fwState } := g5
    rw [hb] at hr
    have hctr : (gateFailed w ws s).ctr 0x6148 = s.ctr 0x6148 := by unfold State.ctr; rw [g4]
    refine .of rfl (onNvGateTimeout_fails h hg ht) ⟨?_, ho.sec.trans g2, ?_, ?_, fun hf => ?_, ?_⟩
    · have hp : (((gateFailed w ws s).bump 0x6148).ev 0x0084 .warning 0 w.op.code 0 0 0).pwr = (gateFailed w ws s).pwr := raise_pwr rfl ..
      rw [hp, g1]
    · rw [hr]
    · rw [ev_ctr _ (by decide) (by decide) (by decide), bump_ctr_same, hctr]
    · rw [hr]
      exact g6 hf
    · obtain ⟨e, l1, l2, l3, l4, l5, l6, l7⟩ := hl
      refine ⟨e, l1, l2, l3, l4, l5, l6.trans ?_, l7.trans ?_⟩
      · rw [hb]
      · exact congrArg ClockState.tally g3

end Sys2Proof.Machine
end

section
/-! SUPPORT. Idle states (17 R423 to R425; 04 R102). -/
namespace Sys2Proof.Machine

/-! ### Entry -/

/-- The state of device idle `n` is entered, from what the banks left. -/
def asleep (n : Nat) (s u : State) : State :=
  { u with pwr := { u.pwr with idle := n, waking := none, a4Wait := false, enteredAt := s.clk.root } }

theorem enterIdle_eq (s : State) (n : Nat) : s.enterIdle n = (asleep n s (s.flowSleep n)).bump (0x6100 + 8 * (n - 1)) := rfl

/-- The counters below those of the sites are not the banks'. -/
theorem banksEnter_ctr (s : State) (k : Nat) {o : Nat} (h : o < 0x1000000) : (s.banksEnter k).ctr o = s.ctr o := by
  unfold State.banksEnter
  dsimp only
  split
  · rfl
  · unfold State.bumpSite
    split
    · rfl
    · exact bump_ctr_of_ne _ (by unfold siteBase; omega) _

theorem flowSleep_ctr (s : State) (n : Nat) {o : Nat} (h : o < 0x1000000) : (s.flowSleep n).ctr o = s.ctr o := by
  unfold State.flowSleep
  split
  · exact List.foldlRecOn (motive := fun t : State => t.ctr o = s.ctr o) _ _ rfl fun t ht k _ => (banksEnter_ctr t k h).trans ht
  · rfl

theorem enterIdle_rest (s : State) (n : Nat) : (s.enterIdle n).pwr.idle = n ∧ (s.enterIdle n).pwr.a4Wait = false ∧
    (s.enterIdle n).flow = s.flow ∧ (s.enterIdle n).hbm = s.hbm := by
  have hf := (s.flowSleep_keeps n).frame
  rw [enterIdle_eq]
  exact ⟨rfl, rfl, hf.same (f := .flow) rfl, hf.same (f := .hbm) rfl⟩

theorem enterIdle_ctr (s : State) {n : Nat} (h : n ≤ 4) :
    (s.enterIdle n).ctr (0x6100 + 8 * (n - 1)) = min (s.ctr (0x6100 + 8 * (n - 1)) + 1) ctrMax := by
  rw [enterIdle_eq, bump_ctr_same]
  have hc := flowSleep_ctr s n (o := 0x6100 + 8 * (n - 1)) (by omega)
  exact congrArg (fun x => min (x + 1) ctrMax) hc

theorem bank_off {s : State} (h : s.pwr.idle = 4) (site b : Nat) : s.bank site b = .off := by
  unfold State.bank
  exact if_pos (by rw [h])

section
variable {s : State} (hl : s.live = true) (hd : s.deviceIdle = true) (hi : s.pwr.idle = 0) (hw : s.pwr.a4Wait = false) (hp : 0 < s.permitted)
  (ht : s.pwr.idleSince + usRoot (s.reg 0x6000) ≤ s.clk.root)
include hl hd hi hw hp ht

theorem onIdleEntry_due : onIdleEntry s = if s.permitted = 4 ∧ s.fabManaged ∧ s.portsUp then
    ({ s with pwr := { s.pwr with a4Wait := true } } : State).fabTransit false else s.enterIdle s.permitted :=
  if_pos ⟨hl, hd, hi, by simp [hw], hp, ht⟩
end

/-! ### Exit -/

/-- The device is awake, from what the dataflow's banks left. -/
def awake (s u : State) : State := { u with
  hbm := if s.pwr.idle < 2 then u.hbm else { u.hbm with
    waiting := [], pcs := if s.pwr.idle = 2 then (List.range 1536).map (·, PcState.powerDown) else [] }
  pwr := { u.pwr with idle := 0, waking := none, heldMem := [], heldWrites := [], idleSince := s.clk.root } }

/-- Transit through the device is allowed again, after A4. -/
def transitAllowed (s u : State) : State := if s.pwr.idle = 4 then u.fabTransit true else u

/-- No access waits for a bank. -/
def noneWaits (u : State) : State := { u with flow := { u.flow with bankWait := [] } }

theorem noneWaits_rest (u : State) : (noneWaits u).pwr = u.pwr ∧ (noneWaits u).hbm = u.hbm ∧ (noneWaits u).flow.scratch = u.flow.scratch ∧
    (noneWaits u).flow.acc = u.flow.acc := ⟨rfl, rfl, rfl, rfl⟩

theorem awake_rest (s u : State) : (awake s u).flow = u.flow ∧ (awake s u).pwr.idle = 0 ∧ (awake s u).pwr.waking = none ∧
    (awake s u).pwr.idleSince = s.clk.root := ⟨rfl, rfl, rfl, rfl⟩

theorem onIdleExitComplete_quiet {s : State} {c : WakeCause} (hw : s.pwr.waking = some c) (h1 : s.pwr.heldMem = []) (h2 : s.pwr.heldWrites = [])
    (h3 : s.flow.bankWait = []) : onIdleExitComplete s = noneWaits (transitAllowed s (awake s s.flowWake)) := by
  unfold onIdleExitComplete
  rw [if_neg (by simp [hw]), h1, h2, h3]
  rfl

/-- Leaving A4 loses the scratchpads and the accumulators; the bytes of HBM stand. -/
theorem flowWake_rest (s : State) : s.flowWake.hbm = s.hbm ∧ (s.pwr.idle = 4 → s.flowWake.flow.scratch = [] ∧ s.flowWake.flow.acc = []) := by
  unfold State.flowWake
  split
  · dsimp only
    split <;> exact ⟨rfl, fun _ => ⟨rfl, rfl⟩⟩
  · next h =>
    dsimp only
    split <;> exact ⟨rfl, fun h' => absurd h' h⟩

theorem transitAllowed_rest (s u : State) : (transitAllowed s u).pwr = u.pwr ∧ (transitAllowed s u).flow = u.flow ∧
    (transitAllowed s u).hbm = u.hbm ∧ (s.pwr.idle = 4 → (transitAllowed s u).fab.transit = true) := by
  unfold transitAllowed
  split
  · exact ⟨rfl, rfl, rfl, fun _ => rfl⟩
  · next h => exact ⟨rfl, rfl, rfl, fun h' => absurd h' h⟩

theorem awake_hbm (s u : State) : (awake s u).hbm.cells = u.hbm.cells ∧ (s.pwr.idle < 2 → (awake s u).hbm = u.hbm) := by
  unfold awake
  dsimp only
  split
  · exact ⟨rfl, fun _ => rfl⟩
  · next h => exact ⟨rfl, fun h' => absurd h' h⟩

/-- Settles O40: entry and exit keep what the idle state does not lose. -/
theorem idleStatesMove : Obligations.IdleStatesMove := by
  unfold Obligations.IdleStatesMove
  refine ⟨fun s hl hd hi hw hp ht => ?entry, fun s hp => ?none, fun s hw hd hp => ?a4, fun c s hw h1 h2 h3 => ?exit⟩
  case entry =>
    have he := onIdleEntry_due hl hd hi hw hp ht
    obtain ⟨e1, -, e3, e4⟩ := enterIdle_rest s s.permitted
    refine ⟨fun h => ?_, fun h hm hu => ?_, fun h hn => ?_⟩
    · exact .of rfl (he.trans (if_neg fun h' => by omega)) ⟨e1, e3, e4, enterIdle_ctr s (by omega)⟩
    · exact .of rfl (he.trans (if_pos ⟨h, hm, hu⟩)) ⟨rfl, hi, rfl, rfl⟩
    · refine .of rfl (he.trans (if_neg ?_)) ⟨e1.trans h, e3, e4, fun site b => bank_off (e1.trans h) site b⟩
      rintro ⟨-, hm, hu⟩
      rcases hn with hn | hn
      · exact Bool.noConfusion (hn.symm.trans hm)
      · exact Bool.noConfusion (hn.symm.trans hu)
  case none => exact congrArg Host.Outcome.next (if_neg fun ⟨_, _, _, _, h, _⟩ => by omega)
  case a4 =>
    obtain ⟨e1, e2, e3, e4⟩ := enterIdle_rest s 4
    exact .of rfl (if_pos ⟨hw, hd, hp⟩) ⟨e1, e2, e3, e4, fun site b => bank_off e1 site b⟩
  case exit =>
    obtain ⟨f1, f2⟩ := flowWake_rest s
    obtain ⟨a1, a2⟩ := awake_hbm s s.flowWake
    have hrest := transitAllowed_rest s (awake s s.flowWake)
    refine .of rfl (onIdleExitComplete_quiet hw h1 h2 h3) ?_
    generalize transitAllowed s (awake s s.flowWake) = u at hrest
    obtain ⟨t1, t2, t3, t4⟩ := hrest
    obtain ⟨n1, n2, n3, n4⟩ := noneWaits_rest u
    obtain ⟨w1, w2, w3, w4⟩ := awake_rest s s.flowWake
    rw [n1, n2, n3, n4, t1, t2, t3, w1]
    exact ⟨w2, w3, w4, fun h => ⟨t4 h, f2 h⟩, a1.trans (congrArg HbmState.cells f1), fun h => (a2 h).trans f1⟩

end Sys2Proof.Machine
end

section
/-! SUPPORT. Lease messages and the barrier tree (08 R193 to R196; 14 R366). -/
namespace Sys2Proof.Machine

/-! ### A packet is taken -/

theorem deliver_flow (s : State) (r : RxPacket) : (s.deliver r).flow = s.flow := (s.deliver_keeps r).frame.same (f := .flow) rfl

theorem deliver_slots (s : State) (r : RxPacket) : (s.deliver r).slots = s.slots := (s.deliver_keeps r).frame.same (f := .slots) rfl

theorem slot_congr {s t : State} (h : t.slots = s.slots) (n : Nat) : t.slot n = s.slot n := by
  unfold State.slot
  rw [h]

theorem ctxOf_congr {s t : State} (h : t.flow = s.flow) (n fjob : Nat) (barrier : Bool) (id : Nat) :
    t.ctxOf n fjob barrier id = s.ctxOf n fjob barrier id := by
  unfold State.ctxOf
  rw [h]

/-! ### Leases -/

/-- The lease `l` is marked expired. -/
def expire (l x : Lease) : Lease := if x = l then { x with expired := true } else x

/-- The level of memory that holds the granules of a lease. -/
def leaseLevel (s : State) (l : Lease) : Nat := match s.layer l.slot l.layer with | some x => chanOf (x.2.granAddr 0) / 192 | none => 0

theorem onLeaseExpiry_found {s : State} {l : Lease} (h : s.flow.leases.find? (fun l => !l.expired && s.passed l.expiry) = some l) :
    onLeaseExpiry s = ({ s with flow := { s.flow with leases := s.flow.leases.map (expire l) } } : State).bump
      (hoistBase (leaseLevel s l) l.slot + 0x28) := by
  unfold onLeaseExpiry
  rw [h]
  rfl

section
variable {s : State} {x : RxPacket} (hj : s.jobsRun = true)
include hj

theorem onLeaseClose_taken (h : s.nextRx (fun k => k.isLease 0) = some x) {n : Fin 8} (hn : s.jobSlot x.pkt.fjob = some n) :
    onLeaseClose s = (s.deliver x).closeLease fun l =>
      l.is n.val (leAt x.pkt.payload 2 2) (leAt x.pkt.payload 4 4) (leAt x.pkt.payload 8 4) x.pkt.src := by
  unfold onLeaseClose
  simp [h, hj, hn]

theorem onLeaseRevoke_taken (h : s.nextRx (fun k => k.isLease 1) = some x) :
    onLeaseRevoke s = (s.deliver x).revoke fun r => s.fjobOf r.slot == x.pkt.fjob && r.layer == leAt x.pkt.payload 2 2 &&
      r.shard == leAt x.pkt.payload 4 4 && r.version == leAt x.pkt.payload 8 4 := by
  unfold onLeaseRevoke
  simp [h, hj]
end

/-- Settles O46: the expiry and the revocation map their table, the closing filters its own. -/
theorem leasesMove : Obligations.LeasesMove := by
  unfold Obligations.LeasesMove
  refine ⟨fun l s h => ?expiry, ?close, ?revoke⟩
  case expiry =>
    refine .of rfl (onLeaseExpiry_found h) ⟨?_, fun y hy hne => ?_, List.length_map _, rfl⟩
    · exact List.mem_map.mpr ⟨l, List.mem_of_find?_eq_some h, if_pos rfl⟩
    · exact List.mem_map.mpr ⟨y, hy, if_neg hne⟩
  case close =>
    intro x n s b h hj hn
    refine .of rfl (onLeaseClose_taken hj h hn) fun l => ?_
    unfold State.closeLease
    rw [deliver_flow, List.mem_filter, Bool.not_eq_true']
  case revoke =>
    intro x s b h hj
    refine .of rfl (onLeaseRevoke_taken hj h) fun r hr => ?_
    have hm : ∀ f : Retained → Retained, f r ∈ (s.flow.retained.map f) := fun f => List.mem_map_of_mem hr
    unfold State.revoke
    rw [deliver_flow]
    split
    · next hc =>
      refine List.mem_map.mpr ⟨r, hr, if_pos ?_⟩
      simpa [b, and_assoc] using hc
    · next hc =>
      refine List.mem_map.mpr ⟨r, hr, if_neg ?_⟩
      simpa [b, and_assoc] using hc

/-! ### The barrier tree -/

section
variable {s : State} {r : RxPacket} (hj : s.jobsRun = true)
include hj

theorem onBarArrive_stray (h : s.nextRx (fun k => k.isBar 0) = some r) (hn : s.jobSlot r.pkt.fjob = none) :
    onBarArrive s = (s.deliver r).sendError r.pkt 1 := by
  unfold onBarArrive
  simp [h, hj, hn]

theorem onBarArrive_counted (h : s.nextRx (fun k => k.isBar 0) = some r) {n : Fin 8} (hn : s.jobSlot r.pkt.fjob = some n) {t : HoistTable}
    (ht : (s.slot n.val).hoist = some t) {c : Nat × SluiceCtx} (hc : s.barCtx n.val r.pkt.fjob r.pkt.xid (leAt r.pkt.payload 4 2) = some c) :
    onBarArrive s = (s.deliver r).barCount n.val r.pkt.fjob r.pkt.xid t c r.pkt.src (leAt r.pkt.payload 2 2) (leAt r.pkt.payload 4 2) := by
  unfold onBarArrive
  simp [h, hj, hn, ht, hc]

theorem onBarRelease_stray (h : s.nextRx (fun k => k.isBar 1) = some r) (hn : s.jobSlot r.pkt.fjob = none) : onBarRelease s = s.deliver r := by
  unfold onBarRelease
  simp [h, hj, hn]

theorem onBarRelease_taken (h : s.nextRx (fun k => k.isBar 1) = some r) {n : Fin 8} (hn : s.jobSlot r.pkt.fjob = some n) :
    onBarRelease s = (s.deliver r).barRelease n.val r.pkt.fjob r.pkt.xid := by
  unfold onBarRelease
  simp [h, hj, hn]

theorem onBarAbort_stray (h : s.nextRx (fun k => k.isBar 2) = some r) (hn : s.jobSlot r.pkt.fjob = none) : onBarAbort s = s.deliver r := by
  unfold onBarAbort
  simp [h, hj, hn]

theorem onBarAbort_taken (h : s.nextRx (fun k => k.isBar 2) = some r) {n : Fin 8} (hn : s.jobSlot r.pkt.fjob = some n) :
    onBarAbort s = (s.deliver r).abortBarrier n.val r.pkt.fjob r.pkt.xid (some r.pkt.src) := by
  unfold onBarAbort
  simp [h, hj, hn]
end

theorem setSluice_sluice (s : State) (c : Nat) (x : Option SluiceCtx) : (s.setSluice c x).sluice c = x := tblGet_tblSet_same ..

/-- At the whole tree's root an ARRIVE is counted; the last one releases the tree. -/
theorem barCount_root (s : State) (n fjob bid : Nat) {h : HoistTable} (c : Nat × SluiceCtx) (src count : Nat) {npart : Nat}
    (h1 : h.myDev = 0) (h2 : h.myNode = 0) (h3 : npart = h.nn * h.nd) : s.barCount n fjob bid h c src count npart =
      if (c.2.arrived.foldl (fun a y => a + y.2) 0) + count = h.nn * h.nd then
        (s.setSluice c.1 (some { c.2 with arrived := c.2.arrived ++ [(src, count)] })).barRelease n fjob bid
      else s.setSluice c.1 (some { c.2 with arrived := c.2.arrived ++ [(src, count)] }) := by
  simp [State.barCount, h1, h2, h3]

/-- The RELEASE passed down the tree. -/
def releaseSent (s : State) (n fjob bid : Nat) : State := match (s.slot n).hoist with
  | some h => h.down.foldl (fun (s : State) d => s.sendBar d fjob bid 1 0 0) s
  | none => s

/-- The ABORT passed on, but not to where it came from. -/
def abortSent (s : State) (n fjob bid : Nat) (origin : Option Nat) : State := match (s.slot n).hoist with
  | some h => ((match h.up with | some u => [u] | none => []) ++ h.down).foldl (fun (s : State) d =>
      if some d = origin then s else s.sendBar d fjob bid 2 0 0) s
  | none => s

theorem releaseSent_keeps (s : State) (n fjob bid : Nat) : Keeps 0x24004 s (releaseSent s n fjob bid) := by
  unfold releaseSent
  split
  · exact .foldl _ _ _ _ (fun s d => s.sendBar_keeps ..) (.refl s)
  · exact .refl s

theorem abortSent_keeps (s : State) (n fjob bid : Nat) (origin : Option Nat) : Keeps 0x24004 s (abortSent s n fjob bid origin) := by
  unfold abortSent
  split
  · exact .foldl _ _ _ _ (fun s d => Keeps.ite (fun _ => .refl s) fun _ => s.sendBar_keeps ..) (.refl s)
  · exact .refl s

theorem barRelease_some {s : State} {n fjob bid : Nat} {c : Nat × SluiceCtx} (h : s.ctxOf n fjob true bid = some c) :
    s.barRelease n fjob bid = (((releaseSent s n fjob bid).setSluice c.1 none).bumpFab 0x170).endBarriers n
      (fun j => j.fjob == fjob && j.bid == bid) 0 [] := by
  have hc := (ctxOf_congr ((releaseSent_keeps s n fjob bid).frame.same (f := .flow) rfl) n fjob true bid).trans h
  have he : s.barRelease n fjob bid = match (releaseSent s n fjob bid).ctxOf n fjob true bid with
    | some c => (((releaseSent s n fjob bid).setSluice c.1 none).bumpFab 0x170).endBarriers n (fun j => j.fjob == fjob && j.bid == bid) 0 []
    | none => releaseSent s n fjob bid := rfl
  rw [he, hc]

theorem abortBarrier_eq (s : State) (n fjob bid : Nat) (origin : Option Nat) : s.abortBarrier n fjob bid origin =
    (match (abortSent s n fjob bid origin).ctxOf n fjob true bid with
      | some c => (abortSent s n fjob bid origin).setSluice c.1 none
      | none => abortSent s n fjob bid origin).endBarriers n (fun j => j.fjob == fjob && j.bid == bid) 0x10 [] := rfl

theorem abortBarrier_some {s : State} {n fjob bid : Nat} {origin : Option Nat} {c : Nat × SluiceCtx} (h : s.ctxOf n fjob true bid = some c) :
    s.abortBarrier n fjob bid origin = ((abortSent s n fjob bid origin).setSluice c.1 none).endBarriers n
      (fun j => j.fjob == fjob && j.bid == bid) 0x10 [] := by
  have hc := (ctxOf_congr ((abortSent_keeps s n fjob bid origin).frame.same (f := .flow) rfl) n fjob true bid).trans h
  rw [abortBarrier_eq, hc]

theorem abortBarrier_none {s : State} {n fjob bid : Nat} {origin : Option Nat} (h : s.ctxOf n fjob true bid = none) :
    s.abortBarrier n fjob bid origin = (abortSent s n fjob bid origin).endBarriers n (fun j => j.fjob == fjob && j.bid == bid) 0x10 [] := by
  have hc := (ctxOf_congr ((abortSent_keeps s n fjob bid origin).frame.same (f := .flow) rfl) n fjob true bid).trans h
  rw [abortBarrier_eq, hc]

theorem endBarriers_sluice (s : State) (c n : Nat) (p : BarrierJob → Bool) (status : Nat) (result : List Byte) :
    (s.endBarriers n p status result).sluice c = s.sluice c := by
  unfold State.sluice
  rw [(s.endBarriers_keeps ..).frame.same (f := .flow) rfl]

theorem endBarriers_none {s : State} (h : s.cage.started = []) (n : Nat) (p : BarrierJob → Bool) (status : Nat) (result : List Byte) :
    s.endBarriers n p status result = s := by
  unfold State.endBarriers
  rw [h]
  rfl

/-- The only started descriptor ends, where it is a BARRIER of the slot that the end is for. -/
theorem endBarriers_only {s : State} {d : Started} {j : BarrierJob} {waits : List Nat} (h : s.cage.started = [d])
    (hk : d.kind = .barrier j waits) {n : Nat} (hn : d.slot = n) {p : BarrierJob → Bool} (hp : p j = true) (status : Nat) (result : List Byte) :
    s.endBarriers n p status result = s.complete d status 0 result := by
  simp [State.endBarriers, h, hk, hn, hp]

theorem sameRecord_of {s t : State} (h1 : t.cage = s.cage) (h2 : t.cxl = s.cxl) (h3 : t.regs = s.regs) (k : Nat) : SameRecord k s t := by
  refine ⟨?_, ?_, by rw [h2], h3⟩
  · unfold State.ring
    rw [h1]
  · unfold State.busOn
    rw [h2]

/-- What was sent of the barrier tree leaves the records due as they were. -/
theorem Keeps.sent {s t : State} (h : Keeps 0x24004 s t) : t.cage = s.cage ∧ t.cxl = s.cxl ∧ t.regs = s.regs ∧ t.flow = s.flow :=
  ⟨h.frame.same (f := .cage) rfl, h.frame.same (f := .cxl) rfl, h.frame.same (f := .regs) rfl, h.frame.same (f := .flow) rfl⟩

/-- An ABORT ends the BARRIER on a state whose records are due as before. -/
theorem abortBarrier_ends (s : State) (n fjob bid : Nat) (origin : Option Nat) : ∃ v : State, s.abortBarrier n fjob bid origin =
    v.endBarriers n (fun j => j.fjob == fjob && j.bid == bid) 0x10 [] ∧ v.cage = s.cage ∧ v.cxl = s.cxl ∧ v.regs = s.regs := by
  obtain ⟨k1, k2, k3, -⟩ := (abortSent_keeps s n fjob bid origin).sent
  cases hc : s.ctxOf n fjob true bid with
  | none => exact ⟨_, abortBarrier_none hc, k1, k2, k3⟩
  | some c => exact ⟨_, abortBarrier_some hc, k1, k2, k3⟩

/-- Settles O49: messages of the tree send, free the context and end the BARRIER. -/
theorem barrierTreeMoves : Obligations.BarrierTreeMoves := by
  unfold Obligations.BarrierTreeMoves
  refine ⟨fun r s hj => ⟨fun h => ⟨fun hn => ?_, fun n t c hn ht hc => ⟨fun h1 h2 h3 h4 => ?count, fun h1 h2 h3 h4 => ?last⟩⟩,
    fun h => ⟨fun hn => ?_, fun n t hn ht => ⟨?_, fun _ c hc hs => ?release⟩⟩, fun h => ⟨fun hn => ?_, fun n hn => ⟨?_, fun c hc => ?abort⟩⟩⟩,
    fun n fjob bid s d j waits hs hk hn hf hb => ⟨fun hc => ?ends, ?fails⟩⟩
  · exact congrArg Host.Outcome.next (onBarArrive_stray hj h hn)
  case count =>
    have hf := (s.deliver_keeps r).frame
    refine .of rfl ((onBarArrive_counted hj h hn ht hc).trans ((barCount_root _ _ _ _ _ _ _ h1 h2 h3).trans (if_neg h4))) ?_
    exact ⟨setSluice_sluice .., hf.same (f := .cage) rfl, hf.same (f := .hbm) rfl⟩
  case last =>
    exact congrArg Host.Outcome.next
      ((onBarArrive_counted hj h hn ht hc).trans ((barCount_root _ _ _ _ _ _ _ h1 h2 h3).trans (if_pos h4)))
  · exact congrArg Host.Outcome.next (onBarRelease_stray hj h hn)
  · exact congrArg Host.Outcome.next (onBarRelease_taken hj h hn)
  case release =>
    have hf := (s.deliver_keeps r).frame
    have hd : (s.deliver r).ctxOf n.val r.pkt.fjob true r.pkt.xid = some c := (ctxOf_congr (deliver_flow s r) ..).trans hc
    have hk := releaseSent_keeps (s.deliver r) n.val r.pkt.fjob r.pkt.xid
    generalize hu : releaseSent (s.deliver r) n.val r.pkt.fjob r.pkt.xid = u at hk
    have hb := State.bumpFab_keeps (u.setSluice c.1 none) 0x170 1
    have hc0 : ((u.setSluice c.1 none).bumpFab 0x170).cage.started = [] :=
      (congrArg CageState.started (hb.frame.same (f := .cage) rfl)).trans
        ((congrArg CageState.started (hk.sent.1.trans (hf.same (f := .cage) rfl))).trans hs)
    have he : onBarRelease s = (u.setSluice c.1 none).bumpFab 0x170 := by
      rw [onBarRelease_taken hj h hn, barRelease_some hd, hu, endBarriers_none hc0]
    refine .of rfl he ⟨?_, hc0, ?_, ?_⟩
    · unfold State.sluice
      rw [hb.frame.same (f := .flow) rfl]
      exact setSluice_sluice ..
    · exact (hb.frame.same (f := .hbm) rfl).trans ((hk.frame.same (f := .hbm) rfl).trans (hf.same (f := .hbm) rfl))
    · exact (hb.frame.same (f := .slots) rfl).trans ((hk.frame.same (f := .slots) rfl).trans (hf.same (f := .slots) rfl))
  · exact congrArg Host.Outcome.next (onBarAbort_stray hj h hn)
  · exact congrArg Host.Outcome.next (onBarAbort_taken hj h hn)
  case abort =>
    have hd : (s.deliver r).ctxOf n.val r.pkt.fjob true r.pkt.xid = some c := (ctxOf_congr (deliver_flow s r) ..).trans hc
    refine .of rfl (onBarAbort_taken hj h hn) ⟨?_, ?_⟩
    · rw [abortBarrier_some hd, endBarriers_sluice, setSluice_sluice]
    · exact ((State.abortBarrier_keeps ..).frame.same (f := .hbm) rfl).trans ((s.deliver_keeps r).frame.same (f := .hbm) rfl)
  case ends =>
    obtain ⟨c, hc⟩ := Option.isSome_iff_exists.mp hc
    have hsent := releaseSent_keeps s n fjob bid
    rw [barRelease_some hc]
    generalize releaseSent s n fjob bid = u at hsent
    have hfab := (State.bumpFab_keeps (u.setSluice c.1 none) 0x170 1).frame
    obtain ⟨k1, k2, k3, -⟩ := hsent.sent
    have h1 : ((u.setSluice c.1 none).bumpFab 0x170).cage = s.cage := (hfab.same (f := .cage) rfl).trans k1
    have h2 : ((u.setSluice c.1 none).bumpFab 0x170).cxl = s.cxl := (hfab.same (f := .cxl) rfl).trans k2
    have h3 : ((u.setSluice c.1 none).bumpFab 0x170).regs = s.regs := (hfab.same (f := .regs) rfl).trans k3
    rw [endBarriers_only (by rw [h1, hs]) hk hn (by simp [hf, hb])]
    exact (sameRecord_of h1 h2 h3 _).finished (complete_finished _ d 0 0 [] (by decide))
  case fails =>
    obtain ⟨v, he, h1, h2, h3⟩ := abortBarrier_ends s n fjob bid none
    rw [he, endBarriers_only (by rw [h1, hs]) hk hn (by simp [hf, hb])]
    exact (sameRecord_of h1 h2 h3 _).finished (complete_finished _ d 0x10 0 [] (by decide))

end Sys2Proof.Machine
end

section
/-! SUPPORT. Upkeep of HBM and faults of units (10 R248 to R253; 18 R437, R446, R447, R451). -/
namespace Sys2Proof.Machine

/-! ### What an access counts -/

/-- Of the state of HBM an access moves only what the pseudo-channels say. -/
def PcOnly (s t : State) : Prop := t.hbm = { s.hbm with pcs := t.hbm.pcs, pcLast := t.hbm.pcLast }

theorem PcOnly.after {s t u : State} (b : PcOnly t u) (a : PcOnly s t) : PcOnly s u := by unfold PcOnly at *; rw [b, a]
theorem PcOnly.of_same {s t : State} (h : t.hbm = s.hbm) : PcOnly s t := by unfold PcOnly; rw [h]

theorem bumpMem_hbm (s : State) (off n : Nat) : (s.bumpMem off n).hbm = s.hbm := (s.bumpMem_keeps off n).frame.same (f := .hbm) rfl

theorem bumpMem_pcOnly (s : State) (off n : Nat) : PcOnly s (s.bumpMem off n) := .of_same (bumpMem_hbm ..)

theorem touchPc_pcOnly (s : State) (line : Nat) : PcOnly s (s.touchPc line) := by
  unfold State.touchPc
  dsimp only
  split
  · exact (bumpMem_pcOnly _ _ _).after rfl
  · rfl

theorem touchLine_pcOnly (s : State) (write : Bool) (line : Nat) : PcOnly s (s.touchLine write line) := by
  have h : PcOnly s ((s.touchPc line).bumpMem (chanBase (chanOf (64 * line)) + (if write then 0x08 else 0x00))) :=
    (bumpMem_pcOnly _ _ _).after (touchPc_pcOnly s line)
  unfold State.touchLine
  dsimp only
  split
  · have he (u : State) (o : Output) : PcOnly u (u.emit o) := rfl
    exact (he _ _).after ((bumpMem_pcOnly _ _ _).after h)
  · exact h

theorem ceMill_rest (s : State) (m n : Nat) : (s.ceMill m n).hbm = s.hbm ∧ (s.ceMill m n).ras.log = s.ras.log := ⟨rfl, rfl⟩

theorem correct_pcOnly (s : State) (line : Nat) : PcOnly s (s.correct line) := by
  unfold State.correct
  exact (PcOnly.of_same (ceMill_rest _ _ _).1).after ((bumpMem_pcOnly _ _ _).after (touchLine_pcOnly s true line))

/-- A correction is counted, and told to nobody. -/
theorem correct_log (s : State) (line : Nat) : (s.correct line).ras.log = s.ras.log := by
  unfold State.correct
  rw [(ceMill_rest _ _ _).2, (State.bumpMem_keeps _ _ 1).frame.same (f := .ras) rfl, (s.touchLine_keeps true line).frame.same (f := .ras) rfl]

/-! ### Patrol -/

/-- The line that the patrol of a channel reads at a position. -/
def patrolLine (m pos : Nat) : Nat := (addrOfLocal m (pos / 64) + 64 * (pos % 64)) / 64

/-- The patrol of a channel has gone on, and its line is read. -/
def patrolled (s : State) (m : Nat) : State :=
  let pos := tblGet (fun _ => 0) s.hbm.patrolPos m
  ((({ s with hbm := { s.hbm with patrolPos := tblSet (fun _ => 0) s.hbm.patrolPos m ((pos + 1) % chanLines) } } : State).touchPc
    (patrolLine m pos)).bumpMem (chanBase m)).bumpMem (chanBase m + 0x38)

/-- The patrol's position, alone. -/
def positioned (s : State) (m : Nat) : State :=
  { s with hbm := { s.hbm with patrolPos := tblSet (fun _ => 0) s.hbm.patrolPos m ((tblGet (fun _ => 0) s.hbm.patrolPos m + 1) % chanLines) } }

theorem patrolled_keeps (s : State) (m : Nat) : Keeps 0x804 (positioned s m) (patrolled s m) :=
  (State.bumpMem_keeps _ _ 1).after ((State.bumpMem_keeps _ _ 1).after (State.touchPc_keeps _ _) rfl) rfl

theorem patrolled_pcOnly (s : State) (m : Nat) : PcOnly (positioned s m) (patrolled s m) :=
  (bumpMem_pcOnly _ _ _).after ((bumpMem_pcOnly _ _ _).after (touchPc_pcOnly _ _))

section
variable {s : State} (hl : s.live = true)
include hl

theorem onHbmPatrolRead_good {m : Fin 768} (ce : Bool) (hp : s.rfBit memBase 0 = true) (hi : s.pwr.idle < 3)
    (hu : patrolLine m.val (tblGet (fun _ => 0) s.hbm.patrolPos m.val) ∉ s.hbm.ue) : onHbmPatrolRead m ce false s =
      if ce then (patrolled s m.val).correct (patrolLine m.val (tblGet (fun _ => 0) s.hbm.patrolPos m.val)) else patrolled s m.val := by
  unfold onHbmPatrolRead
  rw [if_neg (by simp [hl, hp]; omega)]
  exact if_neg (by simpa [patrolLine] using hu)

/-- What the patrol leaves of a channel whose line is not uncorrectable. -/
theorem onHbmPatrolRead_rest {m : Fin 768} (ce : Bool) (hp : s.rfBit memBase 0 = true) (hi : s.pwr.idle < 3)
    (hu : patrolLine m.val (tblGet (fun _ => 0) s.hbm.patrolPos m.val) ∉ s.hbm.ue) :
    PcOnly (positioned s m.val) (onHbmPatrolRead m ce false s) ∧ Keeps 0x20844 (positioned s m.val) (onHbmPatrolRead m ce false s) ∧
      (onHbmPatrolRead m ce false s).ras.log = s.ras.log ∧ (ce = false → (onHbmPatrolRead m ce false s).ras = s.ras) := by
  have hr : (patrolled s m.val).ras = s.ras := (patrolled_keeps s m.val).frame.same (f := .ras) rfl
  rw [onHbmPatrolRead_good hl ce hp hi hu]
  cases ce with
  | false => exact ⟨patrolled_pcOnly s m.val, (patrolled_keeps s m.val).mono rfl, congrArg RasState.log hr, fun _ => hr⟩
  | true =>
    refine ⟨(correct_pcOnly _ _).after (patrolled_pcOnly s m.val), (State.correct_keeps _ _).after ((patrolled_keeps s m.val).mono rfl) rfl,
      (correct_log _ _).trans (congrArg RasState.log hr), nofun⟩

theorem onOdeccStatusRead_live (m : Fin 768) (n : Nat) : onOdeccStatusRead m n s = s.bumpMem (chanBase m.val + 0x30) n := if_pos hl

theorem onHbmRefresh_live (stack : Fin 24) (hot : Bool) (hi : s.pwr.idle < 3) : onHbmRefresh stack hot s =
    { s with pwr := { s.pwr with hotStacks :=
      if hot then s.pwr.hotStacks ||| BitVec.ofNat 24 (2 ^ stack.val) else s.pwr.hotStacks &&& ~~~BitVec.ofNat 24 (2 ^ stack.val) } } :=
  if_neg (by simp [hl]; omega)

theorem onPcWake_woken {k : Fin 1536} {t0 : Nat} (h : s.pc k.val = .waking t0) (ht : t0 + nsRoot 24 ≤ s.clk.root) : onPcWake k s =
    { s.setPc k.val .active with hbm := { (s.setPc k.val .active).hbm with
      waiting := (s.setPc k.val .active).hbm.waiting.filter fun h => !s.pcWaits k.val h } } := by
  unfold onPcWake
  rw [h]
  exact if_pos ⟨hl, ht⟩
end

theorem onPcPowerDownEntry_down {s : State} {k : Fin 1536} {t0 : Nat} (h : s.pc k.val = .entering t0) (ht : t0 + nsRoot 8 ≤ s.clk.root) :
    onPcPowerDownEntry k s = s.setPc k.val .powerDown := by
  unfold onPcPowerDownEntry
  rw [h]
  exact if_pos ht

theorem bumpMem_open {s : State} (h : s.rfBit memBase 8 = false) (off n : Nat) : s.bumpMem off n = s.bump off n := if_neg (by simp [h])

/-- Awake, a pseudo-channel is what its table says. -/
theorem pc_awake {s : State} (h : s.pwr.idle < 2) (k : Nat) : s.pc k = tblGet (fun _ => PcState.active) s.hbm.pcs k := by
  unfold State.pc
  rw [if_neg (by omega), if_neg (by omega)]

theorem setPc_pc {s : State} (h : s.pwr.idle < 2) (k : Nat) (p : PcState) : (s.setPc k p).pc k = p := by
  rw [pc_awake (s := s.setPc k p) h]
  exact tblGet_tblSet_same ..

/-- Settles O57: each command moves its own table of the state of HBM, and no byte. -/
theorem hbmIsKeptUp : Obligations.HbmIsKeptUp := by
  unfold Obligations.HbmIsKeptUp
  intro s hl
  refine ⟨?patrol, fun m n hc => ?status, fun stack hot hi => ?refresh, fun k hi => ⟨fun h1 h2 h3 h4 => ?idle, fun t0 h ht => ?down, fun t0 h ht => ?wake⟩⟩
  case patrol =>
    intro m ce pos hp hi hu
    obtain ⟨h1, h2, h3, h4⟩ := onHbmPatrolRead_rest hl ce hp hi hu
    refine .of rfl rfl ⟨?_, h2.sameMemory rfl, ?_, h2.frame.same (f := .slots) rfl, h3, h4⟩
    · rw [h1]
      exact tblGet_tblSet_same ..
    · rw [h1]
      rfl
  case status =>
    refine .of rfl ((onOdeccStatusRead_live hl m n).trans (bumpMem_open hc _ _)) ⟨bump_ctr_same .., rfl⟩
  case refresh =>
    refine .of rfl (onHbmRefresh_live hl stack hot hi) ⟨fun k => ?_, rfl⟩
    have hb : (BitVec.ofNat 24 (2 ^ stack.val)).getLsbD k.val = decide (k = stack) := by
      rw [BitVec.getLsbD_ofNat, Nat.testBit_two_pow]
      simp [Fin.ext_iff, eq_comm]
    dsimp only
    cases hot with
    | true =>
      simp only [if_true, BitVec.getLsbD_or, hb]
      by_cases hk : k = stack <;> simp [hk]
    | false =>
      simp only [Bool.false_eq_true, if_false, BitVec.getLsbD_and, BitVec.getLsbD_not, hb]
      by_cases hk : k = stack <;> simp [hk]
  case idle =>
    have hh := bumpMem_hbm (s.setPc k.val (.entering s.clk.root)) (chanBase (k.val / 2) + 0x40) 1
    have hp : ((s.setPc k.val (.entering s.clk.root)).bumpMem (chanBase (k.val / 2) + 0x40)).pwr = s.pwr :=
      (State.bumpMem_keeps _ _ 1).frame.same (f := .pwr) rfl
    refine .of rfl (if_pos ⟨hl, hi, h1, h2, h3, h4⟩) ⟨?_, (State.bumpMem_keeps _ _ 1).sameMemory rfl⟩
    rw [pc_awake (by rw [hp]; exact hi), hh]
    exact tblGet_tblSet_same ..
  case down => exact .of rfl (onPcPowerDownEntry_down h ht) ⟨setPc_pc hi .., fun _ => rfl⟩
  case wake => exact .of rfl (onPcWake_woken hl h ht) ⟨setPc_pc hi k.val .active, fun _ => rfl, rfl⟩

/-! ### Corrected errors -/

/-- Channel 0 has no corrected error yet, and every one is to be reported. -/
def everyErrorTold : State := { State.reset with pwr := { State.reset.pwr with phase := .running }, regs := [(0x7000, 2)] }

theorem everyErrorTold_threshold : everyErrorTold.rf 0x7000 1 15 = 1 := rfl

/-- The corrected errors of a channel are counted and noted. -/
def millNoted (s : State) (m n : Nat) : State := (s.bumpMem (chanBase m + 0x20) n).ceMill m n

/-- What is noted of a channel's errors. -/
def millHistory (s : State) (m : Nat) : CeHistory := tblGet (fun _ => CeHistory.none) s.ras.ceMills m

/-- What was noted is about to be reported. -/
def millCleared (s : State) (m : Nat) : State := { s with ras := { s.ras with
  ceMills := tblSet (fun _ => CeHistory.none) s.ras.ceMills m { millHistory s m with crossed := [] } } }

theorem onCeThreshold_mill {s : State} (hl : s.live = true) (m : Fin 768) (n : Nat) : onCeThreshold (.mill m) n s =
    (millCleared (millNoted s m.val n) m.val).reportCrossed m.val (millHistory (millNoted s m.val n) m.val).crossed := by
  unfold onCeThreshold
  rw [if_neg (by simp [hl])]
  rfl

/-- Two corrected errors pass two multiples of the threshold at once. -/
theorem everyErrorTold_crossed : (millHistory (millNoted everyErrorTold 0 2) 0).crossed = [(8, 2), (8, 2)] := by decide

theorem reportCrossed_two (s : State) (unit : Nat) (x y : Nat × Nat) : s.reportCrossed unit [x, y] =
    (s.ev 0x0096 .corrected unit x.1 x.2 0 0).ev 0x0096 .corrected unit y.1 y.2 0 0 := rfl

theorem ev_seq (s : State) (code : Nat) (cls : EvClass) (loc sub a0 a1 a2 : Nat) :
    (s.ev code cls loc sub a0 a1 a2).ras.seq = (s.ras.seq + 1) % 2 ^ 32 := by
  obtain ⟨_, -, hr⟩ := raise_ras s code cls none (genPayload loc sub a0 a1 a2)
  rw [State.ev, hr]

theorem onCeThreshold_twice : onCeThreshold (.mill 0) 2 everyErrorTold =
    ((millCleared (millNoted everyErrorTold 0 2) 0).ev 0x0096 .corrected 0 8 2 0 0).ev 0x0096 .corrected 0 8 2 0 0 :=
  (onCeThreshold_mill rfl 0 2).trans
    ((congrArg (State.reportCrossed (millCleared (millNoted everyErrorTold 0 2) 0) 0) everyErrorTold_crossed).trans (reportCrossed_two _ 0 _ _))

theorem everyErrorTold_seq : (millCleared (millNoted everyErrorTold 0 2) 0).ras.seq = 0 := by decide

/-- Refutes O56: the statement has one report wherever corrected errors pass a multiple of `CE_EVT_THR`, the first after the records before;
but two errors that come together with the threshold at 1 pass two multiples, each is reported (18 R446), and the newest record of the log
is the second after those before. -/
theorem not_unitFaultsAct : ¬ Obligations.UnitFaultsAct := by
  unfold Obligations.UnitFaultsAct
  intro h
  obtain ⟨-, -, -, hmill, -⟩ := h everyErrorTold rfl
  obtain ⟨t, ht, -, hlogged, -⟩ := hmill 0 2
  obtain rfl : onCeThreshold (.mill 0) 2 everyErrorTold = t := Host.Outcome.next.inj ht
  obtain ⟨e, h1, -, -, -, -, h6, -⟩ := hlogged (by decide)
  have hs := everyErrorTold_seq
  rw [onCeThreshold_twice] at h1
  generalize millCleared (millNoted everyErrorTold 0 2) 0 = u at hs h1
  obtain ⟨e', g1, -, -, -, -, g6, -⟩ := raise_logged (u.ev 0x0096 .corrected 0 8 2 0 0) 0x0096 .corrected none (genPayload 0 8 2 0 0)
  rw [State.ev, g1] at h1
  obtain rfl : e' = e := Option.some.inj h1
  rw [ev_seq, hs] at g6
  exact absurd (h6.symm.trans g6) (by decide)

end Sys2Proof.Machine
end

section
/-! SUPPORT. Flecel Direct ports and the time exchange (13 R313 to R319; 15 R376 to R378). -/
namespace Sys2Proof.Machine

/-! ### What sending leaves of a port -/

/-- Of every port only what it sends may differ: its transmit side, its replay buffer, the credits it returns and its queues. -/
structure SendOnly (s t : State) : Prop where
  port : ∀ k, t.port k = { s.port k with
  txSeq := (t.port k).txSeq, replay := (t.port k).replay, retries := (t.port k).retries, replayAt := (t.port k).replayAt
  credits := (t.port k).credits, returns := (t.port k).returns, txBytes := (t.port k).txBytes, txLead := (t.port k).txLead
  oldBytes := (t.port k).oldBytes, markLeft := (t.port k).markLeft, queues := (t.port k).queues }

theorem SendOnly.refl (s : State) : SendOnly s s := ⟨fun _ => rfl⟩
theorem SendOnly.after {s t u : State} (b : SendOnly t u) (a : SendOnly s t) : SendOnly s u := ⟨fun k => by rw [b.port k, a.port k]⟩
theorem SendOnly.of_fab {s t : State} (h : t.fab.ports = s.fab.ports) : SendOnly s t := ⟨fun k => by
  have : t.port k = s.port k := by unfold State.port; rw [h]
  rw [this]⟩
theorem SendOnly.ite {c : Prop} [Decidable c] {s t u : State} (ha : SendOnly s t) (hb : SendOnly s u) : SendOnly s (if c then t else u) := by
  split
  · exact ha
  · exact hb
theorem SendOnly.foldl {β : Type} {f : State → β → State} (h : ∀ s x, SendOnly s (f s x)) (l : List β) (s : State) : SendOnly s (l.foldl f s) := by
  induction l generalizing s with
  | nil => exact .refl s
  | cons x l ih => exact (ih _).after (h s x)

/-! What it receives, and where it stands, is as before. -/

theorem SendOnly.phase {s t : State} (h : SendOnly s t) (k : Nat) : (t.port k).phase = (s.port k).phase := by rw [h.port k]
theorem SendOnly.retrain {s t : State} (h : SendOnly s t) (k : Nat) : (t.port k).retrain = (s.port k).retrain := by rw [h.port k]
theorem SendOnly.rxSeq {s t : State} (h : SendOnly s t) (k : Nat) : (t.port k).rxSeq = (s.port k).rxSeq := by rw [h.port k]
theorem SendOnly.nak {s t : State} (h : SendOnly s t) (k : Nat) : (t.port k).nak = (s.port k).nak := by rw [h.port k]
theorem SendOnly.echo {s t : State} (h : SendOnly s t) (k : Nat) : (t.port k).echo = (s.port k).echo := by rw [h.port k]
theorem SendOnly.neigh {s t : State} (h : SendOnly s t) (k : Nat) : (t.port k).neigh = (s.port k).neigh := by rw [h.port k]

theorem setPort_port (s : State) (p : Nat) (x : PortState) : (s.setPort p x).port p = x := tblGet_tblSet_same ..
theorem setPort_port_of_ne (s : State) {p k : Nat} (x : PortState) (h : k ≠ p) : (s.setPort p x).port k = s.port k := tblGet_tblSet_of_ne h ..

/-- A port whose transmit side alone is written. -/
theorem SendOnly.setPort (s : State) (p : Nat) (x : PortState) (h : x = { s.port p with
    txSeq := x.txSeq, replay := x.replay, retries := x.retries, replayAt := x.replayAt, credits := x.credits, returns := x.returns
    txBytes := x.txBytes, txLead := x.txLead, oldBytes := x.oldBytes, markLeft := x.markLeft, queues := x.queues }) :
    SendOnly s (s.setPort p x) := by
  refine ⟨fun k => ?_⟩
  by_cases hk : k = p
  · subst hk
    rw [setPort_port]
    exact h
  · rw [setPort_port_of_ne s x hk]

theorem sendFlit_send (s : State) (p ftype vc seq : Nat) (payload : List Byte) : SendOnly s (s.sendFlit p ftype vc seq payload) := by
  unfold State.sendFlit
  have he (u : State) (o : Output) : SendOnly u (u.emit o) := .of_fab rfl
  exact (he _ _).after (.setPort s p _ rfl)

theorem bump_send (s : State) (o n : Nat) : SendOnly s (s.bump o n) := .of_fab rfl

theorem pumpFlits_send (n : Nat) (s : State) (p : Nat) : SendOnly s (s.pumpFlits n p) := by
  induction n generalizing s with
  | zero => exact .refl s
  | succ n ih =>
    unfold State.pumpFlits
    dsimp only
    refine .ite (.refl s) ?_
    split
    · exact .refl s
    · exact (ih _).after ((bump_send _ _ _).after ((bump_send _ _ _).after ((sendFlit_send ..).after (.setPort s p _ rfl))))

theorem enqueue_send (s : State) (p q : Nat) (f : Frame) : SendOnly s (s.enqueue p q f) := .setPort s p _ rfl

theorem outPort_send (s : State) (p : Nat) (mac : Option (List Byte)) (k : Packet) : SendOnly s (s.outPort p mac k) := by
  have hmark (c : Bool) : SendOnly s (if c then s.bumpFab 0x148 else s) := .ite (bump_send ..) (.refl s)
  unfold State.outPort
  dsimp only
  split
  · exact (SendOnly.ite (bump_send ..) (enqueue_send ..)).after (hmark _)
  · exact (pumpFlits_send ..).after ((SendOnly.setPort _ p _ rfl).after (hmark _))

theorem forward_send (s : State) (k : Packet) : SendOnly s (s.forward k) := by
  unfold State.forward
  split
  · exact bump_send ..
  dsimp only
  refine .ite (bump_send ..) ?_
  split
  · exact bump_send ..
  refine .ite (.refl s) (.ite ?_ (outPort_send ..))
  split
  · exact outPort_send ..
  · exact bump_send ..

theorem sendAck_send (s : State) (peer chan : Nat) : SendOnly s (s.sendAck peer chan) := (forward_send ..).after (.of_fab rfl)

theorem deliver_send (s : State) (r : RxPacket) : SendOnly s (s.deliver r) := by
  unfold State.deliver
  exact .ite ((sendAck_send ..).after (.of_fab rfl)) (.of_fab rfl)

theorem takeMgmt_send (n : Nat) (s : State) : SendOnly s (s.takeMgmt n) := by
  induction n generalizing s with
  | zero => exact .refl s
  | succ n ih =>
    unfold State.takeMgmt
    split
    · exact (ih _).after (deliver_send ..)
    · exact .refl s

theorem noteEcn_send (s : State) (k : Packet) : SendOnly s (s.noteEcn k) := .ite (.of_fab rfl) (.refl s)

theorem takeSequenced_send (s : State) (r : RxPacket) : SendOnly s (s.takeSequenced r) := by
  have hkeep : SendOnly s ({ s with fab := { s.fab with rxq := s.fab.rxq ++ [r] } } : State) := .of_fab rfl
  unfold State.takeSequenced
  dsimp only
  refine .ite (sendAck_send ..) (.ite ((takeMgmt_send ..).after ((noteEcn_send ..).after hkeep)) (.ite (bump_send ..) ?_))
  exact (sendAck_send ..).after ((noteEcn_send ..).after hkeep)

theorem wake_send (s : State) (c : WakeCause) : SendOnly s (s.wake c) := by
  have htransit (u : State) : SendOnly u (u.fabTransit true) := .of_fab rfl
  unfold State.wake
  refine .ite ((htransit _).after (.of_fab rfl)) (.ite (.refl s) (.ite ?_ (.of_fab rfl)))
  exact .ite ((htransit _).after (.of_fab rfl)) (.of_fab rfl)

theorem receive_send (s : State) (port : Nat) (mac : List Byte) (b : List Byte) : SendOnly s (s.receive port mac b) := by
  unfold State.receive
  dsimp only
  refine .ite (bump_send ..) (.ite (.of_fab rfl) (.ite (bump_send ..) (.ite (.of_fab rfl) (.ite (.of_fab rfl) ?_))))
  exact (wake_send ..).after (takeSequenced_send ..)

theorem replay_send (s : State) (p : Nat) : SendOnly s (s.replay p) := by
  unfold State.replay
  dsimp only
  refine .ite (.refl s) ((bump_send ..).after ((SendOnly.foldl (fun _ _ => sendFlit_send ..) _ _).after (.setPort s p _ rfl)))

theorem takeControl_send (s : State) (p : Nat) (b : List Byte) : SendOnly s (s.takeControl p b) := by
  unfold State.takeControl
  dsimp only
  exact .ite ((replay_send ..).after (.setPort s p _ rfl)) (.setPort s p _ rfl)

/-! ### Bring-up -/

section
variable {s : State} {p : Fin 12} (hl : s.fabLive = true) (hd : s.isFd p.val = true)
include hl

theorem onFdBringupTimeout_due (h1 : (s.port p.val).phase ≠ .down) (h2 : (s.port p.val).phase ≠ .up) (h3 : (s.port p.val).retrain = false)
    (h4 : (s.port p.val).since + msRoot 500 ≤ s.clk.root) : onFdBringupTimeout p s =
      (s.setPort p.val { s.port p.val with phase := .training, since := s.clk.root, lanes := 0 }).bumpPort p.val 0x150 :=
  if_neg (by simp [hl, h1, h2, h3]; omega)

/-- A retraining port that goes DOWN keeps this. -/
def portDown (x : PortState) : PortState := { x with
  phase := .down, retrain := false, replay := [], credits := [0, 0, 0, 0], returns := [0, 0, 0, 0]
  txBytes := [[], [], [], []], txLead := [0, 0, 0, 0], oldBytes := [0, 0, 0, 0], markLeft := 0, rxBytes := [[], [], [], []], echo := none }

theorem onFdRetrainTimeout_due (h1 : (s.port p.val).phase = .training) (h2 : (s.port p.val).retrain = true)
    (h3 : (s.port p.val).since + msRoot 500 ≤ s.clk.root) : onFdRetrainTimeout p s =
      ((s.setPort p.val (portDown (s.port p.val))).ev 0x0051 .warning p.val 0 0 0 0).loseNeighbours p.val fun _ => true :=
  if_neg (by simp [hl, h1, h2]; omega)

include hd

theorem onFdTrainingDone_trained (h : (s.port p.val).phase = .training) :
    onFdTrainingDone p s = s.setPort p.val { s.port p.val with phase := .aligning, lanes := 0xF } :=
  if_neg (by simp [hl, hd, h])

theorem onFdAlignmentDone_first (h : (s.port p.val).phase = .aligning) (hr : (s.port p.val).retrain = false) :
    onFdAlignmentDone p s = (s.setPort p.val { s.port p.val with phase := .init }).sendFlit p.val 3 0 0 [] := by
  unfold onFdAlignmentDone
  dsimp only
  rw [if_neg (by simp [hl, hd, h]), if_neg (by simp [hr])]

theorem onFdAlignmentDone_again (h : (s.port p.val).phase = .aligning) (hr : (s.port p.val).retrain = true) :
    onFdAlignmentDone p s =
      ((s.setPort p.val { s.port p.val with phase := .up, retrain := false, retries := 0 }).replay p.val).pumpFlits 1024 p.val := by
  unfold onFdAlignmentDone
  dsimp only
  rw [if_neg (by simp [hl, hd, h]), if_pos hr]

/-- The port after its LINKCTL exchange. -/
def linkUp (s : State) (p : Nat) : PortState := { s.port p with
  phase := .up, txSeq := 0, rxSeq := seqStart, nak := false, replay := [], retries := 0, replayAt := none
  credits := [0, 0, 0, 0], returns := (List.range 4).map (s.vcShare p)
  txBytes := [[], [], [], []], txLead := [0, 0, 0, 0], oldBytes := [0, 0, 0, 0], markLeft := 0, rxBytes := [[], [], [], []]
  echo := none, timexSent := s.clk.root, helloSent := none, marked := none }

/-- A port comes UP: the LINKCTL answer and one flit for each channel's credits go out. -/
def broughtUp (s : State) (p : Nat) (f : RxFlit) : State :=
  (List.range 4).foldl (fun (s : State) _ => s.sendFlit p 0 0 0 [])
    ((((s.countFec p f.corrected f.uncorrected).setPort p (linkUp s p)).noteUp).sendFlit p 3 0 0 [])

theorem onLinkctlFlitReceive_up {f : RxFlit} (h : (s.port p.val).phase = .init) (hb : f.bad = false) (hf : f.ftype = 3) :
    onLinkctlFlitReceive p f s = (broughtUp s p.val f).ev 0x0050 .info p.val (s.portMode p.val) 0 0 0 := by
  unfold onLinkctlFlitReceive
  dsimp only
  rw [if_neg (by simp [hl, hd, h, hf]), if_neg (by simp [hb])]
  rfl

/-! ### Flits -/

variable (hu : s.portUp p.val = true)
include hu

/-- A flit that is discarded: the port asks for it again. -/
def flitRefused (s : State) (p : Nat) (f : RxFlit) : State :=
  let u := (s.countFec p f.corrected f.uncorrected).bumpPort p 0x130
  u.setPort p { u.port p with nak := true }

theorem onDataFlitReceive_bad {f : RxFlit} (hb : f.bad = true) :
    onDataFlitReceive p f s = (flitRefused s p.val f).sendFlit p.val 0 0 0 [] := by
  unfold onDataFlitReceive
  dsimp only
  rw [if_neg (by simp [hl, hd, hu, hb]), if_pos hb]
  rfl

/-- What a good flit's control part leaves. -/
def controlTaken (s : State) (p : Nat) (f : RxFlit) : State := (s.countFec p f.corrected f.uncorrected).takeControl p f.bytes

theorem onDataFlitReceive_data {f : RxFlit} (hb : f.bad = false) (hf : f.ftype = 1) : onDataFlitReceive p f s =
    (((controlTaken s p.val f).takeData p.val f.bytes).sendFlit p.val 0 0 0 []).pumpFlits 1024 p.val := by
  unfold onDataFlitReceive
  dsimp only
  rw [if_neg (by simp [hl, hd, hu, hf]), if_neg (by simp [hb]), if_pos hf]
  rfl

theorem onReplayTimeout_due {f : Flit} {fs : List Flit} (h : (s.port p.val).replay = f :: fs)
    (ht : f.sent + nsRoot (16 * s.rf (portBase p.val + 8) 0 10) < s.clk.root) : onReplayTimeout p s = s.replay p.val := by
  unfold onReplayTimeout
  dsimp only
  rw [h]
  exact if_neg (by simp [hl, hd, hu]; omega)

/-- A port without progress trains again, its replay buffer kept. -/
def retraining (s : State) (p : Nat) : State := (s.setPort p { s.port p with
  phase := .training, since := s.clk.root, retrain := true, retryFail := true, retryFailSet := s.mclk, retries := 0, lanes := 0 }).bumpPort p 0x148

theorem onFdRetryExhausted_due (h : s.rf (portBase p.val + 8) 14 4 ≤ (s.port p.val).retries) :
    onFdRetryExhausted p s = (retraining s p.val).ev 0x0052 .warning p.val 0 0 0 0 :=
  if_neg (by simp [hl, hd, hu]; omega)
end

theorem controlTaken_send (s : State) (p : Nat) (f : RxFlit) : SendOnly s (controlTaken s p f) :=
  (takeControl_send ..).after ((bump_send ..).after (bump_send ..))

/-- Only a DATA flit that is the next in sequence moves the sequence number. -/
theorem takeData_rxSeq (s : State) (p : Nat) (b : List Byte) : ((s.takeData p b).port p).rxSeq =
    if leAt b 1 2 % 4096 = ((s.port p).rxSeq + 1) % 4096 then ((s.port p).rxSeq + 1) % 4096 else (s.port p).rxSeq := by
  unfold State.takeData
  dsimp only
  by_cases h : leAt b 1 2 % 4096 = ((s.port p).rxSeq + 1) % 4096
  case neg => rw [if_pos h, if_neg h, setPort_port]
  case pos =>
    rw [if_neg (not_not.mpr h), if_pos h]
    generalize hu : s.setPort p _ = u
    have hp : (u.port p).rxSeq = ((s.port p).rxSeq + 1) % 4096 := by rw [← hu, setPort_port]
    have hs : SendOnly u ((wholePackets 16 ((s.port p).rxBytes.getD (bits (byteAt b 0) 4 2) [] ++ slice b 8 240)).1.foldl
        (fun (s : State) k => s.receive p [] k) ((u.bumpPort p 0x100).bumpPort p 0x110 240)) :=
      (SendOnly.foldl (fun _ _ => receive_send ..) _ _).after ((bump_send ..).after (bump_send ..))
    exact (hs.rxSeq p).trans hp

/-! ### Neighbours that go -/

theorem ev_fab (s : State) (code : Nat) (cls : EvClass) (loc sub a0 a1 a2 : Nat) : (s.ev code cls loc sub a0 a1 a2).fab = s.fab := (ev_only ..).fab

theorem ev_port (s : State) (code : Nat) (cls : EvClass) (loc sub a0 a1 a2 k : Nat) : (s.ev code cls loc sub a0 a1 a2).port k = s.port k := by
  unfold State.port
  rw [ev_fab]

theorem reviewElection_rest {s : State} (h : s.isMgr = false) : SendOnly s s.reviewElection ∧ s.reviewElection.isMgr = false ∧
    s.reviewElection.ras = s.ras := by
  unfold State.reviewElection
  split
  · exact ⟨.refl s, h, rfl⟩
  · exact ⟨.of_fab rfl, rfl, rfl⟩

/-- At a device that is not the manager a port without neighbours only reports it. -/
theorem loseNeighbours_rest {s : State} (h : s.isMgr = false) (p : Nat) : ((s.loseNeighbours p fun _ => true).port p).phase = (s.port p).phase ∧
    ((s.loseNeighbours p fun _ => true).port p).neigh = [] ∧ (s.loseNeighbours p fun _ => true).ras = s.ras := by
  unfold State.loseNeighbours
  dsimp only
  split
  · next hn =>
    refine ⟨rfl, ?_, rfl⟩
    cases hx : (s.port p).neigh with
    | nil => rfl
    | cons a l => simp [hx] at hn
  · generalize hv : s.setPort p _ = v
    have hp : (v.port p).phase = (s.port p).phase ∧ (v.port p).neigh = [] := by
      rw [← hv, setPort_port]
      exact ⟨rfl, List.filter_eq_nil_iff.mpr (by simp)⟩
    have hr : v.ras = s.ras := by rw [← hv]; rfl
    have hm : v.isMgr = false := by rw [← hv]; exact h
    obtain ⟨e1, e2, e3⟩ := reviewElection_rest hm
    have hlost : v.reviewElection.linkLost = v.reviewElection.reportLinks := if_neg (by simp [e2])
    have hreport : SendOnly v.reviewElection v.reviewElection.reportLinks := .of_fab rfl
    have hs := hreport.after e1
    rw [hlost]
    exact ⟨(hs.phase p).trans hp.1, (hs.neigh p).trans hp.2, e3.trans hr⟩

theorem broughtUp_rest (s : State) (p : Nat) (f : RxFlit) : ((broughtUp s p f).port p).phase = .up ∧ ((broughtUp s p f).port p).rxSeq = 4095 ∧
    (broughtUp s p f).fab.firstUp.isSome = true ∧ (broughtUp s p f).ras = s.ras ∧ (broughtUp s p f).clk = s.clk := by
  unfold broughtUp
  generalize hu : ((s.countFec p f.corrected f.uncorrected).setPort p (linkUp s p)).noteUp = u
  have hp : u.port p = linkUp s p := by
    rw [← hu]
    exact setPort_port ..
  have hf : u.fab.firstUp.isSome = true := by rw [← hu]; rfl
  have hk : u.ras = s.ras ∧ u.clk = s.clk := by rw [← hu]; exact ⟨rfl, rfl⟩
  have hsend : SendOnly u ((List.range 4).foldl (fun (s : State) _ => s.sendFlit p 0 0 0 []) (u.sendFlit p 3 0 0 [])) :=
    (SendOnly.foldl (fun _ _ => sendFlit_send ..) _ _).after (sendFlit_send ..)
  have hfirst : ((List.range 4).foldl (fun (s : State) _ => s.sendFlit p 0 0 0 []) (u.sendFlit p 3 0 0 [])).fab.firstUp = u.fab.firstUp := rfl
  have hkeep : Keeps 0x24000 u ((List.range 4).foldl (fun (s : State) _ => s.sendFlit p 0 0 0 []) (u.sendFlit p 3 0 0 [])) :=
    .foldl _ _ _ _ (fun s _ => s.sendFlit_keeps ..) (u.sendFlit_keeps ..)
  refine ⟨?_, ?_, ?_, (hkeep.frame.same (f := .ras) rfl).trans hk.1, (hkeep.frame.same (f := .clk) rfl).trans hk.2⟩
  · exact (hsend.phase p).trans (congrArg PortState.phase hp)
  · exact (hsend.rxSeq p).trans (by rw [hp]; rfl)
  · rw [hfirst, hf]

/-- Settles O53: what a port sends leaves its receive side, so each flit moves it as its own rule says. -/
theorem directPortsMove : Obligations.DirectPortsMove := by
  unfold Obligations.DirectPortsMove
  intro p s hl hd x
  refine ⟨fun h => ?trained, fun h hr => ?first, fun h hr => ?again, fun h1 h2 h3 h4 => ?late, fun f h hb hf => ?linkctl,
    fun hu => ⟨fun f hb hf => ?data, fun f hb => ?refused, fun f fs h ht => ?replay, fun h => ?exhausted⟩, fun h1 h2 h3 hm => ?down⟩
  case trained => exact .of rfl (onFdTrainingDone_trained hl hd h) (setPort_port ..)
  case first => exact congrArg Host.Outcome.next (onFdAlignmentDone_first hl hd h hr)
  case again =>
    have hs := (pumpFlits_send 1024 _ p.val).after
      (replay_send (s.setPort p.val { x with phase := .up, retrain := false, retries := 0 }) p.val)
    have hp := hs.port p.val
    rw [setPort_port] at hp
    exact .of rfl (onFdAlignmentDone_again hl hd h hr) ⟨congrArg PortState.phase hp, congrArg PortState.retrain hp⟩
  case late => exact .of rfl (onFdBringupTimeout_due hl h1 h2 h3 h4) (setPort_port ..)
  case linkctl =>
    obtain ⟨b1, b2, b3, b4, b5⟩ := broughtUp_rest s p.val f
    have hlog := raise_logged (broughtUp s p.val f) 0x0050 .info none (genPayload p.val (s.portMode p.val) 0 0 0)
    refine .of rfl (onLinkctlFlitReceive_up hl hd h hb hf) ?_
    rw [ev_port, ev_fab]
    exact ⟨b1, b2, b3, hlog.congr b4.symm b5.symm rfl⟩
  case data =>
    have hc := (controlTaken_send s p.val f).rxSeq p.val
    have hs := (pumpFlits_send 1024 _ p.val).after (sendFlit_send ((controlTaken s p.val f).takeData p.val f.bytes) p.val 0 0 0 [])
    refine .of rfl (onDataFlitReceive_data hl hd hu hb hf) ((hs.rxSeq p.val).trans ?_)
    rw [takeData_rxSeq, hc]
  case refused =>
    have hs := sendFlit_send (flitRefused s p.val f) p.val 0 0 0 []
    have hp : (flitRefused s p.val f).port p.val = { x with nak := true } := setPort_port ..
    refine .of rfl (onDataFlitReceive_bad hl hd hu hb) ⟨?_, ?_, rfl⟩
    · exact (hs.nak p.val).trans (by rw [hp])
    · exact (hs.rxSeq p.val).trans (by rw [hp])
  case replay => exact congrArg Host.Outcome.next (onReplayTimeout_due hl hd hu h ht)
  case exhausted =>
    have hp : (retraining s p.val).port p.val = _ := setPort_port ..
    have hlog := raise_logged (retraining s p.val) 0x0052 .warning none (genPayload p.val 0 0 0 0)
    refine .of rfl (onFdRetryExhausted_due hl hd hu h) ?_
    rw [ev_port, hp]
    exact ⟨rfl, rfl, rfl, hlog.congr rfl rfl rfl⟩
  case down =>
    have hv : (s.setPort p.val (portDown x)).port p.val = portDown x := setPort_port ..
    have hr := LogGrown.raised (s := s) (u := s.setPort p.val (portDown x)) (.of_log rfl) 0x0051 .warning none (genPayload p.val 0 0 0 0)
    have hmgr : ((s.setPort p.val (portDown x)).ev 0x0051 .warning p.val 0 0 0 0).isMgr = false := by
      unfold State.isMgr
      rw [ev_fab]
      exact hm
    obtain ⟨n1, n2, n3⟩ := loseNeighbours_rest hmgr p.val
    refine .of rfl (onFdRetrainTimeout_due hl h1 h2 h3) ⟨?_, n2, ?_⟩
    · rw [n1, ev_port, hv]
      rfl
    · unfold Raised
      rw [n3]
      exact hr

/-! ### Time -/

section
variable {s : State} {p : Fin 12} (hl : s.fabLive = true) (hd : s.isFd p.val = true) (hu : s.portUp p.val = true)
include hl hd hu

theorem onTimexSend_due (h : (s.port p.val).timexSent + usRoot (2 ^ s.rf (portBase p.val + 8) 10 4) ≤ s.clk.root) : onTimexSend p s =
    (s.setPort p.val { s.port p.val with timexSent := s.clk.root }).sendFlit p.val 2 0 0 (leBytes 8 (s.txTime p.val).toNat ++
      leBytes 8 ((s.port p.val).echo.getD (0, 0)).1.toNat ++ leBytes 8 ((s.port p.val).echo.getD (0, 0)).2.toNat ++
      leBytes 1 (b2n (s.port p.val).echo.isSome)) :=
  if_neg (by simp [hl, hd, hu]; omega)

theorem onTimexFlitReceive_bad {f : RxFlit} (hb : f.bad = true) :
    onTimexFlitReceive p f s = (s.countFec p.val f.corrected f.uncorrected).bumpPort p.val 0x130 := by
  unfold onTimexFlitReceive
  dsimp only
  rw [if_neg (by simp [hl, hd, hu, hb]), if_pos hb]

/-- A time exchange is kept for its echo. -/
def timexTaken (s : State) (p : Nat) (f : RxFlit) : State :=
  let u := controlTaken s p f
  (u.setPort p { u.port p with echo := some (BitVec.ofNat 64 (leAt f.bytes 8 8), s.rxTime p) }).pumpFlits 1024 p

/-- The offset that a time exchange shows. -/
def timexOffset (s : State) (p : Nat) (f : RxFlit) : Int := offsetOf (BitVec.ofNat 64 (leAt f.bytes 16 8)) (BitVec.ofNat 64 (leAt f.bytes 24 8))
  (BitVec.ofNat 64 (leAt f.bytes 8 8)) (s.rxTime p)

theorem onTimexFlitReceive_good {f : RxFlit} (hb : f.bad = false) (hf : f.ftype = 2) : onTimexFlitReceive p f s =
    if (timexTaken s p.val f).clk.parentPort = some p.val ∧ bitAt (byteAt f.bytes 32) 0
    then (timexTaken s p.val f).sample (timexOffset s p.val f) else timexTaken s p.val f := by
  unfold onTimexFlitReceive
  dsimp only
  rw [if_neg (by simp [hl, hd, hu, hf]), if_neg (by simp [hb])]
  rfl
end

theorem timexTaken_rest (s : State) (p : Nat) (f : RxFlit) : (timexTaken s p f).clk = s.clk ∧
    ((timexTaken s p f).port p).echo = some (BitVec.ofNat 64 (leAt f.bytes 8 8), s.rxTime p) := by
  unfold timexTaken
  dsimp only
  constructor
  · have hc : (controlTaken s p f).clk = s.clk := (State.takeControl_keeps _ p f.bytes).frame.same (f := .clk) rfl
    exact ((State.pumpFlits_keeps 1024 _ p).frame.same (f := .clk) rfl).trans hc
  · have hp := (pumpFlits_send 1024 ((controlTaken s p f).setPort p
      { (controlTaken s p f).port p with echo := some (BitVec.ofNat 64 (leAt f.bytes 8 8), s.rxTime p) }) p).port p
    rw [setPort_port] at hp
    exact congrArg PortState.echo hp

/-- The rate, the lock and the step of Tally leave the sample that they follow. -/
def SampleStands (s t : State) : Prop := t.clk.lastSample = s.clk.lastSample ∧ t.clk.offset = s.clk.offset

theorem SampleStands.after {s t u : State} (b : SampleStands t u) (a : SampleStands s t) : SampleStands s u := ⟨b.1.trans a.1, b.2.trans a.2⟩

theorem slew_stands (s : State) (ofs : Int) : SampleStands s (s.slew ofs) := ⟨rfl, rfl⟩

theorem ev_stands (s : State) (code : Nat) (cls : EvClass) (loc sub a0 a1 a2 : Nat) : SampleStands s (s.ev code cls loc sub a0 a1 a2) := by
  unfold SampleStands
  rw [(ev_only ..).clk]
  exact ⟨rfl, rfl⟩

theorem acquire_stands (s : State) (ofs : Int) : SampleStands s (s.acquire ofs) := by
  unfold State.acquire
  dsimp only
  split
  · exact (ev_stands ..).after ⟨rfl, rfl⟩
  · exact (slew_stands ..).after ⟨rfl, rfl⟩

theorem track_stands (s : State) (ofs : Int) : SampleStands s (s.track ofs) := by
  unfold State.track
  dsimp only
  split
  · exact (ev_stands ..).after ⟨rfl, rfl⟩
  · exact slew_stands ..

theorem sample_noted (s : State) (ofs : Int) : (s.sample ofs).clk.lastSample = s.clk.root ∧ (s.sample ofs).clk.offset = ofs := by
  unfold State.sample
  split
  · exact track_stands _ ofs
  · exact acquire_stands _ ofs
  · exact acquire_stands _ ofs
  · exact ⟨rfl, rfl⟩
  · exact ⟨rfl, rfl⟩

theorem sample_fab (s : State) (ofs : Int) : (s.sample ofs).fab = s.fab := (s.sample_keeps ofs).frame.same (f := .fab) rfl

section
variable {s : State} {p : Fin 12} (hl : s.fabLive = true) (he : s.isEth p.val = true) (hu : s.portUp p.val = true)
include hl he hu

theorem onPtpSyncSend_due (h1 : s.clk.sync ≠ .free) (h2 : s.clk.parentPort ≠ some p.val) (h3 : (s.port p.val).ptpSent + msRoot 125 ≤ s.clk.root) :
    onPtpSyncSend p s = (s.setPort p.val { s.port p.val with
      ptpSent := s.clk.root, ptpSeq := ((s.port p.val).ptpSeq + 1) % 65536 }).sendPtp p.val 0 (s.port p.val).ptpSeq (zeroBytes 10) :=
  if_neg (by simp [hl, he, hu, h1, h2]; omega)

theorem onPtpDelayReqSend_due (h1 : s.clk.parentPort = some p.val) (h2 : (s.port p.val).origin.isSome = true) :
    onPtpDelayReqSend p s = (s.setPort p.val { s.port p.val with
      ptpSeq := ((s.port p.val).ptpSeq + 1) % 65536 }).sendPtp p.val 1 (s.port p.val).ptpSeq (zeroBytes 10) :=
  if_neg (by simp [hl, he, hu, h1, Option.isSome_iff_ne_none.mp h2])
end

theorem sendPtp_port (s : State) (p : Nat) (x : PortState) (type seq : Nat) (body : List Byte) : ∃ f,
    ((s.setPort p x).sendPtp p type seq body).port p = { x with queues := x.queues.set 7 (x.queues.getD 7 [] ++ [f]) } := by
  unfold State.sendPtp State.enqueue
  dsimp only
  exact ⟨_, by rw [setPort_port, setPort_port]⟩

theorem length_getD_set_append {α : Type} {l : List (List α)} {q : Nat} (h : q < l.length) (f : α) :
    ((l.set q (l.getD q [] ++ [f])).getD q []).length = (l.getD q []).length + 1 := by
  simp [List.getD_eq_getElem?_getD, h]

/-- Settles O55: the exchange is kept before it is used, and a sample stands through what the sync state makes of it. -/
theorem timeIsExchanged : Obligations.TimeIsExchanged := by
  unfold Obligations.TimeIsExchanged
  refine ⟨?direct, fun s hl hs h => ?holdover, ?ptp⟩
  case direct =>
    intro p s hl hd hu x
    refine ⟨fun h => congrArg Host.Outcome.next (onTimexSend_due hl hd hu h), fun f hb hf => ?_, fun f hb => ?_⟩
    · obtain ⟨t1, t2⟩ := timexTaken_rest s p.val f
      have hg := onTimexFlitReceive_good hl hd hu hb hf
      rw [t1] at hg
      by_cases hc : s.clk.parentPort = some p.val ∧ bitAt (byteAt f.bytes 32) 0 = true
      · obtain ⟨n1, n2⟩ := sample_noted (timexTaken s p.val f) (timexOffset s p.val f)
        refine .of rfl (hg.trans (if_pos hc)) ⟨?_, fun _ _ => ⟨n1.trans (congrArg ClockState.root t1), n2⟩, fun h => ?_⟩
        · unfold State.port
          rw [sample_fab]
          exact t2
        · rcases h with h | h
          · exact absurd hc.1 h
          · exact Bool.noConfusion (h.symm.trans hc.2)
      · exact .of rfl (hg.trans (if_neg hc)) ⟨t2, fun h1 h2 => absurd ⟨h1, h2⟩ hc, fun _ => t1⟩
    · exact .of rfl (onTimexFlitReceive_bad hl hd hu hb) ⟨rfl, rfl⟩
  case holdover => exact congrArg Host.Outcome.next (if_pos ⟨hl, hs, h.imp_left fun h => by simp [h]⟩)
  case ptp =>
    intro p s hl he hu x
    refine ⟨fun h1 h2 h3 h4 => ?_, fun h1 h2 h3 => ?_⟩
    · obtain ⟨f, hf⟩ := sendPtp_port s p.val { x with ptpSent := s.clk.root, ptpSeq := (x.ptpSeq + 1) % 65536 } 0 x.ptpSeq (zeroBytes 10)
      refine .of rfl (onPtpSyncSend_due hl he hu h1 h2 h3) ?_
      rw [hf]
      exact ⟨rfl, rfl, length_getD_set_append h4 f⟩
    · obtain ⟨f, hf⟩ := sendPtp_port s p.val { x with ptpSeq := (x.ptpSeq + 1) % 65536 } 1 x.ptpSeq (zeroBytes 10)
      refine .of rfl (onPtpDelayReqSend_due hl he hu h1 h2) ?_
      rw [hf]
      exact ⟨rfl, length_getD_set_append h3 f⟩

end Sys2Proof.Machine
end

section
/-! SUPPORT. Ethernet ports (13 R320 to R327). -/
namespace Sys2Proof.Machine

section
variable {s : State} {p : Fin 12} (hl : s.fabLive = true) (he : s.isEth p.val = true)
include hl he

/-! ### Link state -/

/-- The port after auto-negotiation and training. -/
def ethUp (s : State) (p : Nat) : PortState := { s.port p with
  phase := .up, lanes := if 4 ≤ s.portMode p then 0xFF else 0xF, helloSent := none, marked := none
  ptpSent := s.clk.root, preempt := bitAt (s.macCfg p) 29 && bitAt (s.macCfg p) 30 }

theorem onEthernetLinkUp_trained (h : (s.port p.val).phase = .training) : onEthernetLinkUp p s = (s.setPort p.val (ethUp s p.val)).noteUp :=
  if_neg (by simp [hl, he, h])

theorem onEthernetLinkDown_up (h : (s.port p.val).phase = .up) : onEthernetLinkDown p s =
    (s.setPort p.val { s.port p.val with
      phase := .training, since := s.clk.root, lanes := 0, preempt := false, cut := none, asm := none }).bumpPort p.val 0x178
        (b2n (s.port p.val).asm.isSome) :=
  if_neg (by simp [hl, he, h])

variable (hu : s.portUp p.val = true)
include hu

theorem onPreemptVerify_ends (h1 : bitAt (s.macCfg p.val) 29 = true) (h2 : bitAt (s.macCfg p.val) 30 = false) (ok : Bool) :
    onPreemptVerify p ok s = if ok then s.setPort p.val { s.port p.val with preempt := ok }
      else (s.setPort p.val { s.port p.val with preempt := ok }).ev 0x0053 .warning p.val 0 0 0 0 :=
  if_neg (by simp [hl, he, hu, h1, h2])

/-! ### Received frames -/

/-- A frame with an error of coding changes no received packet. -/
theorem onFrameReceive_coded {f : RxFrame} (h : f.codeError = true) : (onFrameReceive p f s).fab.rxq = s.fab.rxq ∧
    (onFrameReceive p f s).slots = s.slots := by
  unfold onFrameReceive
  rw [if_neg (by simp [hl, he, hu])]
  dsimp only
  rw [if_pos (.inl h)]
  have hopen (u : State) (x : PortState) : (u.setPort p.val x).fab.rxq = u.fab.rxq ∧ (u.setPort p.val x).slots = u.slots := ⟨rfl, rfl⟩
  split
  · split <;> exact ⟨rfl, rfl⟩
  · split <;> exact ⟨rfl, rfl⟩

variable {f : RxFrame} (hc : f.codeError = false) (hn : f.uncorrected = 0)
  (hm : f.bytes.length ≤ s.rf (portBase p.val + 0x10) 0 14)
include hc hn hm

theorem onFrameReceive_express (hf : f.form = .express) (h64 : 64 ≤ f.bytes.length) : onFrameReceive p f s =
    if f.bytes.drop (f.bytes.length - 4) = fcsOf (f.bytes.take (f.bytes.length - 4)) then
      (s.countFec p.val f.corrected 0).takeIn p.val f.noBuffer (s.addressPasses p.val f.bytes) f.bytes
    else (s.countFec p.val f.corrected 0).bumpPort p.val 0x170 := by
  obtain ⟨form, bytes, codeError, corrected, uncorrected, noBuffer⟩ := f
  dsimp only at hc hn hm hf h64 ⊢
  subst hf hn
  unfold onFrameReceive
  rw [if_neg (by simp [hl, he, hu])]
  dsimp only
  have hlen : ([] ++ List.take (bytes.length - 4) bytes).length + 4 = bytes.length := by simp; omega
  have hmax : (s.countFec p.val corrected 0).rf (portBase p.val + 0x10) 0 14 = s.rf (portBase p.val + 0x10) 0 14 := rfl
  rw [if_neg (by simp [hc]), if_neg (fun h => by omega), hlen, hmax, if_neg (Nat.not_lt.mpr hm)]
  by_cases ht : List.drop (bytes.length - 4) bytes = fcsOf (List.take (bytes.length - 4) bytes)
  · rw [if_neg (by simp [ht]), if_neg (by simp), if_neg (by simp [ht]), if_pos ht, List.nil_append, List.take_append_drop]
  · rw [if_pos (by simp [ht]), if_neg ht]

/-- The first fragment of a pre-emptable frame is kept. -/
theorem onFrameReceive_first (hf : f.form = .first) (ha : (s.port p.val).asm = none) (h4 : 4 ≤ f.bytes.length)
    (h1 : f.bytes.drop (f.bytes.length - 4) = mcrcOf (f.bytes.take (f.bytes.length - 4)))
    (h2 : f.bytes.drop (f.bytes.length - 4) ≠ fcsOf (f.bytes.take (f.bytes.length - 4))) : onFrameReceive p f s =
      (s.countFec p.val f.corrected 0).setPort p.val { s.port p.val with asm := some { frame := f.bytes.take (f.bytes.length - 4)
                                                                                       upTo := f.bytes.length - 4
                                                                                       passes := s.addressPasses p.val f.bytes, count := 0 } } := by
  obtain ⟨form, bytes, codeError, corrected, uncorrected, noBuffer⟩ := f
  dsimp only at hc hn hm hf h4 h1 h2 ⊢
  subst hf hn
  unfold onFrameReceive
  rw [if_neg (by simp [hl, he, hu])]
  have hp : (s.countFec p.val corrected 0).port p.val = s.port p.val := rfl
  have hlen : ([] ++ List.take (bytes.length - 4) bytes).length + 4 = bytes.length := by simp; omega
  have hmax : (s.countFec p.val corrected 0).rf (portBase p.val + 0x10) 0 14 = s.rf (portBase p.val + 0x10) 0 14 := rfl
  dsimp only
  rw [hp, ha]
  dsimp only
  rw [if_neg (by simp [hc]), if_neg (by simp [← h1, h2]), hlen, hmax, if_neg (Nat.not_lt.mpr hm), if_neg (by simp [← h1, h2]), if_neg (by simp),
    if_pos (by simp [h2]), hp, List.nil_append, List.length_take_of_le (by omega)]


end

/-! ### Transmission -/

section
variable {s : State} {p : Fin 12} (hl : s.fabLive = true) (he : s.isEth p.val = true) (hu : s.portUp p.val = true)
include hl he hu

/-- A queue without its first frame. -/
def popped (s : State) (p q : Nat) : State :=
  s.setPort p { s.port p with queues := (s.port p).queues.set q (((s.port p).queues.getD q []).drop 1) }

theorem onFrameTransmit_express {f : Frame} {fs : List Frame} (waits : Option Nat) (h : (s.port p.val).queues.getD 7 [] = f :: fs)
    (hf : f.ptp = false) : onFrameTransmit p waits s =
      ((popped s p.val 7).emit (.fab (.frame p.val f.bytes))).sent p.val f.bytes.length := by
  unfold onFrameTransmit
  dsimp only
  rw [if_neg (by simp [hl, he, hu])]
  simp only [List.findSome?_cons, h, List.head?_cons, Option.map_some, hf, Bool.false_eq_true, if_false]
  unfold popped
  rw [h]

variable (h7 : (s.port p.val).queues.getD 7 [] = []) (h6 : (s.port p.val).queues.getD 6 [] = [])
include h7 h6

theorem onFrameTransmit_rest {c : Fragment} (waits : Option Nat) (h : (s.port p.val).cut = some c) :
    onFrameTransmit p waits s = s.sendFrom p.val c.upTo (some c.count) c.frame waits := by
  unfold onFrameTransmit
  dsimp only
  rw [if_neg (by simp [hl, he, hu])]
  simp only [List.findSome?_cons, List.findSome?_nil, h7, h6, List.head?_nil, Option.map_none, h]

theorem onFrameTransmit_five {f : Frame} {fs : List Frame} (waits : Option Nat) (h : (s.port p.val).cut = none)
    (hq : (s.port p.val).queues.getD 5 [] = f :: fs) :
    onFrameTransmit p waits s = (popped s p.val 5).sendFrom p.val 0 none f.bytes waits := by
  unfold onFrameTransmit
  dsimp only
  rw [if_neg (by simp [hl, he, hu])]
  simp only [List.findSome?_cons, List.findSome?_nil, h7, h6, List.head?_nil, Option.map_none, h, hq, List.head?_cons, Option.map_some]
  unfold popped
  dsimp only
  rw [hq, h]
end

theorem popped_queue (s : State) {p q : Nat} {f : Frame} {fs : List Frame} (h : (s.port p).queues.getD q [] = f :: fs) :
    ((popped s p q).port p).queues.getD q [] = fs ∧
    ∀ k, k ≠ q → ((popped s p q).port p).queues.getD k [] = (s.port p).queues.getD k [] := by
  have hq : q < (s.port p).queues.length := by
    by_contra hc
    rw [List.getD_eq_default _ _ (by omega)] at h
    cases h
  unfold popped
  rw [setPort_port, h]
  dsimp only
  constructor
  · simp [List.getD_eq_getElem?_getD, hq]
  · intro k hk
    simp [List.getD_eq_getElem?_getD, List.getElem?_set_ne (Ne.symm hk)]

theorem sendFrom_whole (s : State) (p : Nat) (b : List Byte) : s.sendFrom p 0 none b none =
    ((s.setPort p { s.port p with cut := none }).sent p b.length).emit (.fab (.frame p b)) := rfl

/-- Settles O54: of a received frame the row of Table 13-4 that it meets says what becomes of it; of those to send, the queues' order. -/
theorem ethernetPortsMove : Obligations.EthernetPortsMove := by
  unfold Obligations.EthernetPortsMove
  intro p s hl he x
  refine ⟨fun h => ?up, fun h => ?down, fun hu => ⟨fun h1 h2 => ⟨?verified, ?failed⟩, fun f hf => ?coded, fun f hf hc hn h64 hm => ?express,
    fun f hf hc hn ha h4 hm h1 h2 => ?first, fun f fs waits h hf => ?seven, fun h7 h6 => ⟨fun c waits h => ?cut, fun f fs h hq => ?five⟩⟩⟩
  case up =>
    have hp : ((s.setPort p.val (ethUp s p.val)).noteUp).port p.val = ethUp s p.val := setPort_port ..
    refine .of rfl (onEthernetLinkUp_trained hl he h) ⟨?_, rfl⟩
    rw [hp]
    rfl
  case down => exact .of rfl (onEthernetLinkDown_up hl he h) (setPort_port ..)
  case verified =>
    refine .of rfl (onPreemptVerify_ends hl he hu h1 h2 true) ?_
    rw [if_pos rfl, setPort_port]
  case failed =>
    have hlog := raise_logged (s.setPort p.val { x with preempt := false }) 0x0053 .warning none (genPayload p.val 0 0 0 0)
    refine .of rfl (onPreemptVerify_ends hl he hu h1 h2 false) ?_
    rw [if_neg Bool.false_ne_true, ev_port, setPort_port]
    exact ⟨rfl, hlog.congr rfl rfl rfl⟩
  case coded => exact .of rfl rfl (onFrameReceive_coded hl he hu hf)
  case express =>
    have heq := onFrameReceive_express hl he hu hc hn hm hf h64
    exact ⟨fun ht => congrArg Host.Outcome.next (heq.trans (if_pos ht)), fun ht => congrArg Host.Outcome.next (heq.trans (if_neg ht))⟩
  case first => exact .of rfl (onFrameReceive_first hl he hu hc hn hm hf ha h4 h1 h2) ⟨by rw [setPort_port], rfl⟩
  case seven =>
    obtain ⟨h1, h2⟩ := popped_queue s h
    exact .of rfl (onFrameTransmit_express hl he hu waits h hf) ⟨rfl, h1, h2⟩
  case cut => exact congrArg Host.Outcome.next (onFrameTransmit_rest hl he hu h7 h6 waits h)
  case five =>
    obtain ⟨h1, -⟩ := popped_queue s hq
    have hp : ((popped s p.val 5).sendFrom p.val 0 none f.bytes none).port p.val = { (popped s p.val 5).port p.val with cut := none } :=
      setPort_port ..
    refine .of rfl (onFrameTransmit_five hl he hu h7 h6 none h hq) ⟨rfl, ?_⟩
    rw [hp]
    exact h1

end Sys2Proof.Machine
end

section
/-! SUPPORT. Coalescing, bank power, page scrub and the watchdog (04 R97, R102 to R104; 05 R144). -/
namespace Sys2Proof.Machine

/-! ### Banks -/

/-- Of the dataflow's state only the power of the banks may differ. -/
def BankOnly (s t : State) : Prop := t.flow = { s.flow with banks := t.flow.banks, bankLast := t.flow.bankLast }

theorem BankOnly.refl (s : State) : BankOnly s s := rfl
theorem BankOnly.after {s t u : State} (b : BankOnly t u) (a : BankOnly s t) : BankOnly s u := by unfold BankOnly at *; rw [b, a]
theorem BankOnly.of_same {s t : State} (h : t.flow = s.flow) : BankOnly s t := by unfold BankOnly; rw [h]
theorem BankOnly.foldl {β : Type} {f : State → β → State} (h : ∀ s x, BankOnly s (f s x)) (l : List β) (s : State) : BankOnly s (l.foldl f s) := by
  induction l generalizing s with
  | nil => exact .refl s
  | cons x l ih => exact (ih _).after (h s x)

theorem bumpSite_flow (s : State) (site o n : Nat) : (s.bumpSite site o n).flow = s.flow := by
  unfold State.bumpSite
  split <;> rfl

theorem accessBank_bankOnly (s : State) (site b : Nat) : BankOnly s (s.accessBank site b).1 := by
  unfold State.accessBank
  split
  · rfl
  · exact BankOnly.after (t := (s.setBank site b .active).bumpSite site 0x150) rfl ((BankOnly.of_same (bumpSite_flow ..)).after rfl)
  · rfl
  · exact .refl s
  · exact .refl s

theorem accessBanks_bankOnly (s : State) (site : Nat) (bs : List Nat) : BankOnly s (s.accessBanks site bs).1 :=
  List.foldlRecOn (motive := fun x : State × Bool => BankOnly s x.1) bs _ (.refl s) fun x hx b _ => (accessBank_bankOnly x.1 site b).after hx

theorem useBanks_bankOnly (s : State) (site : Nat) (bs : List Nat) : BankOnly s (s.useBanks site bs) := by
  unfold State.useBanks
  dsimp only
  split
  · exact accessBanks_bankOnly s site bs
  · exact (BankOnly.foldl (fun _ _ => by rfl) _ _).after (accessBanks_bankOnly s site bs)

/-- In A0 and A1 a bank is what its table says. -/
theorem bank_awake {s : State} (h : s.pwr.idle = 0) (site b : Nat) :
    s.bank site b = tblGet (fun _ => s.flow.bankRest) s.flow.banks (bankKey site b) := by
  unfold State.bank
  dsimp only
  rw [if_neg (by omega), if_neg (by omega)]

theorem setBank_bank {s : State} (h : s.pwr.idle = 0) (site b : Nat) (x : BankState) : (s.setBank site b x).bank site b = x := by
  rw [bank_awake (s := s.setBank site b x) h]
  exact tblGet_tblSet_same ..

theorem setBank_bank_of_ne {s : State} (h : s.pwr.idle = 0) {site b k c : Nat} (x : BankState) (hk : bankKey k c ≠ bankKey site b) :
    (s.setBank site b x).bank k c = s.bank k c := by
  rw [bank_awake (s := s.setBank site b x) h, bank_awake h]
  exact tblGet_tblSet_of_ne hk

theorem bumpSite_pwr (s : State) (site o n : Nat) : (s.bumpSite site o n).pwr = s.pwr := by
  unfold State.bumpSite
  split <;> rfl

theorem bumpSite_bank (s : State) (site o n k c : Nat) : (s.bumpSite site o n).bank k c = s.bank k c := by
  unfold State.bumpSite
  split <;> rfl

theorem onBankRetainEntry_due {s : State} {site : Fin 8192} {b : Fin 32} {since : Nat} (h : s.bank site.val b.val = .entering since)
    (ht : since + 16 * aclkDiv s.clk.step ≤ s.clk.root) : onBankRetainEntry site b s = s.setBank site.val b.val .retain := by
  unfold onBankRetainEntry
  rw [h]
  exact if_pos ht

/-- The debug access waits for the bank. -/
def waitsFor (site b : Nat) (w : BankWait) : Bool := w.site == site && lineBank (w.off / 64) == b

/-- A bank is awake, and no debug access waits for it any more. -/
def bankAwake (s : State) (site b : Nat) : State :=
  let u := s.setBank site b .active
  { u with flow := { u.flow with
    bankLast := tblSet (fun _ => 0) s.flow.bankLast (bankKey site b) s.clk.root
    bankWait := s.flow.bankWait.filter fun w => !waitsFor site b w } }

theorem onBankWake_due {s : State} {site : Fin 8192} {b : Fin 32} {since : Nat} (h : s.bank site.val b.val = .waking since)
    (ht : since + 24 * aclkDiv s.clk.step ≤ s.clk.root) :
    onBankWake site b s = (s.flow.bankWait.filter (waitsFor site.val b.val)).foldl State.spadAccess (bankAwake s site.val b.val) := by
  unfold onBankWake
  rw [h]
  exact if_neg (by omega)

/-! ### The page scrub -/

/-- Zeros written to the keys from `lo` on. -/
theorem tblGet_zeros (d : Nat → Byte) (t : Tbl Byte) (lo n k : Nat) :
    tblGet d ((List.range n).foldl (fun (t : Tbl Byte) i => tblSet d t (lo + i) 0) t) k = if lo ≤ k ∧ k < lo + n then 0 else tblGet d t k := by
  induction n with
  | zero => rw [if_neg (by omega)]; rfl
  | succ n ih =>
    rw [List.range_succ, List.foldl_append]
    by_cases hk : k = lo + n
    · subst hk
      rw [if_pos (by omega)]
      exact tblGet_tblSet_same ..
    · refine (tblGet_tblSet_of_ne hk).trans (ih.trans ?_)
      by_cases h : lo ≤ k ∧ k < lo + n
      · rw [if_pos h, if_pos (by omega)]
      · rw [if_neg h, if_neg (by omega)]

/-- The bytes of a scratchpad once a page is zeroed. -/
def pageZeroed (s : State) (lo : Nat) : Tbl Byte :=
  let t : Tbl Byte := tblClear lo (lo + 4096) s.flow.scratch
  if s.flow.lost = 0 then t else (List.range 4096).foldl (fun (t : Tbl Byte) i => tblSet s.spadDefault t (lo + i) 0) t

theorem pageZeroed_get (s : State) (lo k : Nat) :
    tblGet s.spadDefault (pageZeroed s lo) k = if lo ≤ k ∧ k < lo + 4096 then 0 else tblGet s.spadDefault s.flow.scratch k := by
  have hout (h : ¬ (lo ≤ k ∧ k < lo + 4096)) : tblGet s.spadDefault (tblClear lo (lo + 4096) s.flow.scratch) k =
      tblGet s.spadDefault s.flow.scratch k := tblGet_tblClear_out (by omega)
  unfold pageZeroed
  dsimp only
  by_cases hl : s.flow.lost = 0
  · rw [if_pos hl]
    by_cases h : lo ≤ k ∧ k < lo + 4096
    · rw [if_pos h, tblGet_tblClear_in h.1 h.2]
      exact if_pos hl
    · rw [if_neg h, hout h]
  · rw [if_neg hl, tblGet_zeros]
    by_cases h : lo ≤ k ∧ k < lo + 4096
    · rw [if_pos h, if_pos h]
    · rw [if_neg h, if_neg h, hout h]

/-- A page is zeroed and clean, before its banks and counters. -/
def pageScrubbed (s : State) (site pg : Nat) : State := { s with flow := { s.flow with
  scratch := pageZeroed s (site * 2 ^ 21 + 4096 * pg)
  scratchUe := s.flow.scratchUe.filter fun w => 8 * w + 8 ≤ site * 2 ^ 21 + 4096 * pg || site * 2 ^ 21 + 4096 * pg + 4096 ≤ 8 * w
  dirty := s.flow.dirty.filter (· != pageKey site pg) } }

theorem scrubPage_eq (s : State) (site pg : Nat) : s.scrubPage site pg =
    (((pageScrubbed s site pg).useBanks site (List.range 32)).bumpSite site 0x160 64).bumpSite site 0x108 64 := rfl

theorem scrubPage_bankOnly (s : State) (site pg : Nat) : BankOnly (pageScrubbed s site pg) (s.scrubPage site pg) := by
  rw [scrubPage_eq]
  exact (BankOnly.of_same (bumpSite_flow ..)).after ((BankOnly.of_same (bumpSite_flow ..)).after (useBanks_bankOnly ..))

theorem scrubPage_byte (s : State) (site pg k a : Nat) : (s.scrubPage site pg).scratchByte k a =
    if site * 2 ^ 21 + 4096 * pg ≤ k * 2 ^ 21 + a ∧ k * 2 ^ 21 + a < site * 2 ^ 21 + 4096 * pg + 4096 then 0 else s.scratchByte k a := by
  have h := scrubPage_bankOnly s site pg
  unfold BankOnly at h
  unfold State.scratchByte State.spadDefault
  rw [h]
  exact pageZeroed_get s _ _

theorem scrubPage_clean (s : State) (site pg : Nat) : (s.scrubPage site pg).pageDirty site pg = false := by
  have h := scrubPage_bankOnly s site pg
  unfold BankOnly at h
  unfold State.pageDirty
  rw [h]
  simp [pageScrubbed]

/-! ### The watchdog -/

/-- The watchdog of a job has barked. -/
def barked (s : State) (n : Fin 8) : State := s.setSlot n.val { s.slot n.val with barked := true }

theorem onWatchdogExpiry_due {s : State} {n : Fin 8} (hw : s.watching n.val = true)
    (h : 2 ^ s.rf (jobBase n.val + 0x20) 1 6 ≤ s.ctr (jobBase n.val + 0x28)) :
    ∃ p, onWatchdogExpiry n s = (barked s n).raise 0x0014 .warning (some n) p := by
  unfold onWatchdogExpiry
  rw [if_neg (by simp [hw]; omega)]
  exact ⟨_, rfl⟩

theorem onCoalHoldExpiry_due {s : State} {dev : Fin 8192} {r : StRef} {l : Nat × List (Nat × Byte)} (h : s.station dev.val = some r)
    (ht : (s.coalOf r).since + s.rf (siteBase r.st.site) 0 8 * aclkDiv s.clk.step ≤ s.clk.root) (hl : (s.coalOf r).line = some l) :
    onCoalHoldExpiry dev s = (s.bankWrite r.st.site l.2).setCoal r { s.coalOf r with line := none } := by
  unfold onCoalHoldExpiry
  rw [h]
  refine (if_pos ⟨by rw [hl]; rfl, ht⟩).trans ?_
  unfold State.flushCoal
  rw [hl]

/-- Settles O44: a bank's power is its own entry of the table, and the page scrub zeroes a range of keys. -/
theorem scratchpadUpkeep : Obligations.ScratchpadUpkeep := by
  unfold Obligations.ScratchpadUpkeep
  refine ⟨fun dev r s h ht l hl => congrArg Host.Outcome.next (onCoalHoldExpiry_due h ht hl), fun site b s => ?banks,
    fun site pg s hd => ?page, fun n s hw h => ?watchdog⟩
  case banks =>
    intro thr
    refine ⟨fun h1 h2 h3 h4 h5 h6 h7 => ?_, fun since hi h ht => ?_, fun since hi h ht => ?_⟩
    · have he : onBankIdleEntry site b s = (s.setBank site.val b.val (.entering s.clk.root)).bumpSite site.val 0x148 :=
        if_neg (by simp [h1, h2, h3, h5, h6]; exact ⟨h4, h7⟩)
      refine .of rfl he ⟨?_, ?_, fun k c hk => ?_⟩
      · rw [bumpSite_bank, setBank_bank h3]
      · rw [bumpSite_flow]
        rfl
      · rw [bumpSite_bank, setBank_bank_of_ne h3 _ hk]
    · exact .of rfl (onBankRetainEntry_due h ht) ⟨setBank_bank hi .., rfl⟩
    · exact ⟨setBank_bank hi .., congrArg Host.Outcome.next (onBankWake_due h ht)⟩
  case page =>
    refine .of rfl (if_pos hd) ⟨scrubPage_clean .., fun b hb => ?_, fun k b hb h => ?_⟩
    · rw [scrubPage_byte, if_pos (by omega)]
    · rw [scrubPage_byte, if_neg (by omega)]
  case watchdog =>
    obtain ⟨p, he⟩ := onWatchdogExpiry_due hw h
    have ho : EventOnly (barked s n) ((barked s n).raise 0x0014 .warning (some n) p) := raise_only ..
    have hs : (barked s n).slot n.val = { s.slot n.val with barked := true } := setSlot_slot ..
    have hl := raise_logged (barked s n) 0x0014 .warning (some n) p
    refine .of rfl he ?_
    rw [slot_congr ho.slots, hs]
    exact ⟨rfl, rfl, ho.flow, p, hl.congr rfl rfl rfl⟩

end Sys2Proof.Machine
end

section
/-! SUPPORT. Tokens, spill and credits (05 R117, R122, R126, R134, R139; 04 R101, R103). -/
namespace Sys2Proof.Machine

/-- The token has left the mesh. -/
def flightGone (n : Nat) (u : State) : State := { u with flow := { u.flow with flights := u.flow.flights.eraseIdx n } }

theorem killDrop_rest (s : State) (f : Flight) : (s.killDrop f).flow = s.flow ∧ (s.killDrop f).slots = s.slots :=
  have hf := (s.killDrop_keeps f).frame
  ⟨hf.same (f := .flow) rfl, hf.same (f := .slots) rfl⟩

section
variable {n : Nat} {f : Flight} {s : State} (hf : s.flow.flights[n]? = some f)
  (hfirst : ∀ g ∈ s.flow.flights.take n, ¬ (g.src = f.src ∧ g.site = f.site ∧ g.ring = f.ring))
include hf hfirst

theorem onTokenArrival_ringless (h : s.rng f.site f.ring = none) (e : TokenFault) : onTokenArrival n e s = (flightGone n s).killDrop f := by
  unfold onTokenArrival
  rw [hf]
  refine (if_neg (by simpa [and_assoc] using hfirst)).trans ?_
  rw [h]
  rfl

variable {g : RingRun} (hg : s.rng f.site f.ring = some g)
include hg

theorem onTokenArrival_foreign (h : g.slot ≠ f.slot ∨ tagSlot f.tok.tag ≠ g.slot ∨ (s.slot g.slot).killing = true) (e : TokenFault) :
    onTokenArrival n e s = (flightGone n s).killDrop f := by
  unfold onTokenArrival
  rw [hf]
  refine (if_neg (by simpa [and_assoc] using hfirst)).trans ?_
  rw [hg]
  exact if_pos h

variable (h1 : g.slot = f.slot) (h2 : tagSlot f.tok.tag = g.slot) (h3 : (s.slot g.slot).killing = false)
  {m : Tmpl} {x : StRef × InPort} (hm : s.ringTmpl g = some m) (hx : s.ringPort g = some x)
include h1 h2 h3 hm hx

/-- The token of its own slot meets its ring: what becomes of it is the fault's or the landing's. -/
theorem onTokenArrival_met (e : TokenFault) : onTokenArrival n e s = match e with
    | .tagParity tag => (flightGone n s).jobFault (slotFin g.slot) 0x0013 f.site f.ring tag 0 0
    | .matchParity => (flightGone n s).jobFault (slotFin g.slot) 0x0012 f.site g.ctx 0 0 0
    | _ => match (s.land f g m (checkedToken m f.tok)).1 with
      | none => (s.land f g m (checkedToken m f.tok)).2
      | some s1 => match e with
        | .ringUe w => ((((flightGone n s1).indexAll 64 x.1).fillPanels x.1).pump f.site f.ring).sramUe (slotFin g.slot) f.site .ring w
        | _ => (((flightGone n s1).indexAll 64 x.1).fillPanels x.1).pump f.site f.ring := by
  unfold onTokenArrival
  rw [hf]
  refine (if_neg (by simpa [and_assoc] using hfirst)).trans ?_
  rw [hg]
  refine (if_neg ?_).trans ?_
  · rintro (h | h | h)
    · exact h h1
    · exact h h2
    · exact Bool.noConfusion (h3.symm.trans h)
  rw [hm, hx]
  rfl

theorem onTokenArrival_landed {u : State} (hu : (s.land f g m (checkedToken m f.tok)).1 = some u) :
    onTokenArrival n .none s = (((flightGone n u).indexAll 64 x.1).fillPanels x.1).pump f.site f.ring ∧
    ∀ w, onTokenArrival n (.ringUe w) s =
      ((((flightGone n u).indexAll 64 x.1).fillPanels x.1).pump f.site f.ring).sramUe (slotFin g.slot) f.site .ring w := by
  have h := onTokenArrival_met hf hfirst hg h1 h2 h3 hm hx
  exact ⟨(h .none).trans (by dsimp only; rw [hu]), fun w => (h (.ringUe w)).trans (by dsimp only; rw [hu])⟩

theorem onTokenArrival_waits (hu : (s.land f g m (checkedToken m f.tok)).1 = none) :
    onTokenArrival n .none s = (s.land f g m (checkedToken m f.tok)).2 :=
  (onTokenArrival_met hf hfirst hg h1 h2 h3 hm hx .none).trans (by dsimp only; rw [hu])

theorem onTokenArrival_parity (tag : Nat) :
    onTokenArrival n (.tagParity tag) s = (flightGone n s).jobFault (slotFin g.slot) 0x0013 f.site f.ring tag 0 0 :=
  onTokenArrival_met hf hfirst hg h1 h2 h3 hm hx (.tagParity tag)
end

theorem jobFault_logged (s : State) (n : Fin 8) (code loc sub a0 a1 a2 : Nat) :
    Logged code .job (some n) (genPayload loc sub a0 a1 a2) s (s.jobFault n code loc sub a0 a1 a2) :=
  (raise_logged s code .job (some n) (genPayload loc sub a0 a1 a2)).congr rfl rfl ((State.stopSlot_keeps _ n code _).frame.same (f := .ras) rfl)

section
variable {site : Fin 8192} {ring : Fin 32} {g : RingRun} {s : State} (hg : s.rng site.val ring.val = some g) (hf : g.freed ≠ 0)
include hg hf

theorem onRingCreditReturn_returns (h : g.spill = []) : onRingCreditReturn site ring s =
    (s.setRng site.val ring.val (some { g with freed := g.freed - 1, credits := g.credits + 1 })).pump site.val ring.val := by
  unfold onRingCreditReturn
  rw [hg]
  exact if_neg (by simp [hf, h])

omit hf in
theorem onRingCreditReturn_spilled {k : Spilled} {rest : List Spilled} (h : g.spill = k :: rest) : onRingCreditReturn site ring s = s := by
  unfold onRingCreditReturn
  rw [hg]
  exact if_pos (by simp [h])

/-- The banks of the oldest spilled token are accessed. -/
def spillAccess (s : State) (site : Nat) (m : Tmpl) (k : Spilled) : State × Bool :=
  s.accessBanks (m.spillSite site) ((s.spillLines (m.spillSite site) m.spill k.line k.tok.lines).map lineBank).dedup

/-- A word found uncorrectable on the way back is reported. -/
def spillSeen (bad : Option Nat) (v : State) : State := match bad with | some w => v.spadUe w | none => v

variable {k : Spilled} {rest : List Spilled} {m : Tmpl} {x : StRef × InPort} (hs : g.spill = k :: rest) (hm : s.ringTmpl g = some m)
  (hx : s.ringPort g = some x) (ce : Nat)
include hs hm hx

theorem onSpillReturn_waits (h : (spillAccess s site.val m k).2 = false) : onSpillReturn site ring ce s = (spillAccess s site.val m k).1 := by
  unfold onSpillReturn State.spillReturn
  rw [hg]
  dsimp only
  rw [hs, hm, hx]
  refine (if_neg hf).trans (if_pos ?_)
  unfold spillAccess at h
  simp [h]

theorem onSpillReturn_returns (h : (spillAccess s site.val m k).2 = true) {u : State}
    (hu : ((spillAccess s site.val m k).1.setRng site.val ring.val (some { g with spill := rest, freed := g.freed - 1 })).intoRing site.val ring.val
      { g with spill := rest, freed := g.freed - 1 } m.slots
      (if ((spillAccess s site.val m k).1.spillUe (m.spillSite site.val) m.spill k).isSome then { k.tok with pay := .error } else k.tok) = some u) :
    onSpillReturn site ring ce s = (((spillSeen ((spillAccess s site.val m k).1.spillUe (m.spillSite site.val) m.spill k)
      ((((u.bumpSite (m.spillSite site.val) 0x140 k.tok.lines).bumpSite (m.spillSite site.val) 0x100 k.tok.lines).bumpSite
        (m.spillSite site.val) 0x158 ce).ceSite (m.spillSite site.val) SramStruct.scratch.code ce)).indexAll 64 x.1).fillPanels x.1).pump
        site.val ring.val := by
  unfold spillAccess at h hu ⊢
  unfold onSpillReturn State.spillReturn
  rw [hg]
  dsimp only
  rw [hs, hm, hx]
  refine (if_neg hf).trans ((if_neg (by simp [h])).trans ?_)
  rw [hu]
  rfl
end

/-- Settles O41: the arrival's fault, or the landing where there is none, says what becomes of the token. -/
theorem tokensLand : Obligations.TokensLand := by
  unfold Obligations.TokensLand
  refine ⟨?arrival, fun site ring g s hg hf => ⟨fun h => ?credit, ?spilled⟩⟩
  case arrival =>
    intro n f s gone hf hfirst
    refine ⟨fun h e => congrArg Host.Outcome.next (onTokenArrival_ringless hf hfirst h e), fun g hg => ⟨fun h e => ?_, ?_⟩⟩
    · obtain ⟨k1, k2⟩ := killDrop_rest (flightGone n s) f
      refine .of rfl (onTokenArrival_foreign hf hfirst hg h e) ?_
      rw [k1, k2]
      exact ⟨rfl, rfl, rfl⟩
    · intro m x h1 h2 h3 hm hx y
      refine ⟨fun u hu => ?_, fun hu => ?_, fun tag h8 hs => ?_⟩
      · obtain ⟨l1, l2⟩ := onTokenArrival_landed hf hfirst hg h1 h2 h3 hm hx hu
        exact ⟨congrArg Host.Outcome.next l1, fun w => congrArg Host.Outcome.next (l2 w)⟩
      · exact congrArg Host.Outcome.next (onTokenArrival_waits hf hfirst hg h1 h2 h3 hm hx hu)
      · have hn : (slotFin g.slot).val = g.slot := Nat.mod_eq_of_lt h8
        obtain ⟨-, hstop⟩ := jobFault_slot (flightGone n s) (slotFin g.slot) 0x0013 f.site f.ring tag 0 0
        have hlog := jobFault_logged (flightGone n s) (slotFin g.slot) 0x0013 f.site f.ring tag 0 0
        rw [hn] at hstop
        exact .of rfl (onTokenArrival_parity hf hfirst hg h1 h2 h3 hm hx tag) ⟨hstop hs, hlog.congr rfl rfl rfl⟩
  case credit => exact congrArg Host.Outcome.next (onRingCreditReturn_returns hg hf h)
  case spilled =>
    intro ce k rest m x hs hm hx ms b g1 bad
    refine ⟨congrArg Host.Outcome.next (onRingCreditReturn_spilled hg hs), fun h => ?_, fun u h hu => ?_⟩
    · exact congrArg Host.Outcome.next (onSpillReturn_waits hg hf hs hm hx ce h)
    · exact congrArg Host.Outcome.next (onSpillReturn_returns hg hf hs hm hx ce h hu)

end Sys2Proof.Machine
end

section
/-! SUPPORT. Tiles and firings (05 R116 to R133; 06 R147 to R168). -/
namespace Sys2Proof.Machine

/-! ### Issue -/

/-- The walk tile of an issue, where it is padding alone and its list entry is good. -/
def padTile (s : State) (r : StRef) (e : Entry) (i : Issue) : Option (AgDesc × WalkTile) := match r.desc e, s.issueTile r e i with
  | some d, some w => if w.empty && !s.listBad r d w then some (d, w) else none
  | _, _ => none

theorem padTile_none {s : State} {r : StRef} {e : Entry} {i : Issue}
    (h : ∀ d w, r.desc e = some d → s.issueTile r e i = some w → w.empty = true → s.listBad r d w = true) : padTile s r e i = none := by
  unfold padTile
  split
  · next d w hd hw =>
    refine if_neg fun hc => ?_
    obtain ⟨hempty, hgood⟩ := Bool.and_eq_true_iff.mp hc
    rw [h d w hd hw hempty] at hgood
    cases hgood
  · rfl

section
variable {dev : Fin 8192} {r : StRef} {s : State} (hr : s.station dev.val = some r) (hl : s.live = true) (hi : (s.run r.dev).issue = none)
  (ho : s.tileOpen r = false) (hk : ¬ ((s.slot r.slot).stopped = true ∧ r.st.kind = 6))
include hr hl hi ho hk

/-- A station that may issue skips a tile or issues its first firing. -/
theorem onTileIssue_may : onTileIssue dev s = match s.skippable r with
    | some x => (s.countClamp r x.1 x.2.1 x.2.2.2.2).skipTile r x.1 x.2.1 x.2.2.1 x.2.2.2.1
    | none => match firstFiring (s.firings r) with
      | none => s
      | some f => match r.st.ents[f.entry]? with
        | none => s
        | some e => match padTile (s.countClamp r f.entry e ((s.lenTok r e f.tag).map (·.2))) r e (s.issueOf r e f) with
          | some x => (s.countClamp r f.entry e ((s.lenTok r e f.tag).map (·.2))).skipEmpty r e f x.1 x.2
          | none =>
            let i := s.issueOf r e f
            let u := s.countClamp r f.entry e ((s.lenTok r e f.tag).map (·.2))
            if !u.term4 r e f ∨ !u.term7 r e then
              ((((u.outputAll r e f.tag (i.count % 256) .error f.step).consume r e f (e.blockEnd i.step)).advance r f.entry e f.tag f.step)).jobFaultWith
                (slotFin r.slot) 0x0015 0x09 (genPayload r.dev (f.entry + 16 * (if !u.term4 r e f then 4 else 7)) f.tag 0 0)
            else u.setRun r.dev { u.run r.dev with issue := some i } := by
  unfold onTileIssue
  rw [hr]
  refine (if_neg ?_).trans rfl
  rintro (h | h | h | h)
  · simp [hi] at h
  · simp [hl] at h
  · exact Bool.noConfusion (ho.symm.trans h)
  · exact hk h

theorem onTileIssue_skips {x : Nat × Entry × Nat × Option Nat × Option Held} (hx : s.skippable r = some x) :
    onTileIssue dev s = (s.countClamp r x.1 x.2.1 x.2.2.2.2).skipTile r x.1 x.2.1 x.2.2.1 x.2.2.2.1 := by
  rw [onTileIssue_may hr hl hi ho hk, hx]

variable {f : Firing} {e : Entry} (hx : s.skippable r = none) (hf : firstFiring (s.firings r) = some f) (he : r.st.ents[f.entry]? = some e)
  {u : State} (hu : s.countClamp r f.entry e ((s.lenTok r e f.tag).map (·.2)) = u)
  (hp : ∀ d w, r.desc e = some d → u.issueTile r e (s.issueOf r e f) = some w → w.empty = true → u.listBad r d w = true)
include hx hf he hu hp

theorem onTileIssue_issues (h4 : u.term4 r e f = true) (h7 : u.term7 r e = true) :
    onTileIssue dev s = u.setRun r.dev { u.run r.dev with issue := some (s.issueOf r e f) } := by
  rw [onTileIssue_may hr hl hi ho hk, hx]
  dsimp only
  rw [hf]
  dsimp only
  rw [he]
  dsimp only
  rw [hu, padTile_none hp]
  exact if_neg (by simp [h4, h7])

theorem onTileIssue_refuses (h : u.term4 r e f = false ∨ u.term7 r e = false) : onTileIssue dev s =
    ((((u.outputAll r e f.tag ((s.issueOf r e f).count % 256) .error f.step).consume r e f (e.blockEnd (s.issueOf r e f).step)).advance r
      f.entry e f.tag f.step)).jobFaultWith (slotFin r.slot) 0x0015 0x09
        (genPayload r.dev (f.entry + 16 * (if u.term4 r e f then 7 else 4)) f.tag 0 0) := by
  have hterm : (if !u.term4 r e f then 4 else 7) = if u.term4 r e f then 7 else 4 := by cases u.term4 r e f <;> rfl
  rw [onTileIssue_may hr hl hi ho hk, hx]
  dsimp only
  rw [hf]
  dsimp only
  rw [he]
  dsimp only
  rw [hu, padTile_none hp, hterm]
  exact if_pos (by simpa using h)
end

/-! ### Firing -/

section
variable {dev : Fin 8192} {r : StRef} {i : Issue} {e : Entry} {f : Firing} {s : State} (errs : FireErrors) (hr : s.station dev.val = some r)
  (hl : s.live = true) (hi : (s.run r.dev).issue = some i) (he : r.st.ents[i.entry]? = some e) (hf : s.issued r i = some f)
  (ho : s.outputsFree r e f = true) (hh : s.fillHeld r = false) (hb : s.unitBusy r = false)
include hr hl hi he hf ho hh hb

/-- What a station that may fire does: its firing's operands, then its kind. -/
theorem onStationFire_may : onStationFire dev errs s =
    if r.errorIn e f || s.sinkSize r e f i then
      ((s.outputAll r e f.tag (i.count % 256) .error f.step).contribute r i.entry e f.tag i.step).fired r e f i 0x08
    else if s.nullFiring r e f then
      ((s.fireNull r e f i).fired r e f i 0x08).accErrors r (decide (0 < e.pe) && e.finishes r.st f) errs
    else if r.st.walks then match ((s.plantErrors r errs).fireWalk r e f i).1 with
      | some u => u.fired r e f i 0x00
      | none => (s.fireWalk r e f i).2
    else if r.st.kind = 1 then ((s.fireProduct r e f i).fired r e f i 0x00).accErrors r (!s.freshTile r e f i) errs
    else if r.st.kind = 2 then (((s.fireFused r e f i).fired r e f i 0x00).rowUe r errs).accErrors r (!s.freshTile r e f i) errs
    else if r.st.kind = 3 then
      (((s.vectorOut r e f i (r.survey.entryProg e) (s.freshTile r e f i) ((r.dataOf e f).headD [])).contribute r i.entry e f.tag i.step).fired
        r e f i 0x00).rowUe r errs
    else if r.st.kind = 4 then match r.dataOf e f with
      | [] => (s.outputAll r e f.tag (i.count % 256) .null f.step).fired r e f i 0x00
      | ds => ((s.vectorOut r e f i (r.survey.entryProg e) (s.freshTile r e f i)
          (likeRows (ds.headD []) (combine e.op (ds.map List.flatten)))).contribute r i.entry e f.tag i.step).fired r e f i 0x00
    else if r.st.kind = 5 then (s.fireUpdate r e f i).fired r e f i 0x00
    else (s.fireSelect r e f i (s.predOf r e f)).fired r e f i 0x00 := by
  unfold onStationFire
  rw [hr]
  dsimp only
  rw [hi]
  dsimp only
  rw [he, hf]
  refine (if_neg (by simp [hl, ho, hh, hb])).trans rfl

variable (hE : r.errorIn e f = false) (hS : s.sinkSize r e f i = false)
include hE hS

theorem onStationFire_null (hn : s.nullFiring r e f = true) : onStationFire dev errs s =
    ((s.fireNull r e f i).fired r e f i 0x08).accErrors r (decide (0 < e.pe) && e.finishes r.st f) errs := by
  rw [onStationFire_may errs hr hl hi he hf ho hh hb, if_neg (by simp [hE, hS]), if_pos hn]

variable (hn : s.nullFiring r e f = false)
include hn

theorem onStationFire_walks (hw : r.st.walks = true) : onStationFire dev errs s =
    match ((s.plantErrors r errs).fireWalk r e f i).1 with
      | some u => u.fired r e f i 0x00
      | none => (s.fireWalk r e f i).2 := by
  rw [onStationFire_may errs hr hl hi he hf ho hh hb, if_neg (by simp [hE, hS]), if_neg (by simp [hn]), if_pos hw]

/-- What a station that does not walk does with good operands, by its kind. -/
theorem onStationFire_works (hw : r.st.walks = false) : onStationFire dev errs s =
    if r.st.kind = 1 then ((s.fireProduct r e f i).fired r e f i 0x00).accErrors r (!s.freshTile r e f i) errs
    else if r.st.kind = 2 then (((s.fireFused r e f i).fired r e f i 0x00).rowUe r errs).accErrors r (!s.freshTile r e f i) errs
    else if r.st.kind = 3 then
      (((s.vectorOut r e f i (r.survey.entryProg e) (s.freshTile r e f i) ((r.dataOf e f).headD [])).contribute r i.entry e f.tag i.step).fired
        r e f i 0x00).rowUe r errs
    else if r.st.kind = 4 then match r.dataOf e f with
      | [] => (s.outputAll r e f.tag (i.count % 256) .null f.step).fired r e f i 0x00
      | ds => ((s.vectorOut r e f i (r.survey.entryProg e) (s.freshTile r e f i)
          (likeRows (ds.headD []) (combine e.op (ds.map List.flatten)))).contribute r i.entry e f.tag i.step).fired r e f i 0x00
    else if r.st.kind = 5 then (s.fireUpdate r e f i).fired r e f i 0x00
    else (s.fireSelect r e f i (s.predOf r e f)).fired r e f i 0x00 := by
  rw [onStationFire_may errs hr hl hi he hf ho hh hb, if_neg (by simp [hE, hS]), if_neg (by simp [hn]), if_neg (by simp [hw])]
end

/-! ### The tile's boundary -/

/-- A station's tile goes: its lines and waiting tokens are out, its Canary counts are added and its streams re-armed. -/
def tileOut (s : State) (r : StRef) : State :=
  (((s.run r.dev).waiting.foldl (fun (s : State) w => s.output r w.1 w.2) ((s.flushCoal r).setCoal r .empty)).closeCanaries r).rearmDue r

theorem onTileBoundary_open {dev : Fin 8192} {r : StRef} {s : State} (hr : s.station dev.val = some r) (ht : 0 < (s.run r.dev).tiles) :
    onTileBoundary dev s = (((tileOut s r).setRun r.dev { (tileOut s r).run r.dev with
      tiles := (s.run r.dev).tiles - 1, marks := ((tileOut s r).run r.dev).marks.drop 1, waiting := [] }).applyHeld r.st.site).pumpSpills
        r.st.site := by
  unfold onTileBoundary
  rw [hr]
  exact if_neg (by omega)

/-- The register writes that waited for a unit's boundary wait no more. -/
theorem applyHeld_none (s : State) (k : Nat) {e : Nat × Option Word} (h : e ∈ (s.applyHeld k).held) :
    ¬ (siteBase k ≤ e.1 ∧ e.1 < siteBase k + 0x800) := by
  have := (List.mem_filter.mp h).2
  simp at this
  omega

/-- Settles O42: each command's branches in their order. -/
theorem firingsAct : Obligations.FiringsAct := by
  unfold Obligations.FiringsAct
  refine ⟨?issue, ?fire, fun dev r s hr ht => ⟨congrArg Host.Outcome.next (onTileBoundary_open hr ht), fun e => applyHeld_none _ _⟩⟩
  case issue =>
    intro dev r s hr hl hi ho hk
    refine ⟨fun x hx => congrArg Host.Outcome.next (onTileIssue_skips hr hl hi ho hk hx), ?_⟩
    intro f e hx hf he i u hp
    exact ⟨fun h4 h7 => congrArg Host.Outcome.next (onTileIssue_issues hr hl hi ho hk hx hf he rfl hp h4 h7),
      fun h => congrArg Host.Outcome.next (onTileIssue_refuses hr hl hi ho hk hx hf he rfl hp h)⟩
  case fire =>
    intro dev r i e f errs s hr hl hi he hf ho hh hb
    refine ⟨fun h => congrArg Host.Outcome.next ((onStationFire_may errs hr hl hi he hf ho hh hb).trans (if_pos (by simpa using h))),
      fun hE hS => ⟨fun hn => congrArg Host.Outcome.next (onStationFire_null errs hr hl hi he hf ho hh hb hE hS hn), fun hn => ⟨fun hw => ?walks,
        fun hw => ?works⟩⟩⟩
    case walks =>
      have h := onStationFire_walks errs hr hl hi he hf ho hh hb hE hS hn hw
      exact ⟨fun u x hx => congrArg Host.Outcome.next (h.trans (by rw [hx])), fun hx => congrArg Host.Outcome.next (h.trans (by rw [hx]))⟩
    case works =>
      have h := onStationFire_works errs hr hl hi he hf ho hh hb hE hS hn hw
      refine ⟨fun hk => ?_, fun hk => ?_, fun hk => ?_, fun hk b bs hd => ?_, fun hk => ?_, fun hk => ?_⟩
      · exact congrArg Host.Outcome.next (h.trans (by rw [if_pos hk]))
      · exact congrArg Host.Outcome.next (h.trans (by rw [if_neg (by omega), if_pos hk]))
      · exact congrArg Host.Outcome.next (h.trans (by rw [if_neg (by omega), if_neg (by omega), if_pos hk]))
      · refine congrArg Host.Outcome.next (h.trans ?_)
        rw [if_neg (by omega), if_neg (by omega), if_neg (by omega), if_pos hk, hd]
        rfl
      · exact congrArg Host.Outcome.next (h.trans (by
          rw [if_neg (by omega), if_neg (by omega), if_neg (by omega), if_neg (by omega), if_pos hk]))
      · exact congrArg Host.Outcome.next (h.trans (by
          rw [if_neg (by omega), if_neg (by omega), if_neg (by omega), if_neg (by omega), if_neg (by omega)]))

end Sys2Proof.Machine
end

section
/-! SUPPORT. Gathers, reads, responses and job errors (01 R17; 08 R186 to R207; 09 R229 to R231; 14 R357). -/
namespace Sys2Proof.Machine

/-! ### Requests -/

section
variable {n : Fin 8} {layer : Nat} {kind : GatherKind} {newer : Bool} {d : Started} {step : Nat} {h : HoistTable} {l : Layer} {s : State}
  (hs : (s.stepsOf n.val)[if newer then 1 else 0]? = some (d, step)) (hh : s.layer n.val layer = some (h, l))
include hs hh

theorem onHoistGatherRequest_again (hk : kind = .forward) (hf : (s.slot n.val).fetched.contains (step, layer) = true) :
    onHoistGatherRequest n layer kind newer s = s := by
  unfold onHoistGatherRequest
  rw [hs, hh]
  exact if_pos (.inr (.inr (.inr ⟨hk, hf⟩)))

theorem onHoistGatherRequest_asks (hl : s.live = true) (ht : (s.slot n.val).stopped = false) (ho : s.ovfUsed n.val < h.ovfLen)
    (hf : kind ≠ .forward ∨ (s.slot n.val).fetched.contains (step, layer) = false) :
    onHoistGatherRequest n layer kind newer s = ((h.asks kind).filter fun y => 0 < l.rowsIn y.1).foldl (fun s y =>
      l.orders.foldl (fun s o => s.askShard n.val layer y.1 y.2 l o kind ((step + 2 ^ 32 - 1) % 2 ^ 32)) s)
      ((if kind = .forward then s.setSlot n.val { s.slot n.val with fetched := (s.slot n.val).fetched ++ [(step, layer)] } else s).beginCopies
        n.val layer (kind == .regather)) := by
  unfold onHoistGatherRequest
  rw [hs, hh]
  refine (if_neg ?_).trans rfl
  rintro (h | h | h | ⟨h1, h2⟩)
  · simp [hl] at h
  · exact Bool.noConfusion (ht.symm.trans h)
  · omega
  · rcases hf with h | h
    · exact h h1
    · exact Bool.noConfusion (h.symm.trans h2)
end

/-! ### Staging -/

/-- The chunk is free again. -/
def chunkFreed (s : State) (n chunk : Nat) : State :=
  { s with flow := { s.flow with chunks := s.flow.chunks.filter fun y => !(y.slot == n && y.chunk == chunk) } }

theorem onStagingChunkCredit_freed {n : Fin 8} {chunk : Nat} {s : State} (hl : s.live = true)
    (h : s.flow.chunks.any (fun y => y.slot == n.val && y.chunk == chunk && y.read) = true) :
    onStagingChunkCredit n chunk s = ((chunkFreed s n.val chunk).pumpStage).spillPieces n.val :=
  if_neg (by simp [hl]; simpa [and_assoc] using h)

theorem pumpStage_none {s : State} (h : s.flow.staging = []) : s.pumpStage = s := by
  unfold State.pumpStage
  rw [h]
  rfl

theorem spillPieces_none {s : State} (h : s.flow.pieces = []) (n : Nat) : s.spillPieces n = s := by
  unfold State.spillPieces
  rw [h]
  rfl

/-! ### Messages -/

section
variable {x : RxPacket} {s : State} (hj : s.jobsRun = true)
include hj

theorem onGatherReqReceive_queues (h : s.nextRx (fun k => k.ptype == .gatherReq) = some x) {n : Fin 8} (hn : s.jobSlot x.pkt.fjob = some n) :
    onGatherReqReceive s = { s.deliver x with flow := { (s.deliver x).flow with
      reads := (s.deliver x).flow.reads ++ [x.pkt.gatherRead n.val s.clk.root] } } := by
  unfold onGatherReqReceive
  simp [h, hj, hn]

theorem onGatherReqReceive_stray (h : s.nextRx (fun k => k.ptype == .gatherReq) = some x) (hn : s.jobSlot x.pkt.fjob = none) :
    onGatherReqReceive s = (s.deliver x).sendError x.pkt 1 := by
  unfold onGatherReqReceive
  simp [h, hj, hn]

theorem onFmtErrorReceive_stray (h : s.nextRx (fun k => k.ptype == .error) = some x) (hn : (s.deliver x).errorSlot x.pkt = none) :
    onFmtErrorReceive s = s.deliver x := by
  unfold onFmtErrorReceive
  simp [h, hj, hn]

/-- An ERROR of a barrier or a reduction ends no request. -/
theorem onFmtErrorReceive_remote (h : s.nextRx (fun k => k.ptype == .error) = some x) {n : Fin 8}
    (hn : (s.deliver x).errorSlot x.pkt = some n) (hc : 16 ≤ x.pkt.chan) :
    onFmtErrorReceive s = (s.deliver x).remoteError n x.pkt.src x.pkt.status := by
  unfold onFmtErrorReceive
  have : ¬ x.pkt.chan < 16 := by omega
  simp [h, hj, hn, this]

variable (h : s.nextRx (fun k => k.ptype == .gatherRsp) = some x) {q : GatherReq}
  (hq : (s.deliver x).flow.reqs.find? (fun q => q.num == leAt x.pkt.payload 0 2 && q.slot == x.pkt.rslot && q.peer == some x.pkt.src &&
    (s.deliver x).fjobOf q.slot == x.pkt.fjob) = some q)
  {t : HoistTable} {l : Layer} (hl : (s.deliver x).layer q.slot q.layer = some (t, l))
include h hq hl

/-- A response to a request of this device: its status, then its place, say what becomes of it. -/
theorem onGatherRspReceive_met : onGatherRspReceive s = if x.pkt.status ≠ 0 then (s.deliver x).gatherEnd q x.pkt.status (leAt x.pkt.payload 4 4)
    else if leAt x.pkt.payload 4 4 ≠ q.got then s.deliver x
    else ((s.deliver x).countLevels q.slot (if ((s.deliver x).nodeIndex t q.peer).isSome then 0x08 else 0x00)
      (t.levels l q.transposed (l.shardOfRow q.row) q.got (x.pkt.payload.drop 8).length)).gatherData q (x.pkt.payload.drop 8) := by
  unfold onGatherRspReceive
  rw [h]
  refine (if_neg (by simp [hj])).trans ?_
  dsimp only
  rw [hq]
  dsimp only
  rw [hl]
end

/-! ### Reads -/

theorem foundErrors_none (s : State) : s.foundErrors { ue := [] } = s := by simp [State.foundErrors, State.plantUe]

section
variable {level : Fin 4} {r : GatherRead} {s : State} (hl : s.live = true) (hr : s.flow.reads = [r]) (ha : r.awaiting = none)
  (hv : s.readLevel r = level.val)
include hl hr ha hv

/-- The only read is served, or waits. -/
theorem onGatherReadServe_only (err : HbmErrors) : onGatherReadServe level err s = match (s.foundErrors err).serve r with
    | some t => if r.bg then { t with flow := { t.flow with bgServed := tblSet (fun _ => 0) t.flow.bgServed level.val s.clk.root } } else t
    | none => s := by
  have hall : (s.flow.reads.filter fun r => r.awaiting.isNone && s.readLevel r == level.val) = [r] := by simp [hr, ha, hv]
  unfold onGatherReadServe
  rw [if_neg (by simp [hl])]
  dsimp only
  rw [hall]
  cases hb : r.bg with
  | false => cases hs : (s.foundErrors err).serve r <;> simp [hb, hs, State.bgDue]
  | true =>
    cases hd : s.bgDue level.val [r] <;> cases hs : (s.foundErrors err).serve r <;> simp [hb, hd, hs]
end

/-- The read is out of the queue. -/
def readTaken (s : State) : State := { s with flow := { s.flow with reads := [] } }

theorem serve_owner {s : State} {r : GatherRead} (hr : s.flow.reads = [r]) (hf : s.forHolder r = false) :
    s.serve r = (readTaken s).ownerServe r := by
  unfold State.serve readTaken
  rw [hr, List.erase_cons_head]
  exact if_neg (by simp [hf])

theorem verDist_self (v : Nat) : verDist v v = 0 := by
  have : (v + 2 ^ 32 - v % 2 ^ 32) % 2 ^ 32 = 0 := by omega
  unfold verDist signed
  rw [this]
  rfl

/-- Of the dataflow only the leases may differ. -/
def LeaseOnly (s t : State) : Prop := t.flow = { s.flow with leases := t.flow.leases }

theorem openLease_leaseOnly (s : State) (r : GatherRead) (h : HoistTable) (l : Layer) : LeaseOnly s (s.openLease r h l) := by
  unfold State.openLease
  dsimp only
  split <;> rfl

theorem tail_congr {s t : State} (hf : t.flow.tails = s.flow.tails) (hm : SameMemory s t) (a : Nat) : t.tail a = s.tail a := by
  unfold State.tail State.openTails
  rw [hf, hbmBytes_congr hm]

theorem badTail_none {s : State} {l : Layer} {gs : List Nat} {p : Tail → Bool} (h : ∀ g ∈ gs, p (s.tail (l.granAddr g)) = false) :
    s.badTail l gs p = none := List.find?_eq_none.mpr fun g hg => by simp [h g hg]

theorem firstUe_none {s : State} (h : s.hbm.ue = []) (a n : Nat) : s.firstUe a n = none := by
  unfold State.firstUe
  rw [h]
  exact List.find?_eq_none.mpr (by simp)

section
variable {s : State} {r : GatherRead} {h : HoistTable} {l : Layer} {u : Rule} (hh : s.layer r.slot r.layer = some (h, l))
  (hu : s.ruleOf r.slot l = some u)
include hh hu

theorem ownerServe_outside (ho : r.ownRows h l = false) : s.ownerServe r = some (s.answer r 4 0 []) := by
  unfold State.ownerServe
  simp [hh, hu, ho]

/-- The granules that hold the rows of a read. -/
def readGrans (r : GatherRead) (h : HoistTable) (l : Layer) (u : Rule) : List Nat := l.rowGrans u.rec8 (l.row0 h.shard) r.row r.rows

/-- Block scales are to be exchanged: the lines are read and the lease is open. -/
def scalesRead (s : State) (r : GatherRead) (h : HoistTable) (l : Layer) (u : Rule) : State :=
  (s.gatherLines l u.rec8 (l.row0 h.shard) r.row r.rows (readGrans r h l u)).openLease r h l

omit hh hu in
theorem scalesRead_rest (s : State) (r : GatherRead) (h : HoistTable) (l : Layer) (u : Rule) : LeaseOnly s (scalesRead s r h l u) ∧
    SameMemory s (scalesRead s r h l u) := by
  have hk := s.gatherLines_keeps l u.rec8 (l.row0 h.shard) r.row r.rows (readGrans r h l u)
  refine ⟨?_, fun a => ((State.openLease_keeps _ r h l).sameMemory rfl a).trans (hk.sameMemory rfl a)⟩
  have hf : (s.gatherLines l u.rec8 (l.row0 h.shard) r.row r.rows (readGrans r h l u)).flow = s.flow := hk.frame.same (f := .flow) rfl
  have hl := openLease_leaseOnly (s.gatherLines l u.rec8 (l.row0 h.shard) r.row r.rows (readGrans r h l u)) r h l
  unfold LeaseOnly at *
  rw [← hf]
  exact hl

/-- The read waits with its master values. -/
def scalesWait (s : State) (r : GatherRead) (h : HoistTable) (l : Layer) (u : Rule) : State :=
  let v := scalesRead s r h l u
  { v with flow := { v.flow with reads := v.flow.reads ++ [{ r with awaiting := some (s.masters l u (l.row0 h.shard) r.row r.rows), blocks := 0 }] } }

theorem ownerServe_scales (ho : r.ownRows h l = true) (ht : (s.slot r.slot).stopped = false) (hsc : l.scheme ≠ 0) (hue : s.hbm.ue = [])
    (hg : ∀ g ∈ readGrans r h l u, s.sealedAgainst r.slot (l.granAddr g) 4096 = none ∧ (s.tail (l.granAddr g)).rec8 = u.rec8 ∧
      (s.tail (l.granAddr g)).version = r.version ∧ (s.tail (l.granAddr g)).pend = r.version) :
    s.ownerServe r = some (scalesWait s r h l u) := by
  have hseal : ((readGrans r h l u).findSome? fun g => (s.sealedAgainst r.slot (l.granAddr g) 4096).map fun k => (k, l.granAddr g)) = none :=
    List.findSome?_eq_none_iff.mpr fun g hm => by rw [(hg g hm).1]; rfl
  have hunread : s.tailUe l (readGrans r h l u) = none := List.findSome?_eq_none_iff.mpr fun g _ => by
    split
    · rfl
    · exact firstUe_none hue ..
  have hkind : s.badTail l (readGrans r h l u) (fun t => t.rec8 != u.rec8) = none := badTail_none fun g hm => by simp [(hg g hm).2.1]
  have hbusy : s.badTail l (readGrans r h l u) (fun t => t.pend != t.version) = none :=
    badTail_none fun g hm => by simp [(hg g hm).2.2.1, (hg g hm).2.2.2]
  have hold : s.badTail l (readGrans r h l u) (fun t => decide (verDist r.version t.version < 0)) = none :=
    badTail_none fun g hm => by simp [(hg g hm).2.2.1, verDist_self]
  have hnew : s.badTail l (readGrans r h l u) (fun t => decide (0 < verDist r.version t.version)) = none :=
    badTail_none fun g hm => by simp [(hg g hm).2.2.1, verDist_self]
  have hrec : s.recordUe l u.rec8 (l.row0 h.shard) r.row r.rows (readGrans r h l u) = none :=
    List.findSome?_eq_none_iff.mpr fun g _ => firstUe_none hue ..
  have hcount : (readGrans r h l u).foldl (fun (s : State) g => if (s.tail (l.granAddr g)).pend != (s.tail (l.granAddr g)).version
      then s.bumpMill (chanOf (l.granAddr g)) 0x50 else s) (scalesRead s r h l u) = scalesRead s r h l u := by
    obtain ⟨h1, h2⟩ := scalesRead_rest s r h l u
    unfold LeaseOnly at h1
    have htail (a : Nat) : (scalesRead s r h l u).tail a = s.tail a := tail_congr (by rw [h1]) h2 a
    refine foldl_eq_self fun g hm => if_neg ?_
    rw [htail, (hg g hm).2.2.1, (hg g hm).2.2.2]
    simp
  unfold State.ownerServe
  rw [hh]
  simp only [Option.bind_some, hu]
  unfold readGrans at hseal hunread hkind hbusy hold hnew hrec hcount
  rw [if_neg (by simp [ho]), if_neg (by simp [ht]), hseal]
  dsimp only
  rw [hunread]
  dsimp only
  rw [hkind]
  dsimp only
  rw [hbusy, hold, hnew]
  simp only [Option.map_none, Option.isSome_none, Bool.false_eq_true, and_false, if_false, ite_self]
  rw [hrec]
  dsimp only
  unfold scalesRead readGrans at hcount
  rw [if_neg hsc, hcount]
  rfl
end

theorem scalesWait_rest (s : State) (r : GatherRead) (h : HoistTable) (l : Layer) (u : Rule) : SameMemory s (scalesWait s r h l u) ∧
    (scalesWait s r h l u).flow.reads =
      s.flow.reads ++ [{ r with awaiting := some (s.masters l u (l.row0 h.shard) r.row r.rows), blocks := 0 }] := by
  obtain ⟨h1, h2⟩ := scalesRead_rest s r h l u
  unfold LeaseOnly at h1
  have hr : (scalesRead s r h l u).flow.reads = s.flow.reads := by rw [h1]
  refine ⟨h2, ?_⟩
  unfold scalesWait
  dsimp only
  rw [hr]

theorem readTaken_masters (s : State) (l : Layer) (u : Rule) (row0 row rows : Nat) :
    (readTaken s).masters l u row0 row rows = s.masters l u row0 row rows := rfl

/-! ### Block scales -/

section
variable {r : GatherRead} {vals : List (Nat × Word)} {h : HoistTable} {l : Layer} {u : Rule} {s : State} (hl : s.live = true)
  (hf : s.flow.reads.find? (fun r => r.awaiting.isSome) = some r) (ha : r.awaiting = some vals) (hh : s.layer r.slot r.layer = some (h, l))
  (hu : s.ruleOf r.slot l = some u)
include hl hf ha hh hu

theorem onAmaxExchange_met : onAmaxExchange s =
    if r.blocks + max 1 (r.heldBlocks h l u (r.blockCount l - r.blocks) r.blocks []) < r.blockCount l then
      { s with flow := { s.flow with reads :=
        { r with blocks := r.blocks + max 1 (r.heldBlocks h l u (r.blockCount l - r.blocks) r.blocks []) } :: s.flow.reads.erase r } }
    else ({ s with flow := { s.flow with reads := s.flow.reads.erase r } } : State).emitCopy r h l u vals := by
  unfold onAmaxExchange
  rw [hf]
  refine (if_neg (by simp [hl])).trans ?_
  rw [ha, hh]
  simp only [Option.bind_some, hu]
end

/-! ### Layer tables -/

/-- The table is given up: its check is over and its slot has none. -/
def tableDropped (s : State) (n : Nat) : State := (s.setSlot n { s.slot n with checking := false, hoist := none }).setRf (jobBase n + 0x38) 0 1 0

section
variable {n : Fin 8} {s : State} (err : HbmErrors) (hc : (s.slot n.val).checking = true) (hl : s.live = true)
include hc hl

theorem onHoistTableCheckComplete_met : onHoistTableCheckComplete n err s =
    match (s.foundErrors err).spansSealed n.val ((s.foundErrors err).tableSpans n.val),
      (s.foundErrors err).spansUe ((s.foundErrors err).tableSpans n.val) with
    | some k, _ => (tableDropped (s.foundErrors err) n.val).sealStop n.val k.1 k.2
    | none, some l => (tableDropped (s.foundErrors err) n.val).hbmUe l 2
    | none, none => ((s.foundErrors err).spansRead ((s.foundErrors err).tableSpans n.val)).endTableCheck n.val := by
  unfold onHoistTableCheckComplete
  exact (if_neg (by simp [hc, hl])).trans rfl
end

/-- Settles O45: each command takes its message or read and goes on by its first branch that applies. -/
theorem gathersMove : Obligations.GathersMove := by
  unfold Obligations.GathersMove
  refine ⟨?request, ?chunk, fun x s h hj => ⟨fun n hn => ?_, fun hn => ?_⟩, ?read, ?amax, ?response, ?table, fun x s h hj => ⟨fun hn => ?_,
    fun n hn hc => ?_⟩⟩
  case request =>
    intro n layer kind newer d step h l s x hs hh hl ht ho
    exact ⟨fun hk hf => congrArg Host.Outcome.next (onHoistGatherRequest_again hs hh hk hf),
      fun hf => congrArg Host.Outcome.next (onHoistGatherRequest_asks hs hh hl ht ho hf)⟩
  case chunk =>
    intro n chunk s hl h
    have he := onStagingChunkCredit_freed hl h
    refine ⟨fun h1 h2 => ?_, congrArg Host.Outcome.next he⟩
    rw [pumpStage_none (s := chunkFreed s n.val chunk) h1, spillPieces_none (s := chunkFreed s n.val chunk) h2] at he
    exact .of rfl he ⟨rfl, rfl⟩
  · exact .of rfl (onGatherReqReceive_queues hj h hn) rfl
  · exact congrArg Host.Outcome.next (onGatherReqReceive_stray hj h hn)
  case read =>
    intro level err r s hl hr ha hv
    have hserve := onGatherReadServe_only hl hr ha hv
    refine ⟨fun t ht hb => congrArg Host.Outcome.next ((hserve err).trans (by rw [ht]; exact if_neg (by simp [hb]))),
      fun ht => congrArg Host.Outcome.next ((hserve err).trans (by rw [ht])), ?_⟩
    intro h l u hf hh hu gs
    have hclean := hserve { ue := [] }
    rw [foundErrors_none, serve_owner hr hf] at hclean
    refine ⟨fun ho hb => ?_, fun ho ht hsc hue hg => ?_⟩
    · rw [ownerServe_outside (s := readTaken s) hh hu ho] at hclean
      exact congrArg Host.Outcome.next (hclean.trans (if_neg (by simp [hb])))
    · obtain ⟨w1, w2⟩ := scalesWait_rest (readTaken s) r h l u
      rw [ownerServe_scales (s := readTaken s) hh hu ho ht hsc hue hg] at hclean
      rw [readTaken_masters] at w2
      dsimp only at hclean
      by_cases hb : r.bg = true
      · exact .of rfl (hclean.trans (if_pos hb)) ⟨w1, w2⟩
      · exact .of rfl (hclean.trans (if_neg hb)) ⟨w1, w2⟩
  case amax =>
    intro r vals h l u s hl hf ha hh hu rest n
    have he := onAmaxExchange_met hl hf ha hh hu
    exact ⟨fun hn => congrArg Host.Outcome.next (he.trans (if_pos hn)), fun hn => congrArg Host.Outcome.next (he.trans (if_neg (by omega)))⟩
  case response =>
    intro x q t l s k d h hj hq hl
    have he := onGatherRspReceive_met hj h hq hl
    refine ⟨fun hs => congrArg Host.Outcome.next (he.trans (if_pos hs)), fun hs hg => ?_, fun hs hg => ?_⟩
    · exact congrArg Host.Outcome.next (he.trans ((if_neg (not_not.mpr hs)).trans (if_pos hg)))
    · exact congrArg Host.Outcome.next (he.trans ((if_neg (not_not.mpr hs)).trans (if_neg (not_not.mpr hg))))
  case table =>
    intro n err s hc hl u xs v
    have he := onHoistTableCheckComplete_met err hc hl
    refine ⟨fun k hk => congrArg Host.Outcome.next (he.trans (by rw [hk]; rfl)), fun l hk hx => congrArg Host.Outcome.next (he.trans (by rw [hk, hx]; rfl)),
      fun hk hx => congrArg Host.Outcome.next (he.trans (by rw [hk, hx]))⟩
  · exact congrArg Host.Outcome.next (onFmtErrorReceive_stray hj h hn)
  · exact congrArg Host.Outcome.next (onFmtErrorReceive_remote hj h hn hc)

end Sys2Proof.Machine
end

section
/-! SUPPORT. Collectives (14 R361 to R365). -/
namespace Sys2Proof.Machine

/-! ### Stores -/

theorem hbmWrite_byte (s : State) (a : Nat) (bs : List Byte) (b : Nat) :
    (s.hbmWrite a bs).hbmByte b = if a ≤ b ∧ b < a + bs.length then bs.getD (b - a) 0 else s.hbmByte b := by
  have ht : SameMemory (s.putBytes a bs) ((linesOf a bs.length).foldl (fun s l => s.touchLine true l) (s.putBytes a bs)) :=
    (Keeps.foldl _ _ _ _ (fun s l => s.touchLine_keeps true l) (Keeps.refl _)).sameMemory rfl
  exact (ht b).trans (putBytes_byte bs s a b)

/-- A store to lines without an uncorrectable error writes. -/
theorem hbmStore_clean {s : State} {a : Nat} {bs : List Byte} (h : s.firstUe a bs.length = none) : s.hbmStore a bs = s.hbmWrite a bs := by
  have hn : ((linesOf a bs.length).find? fun l => s.hbm.ue.contains l && !(wholeLines a bs.length).contains l) = none := by
    refine List.find?_eq_none.mpr fun l hl => ?_
    have := List.find?_eq_none.mp h l hl
    simp_all
  unfold State.hbmStore
  rw [hn]

theorem firstUe_congr {s t : State} (h : t.hbm = s.hbm) (a n : Nat) : t.firstUe a n = s.firstUe a n := by
  unfold State.firstUe
  rw [h]

theorem wordAt_leBytes {b : List Byte} {i : Nat} {w : Word} (h : ∀ j < 4, b.getD (i + j) 0 = (leBytes 4 w.toNat).getD j 0) : wordAt b i = w := by
  have h0 := h 0 (by decide)
  have h1 := h 1 (by decide)
  have h2 := h 2 (by decide)
  have h3 := h 3 (by decide)
  simp only [leBytes, List.getD_cons_zero, List.getD_cons_succ, Nat.add_zero] at h0 h1 h2 h3
  have hw := w.isLt
  refine BitVec.eq_of_toNat_eq ?_
  simp only [wordAt, leAt, byteAt, h0, h1, h2, h3, Nat.add_assoc, Nat.reduceAdd, BitVec.toNat_ofNat]
  omega

/-- The words of a run as bytes. -/
def wordBytes (l : List Word) : List Byte := (l.map fun w => leBytes 4 w.toNat).flatten

theorem wordBytes_length (l : List Word) : (wordBytes l).length = 4 * l.length := by
  induction l with
  | nil => rfl
  | cons w l ih => simp only [wordBytes, List.map_cons, List.flatten_cons, List.length_append, List.length_cons] at ih ⊢; rw [ih]; simp [leBytes]; omega

theorem wordBytes_getD (l : List Word) {i j : Nat} {w : Word} (h : l[i]? = some w) (hj : j < 4) :
    (wordBytes l).getD (4 * i + j) 0 = (leBytes 4 w.toNat).getD j 0 := by
  induction l generalizing i with
  | nil => simp at h
  | cons x l ih =>
    have hx : (leBytes 4 x.toNat).length = 4 := rfl
    cases i with
    | zero =>
      obtain rfl : x = w := by simpa using h
      rw [Nat.mul_zero, Nat.zero_add]
      exact List.getD_append (leBytes 4 x.toNat) _ _ _ (hj.trans_eq hx.symm)
    | succ i =>
      refine (List.getD_append_right _ _ _ _ (by rw [hx]; omega)).trans ?_
      rw [hx, show 4 * (i + 1) + j - 4 = 4 * i + j by omega]
      exact ih (by simpa using h)

/-- What a store of a run's words leaves in memory. -/
theorem hbmWrite_words (s : State) (a : Nat) (l : List Word) :
    (∀ i w, l[i]? = some w → wordAt ((s.hbmWrite a (wordBytes l)).hbmBytes a (4 * l.length)) (4 * i) = w) ∧
    ∀ b, b < a ∨ a + 4 * l.length ≤ b → (s.hbmWrite a (wordBytes l)).hbmByte b = s.hbmByte b := by
  refine ⟨fun i w h => wordAt_leBytes fun j hj => ?_, fun b hb => ?_⟩
  · have hi : i < l.length := (List.getElem?_eq_some_iff.mp h).1
    rw [hbmBytes_getD _ _ _ (by omega), hbmWrite_byte, wordBytes_length, if_pos (by omega), show a + (4 * i + j) - a = 4 * i + j by omega]
    exact wordBytes_getD l h hj
  · rw [hbmWrite_byte, wordBytes_length, if_neg (by omega)]

/-! ### Mismatches -/

theorem setMisses_misses (s : State) (src : Option Nat) (chan seq : Nat) {n : Nat} (h : n ≠ 0) :
    (s.setMisses src chan seq n).misses src chan seq = n := by
  unfold State.setMisses State.misses
  simp [h]

theorem misses_congr {s t : State} (h : t.flow.retries = s.flow.retries) (src : Option Nat) (chan seq : Nat) :
    t.misses src chan seq = s.misses src chan seq := by
  unfold State.misses
  rw [h]

/-- A mismatch is logged and changes nothing of the dataflow. -/
theorem redMiss_logged (s : State) (c sender seq : Nat) :
    Logged 0x005B .corrected none (genPayload c 0 sender seq 0) s (s.redMiss c sender seq) ∧ (s.redMiss c sender seq).flow = s.flow ∧
    (s.redMiss c sender seq).slots = s.slots := by
  have hb := (State.bumpFab_keeps s 0x168 1).frame
  have hl := raise_logged (s.bumpFab 0x168) 0x005B .corrected none (genPayload c 0 sender seq 0)
  exact ⟨hl.congr (hb.same (f := .ras) rfl).symm (hb.same (f := .clk) rfl).symm rfl, (ev_only ..).flow.trans (hb.same (f := .flow) rfl),
    (ev_only ..).slots.trans (hb.same (f := .slots) rfl)⟩

/-- A job fault after the log has grown is raised, and leaves the slot's job stopped. -/
theorem LogGrown.jobFault_raised {s u : State} (h : LogGrown s u) (n : Fin 8) (code loc sub a0 a1 a2 : Nat) :
    Raised code s (u.jobFault n code loc sub a0 a1 a2) :=
  (h.raised code .job (some n) (genPayload loc sub a0 a1 a2)).grown (.of_keeps (State.stopSlot_keeps _ n code stJobFault) rfl)

theorem jobFault_grown (u : State) (n : Fin 8) (code loc sub a0 a1 a2 : Nat) : LogGrown u (u.jobFault n code loc sub a0 a1 a2) :=
  (LogGrown.of_keeps (State.stopSlot_keeps _ n code stJobFault) rfl).after (.raise u code .job (some n) (genPayload loc sub a0 a1 a2))

theorem redFatal_eq (s : State) (n : Fin 8) (c sender seq : Nat) :
    s.redFatal n.val c sender seq = (s.redMiss c sender seq).jobFault n 0x005C c 0 sender seq 0 := by
  have hn : Fin.ofNat 8 n.val = n := Fin.ext (Nat.mod_eq_of_lt n.isLt)
  unfold State.redFatal
  rw [hn]

theorem redFatal_raised (s : State) (n : Fin 8) (c sender seq : Nat) (h : (s.slot n.val).survey.isSome = true) :
    ((s.redFatal n.val c sender seq).slot n.val).stopped = true ∧ Raised 0x005B s (s.redFatal n.val c sender seq) ∧
    Raised 0x005C s (s.redFatal n.val c sender seq) := by
  obtain ⟨hlog, hflow, hslots⟩ := redMiss_logged s c sender seq
  have hb : LogGrown s (s.bumpFab 0x168) := .of_keeps (State.bumpFab_keeps ..) rfl
  have hm : Raised 0x005B s (s.redMiss c sender seq) := hb.raised 0x005B .corrected none (genPayload c 0 sender seq 0)
  have hg : LogGrown s (s.redMiss c sender seq) := (LogGrown.ev _ 0x005B .corrected c 0 sender seq 0).after hb
  rw [redFatal_eq]
  generalize s.redMiss c sender seq = u at hslots hm hg
  exact ⟨(jobFault_slot ..).2 (by rwa [slot_congr hslots]), hm.grown (jobFault_grown ..), hg.jobFault_raised ..⟩

/-! ### Contributions -/

/-- The run of a contribution that goes straight to its Mill, numbered within the shard. -/
def straightRun (s : State) (r : Run) : Run := { r with run := match s.layer r.slot r.layer with
  | some (h, l) => if l.allRuns ≤ r.run then 2 ^ 32 - 1 else l.ownRun h.shard r.run
  | none => r.run }

/-- A contribution as it enters a context of this device. -/
def contribIn (k : Contribution) (r : Run) : RedIn :=
  { shard := k.shard, run := k.layer.ownRun k.shard r.run, step := k.step, cnt := 1, vals := widen16 r.bf16 r.vals }

section
variable {r : Run} {s : State} (hx : (s.slot r.slot).stopped = false)
include hx

theorem contribOne_straight (hk : s.contribution r = none) (hm : s.millRoom (s.millOf (straightRun s r)) = true) (fault : Bool) :
    s.contribOne fault r =
      some { s with flow := { s.flow with contribs := s.flow.contribs.erase r, dispatch := s.flow.dispatch ++ [straightRun s r] } } := by
  unfold State.contribOne
  refine (if_neg (by simp [hx])).trans ?_
  rw [hk]
  exact if_pos hm

variable {k : Contribution} (hk : s.contribution r = some k)
include hk

theorem contribOne_away (h : k.shard % k.table.nd ≠ k.table.myDev) (fault : Bool) : s.contribOne fault r =
    some ((s.sentOne r k.id).sendRed (k.table.peer k.table.myNode (k.shard % k.table.nd)) (s.fjobOf r.slot) k.id r.layer
      (k.layer.ownRun k.shard r.run) k.step 1 r.bf16 r.vals) := by
  unfold State.contribOne
  refine (if_neg (by simp [hx])).trans ?_
  rw [hk]
  exact if_neg h

theorem contribOne_local (h : k.shard % k.table.nd = k.table.myDev) (fault : Bool) : s.contribOne fault r = s.contribLocal fault r k := by
  unfold State.contribOne
  refine (if_neg (by simp [hx])).trans ?_
  rw [hk]
  exact if_pos h
end

section
variable {r : Run} {s : State} {k : Contribution} {c : Nat × SluiceCtx} (hc : s.redCtx r.slot (s.fjobOf r.slot) k.id = some c)
  (hm : s.redRoom c [contribIn k r] = true)
include hc hm

theorem contribLocal_adds : s.contribLocal false r k = some ((((s.sentOne r k.id).setMisses none r.slot 0 0).setSluice c.1 (some c.2)).redRun
    c.1 k.id k.col.op k.col.layer k.table k.layer (contribIn k r)) := by
  unfold State.contribLocal
  dsimp only
  rw [hc]
  exact if_neg (by simpa [contribIn] using hm)

theorem contribLocal_misses (h : s.misses none r.slot 0 ≠ 3) :
    s.contribLocal true r k = some ((s.setMisses none r.slot 0 (s.misses none r.slot 0 + 1)).redMiss c.1 s.myAddr 0) := by
  unfold State.contribLocal
  dsimp only
  rw [hc]
  refine (if_neg (by simpa [contribIn] using hm)).trans ?_
  exact (if_pos rfl).trans (if_neg h)
end

theorem onSluiceContribution_only {fault : Bool} {r : Run} {s t : State} (hl : s.live = true) (hr : s.contribHeads = [r])
    (h : s.contribOne fault r = some t) : onSluiceContribution fault s = t := by
  unfold onSluiceContribution
  refine (if_neg (by simp [hl])).trans ?_
  simp [hr, h]

/-! ### RED packets -/

theorem onRedReceive_only {r : RxPacket} {s t : State} (hj : s.jobsRun = true) (hr : s.redNext = [r]) (h : s.redTake false r = some t) :
    onRedReceive false s = t := by
  unfold onRedReceive
  refine (if_neg (by simp [hj])).trans ?_
  simp [hr, h]

section
variable {r : RxPacket} {s : State}

theorem redTake_stray (h : s.jobSlot r.pkt.fjob = none) : s.redTake false r = some ((s.deliver r).sendError r.pkt 1) := by
  unfold State.redTake
  dsimp only
  rw [h]

variable {n : Fin 8} (hn : s.jobSlot r.pkt.fjob = some n)
include hn

theorem redTake_untargeted (h : s.redTarget n.val r.pkt = none) : s.redTake false r = some ((s.deliver r).sendError r.pkt 4) := by
  unfold State.redTake
  dsimp only
  rw [hn]
  dsimp only
  rw [h]

theorem redTake_malformed (h : redOk r.pkt.payload = false) : s.redTake false r = some ((s.deliver r).sendError r.pkt 4) := by
  cases ht : s.redTarget n.val r.pkt with
  | none => exact redTake_untargeted hn ht
  | some x =>
    unfold State.redTake
    dsimp only
    rw [hn]
    dsimp only
    rw [ht]
    exact if_pos (.inl (by rw [h]; rfl))

variable {e : Collective} {h : HoistTable} {l : Layer} {c : Nat × SluiceCtx} (ht : s.redTarget n.val r.pkt = some (e, h, l))
  (hok : redOk r.pkt.payload = true) (hruns : ∀ y ∈ s.redIns h r.pkt, y.run < l.runs y.shard)
  (hc : s.redCtx n.val r.pkt.fjob r.pkt.xid = some c) (hm : s.redRoom c (s.redIns h r.pkt) = true)
include ht hok hruns hc hm

theorem redTake_checked : s.redTake false r = if redResidues r.pkt.payload = false then
      (if s.misses (some r.pkt.src) r.pkt.chan r.pkt.seq = 3 then none else some (((s.dropRx r).setMisses (some r.pkt.src) r.pkt.chan r.pkt.seq
        (s.misses (some r.pkt.src) r.pkt.chan r.pkt.seq + 1)).redMiss c.1 r.pkt.src r.pkt.seq))
    else some ((s.redIns h r.pkt).foldl (fun s y => if (s.slot n.val).stopped then s else s.redRun c.1 r.pkt.xid e.op e.layer h l y)
      (((s.deliver r).setMisses (some r.pkt.src) r.pkt.chan r.pkt.seq 0).setSluice c.1 (some c.2))) := by
  have hok' : ¬ ((!redOk r.pkt.payload) = true ∨ (s.redIns h r.pkt).any (fun y => l.runs y.shard ≤ y.run) = true) := by
    simpa [hok] using hruns
  unfold State.redTake
  dsimp only
  rw [hn]
  dsimp only
  rw [ht]
  refine (if_neg hok').trans ?_
  rw [hc]
  refine (if_neg (by simp [hm])).trans ?_
  simp
end

/-! ### The fourth mismatch -/

theorem onSluiceResidueFatal_packet {r : RxPacket} {n : Fin 8} {s : State} (hl : s.live = true)
    (hr : s.redNext.find? (fun r => s.misses (some r.pkt.src) r.pkt.chan r.pkt.seq == 3) = some r) (hn : s.jobSlot r.pkt.fjob = some n) :
    ∃ c, onSluiceResidueFatal false s =
      ((((s.deliver r).setMisses (some r.pkt.src) r.pkt.chan r.pkt.seq 0)).redFatal n.val c r.pkt.src r.pkt.seq).sendError r.pkt 6 := by
  unfold onSluiceResidueFatal
  simp only [hl, hr, hn, Bool.not_true, Bool.false_eq_true, if_false]
  exact ⟨_, rfl⟩

theorem onSluiceResidueFatal_own {r : Run} {s : State} (hl : s.live = true)
    (hr : s.contribHeads.find? (fun r => s.misses none r.slot 0 == 3) = some r) :
    ∃ c, onSluiceResidueFatal true s = (({ s with flow := { s.flow with contribs := s.flow.contribs.erase r } } : State).setMisses none r.slot 0
      0).redFatal r.slot c s.myAddr 0 := by
  unfold onSluiceResidueFatal
  simp only [hl, hr, Bool.not_true, Bool.false_eq_true, if_false, if_true]
  exact ⟨_, rfl⟩

/-! ### Delivery -/

section
variable {c : Fin 64} {x : SluiceCtx} {z : RedSlot} {rest : List RedSlot} {e : Nat × Collective} {h : HoistTable} {l : Layer} {s : State}

/-- The state once the oldest complete run of a context is taken out. -/
def runTaken (c : Nat) (x : SluiceCtx) (rest : List RedSlot) (h : HoistTable) (l : Layer) (step : Nat) (s : State) : State :=
  (s.setSluice c (({ x with ready := rest } : SluiceCtx).settle h l step)).progress x.slot

theorem runTaken_keeps (c : Nat) (x : SluiceCtx) (rest : List RedSlot) (h : HoistTable) (l : Layer) (step : Nat) (s : State) :
    Keeps 0x3004 s (runTaken c x rest h l step s) :=
  (State.progress_keeps ..).after ((State.setSluice_keeps ..).mono rfl) rfl

theorem runTaken_flow (c : Nat) (x : SluiceCtx) (rest : List RedSlot) (h : HoistTable) (l : Layer) (step : Nat) (s : State) :
    (runTaken c x rest h l step s).flow = (s.setSluice c (({ x with ready := rest } : SluiceCtx).settle h l step)).flow :=
  (State.progress_keeps ..).frame.same (f := .flow) rfl

theorem progress_slot_of_ne {s : State} {n m : Nat} (h : m ≠ n) : (s.progress n).slot m = s.slot m := by
  unfold State.progress
  split
  · rfl
  · exact setSlot_slot_of_ne h

/-- The run that a complete slot gives its Mill. -/
def runOut (x : SluiceCtx) (z : RedSlot) (e : Nat × Collective) : Run :=
  { run := z.run, step := z.step, layer := e.2.layer, slot := x.slot, bf16 := false, vals := wordBytes z.vals }

variable (hx : s.sluice c.val = some x) (hr : x.ready = z :: rest) (he : (s.slot x.slot).sluice.find? (fun e => e.1 == x.id) = some e)
  (hh : s.layer x.slot e.2.layer = some (h, l)) (hl : s.live = true) (hs : (s.slot x.slot).stopped = false)
include hx hr he hh hl hs

theorem onRunDelivery_memory (hm : e.2.hbm = true) (hsl : s.sealedAgainst x.slot (e.2.dst + 64 * z.run) 64 = none) :
    onRunDelivery c s = (runTaken c.val x rest h l z.step s).hbmStore (e.2.dst + 64 * z.run) (wordBytes z.vals) := by
  unfold onRunDelivery
  rw [hx]
  dsimp only
  rw [hr]
  dsimp only
  rw [he]
  dsimp only
  rw [hh]
  refine (if_neg (by simp [hl, hs])).trans ((if_pos hm).trans ?_)
  rw [hsl]
  rfl

theorem onRunDelivery_mill (hm : e.2.hbm = false) (hroom : s.millRoom (s.millOf (runOut x z e)) = true) :
    onRunDelivery c s = { runTaken c.val x rest h l z.step s with
      flow := { (runTaken c.val x rest h l z.step s).flow with
        dispatch := (runTaken c.val x rest h l z.step s).flow.dispatch ++ [runOut x z e] } } := by
  unfold onRunDelivery
  rw [hx]
  dsimp only
  rw [hr]
  dsimp only
  rw [he]
  dsimp only
  rw [hh]
  refine (if_neg (by simp [hl, hs])).trans ((if_neg (by simp [hm])).trans ?_)
  exact if_neg (by simpa [runOut, wordBytes] using hroom)
end

/-! ### O48 -/

theorem redMissed (s : State) (r : RxPacket) (m c : Nat) (k : Packet) :
    let t := ((s.dropRx r).setMisses (some k.src) k.chan k.seq (m + 1)).redMiss c k.src k.seq
    t.misses (some k.src) k.chan k.seq = m + 1 ∧ t.flow.sluices = s.flow.sluices ∧
    Logged 0x005B .corrected none (genPayload c 0 k.src k.seq 0) s t := by
  obtain ⟨hlog, hflow, -⟩ := redMiss_logged ((s.dropRx r).setMisses (some k.src) k.chan k.seq (m + 1)) c k.src k.seq
  exact ⟨(misses_congr (congrArg FlowState.retries hflow) ..).trans (setMisses_misses _ _ _ _ (Nat.succ_ne_zero m)),
    (congrArg FlowState.sluices hflow).trans rfl, hlog.congr rfl rfl rfl⟩

theorem redFatal_contribs (s : State) (n : Fin 8) (c sender seq : Nat) : (s.redFatal n.val c sender seq).flow.contribs = s.flow.contribs := by
  obtain ⟨-, hflow, -⟩ := redMiss_logged s c sender seq
  have hj : SluiceFrame _ _ := jobFault_sluice (s.redMiss c sender seq) n 0x005C c 0 sender seq 0
  rw [redFatal_eq, hj]
  exact (congrArg FlowState.contribs hflow :)

/-- The fourth mismatch of a local contribution, which leaves the input buffer. -/
theorem ownFatal (s : State) (r : Run) (n : Fin 8) (c sender : Nat) (h : (s.slot n.val).survey.isSome = true) :
    let t := (({ s with flow := { s.flow with contribs := s.flow.contribs.erase r } } : State).setMisses none n.val 0 0).redFatal n.val c sender 0
    (t.slot n.val).stopped = true ∧ Raised 0x005B s t ∧ Raised 0x005C s t ∧ t.flow.contribs = s.flow.contribs.erase r := by
  have hg : LogGrown s (({ s with flow := { s.flow with contribs := s.flow.contribs.erase r } } : State).setMisses none n.val 0 0) := .of_log rfl
  have hc : (({ s with flow := { s.flow with contribs := s.flow.contribs.erase r } } : State).setMisses none n.val 0 0).flow.contribs =
    s.flow.contribs.erase r := rfl
  have hsl : (({ s with flow := { s.flow with contribs := s.flow.contribs.erase r } } : State).setMisses none n.val 0 0).slots = s.slots := rfl
  generalize ({ s with flow := { s.flow with contribs := s.flow.contribs.erase r } } : State).setMisses none n.val 0 0 = u at hg hc hsl
  obtain ⟨h1, h2, h3⟩ := redFatal_raised u n c sender 0 (by rwa [slot_congr hsl])
  exact ⟨h1, hg.raised_trans h2, hg.raised_trans h3, (redFatal_contribs u n c sender 0).trans hc⟩

/-- Settles O48: contributions, RED packets, the fourth mismatch and the deliveries. -/
theorem collectivesMove : Obligations.CollectivesMove := by
  unfold Obligations.CollectivesMove
  refine ⟨fun fault r s hl hr hx => ⟨fun hk => ?straight, fun k hk => ⟨fun h => ?_, fun h c hc => ?into⟩⟩,
    fun r s hj hr => ?received,
    fun r n s hl hs hr hn => ?packet, fun r s hl h8 hs hr => ?own,
    fun c x z rest e h l s hx hr he hh hl hs => ⟨fun hm hsl hz hu => ?memory, fun hm r hr1 hroom => ?mill⟩⟩
  case straight =>
    intro r1 hm
    exact .of rfl (onSluiceContribution_only hl hr (contribOne_straight hx hk hm fault)) ⟨rfl, rfl, rfl⟩
  · exact congrArg Host.Outcome.next (onSluiceContribution_only hl hr (contribOne_away hx hk h fault))
  case into =>
    intro y
    exact ⟨fun hm => congrArg Host.Outcome.next (onSluiceContribution_only hl hr ((contribOne_local hx hk h false).trans (contribLocal_adds hc hm))),
      fun hm h3 => congrArg Host.Outcome.next
        (onSluiceContribution_only hl hr ((contribOne_local hx hk h true).trans (contribLocal_misses hc hm h3)))⟩
  case received =>
    intro k
    refine ⟨fun h => ?_, fun n hn => ⟨fun h => ?_, fun e h l c ht hok hruns hc hm => ⟨fun hres => ?_, fun hres h3 => ?_⟩⟩⟩
    · exact congrArg Host.Outcome.next (onRedReceive_only hj hr (redTake_stray h))
    · exact congrArg Host.Outcome.next (onRedReceive_only hj hr (h.elim (redTake_untargeted hn) (redTake_malformed hn)))
    · exact congrArg Host.Outcome.next (onRedReceive_only hj hr ((redTake_checked hn ht hok hruns hc hm).trans (if_neg (by simp [k, hres]))))
    · have hmiss := (redTake_checked hn ht hok hruns hc hm).trans ((if_pos hres).trans (if_neg (Nat.ne_of_lt h3)))
      exact .of rfl (onRedReceive_only hj hr hmiss) (redMissed s r (s.misses (some k.src) k.chan k.seq) c.1 k)
  case packet =>
    obtain ⟨c, hf⟩ := onSluiceResidueFatal_packet hl hr hn
    have hd : LogGrown s (s.deliver r) := .of_keeps (s.deliver_keeps r) rfl
    have hd' : LogGrown s ((s.deliver r).setMisses (some r.pkt.src) r.pkt.chan r.pkt.seq 0) := .after (.of_keeps (State.setMisses_keeps ..) rfl) hd
    have hsl : ((s.deliver r).setMisses (some r.pkt.src) r.pkt.chan r.pkt.seq 0).slots = s.slots := deliver_slots s r
    generalize (s.deliver r).setMisses (some r.pkt.src) r.pkt.chan r.pkt.seq 0 = u at hf hd' hsl
    obtain ⟨h1, h2, h3⟩ := redFatal_raised u n c r.pkt.src r.pkt.seq (by rwa [slot_congr hsl])
    generalize u.redFatal n.val c r.pkt.src r.pkt.seq = v at hf h1 h2 h3
    have he := State.sendError_keeps v r.pkt 6
    refine .of rfl hf ⟨?_, ?_, ?_⟩
    · rwa [slot_congr (he.frame.same (f := .slots) rfl)]
    · exact (hd'.raised_trans h2).grown (.of_keeps he rfl)
    · exact (hd'.raised_trans h3).grown (.of_keeps he rfl)
  case own =>
    obtain ⟨c, hf⟩ := onSluiceResidueFatal_own hl hr
    refine .of rfl hf ?_
    exact ownFatal s r ⟨r.slot, h8⟩ c s.myAddr hs
  case memory =>
    have hlen : (wordBytes z.vals).length = 64 := by rw [wordBytes_length, hz]
    have hk := runTaken_keeps c.val x rest h l z.step s
    have hsm := hk.sameMemory rfl
    have hsn : ∀ n, n ≠ x.slot → (runTaken c.val x rest h l z.step s).slot n = s.slot n := fun n hn => progress_slot_of_ne hn
    have heq := onRunDelivery_memory hx hr he hh hl hs hm hsl
    have huc := (firstUe_congr (hk.frame.same (f := .hbm) rfl) (e.2.dst + 64 * z.run) 64).trans hu
    generalize runTaken c.val x rest h l z.step s = u at hk hsm hsn heq huc
    rw [hbmStore_clean (by rwa [hlen])] at heq
    obtain ⟨h1, h2⟩ := hbmWrite_words u (e.2.dst + 64 * z.run) z.vals
    rw [hz] at h1 h2
    have hw := State.hbmWrite_keeps u (e.2.dst + 64 * z.run) (wordBytes z.vals)
    refine .of rfl heq ⟨h1, fun b hb => (h2 b hb).trans (hsm b), fun n hn => ?_⟩
    exact (slot_congr (hw.frame.same (f := .slots) rfl) n).trans (hsn n hn)
  case mill =>
    obtain rfl : r = runOut x z e := hr1
    have hk := runTaken_keeps c.val x rest h l z.step s
    have hflow := runTaken_flow c.val x rest h l z.step s
    have heq := onRunDelivery_mill hx hr he hh hl hs hm hroom
    generalize runTaken c.val x rest h l z.step s = u at hk hflow heq
    refine .of rfl heq ⟨?_, hk.sameMemory rfl, ?_⟩
    · exact (congrArg (fun f : FlowState => f.dispatch ++ [runOut x z e]) hflow).trans rfl
    · exact (congrArg (fun f : FlowState => tblGet (fun _ => none) f.sluices c.val) hflow).trans (setSluice_sluice ..)

end Sys2Proof.Machine
end

section
/-! SUPPORT. Mills and their runs (09 R210 to R228). -/
namespace Sys2Proof.Machine

/-! ### Arrival -/

theorem setBuf_buf (s : State) (m : Nat) (rs : List Run) : (s.setBuf m rs).buf m = rs := tblGet_tblSet_same ..

theorem onMillRunArrival_enters {m : Fin 768} {r : Run} {s : State} (hl : s.live = true)
    (hr : s.flow.dispatch.find? (fun r => (s.dropStopped m.val).millOf r == m.val) = some r) (hs : (s.slot r.slot).stopped = false)
    (hb : ((s.dropStopped m.val).buf m.val).length < 64) : onMillRunArrival m s =
    ({ s.dropStopped m.val with flow := { (s.dropStopped m.val).flow with dispatch := s.flow.dispatch.erase r } } : State).setBuf m.val
      ((s.dropStopped m.val).buf m.val ++ [r]) := by
  have hr' : (s.dropStopped m.val).flow.dispatch.find? (fun r => (s.dropStopped m.val).millOf r == m.val) = some r := hr
  have hl' : (s.dropStopped m.val).live = true := hl
  have hs' : ((s.dropStopped m.val).slot r.slot).stopped = false := hs
  have hd : (s.dropStopped m.val).flow.dispatch = s.flow.dispatch := rfl
  unfold onMillRunArrival
  dsimp only
  generalize s.dropStopped m.val = u at *
  rw [hr']
  refine (if_neg (by simp [hl', hb])).trans ((if_neg (by simp [hs'])).trans ?_)
  rw [hd]

/-! ### The checks of a run -/

theorem onMillRunApply_picked {m : Fin 768} {res : Residue} {err : HbmErrors} {r : Run} {s : State} (hl : s.live = true)
    (hr : (s.dropStopped m.val).pickRun ((s.dropStopped m.val).buf m.val) [] = some r) : onMillRunApply m res err s =
    (((s.dropStopped m.val).setBuf m.val (((s.dropStopped m.val).buf m.val).erase r)).foundErrors err).applyOne m.val r res := by
  unfold onMillRunApply
  refine (if_neg (by simp [hl])).trans ?_
  dsimp only
  rw [hr]

theorem applyOne_bad {v : State} {r : Run} {reason : Nat} (h : v.runBad r = some reason) (m : Nat) (res : Residue) :
    v.applyOne m r res = v.rejectRun m r.slot r.layer r.run reason := by
  unfold State.applyOne
  rw [h]

/-- The state in which a run's tail stands before its Mill: read from memory unless it is open. -/
def tailRead (v : State) (g : Nat) : State := if v.tailOpen g then v else v.hbmRead (g + 4032) 64

/-- What the check of its tail makes of a run. -/
def runJudged (w : State) (m : Nat) (p : RunPlace) (r : Run) (q : StepParam) (res : Residue) : TailCheck → State
  | .reject 6 => w.rejectRun m r.slot r.layer (p.gran r) 6
  | .reject reason => w.rejectRun m r.slot r.layer r.run reason
  | .version => w.stateVersion m (p.gran r) r (w.tail (p.base r))
  | .go t => w.computeRun m p r t q res

theorem runJudged_reject (w : State) (m : Nat) (p : RunPlace) (r : Run) (q : StepParam) (res : Residue) {reason : Nat} (h : reason ≠ 6) :
    runJudged w m p r q res (.reject reason) = w.rejectRun m r.slot r.layer r.run reason := by
  unfold runJudged
  split
  · next he => exact absurd (TailCheck.reject.inj he) h
  · next he => rw [TailCheck.reject.inj he]
  · next he => cases he
  · next he => cases he

section
variable {v : State} {r : Run} {p : RunPlace} {q : StepParam} (hb : v.runBad r = none) (hp : v.place r = some p)
  (hq : ((v.slot r.slot).held r.step).bind (fun h => h.params[p.layer.rule]?) = some q)
  (hs : v.sealedAgainst r.slot (p.base r) 4096 = none) (hu : v.tailOpen (p.base r) = false → v.firstUe (p.base r + 4032) 64 = none)
include hb hp hq hs hu

theorem applyOne_placed (m : Nat) (res : Residue) : v.applyOne m r res =
    runJudged (tailRead v (p.base r)) m p r q res (checkTail p.rule.rec8 (p.bit r) r.step ((tailRead v (p.base r)).tail (p.base r))) := by
  unfold State.applyOne
  rw [hb, hp]
  dsimp only
  rw [hq]
  dsimp only
  rw [hs]
  dsimp only
  have hn : (if !v.tailOpen (p.base r) then v.firstUe (p.base r + 4032) 64 else none) = none := by
    cases ho : v.tailOpen (p.base r) with
    | true => rfl
    | false => exact hu ho
  have ht : (if !v.tailOpen (p.base r) then v.hbmRead (p.base r + 4032) 64 else v) = tailRead v (p.base r) := by
    unfold tailRead
    cases v.tailOpen (p.base r) <;> rfl
  rw [hn, ht]
  rfl
end

/-! ### The recurrence and the write -/

theorem computeRun_commits {w : State} {p : RunPlace} {r : Run} (hu : w.firstUe (p.addr r) (16 * recSize p.rule.rec8) = none) (m : Nat) (t : Tail)
    (q : StepParam) (ha : (applyRun p q r (w.hbmBytes (p.addr r) (16 * recSize p.rule.rec8))).skipped = 0 ∨ p.rule.nfFault = false) :
    w.computeRun m p r t q .clean = (w.hbmRead (p.addr r) (16 * recSize p.rule.rec8)).commitRun m p r t
      (applyRun p q r (w.hbmBytes (p.addr r) (16 * recSize p.rule.rec8))) := by
  unfold State.computeRun
  dsimp only
  rw [hu]
  refine if_neg ?_
  rintro ⟨h1, h2⟩
  simp [h2] at ha
  omega

/-- A run's records written, counted, and their gradients and parameters noted. -/
def linesCounted (s : State) (m : Nat) (p : RunPlace) (r : Run) (a : Applied) : State :=
  ((((s.hbmWrite (p.addr r) a.lines).bumpMill m 0x00).bumpMill m 0x10 a.skipped).addSquares m r a.used).markApplied r

/-- The same with the granule's marks, before its tail. -/
def linesCommitted (s : State) (m : Nat) (p : RunPlace) (r : Run) (a : Applied) : State :=
  (linesCounted s m p r a).setGranMarks (p.base r)
    ((List.range 4).map fun i => ((linesCounted s m p r a).granMarks (p.base r)).getD i 0 + (marksOf a.marks).getD i 0)

theorem linesCounted_keeps (s : State) (m : Nat) (p : RunPlace) (r : Run) (a : Applied) :
    Keeps 0x1004 (s.hbmWrite (p.addr r) a.lines) (linesCounted s m p r a) :=
  (State.markApplied_keeps ..).after ((State.addSquares_keeps ..).after
    ((State.bumpMill_keeps ..).after ((State.bumpMill_keeps ..).mono rfl) rfl) rfl) rfl

/-- Once the records are written memory stands. -/
theorem linesCommitted_keeps (s : State) (m : Nat) (p : RunPlace) (r : Run) (a : Applied) :
    Keeps 0x3004 (s.hbmWrite (p.addr r) a.lines) (linesCommitted s m p r a) :=
  (State.setGranMarks_keeps ..).after ((linesCounted_keeps ..).mono rfl) rfl

theorem linesCommitted_tails (s : State) (m : Nat) (p : RunPlace) (r : Run) (a : Applied) (k : Nat) :
    (linesCommitted s m p r a).openTails k = s.openTails k := by
  have hw := (s.hbmWrite_keeps (p.addr r) a.lines).frame.same (f := .flow) rfl
  have hf : (linesCounted s m p r a).flow = s.flow := ((linesCounted_keeps s m p r a).frame.same (f := .flow) rfl).trans hw
  exact (congrArg (fun f : FlowState => tblGet (fun _ => ([] : List (Nat × Tail))) f.tails k) hf :)

theorem commitRun_open {s : State} {m : Nat} {p : RunPlace} {r : Run} {t : Tail} {a : Applied} (h : t.done ||| 2 ^ p.bit r ≠ p.full r)
    (hn : ((s.openTails (chanOf (p.base r))).filter fun e => e.1 != p.base r).length < 1024) : ∃ ts, s.commitRun m p r t a =
    (((linesCommitted s m p r a).setTails (chanOf (p.base r)) ts).endLeases m r p.table.shard).progress r.slot := by
  have hk : (linesCommitted s m p r a).keepTail (p.base r) { t with done := t.done ||| 2 ^ p.bit r } = _ :=
    if_pos (by rwa [linesCommitted_tails])
  have hc : s.commitRun m p r t a = (((linesCommitted s m p r a).keepTail (p.base r) { t with done := t.done ||| 2 ^ p.bit r }).endLeases m r
      p.table.shard).progress r.slot := congrArg (fun u : State => (u.endLeases m r p.table.shard).progress r.slot) (if_neg h)
  exact ⟨_, hc.trans (congrArg (fun u : State => (u.endLeases m r p.table.shard).progress r.slot) hk)⟩

theorem commitRun_byte {s : State} {m : Nat} {p : RunPlace} {r : Run} {t : Tail} {a : Applied} (h : t.done ||| 2 ^ p.bit r ≠ p.full r)
    (hn : ((s.openTails (chanOf (p.base r))).filter fun e => e.1 != p.base r).length < 1024) :
    SameMemory (s.hbmWrite (p.addr r) a.lines) (s.commitRun m p r t a) := by
  obtain ⟨ts, he⟩ := commitRun_open (m := m) (a := a) h hn
  rw [he]
  have hl := linesCommitted_keeps s m p r a
  generalize linesCommitted s m p r a = u at hl
  have ht : Keeps 0x2000 u (u.setTails (chanOf (p.base r)) ts) := State.setTails_keeps ..
  exact ((State.progress_keeps ..).after ((State.endLeases_keeps ..).after (ht.after (hl.mono rfl) rfl) rfl) rfl : Keeps 0x27364 _ _).sameMemory rfl

theorem tailRead_keeps (v : State) (g : Nat) : Keeps 0x20804 v (tailRead v g) := by
  unfold tailRead
  split
  · exact Keeps.refl v
  · exact State.hbmRead_keeps ..

/-- Settles O47: runs arrive, are judged by R223, R225 and R226, and are applied. -/
theorem millsApplyRuns : Obligations.MillsApplyRuns := by
  unfold Obligations.MillsApplyRuns
  refine ⟨fun m r s hl hr hs hb => .of rfl (onMillRunArrival_enters hl hr hs hb) ⟨setBuf_buf .. |>.trans (congrArg (· ++ [r]) (setBuf_buf ..)), rfl, rfl⟩,
    fun m res err r s => ?apply⟩
  case apply =>
    intro u v hl hr
    have hx (res : Residue) : exec (.millRunApply m res err) s = .next (v.applyOne m.val r res) :=
      congrArg Host.Outcome.next (onMillRunApply_picked hl hr)
    have hsv : SameMemory s v := fun b =>
      ((State.foundErrors_keeps (u.setBuf m.val ((u.buf m.val).erase r)) err).sameMemory rfl b).trans ((State.dropStopped_keeps s m.val).sameMemory rfl b)
    clear_value v
    refine ⟨fun reason hb => (hx res).trans (congrArg Host.Outcome.next (applyOne_bad hb m.val res)), fun p q => ?placed⟩
    case placed =>
      intro g w hb hp hq hs hu
      have hj (res : Residue) : exec (.millRunApply m res err) s = .next (runJudged w m.val p r q res (checkTail p.rule.rec8 (p.bit r) r.step (w.tail g))) :=
        (hx res).trans (congrArg Host.Outcome.next (applyOne_placed hb hp hq hs hu m.val res))
      refine ⟨fun reason h6 hc => ?_, fun hc => ?_, fun t hc hclean => ?go⟩
      · rw [hj, hc, runJudged_reject w m.val p r q res h6]
      · rw [hj, hc]
        rfl
      case go =>
        intro a ha
        have hg : exec (.millRunApply m .clean err) s = .next ((w.hbmRead (p.addr r) (16 * recSize p.rule.rec8)).commitRun m.val p r t a) := by
          rw [hj, hc]
          exact congrArg Host.Outcome.next (computeRun_commits hclean m.val t q ha)
        refine ⟨hg, fun hopen hroom => ⟨_, hg, ?_⟩⟩
        have hrd := State.hbmRead_keeps w (p.addr r) (16 * recSize p.rule.rec8)
        have hsw : SameMemory s (w.hbmRead (p.addr r) (16 * recSize p.rule.rec8)) := fun b =>
          (hrd.sameMemory rfl b).trans (((tailRead_keeps v g).sameMemory rfl b).trans (hsv b))
        have htails : (w.hbmRead (p.addr r) (16 * recSize p.rule.rec8)).openTails (chanOf g) = w.openTails (chanOf g) :=
          congrArg (fun f : FlowState => tblGet (fun _ => ([] : List (Nat × Tail))) f.tails (chanOf g)) (hrd.frame.same (f := .flow) rfl)
        generalize w.hbmRead (p.addr r) (16 * recSize p.rule.rec8) = x at hsw htails
        have hm := commitRun_byte (s := x) (m := m.val) (a := a) hopen (by rwa [htails])
        refine ⟨fun i b hi => ?_, fun b hb => ?_⟩
        · have hlt : i < a.lines.length := (List.getElem?_eq_some_iff.mp hi).1
          rw [hm, hbmWrite_byte, if_pos (by omega), Nat.add_sub_cancel_left, List.getD_eq_getElem?_getD, hi]
          rfl
        · rw [hm, hbmWrite_byte, if_neg (by omega), hsw]

end Sys2Proof.Machine
end

section
/-! SUPPORT. What the manager orders (14 R342, R347, R349, R351). -/
namespace Sys2Proof.Machine

/-! ### What traffic leaves of the fabric -/

/-- Only the ports and the channels of the fabric may differ: its addresses, tables, election and members are as before. -/
structure TrafficOnly (s t : State) : Prop where
  fab : t.fab = { s.fab with
    ports := t.fab.ports, tx := t.fab.tx, rx := t.fab.rx, limiters := t.fab.limiters, rxq := t.fab.rxq, outq := t.fab.outq }

theorem TrafficOnly.refl (s : State) : TrafficOnly s s := ⟨rfl⟩
theorem TrafficOnly.after {s t u : State} (b : TrafficOnly t u) (a : TrafficOnly s t) : TrafficOnly s u := ⟨by rw [b.fab, a.fab]⟩
theorem TrafficOnly.of_fab {s t : State} (h : t.fab = s.fab) : TrafficOnly s t := ⟨by rw [h]⟩
theorem TrafficOnly.of_keeps {p : Nat} {s t : State} (h : Keeps p s t) (hp : p.testBit Field.fab.place = false) : TrafficOnly s t :=
  .of_fab (h.frame.same (f := .fab) hp)
theorem TrafficOnly.ite {c : Prop} [Decidable c] {s t u : State} (ha : TrafficOnly s t) (hb : TrafficOnly s u) :
    TrafficOnly s (if c then t else u) := by
  split
  · exact ha
  · exact hb
theorem TrafficOnly.foldl {β : Type} {f : State → β → State} (h : ∀ s x, TrafficOnly s (f s x)) (l : List β) (s : State) :
    TrafficOnly s (l.foldl f s) := by
  induction l generalizing s with
  | nil => exact .refl s
  | cons x l ih => exact (ih _).after (h s x)

theorem setPort_traffic (s : State) (p : Nat) (x : PortState) : TrafficOnly s (s.setPort p x) := ⟨rfl⟩
theorem setTxChan_traffic (s : State) (peer chan : Nat) (c : TxChan) : TrafficOnly s (s.setTxChan peer chan c) := ⟨rfl⟩
theorem bump_traffic (s : State) (o n : Nat) : TrafficOnly s (s.bump o n) := ⟨rfl⟩
theorem emit_traffic (s : State) (o : Output) : TrafficOnly s (s.emit o) := ⟨rfl⟩
theorem dropRx_traffic (s : State) (r : RxPacket) : TrafficOnly s (s.dropRx r) := ⟨rfl⟩

theorem sendFlit_traffic (s : State) (p ftype vc seq : Nat) (payload : List Byte) : TrafficOnly s (s.sendFlit p ftype vc seq payload) :=
  (emit_traffic ..).after (setPort_traffic ..)

theorem pumpFlits_traffic (n : Nat) (s : State) (p : Nat) : TrafficOnly s (s.pumpFlits n p) := by
  induction n generalizing s with
  | zero => exact .refl s
  | succ n ih =>
    unfold State.pumpFlits
    dsimp only
    refine .ite (.refl s) ?_
    split
    · exact .refl s
    · exact (ih _).after ((bump_traffic ..).after ((bump_traffic ..).after ((sendFlit_traffic ..).after (setPort_traffic ..))))

theorem outPort_traffic (s : State) (p : Nat) (mac : Option (List Byte)) (k : Packet) : TrafficOnly s (s.outPort p mac k) := by
  have hmark (c : Bool) : TrafficOnly s (if c then s.bumpFab 0x148 else s) := .ite (bump_traffic ..) (.refl s)
  unfold State.outPort
  dsimp only
  split
  · exact (TrafficOnly.ite (bump_traffic ..) (setPort_traffic ..)).after (hmark _)
  · exact (pumpFlits_traffic ..).after ((setPort_traffic ..).after (hmark _))

theorem forward_traffic (s : State) (k : Packet) : TrafficOnly s (s.forward k) := by
  unfold State.forward
  split
  · exact bump_traffic ..
  dsimp only
  refine .ite (bump_traffic ..) ?_
  split
  · exact bump_traffic ..
  refine .ite (.refl s) (.ite ?_ (outPort_traffic ..))
  split
  · exact outPort_traffic ..
  · exact bump_traffic ..

theorem pumpChan_traffic (n : Nat) (s : State) (peer chan : Nat) : TrafficOnly s (s.pumpChan n peer chan) := by
  induction n generalizing s with
  | zero => exact .refl s
  | succ n ih =>
    unfold State.pumpChan
    dsimp only
    split
    · exact .refl s
    · exact .ite (.refl s) ((ih _).after ((forward_traffic ..).after (setTxChan_traffic ..)))

theorem sendBar_traffic (s : State) (dst fjob bid kind count npart : Nat) : TrafficOnly s (s.sendBar dst fjob bid kind count npart) :=
  (pumpChan_traffic ..).after (setTxChan_traffic ..)

theorem endBarriers_traffic (s : State) (n : Nat) (p : BarrierJob → Bool) (status : Nat) (result : List Byte) :
    TrafficOnly s (s.endBarriers n p status result) := .of_keeps (State.endBarriers_keeps s n p status result) rfl

theorem abortBarrier_traffic (s : State) (n fjob bid : Nat) (origin : Option Nat) : TrafficOnly s (s.abortBarrier n fjob bid origin) := by
  have hsent : TrafficOnly s (abortSent s n fjob bid origin) := by
    unfold abortSent
    split
    · exact .foldl (fun s d => .ite (.refl s) (sendBar_traffic ..)) _ _
    · exact .refl s
  rw [abortBarrier_eq]
  refine (endBarriers_traffic ..).after ?_
  split
  · exact (TrafficOnly.of_keeps (State.setSluice_keeps ..) rfl).after hsent
  · exact hsent

theorem failBarriers_traffic (s : State) (n : Nat) : TrafficOnly s (s.failBarriers n) := by
  unfold State.failBarriers
  dsimp only
  generalize List.filterMap _ s.flow.sluices = l
  have hf : TrafficOnly s (l.foldl (fun s b => s.abortBarrier n b.1 b.2 none) s) :=
    .foldl (f := fun s (b : Nat × Nat) => s.abortBarrier n b.1 b.2 none) (fun s b => abortBarrier_traffic s n b.1 b.2 none) l s
  exact (endBarriers_traffic ..).after hf

theorem stopSlot_traffic (s : State) (n : Fin 8) (code status : Nat) : TrafficOnly s (s.stopSlot n code status) := by
  have hset (u : State) (x : Slot) : TrafficOnly u (u.setSlot n.val x) := .of_fab rfl
  unfold State.stopSlot
  extract_lets x
  exact .ite (.refl s) (.ite (.ite (hset ..) (.refl s)) ((failBarriers_traffic ..).after ((bump_traffic ..).after (hset ..))))

theorem jobFault_traffic (s : State) (n : Fin 8) (code loc sub a0 a1 a2 : Nat) : TrafficOnly s (s.jobFault n code loc sub a0 a1 a2) :=
  (stopSlot_traffic ..).after (.of_fab (raise_only ..).fab)

theorem peerGone_traffic (s : State) (peer : Nat) : TrafficOnly s (s.peerGone peer) :=
  (TrafficOnly.foldl (fun s n => jobFault_traffic s n 0x0056 peer 0 0 0 0) _ _).after ⟨rfl⟩

theorem chooseParent_traffic (s : State) : TrafficOnly s s.chooseParent := by
  unfold State.chooseParent
  refine .ite ⟨rfl⟩ (.ite ⟨rfl⟩ ?_)
  split
  · exact ⟨rfl⟩
  · exact .ite (.refl s) ⟨rfl⟩

/-! ### Addresses and tables -/

section
variable {s : State} (hl : s.fabLive = true)
include hl

theorem onAddressAssign_given (hm : s.isMgr = false) (addr mgr : Fin 1024) : onAddressAssign addr mgr s =
    if s.fab.addr = some addr.val then { s with fab := { s.fab with addr := some addr.val, mgrAddr := some mgr.val } }
    else { s with fab := { s.fab with addr := some addr.val, mgrAddr := some mgr.val, tx := [], rx := [] } } :=
  if_neg (by simp [hl, hm])

theorem onRoutingTableLoad_shadowed (hm : s.isMgr = false) (mgr : Fin 1024) (epoch : Fin 65536) (entries : List (Fin 1024 × Word)) :
    onRoutingTableLoad mgr epoch entries s = ({ s with fab := { s.fab with
      mgrAddr := some mgr.val, shadow := some (epoch.val, entries.map fun e => (e.1.val, e.2)) } } : State).toMgr (.confirm (s.fab.addr.getD 0) epoch.val) :=
  if_neg (by simp [hl, hm])

theorem onEpochCommit_member {epoch : Fin 65536} {es : List (Nat × Word)} (hm : s.isMgr = false) (hs : s.fab.shadow = some (epoch.val, es)) :
    onEpochCommit epoch s = s.commitEpoch epoch.val es := by
  unfold onEpochCommit
  rw [hs]
  refine (if_neg (by simp [hl])).trans ?_
  exact if_pos (by simp [hm])

theorem onEpochMark_taken {r : RxPacket} (hr : s.fab.rxq.find? (fun r => r.pkt.ptype == .epochMark) = some r) : onEpochMark s =
    (s.dropRx r).setPort r.port { (s.dropRx r).port r.port with marked := some (leAt r.pkt.payload 0 2) } := by
  unfold onEpochMark
  rw [hr]
  exact if_neg (by simp [hl])

theorem onTableRetire_retired {e : Nat} (he : s.fab.prevEpoch = some e)
    (h : ((∀ p < 12, s.portUp p = true → (s.port p).marked = some s.fab.epoch) ∧ s.holdsOld = false) ∨
      s.fab.committed + msRoot 10 ≤ s.clk.root) : onTableRetire s =
    ({ s with fab := { s.fab with prev := [], prevEpoch := none } } : State).toMgr (.retired (s.fab.addr.getD 0) s.fab.epoch) := by
  have hdone : (((upPorts s).all fun p => (s.port p).marked == some s.fab.epoch) && !s.holdsOld ||
      decide (s.fab.committed + msRoot 10 ≤ s.clk.root)) = true := by
    rcases h with ⟨h1, h2⟩ | h
    · simp only [h2, upPorts]
      simp
      exact .inl fun p hp => by
        cases hu : s.portUp p with
        | false => exact .inl rfl
        | true => exact .inr (h1 p hp hu)
    · simp [h]
  unfold onTableRetire
  rw [he]
  exact if_neg (by simp only [hdone, hl]; simp)

end

theorem unqueue_traffic (s : State) (p : Nat) : TrafficOnly s (s.unqueue p) := .ite (setPort_traffic ..) (setPort_traffic ..)
theorem sendMark_traffic (s : State) (p : Nat) : TrafficOnly s (s.sendMark p) := (outPort_traffic ..).after (setPort_traffic ..)
theorem restamp_traffic (s : State) (p : Nat) (k : Packet) : TrafficOnly s (s.restamp p k) := .ite (outPort_traffic ..) (forward_traffic ..)

/-- The commit: the shadow table becomes the current one, which becomes the previous. -/
theorem commitEpoch_fab (s : State) (epoch : Nat) (es : List (Nat × Word)) : (s.commitEpoch epoch es).fab.cur = tableOf es ∧
    (s.commitEpoch epoch es).fab.epoch = epoch ∧ (s.commitEpoch epoch es).fab.prev = s.fab.cur ∧
    (s.commitEpoch epoch es).fab.prevEpoch = some s.fab.epoch ∧ (s.commitEpoch epoch es).fab.shadow = none := by
  have hq : TrafficOnly s ((upPorts s).foldl State.unqueue s) := .foldl (fun s p => unqueue_traffic s p) _ _
  unfold State.commitEpoch
  dsimp only
  generalize (upPorts s).foldl State.unqueue s = u at hq
  have hf := hq.fab
  have hafter (l : List (Nat × Packet)) (ps : List Nat) (v : State) :
      TrafficOnly v ((l.foldl (fun s x => s.restamp x.1 x.2) (ps.foldl State.sendMark v)).chooseParent) :=
    (chooseParent_traffic _).after ((TrafficOnly.foldl (fun s (x : Nat × Packet) => restamp_traffic s x.1 x.2) _ _).after
      (.foldl (fun s p => sendMark_traffic s p) _ _))
  rw [(hafter _ _ _).fab]
  refine ⟨rfl, rfl, ?_, ?_, rfl⟩
  · exact (congrArg FabState.cur hf :)
  · exact (congrArg (fun f : FabState => some f.epoch) hf :)

/-! ### The manager's members and its move to a new epoch -/

/-- Every unit the manager knew it still knows, and the move to a new epoch stands. -/
structure RosterGrown (s t : State) : Prop where
  moving : t.fab.moving = s.fab.moving
  knows : ∀ uid, (∃ m ∈ s.fab.members, m.uid = uid) → ∃ m ∈ t.fab.members, m.uid = uid

theorem RosterGrown.refl (s : State) : RosterGrown s s := ⟨rfl, fun _ h => h⟩
theorem RosterGrown.after {s t u : State} (b : RosterGrown t u) (a : RosterGrown s t) : RosterGrown s u :=
  ⟨b.moving.trans a.moving, fun uid h => b.knows uid (a.knows uid h)⟩
theorem RosterGrown.of_traffic {s t : State} (h : TrafficOnly s t) : RosterGrown s t := by
  have hf := h.fab
  exact ⟨by rw [hf], fun uid hm => by rw [hf]; exact hm⟩
theorem RosterGrown.foldl {β : Type} {f : State → β → State} (h : ∀ s x, RosterGrown s (f s x)) (l : List β) (s : State) :
    RosterGrown s (l.foldl f s) := by
  induction l generalizing s with
  | nil => exact .refl s
  | cons x l ih => exact (ih _).after (h s x)

theorem setMember_roster (s : State) (m : Member) : RosterGrown s (s.setMember m) := by
  refine ⟨by unfold State.setMember; split <;> rfl, fun uid ⟨x, hx, hu⟩ => ?_⟩
  unfold State.setMember
  split
  · refine ⟨if x.uid = m.uid then m else x, List.mem_map.mpr ⟨x, hx, rfl⟩, ?_⟩
    split
    · next h => exact h.symm.trans hu
    · exact hu
  · exact ⟨x, List.mem_append_left _ hx, hu⟩

theorem setMember_knows (s : State) (m : Member) : ∃ x ∈ (s.setMember m).fab.members, x.uid = m.uid := by
  unfold State.setMember
  split
  · next h =>
    obtain ⟨y, hy⟩ := Option.isSome_iff_exists.mp h
    have hu : y.uid = m.uid := by simpa using List.find?_some hy
    exact ⟨m, List.mem_map.mpr ⟨y, List.mem_of_find?_eq_some hy, if_pos hu⟩, rfl⟩
  · exact ⟨m, List.mem_append_right _ (List.mem_singleton.mpr rfl), rfl⟩

theorem note_roster (s : State) (r : Report) : RosterGrown s (s.note r) := by
  unfold State.note
  extract_lets unlist src s1
  have h1 : RosterGrown s s1 := ⟨rfl, fun uid ⟨x, hx, hu⟩ => ⟨unlist x, List.mem_map.mpr ⟨x, hx, rfl⟩, hu⟩⟩
  clear_value s1
  split
  · exact (setMember_roster ..).after h1
  · exact (setMember_roster ..).after h1

theorem note_knows (s : State) (r : Report) : ∃ x ∈ (s.note r).fab.members, x.uid = r.uid := by
  unfold State.note
  extract_lets unlist src s1
  clear_value s1
  split
  · next m hm =>
    have hu : m.uid = r.uid := by simpa [State.member] using List.find?_some hm
    obtain ⟨x, hx, hxu⟩ := setMember_knows s1 { m with incarn := r.incarn, links := r.links, transit := r.transit }
    exact ⟨x, hx, hxu.trans hu⟩
  · exact setMember_knows s1 _

theorem notes_know {r : Report} {l : List Report} (h : r ∈ l) (s : State) : ∃ x ∈ (l.foldl State.note s).fab.members, x.uid = r.uid := by
  induction l generalizing s with
  | nil => cases h
  | cons y l ih =>
    rcases List.mem_cons.mp h with rfl | h
    · exact (RosterGrown.foldl note_roster l (s.note r)).knows _ (note_knows s r)
    · exact ih h _

theorem giveAddr_roster (s : State) (r : Report) (a : Nat) : RosterGrown s (s.giveAddr r a) := by
  unfold State.giveAddr
  split
  · exact .refl s
  · next m hm =>
    dsimp only
    have h1 := setMember_roster s { m with addr := some a, present := true }
    generalize s.setMember { m with addr := some a, present := true } = u at h1
    split <;> split <;> exact ⟨h1.moving, h1.knows⟩

theorem assignAll_roster (s : State) (rs : List Report) : RosterGrown s (s.assignAll rs) := by
  unfold State.assignAll
  extract_lets pass keep ask low
  have hpass (want : State → Report → Option Nat) (st : State × List Report) : RosterGrown st.1 (pass want st).1 := by
    refine List.foldlRecOn (motive := fun b : State × List Report => RosterGrown st.1 b.1) _ _ (.refl _) fun b hb r hr => ?_
    split
    · exact (giveAddr_roster ..).after hb
    · exact hb
  clear_value pass
  exact (hpass low _).after ((hpass ask _).after (hpass keep (s, _)))

theorem depart_roster (s : State) (p : Member → Bool) : RosterGrown s (s.depart p) := by
  refine .foldl (fun s m => ?_) _ _
  dsimp only
  split
  · exact (RosterGrown.of_traffic ((peerGone_traffic ..).after (emit_traffic ..))).after (setMember_roster ..)
  · exact setMember_roster ..

/-- The move to a new epoch begins. -/
theorem moveTo_begins (s : State) (e : Nat) : (s.moveTo e).fab.moving = some (e, s.clk.root) ∧ (s.moveTo e).fab.shadow.isSome = true ∧
    (s.moveTo e).fab.members = s.fab.members := by
  unfold State.moveTo
  extract_lets table s1
  refine ⟨rfl, rfl, ?_⟩
  have hs : s1.fab = s.fab := by
    refine List.foldlRecOn (motive := fun u : State => u.fab = s.fab) _ _ rfl fun u hu m hm => ?_
    split
    · split
      · exact hu
      · exact hu
    · exact hu
  exact (congrArg FabState.members hs :)

theorem lose_begins {s : State} {m : Nat × Nat} (h : s.fab.moving = some m) (p : Member → Bool) :
    (s.lose p).fab.moving = some (m.1, s.clk.root) ∧ (s.lose p).fab.shadow.isSome = true := by
  have hm := (depart_roster s p).moving.trans h
  have hc := (State.depart_keeps s p).frame.same (f := .clk) rfl
  unfold State.lose
  dsimp only
  generalize s.depart p = u at hm hc
  obtain ⟨h1, h2, -⟩ := moveTo_begins u (u.nextEpoch [])
  refine ⟨h1.trans ?_, h2⟩
  rw [State.nextEpoch, hm, hc]

theorem onEpochConfirmTimeout_loses {s : State} {m : Nat × Nat} {missing : List (Fin 1024)} {x : Member} {a : Fin 1024} (hl : s.fabLive = true)
    (hm : s.fab.moving = some m) (hg : s.isMgr = true) (ht : m.2 + msRoot 100 ≤ s.clk.root) (hx : x ∈ s.fab.members)
    (hp : x.present = true) (ha : x.addr = some a.val) (hmiss : a ∈ missing) :
    onEpochConfirmTimeout missing s = s.lose fun x => missing.any fun a => x.addr == some a.val := by
  have hlate : (s.fab.members.any fun x => x.present && missing.any fun a => x.addr == some a.val) = true :=
    List.any_eq_true.mpr ⟨x, hx, by simp only [hp, Bool.true_and]; exact List.any_eq_true.mpr ⟨a, hmiss, by simp [ha]⟩⟩
  unfold onEpochConfirmTimeout
  rw [hm]
  refine if_neg ?_
  rw [hlate, hl, hg]
  simpa using ht

/-- The units that come back without their state are named to the others, and their channels start afresh. -/
def namesReturned (s : State) (u : Nat) : State := match (s.member u).bind (·.addr) with
  | some a => (s.emit (.fab (.mgmt none (.peerNew a)))).peerGone a
  | none => s

theorem namesReturned_roster (s : State) (u : Nat) : RosterGrown s (namesReturned s u) := by
  unfold namesReturned
  split
  · exact .of_traffic ((peerGone_traffic ..).after (emit_traffic ..))
  · exact .refl s

theorem onJoinReport_begins {s : State} (hl : s.fabLive = true) (hm : s.isMgr = true) (reports : List Report) : ∃ (u : State) (e : Nat),
    onJoinReport reports s = u.moveTo e ∧ RosterGrown ((s.ownReport :: reports.filter fun r => r.uid != ownUid).foldl State.note s) u := by
  unfold onJoinReport
  rw [if_neg (by simp [hl, hm])]
  refine ⟨_, _, rfl, ?_⟩
  exact (depart_roster ..).after ((RosterGrown.foldl namesReturned_roster _ _).after (assignAll_roster ..))

/-! ### Departures of a peer -/

theorem resetPeer_chans (s : State) {peer c : Nat} (h : c < 256) :
    (s.resetPeer peer).txChan peer c = TxChan.init ∧ (s.resetPeer peer).rxChan peer c = RxChan.init := by
  have hk : (peer * 256 + c) / 256 = peer := by omega
  unfold State.txChan State.rxChan State.resetPeer
  exact ⟨tblGet_filter_out fun v => by simp [hk], tblGet_filter_out fun v => by simp [hk]⟩

theorem peerGone_jobless {s : State} {peer : Nat} (h : s.jobsOf peer = []) : s.peerGone peer = s.resetPeer peer := by
  unfold State.peerGone
  rw [h]
  rfl

theorem jobsOf_survey {s : State} {peer : Nat} {n : Fin 8} (h : n ∈ s.jobsOf peer) : (s.slot n.val).survey.isSome = true := by
  have hp := (List.mem_filter.mp h).2
  split at hp
  · simp only [State.loaded, Bool.and_eq_true] at hp
    exact hp.1.1
  · cases hp

theorem peerGone_stops {s : State} {peer : Nat} {n : Fin 8} (h : n ∈ s.jobsOf peer) : ((s.peerGone peer).slot n.val).stopped = true :=
  (jobFaults_slot 0x0056 peer 0 0 0 0 (s.jobsOf peer) (s.resetPeer peer) n).2 (jobsOf_survey h) (.inr h)

/-! ### The manager's kill -/

/-- A slot is killed where its Survey carries the fabric job. -/
def killNamed (fjob : Nat) (s : State) (n : Nat) : State := if !s.loaded n ∨ s.fjobOf n ≠ fjob then s else s.killStart n

theorem loseTies_none (s : State) (n master : Nat) : s.loseTies n [] master = s := foldl_eq_self fun _ _ => rfl

theorem killStart_killed {s : State} {n : Nat} (h : (s.slot n).killing = true) : s.killStart n = s := if_pos (.inl h)

theorem onMgmtJobKill_named {s : State} (hl : s.live = true) (fjob : Fin 4096) :
    onMgmtJobKill fjob [] 0 s = (List.range 8).foldl (killNamed fjob.val) s := by
  unfold onMgmtJobKill
  refine (if_neg (by simp [hl])).trans ?_
  congr 1
  funext s n
  unfold killNamed
  split
  · rfl
  split
  · next h => rw [if_neg (by simp), killStart_killed h]
  · rw [loseTies_none]

/-- A kill of any slot leaves every slot its Survey and whether it is loading. -/
theorem killStart_named (s : State) (n m : Nat) : (s.killStart n).loaded m = s.loaded m ∧ (s.killStart n).fjobOf m = s.fjobOf m := by
  unfold State.loaded State.fjobOf
  rw [killStart_slot]
  split
  · next h =>
    rw [h.1]
    exact ⟨rfl, rfl⟩
  · exact ⟨rfl, rfl⟩

theorem killNamed_slot (fjob : Nat) (s : State) (n m : Nat) : ((killNamed fjob s n).slot m).survey = (s.slot m).survey ∧
    (killNamed fjob s n).loaded m = s.loaded m ∧ (killNamed fjob s n).fjobOf m = s.fjobOf m ∧
    ((s.slot m).killing = true → ((killNamed fjob s n).slot m).killing = true) := by
  unfold killNamed
  split
  · exact ⟨rfl, rfl, rfl, id⟩
  · obtain ⟨h1, h2⟩ := killStart_named s n m
    exact ⟨killStart_survey s n m, h1, h2, killStart_killing_mono n⟩

theorem killsNamed_slot (fjob : Nat) (l : List Nat) (s : State) (m : Nat) :
    ((l.foldl (killNamed fjob) s).slot m).survey = (s.slot m).survey ∧
    ((s.slot m).killing = true → ((l.foldl (killNamed fjob) s).slot m).killing = true) ∧
    (m ∈ l → s.loaded m = true → s.fjobOf m = fjob → ((l.foldl (killNamed fjob) s).slot m).killing = true) := by
  induction l generalizing s with
  | nil => exact ⟨rfl, id, fun h => by cases h⟩
  | cons n l ih =>
    obtain ⟨h1, h2, h3⟩ := ih (killNamed fjob s n)
    obtain ⟨k1, k2, k3, k4⟩ := killNamed_slot fjob s n m
    refine ⟨h1.trans k1, fun h => h2 (k4 h), fun hm hl hf => ?_⟩
    rcases List.mem_cons.mp hm with rfl | hm
    · refine h2 ?_
      rw [killNamed, if_neg (by simp [hl, hf])]
      exact killStart_killing (killable_of_loaded hl)
    · exact h3 hm (k2.trans hl) (k3.trans hf)

/-! ### O52 -/

/-- Settles O52: what the manager orders takes effect. -/
theorem managerOrdersAct : Obligations.ManagerOrdersAct := by
  unfold Obligations.ManagerOrdersAct
  intro s hl
  have hpeer (peer : Fin 1024) : onPeerNew peer s = s.peerGone peer.val ∧ onPeerLost peer s = s.peerGone peer.val := ⟨if_pos hl, if_pos hl⟩
  refine ⟨fun addr mgr hm => ?address, fun mgr epoch entries hm => .of rfl (onRoutingTableLoad_shadowed hl hm mgr epoch entries) ⟨rfl, rfl, rfl, rfl⟩,
    fun epoch es hm hs => .of rfl (onEpochCommit_member hl hm hs) (commitEpoch_fab s epoch.val es),
    fun r hr => .of rfl (onEpochMark_taken hl hr) ⟨congrArg PortState.marked (setPort_port ..), rfl⟩,
    fun e he h => .of rfl (onTableRetire_retired hl he h) ⟨rfl, rfl, rfl⟩,
    fun m missing x a hm hg ht hx hp ha hmiss => .of rfl (onEpochConfirmTimeout_loses hl hm hg ht hx hp ha hmiss) (lose_begins hm _),
    fun reports hm => ?join, fun peer => ⟨fun hj => ?jobless, fun n hn => ⟨?_, ?_⟩⟩, fun fjob n hlive hload hf hk => ?kill⟩
  case address =>
    refine .of rfl (onAddressAssign_given hl hm addr mgr) ?_
    split
    · next h => exact ⟨rfl, rfl, rfl, fun hne => absurd h hne⟩
    · exact ⟨rfl, rfl, rfl, fun _ => ⟨rfl, rfl⟩⟩
  case join =>
    obtain ⟨u, e, he, hu⟩ := onJoinReport_begins hl hm reports
    obtain ⟨h1, h2, h3⟩ := moveTo_begins u e
    have hc : (u.moveTo e).clk = s.clk := by
      rw [← he]
      exact (onJoinReport_keeps reports s).frame.same (f := .clk) rfl
    have hc' : (u.moveTo e).clk = u.clk := (State.moveTo_keeps u e).frame.same (f := .clk) rfl
    refine .of rfl he ⟨?_, h2, fun r hr hown => ?_⟩
    · rw [h1, ← hc, hc']
      rfl
    · rw [h3]
      exact hu.knows _ (notes_know (List.mem_cons_of_mem _ (List.mem_filter.mpr ⟨hr, by simpa using hown⟩)) s)
  case jobless =>
    exact ⟨.of rfl ((hpeer peer).1.trans (peerGone_jobless hj)) ⟨fun c hc => resetPeer_chans s hc, rfl⟩,
      .of rfl ((hpeer peer).2.trans (peerGone_jobless hj)) ⟨fun c hc => resetPeer_chans s hc, rfl⟩⟩
  · exact .of rfl (hpeer peer).1 (peerGone_stops hn)
  · exact .of rfl (hpeer peer).2 (peerGone_stops hn)
  case kill =>
    obtain ⟨h1, -, h3⟩ := killsNamed_slot fjob.val (List.range 8) s n.val
    exact .of rfl (onMgmtJobKill_named hlive fjob) ⟨h3 (List.mem_range.mpr n.isLt) hload hf, h1⟩

end Sys2Proof.Machine
end

section
/-! SUPPORT. COPY of one run of 8-bit elements (12 R291, R292). -/
namespace Sys2Proof.Machine

/-! ### Bytes as elements -/

section
variable {code : Nat} (h8 : fmtBits code = 8)
include h8

theorem packedElem_byte (bs : List Byte) (i : Nat) : packedElem code bs i = (bs.getD i 0).toNat := by
  have hb := (bs.getD i 0).isLt
  have hi : 8 * i / 8 = i := by omega
  simp only [packedElem, h8, hi, Nat.mul_mod_right, bits, leAt, byteAt, Nat.pow_zero, Nat.div_one]
  omega

theorem packedBytes_byte (n : Nat) : packedBytes (fmtBits code) n = n := by
  simp [packedBytes, h8, ceilDiv]
  omega

theorem packElems_bytes (bs : List Byte) : packElems code (bs.map BitVec.toNat) = bs := by
  have hw (l : List Byte) : leBytes l.length ((l.map BitVec.toNat).foldr (fun c a => c % 2 ^ 8 + 2 ^ 8 * a) 0) = l := by
    induction l with
    | nil => rfl
    | cons b l ih =>
      have hb := b.isLt
      simp only [List.map_cons, List.foldr_cons, List.length_cons, leBytes]
      refine congrArg₂ List.cons (BitVec.eq_of_toNat_eq ?_) ?_
      · simp only [BitVec.toNat_ofNat]
        omega
      · rw [show ∀ a, (b.toNat % 2 ^ 8 + 2 ^ 8 * a) / 256 = a by omega]
        exact ih
  have hn : 1 * ceilDiv (8 * (bs.map BitVec.toNat).length) (8 * 1) = bs.length := by simp [ceilDiv]; omega
  unfold packElems
  dsimp only
  rw [h8, if_neg (by decide), hn]
  exact hw bs

end

/-! ### Host memory -/

/-- Bytes that host memory answers one by one it answers as a range. -/
theorem range_ok {view : HostView} {a : Nat} {bs : List Byte} (h : ∀ i b, bs[i]? = some b → view.read (a + i) = .ok b) (tr : Bool) :
    view.range tr a bs.length = .ok bs := by
  induction bs generalizing a with
  | nil => rfl
  | cons b bs ih =>
    have h0 : view.read a = .ok b := h 0 b rfl
    have ht := ih (a := a + 1) fun i c hi => by
      rw [show a + 1 + i = a + (i + 1) by omega]
      exact h (i + 1) c (by simpa using hi)
    rw [List.length_cons, HostView.range, h0]
    dsimp only
    rw [ht]

theorem range_one {view : HostView} {a : Nat} (h : ∃ b, view.read a = .ok b) (tr : Bool) : ∃ bs, view.range tr a 1 = .ok bs := by
  obtain ⟨b, hb⟩ := h
  refine ⟨[b], range_ok (bs := [b]) (fun i c hi => ?_) tr⟩
  cases i with
  | zero =>
    obtain rfl : b = c := by simpa using hi
    exact hb
  | succ i => simp at hi

/-! ### One run of bytes -/

/-- A descriptor of one run of `n` 8-bit elements, its formats alike. -/
structure ByteRun (desc : List Byte) (n : Nat) : Prop where
  counts : copyCounts desc = [n, 1, 1, 1]
  alike : copyFmt desc false = copyFmt desc true
  width : fmtBits (copyFmt desc true) = 8
  fresh : bitOf desc 34 1 = false

/-- Where the run begins on a side. -/
def copyBase (desc : List Byte) (dst : Bool) : Nat := leAt desc (if dst then 24 else 16) 8

section
variable {desc : List Byte} {n : Nat} (hr : ByteRun desc n)
include hr

theorem ByteRun.widths (dst : Bool) : fmtBits (copyFmt desc dst) = 8 := by
  cases dst with
  | false => rw [hr.alike]; exact hr.width
  | true => exact hr.width

theorem ByteRun.total : copyTotal desc = n := by simp [copyTotal, hr.counts]
theorem ByteRun.start : copyStart desc = 0 := if_neg (by simp [hr.fresh])
theorem ByteRun.unit : copyUnit desc = 1 := by simp [copyUnit, packUnit, hr.widths]
theorem ByteRun.length (dst : Bool) (k : Nat) : copyLen desc dst k = k := packedBytes_byte (hr.widths dst) k

theorem ByteRun.addr {dst : Bool} (hb : copyBase desc dst + n ≤ 2 ^ 64) {e : Nat} (he : e < n) : copyAddr desc dst e = copyBase desc dst + e := by
  have h1 : e % n = e := Nat.mod_eq_of_lt he
  have h2 : e / n = 0 := Nat.div_eq_of_lt he
  have h3 : 8 * e / 8 = e := by omega
  unfold copyAddr
  simp only [cursorOf, hr.counts, hr.widths, List.getD_cons_zero, List.getD_cons_succ, h1, h2, h3, Nat.mul_one, Nat.zero_mod, Int.natCast_zero,
    Int.mul_zero, Int.add_zero]
  unfold copyBase at *
  omega

/-- Nothing stops a byte where memory has no uncorrectable line and the host answers. -/
theorem ByteRun.unitStop {s : State} (hu : s.hbm.ue = []) {view : HostView} {tr : Bool} {e : Nat}
    (hv : ∀ dst, copyDev desc dst = false → ∃ bs, view.range tr (copyAddr desc dst e) 1 = .ok bs) : s.unitStop desc view tr e 1 = none := by
  unfold State.unitStop
  extract_lets side
  have hside (dst : Bool) : side dst = none := by
    unfold side
    cases hd : copyDev desc dst with
    | true => simp [hu]
    | false =>
      obtain ⟨bs, hbs⟩ := hv dst hd
      simp [hr.length, hbs]
  rw [hside false]
  exact hside true

theorem ByteRun.runPrefix {s : State} (hu : s.hbm.ue = []) {view : HostView} {tr : Bool}
    (hv : ∀ e < n, ∀ dst, copyDev desc dst = false → ∃ bs, view.range tr (copyAddr desc dst e) 1 = .ok bs) :
    s.runPrefix desc view tr 0 = (n, none) := by
  have hn : (copyCounts desc).getD 0 1 = n := by simp [hr.counts]
  have hnone : ((List.range (ceilDiv n 1)).findSome? fun i => (s.unitStop desc view tr (0 + 1 * i) (min 1 (n - 1 * i))).map fun x => (1 * i, x)) = none := by
    refine List.findSome?_eq_none_iff.mpr fun i hi => ?_
    have hi : i < n := by simpa [ceilDiv] using hi
    rw [show 0 + 1 * i = i by omega, show min 1 (n - 1 * i) = 1 by omega, hr.unitStop hu (hv i hi)]
    rfl
  unfold State.runPrefix
  dsimp only
  rw [hn, hr.unit, Nat.zero_mod, Nat.sub_zero, hnone]

/-- The whole run moves at once. -/
theorem ByteRun.copyMove {s : State} (hu : s.hbm.ue = []) (hn : 0 < n) {view : HostView} {d : Started} {j : CopyJob} (hj : j.desc = desc) (h0 : j.next = 0)
    (hv : ∀ e < n, ∀ dst, copyDev desc dst = false → ∃ bs, view.range (s.copyTranslated d desc) (copyAddr desc dst e) 1 = .ok bs) :
    ∃ k : CopyJob, k.next = n ∧ s.copyMove (copyRuns desc) d j view = (s.moveRun d desc view 0 n).setKind d.serial (.copy k) := by
  subst hj
  have hruns : copyRuns j.desc = 2 := by
    rw [copyRuns, hr.total, hr.counts]
    simp [hn]
  rw [hruns, State.copyMove, if_neg (by rw [hr.total, h0]; omega)]
  dsimp only
  rw [h0, hr.runPrefix hu hv]
  dsimp only
  refine ⟨_, ?_, (if_pos ?_)⟩
  · exact Nat.zero_add n
  · exact (hr.total.trans (Nat.zero_add n).symm).le

/-- The bytes that a run moves. -/
theorem ByteRun.moved {src : List Byte} (hl : src.length = n) : packElems (copyFmt desc true)
    (((List.range n).map fun i => copyElem desc (0 + i) (packedElem (copyFmt desc false) src i)).map (·.1)) = src := by
  have hcodes : ((List.range n).map fun i => copyElem desc (0 + i) (packedElem (copyFmt desc false) src i)).map (·.1) = src.map BitVec.toNat := by
    refine List.ext_getElem (by simp [hl]) fun i h1 h2 => ?_
    have hi : i < src.length := by simpa using h2
    simp [copyElem, hr.alike, packedElem_byte hr.width, hi]
  rw [hcodes]
  exact packElems_bytes hr.width src

theorem ByteRun.moveRun_in {s : State} {d : Started} {view : HostView} {src : List Byte} (hn : 0 < n) (hl : src.length = n)
    (h1 : copyDev desc false = false) (h2 : copyDev desc true = true) (hv : view.range (s.copyTranslated d desc) (copyAddr desc false 0) n = .ok src) :
    SameMemory (s.hbmWrite (copyAddr desc true 0) src) (s.moveRun d desc view 0 n) := by
  unfold State.moveRun
  rw [if_neg (by omega)]
  dsimp only
  simp only [h1, h2, hr.length, hv, hr.moved hl, Bool.false_eq_true, if_false, if_true]
  exact fun b => rfl

theorem ByteRun.moveRun_out {s : State} {d : Started} {view : HostView} (hn : 0 < n)
    (h1 : copyDev desc false = true) (h2 : copyDev desc true = false) : SameMemory s (s.moveRun d desc view 0 n) ∧
    ∃ p, Output.hostWrite p (copyAddr desc true 0) (s.hbmBytes (copyAddr desc false 0) n) ∈ (s.moveRun d desc view 0 n).out := by
  have hl : (s.hbmBytes (copyAddr desc false 0) n).length = n := by simp [State.hbmBytes]
  unfold State.moveRun
  rw [if_neg (by omega)]
  dsimp only
  simp only [h1, h2, hr.length, hr.moved hl, Bool.false_eq_true, if_false, if_true]
  exact ⟨(State.hbmRead_keeps ..).sameMemory rfl, _, List.mem_cons_self⟩

end

/-! ### O59 -/

/-- The state in which a COPY that passes its checks begins to move. -/
def copyBegun (d : Desc) (s : State) : State × Started :=
  begun (copySpec d.bytes) (.copy { desc := d.bytes, next := copyStart d.bytes, bytes := 0, waiting := none, ended := none }) d s

section
variable {d : Desc} {view : HostView} {s : State} {n : Nat} (hr : ByteRun d.bytes n) (hn : 0 < n) (hs : Starts (copySpec d.bytes) d s)
  (hc : s.copyCheck (byteAt d.bytes 2 % 8) d.bytes = none) (hu : s.hbm.ue = [])
  (hv : ∀ (tr : Bool), ∀ e < n, ∀ dst, copyDev d.bytes dst = false → ∃ bs, view.range tr (copyAddr d.bytes dst e) 1 = .ok bs)
include hr hn hs hc hu hv

theorem onCopy_run : ∃ k : CopyJob, k.next = n ∧ onCopy d view { ue := [] } s =
    ((copyBegun d s).1.moveRun (copyBegun d s).2 d.bytes view 0 n).setKind (copyBegun d s).2.serial (.copy k) := by
  have hub : (copyBegun d s).1.hbm.ue = [] := hu
  rw [onCopy_starts view _ hs]
  dsimp only
  rw [hc, foundErrors_none]
  exact hr.copyMove hub hn rfl hr.start fun e he dst hd => hv _ e he dst hd

theorem onCopy_runs : ∃ t, onCopy d view { ue := [] } s = t ∧ SameMemory ((copyBegun d s).1.moveRun (copyBegun d s).2 d.bytes view 0 n) t ∧
    t.out = ((copyBegun d s).1.moveRun (copyBegun d s).2 d.bytes view 0 n).out ∧
    StartedAs d t fun k => match k with | .copy j => j.next == n | _ => false := by
  obtain ⟨k, hk, he⟩ := onCopy_run hr hn hs hc hu hv
  have hst := (State.moveRun_keeps (copyBegun d s).1 (copyBegun d s).2 d.bytes view 0 n).frame.same (f := .cage) rfl
  have hmem : (copyBegun d s).2 ∈ ((copyBegun d s).1.moveRun (copyBegun d s).2 d.bytes view 0 n).cage.started := by
    rw [hst]
    exact begun_mem ..
  have hring : (copyBegun d s).2.ring = d.ring := rfl
  generalize (copyBegun d s).1.moveRun (copyBegun d s).2 d.bytes view 0 n = u at he hmem
  generalize (copyBegun d s).2 = x at he hmem hring
  exact ⟨_, he, fun b => rfl, rfl, _, List.mem_map.mpr ⟨x, hmem, if_pos rfl⟩, hring, by simp [hk]⟩

end

/-- Settles O59: the run moves whole within the command. -/
theorem copyMovesBytes : Obligations.CopyMovesBytes := by
  unfold Obligations.CopyMovesBytes
  intro d view bs s n src dst hs hc hu hcounts hf h8 hfresh hsrc hdst hl
  have hr : ByteRun d.bytes n := ⟨hcounts, hf, h8, hfresh⟩
  have hn : 0 < n := Nat.succ_pos _
  have hbs : copyBase d.bytes false = src := rfl
  have hbd : copyBase d.bytes true = dst := rfl
  clear_value n src dst
  have hsa (e : Nat) (he : e < n) : copyAddr d.bytes false e = src + e := (hr.addr (by rwa [hbs]) he).trans (by rw [hbs])
  have hda (e : Nat) (he : e < n) : copyAddr d.bytes true e = dst + e := (hr.addr (by rwa [hbd]) he).trans (by rw [hbd])
  have ha : copyAddr d.bytes false 0 = src := hsa 0 hn
  have hb : copyAddr d.bytes true 0 = dst := hda 0 hn
  have hbeg : SameMemory s (copyBegun d s).1 := (State.begin_keeps ..).sameMemory rfl
  refine ⟨fun h1 h2 hv => ?into, fun h1 h2 hv => ?out⟩
  case into =>
    have hread (tr : Bool) : view.range tr src n = .ok bs := by
      rw [← hl]
      refine range_ok (fun i b hi => ?_) tr
      obtain ⟨c, hc1, hc2⟩ := hv i (hl ▸ (List.getElem?_eq_some_iff.mp hi).1)
      rw [hc2, Option.some.inj (hc1.symm.trans hi)]
    have hone (tr : Bool) (e : Nat) (he : e < n) (side : Bool) (hside : copyDev d.bytes side = false) :
        ∃ bs, view.range tr (copyAddr d.bytes side e) 1 = .ok bs := by
      cases side with
      | true => rw [h2] at hside; cases hside
      | false =>
        obtain ⟨c, -, hc2⟩ := hv e he
        refine range_one ⟨c, ?_⟩ tr
        rw [hsa e he]
        exact hc2
    obtain ⟨t, ht, hm, -, hst⟩ := onCopy_runs hr hn hs hc hu hone
    have hw := hr.moveRun_in (s := (copyBegun d s).1) (d := (copyBegun d s).2) hn hl h1 h2 (by rw [ha]; exact hread _)
    rw [hb] at hw
    have hbyte (a : Nat) : t.hbmByte a = if dst ≤ a ∧ a < dst + n then bs.getD (a - dst) 0 else s.hbmByte a := by
      rw [hm, hw, hbmWrite_byte, hl, hbeg]
    refine .of rfl ht ⟨fun i hi => ?_, fun a ha => ?_, hst⟩
    · rw [hbyte, if_pos (by omega), Nat.add_sub_cancel_left]
      have hi' : i < bs.length := hl.symm ▸ hi
      simp [hi']
    · rw [hbyte, if_neg (by omega)]
  case out =>
    have hone (tr : Bool) (e : Nat) (he : e < n) (side : Bool) (hside : copyDev d.bytes side = false) :
        ∃ bs, view.range tr (copyAddr d.bytes side e) 1 = .ok bs := by
      cases side with
      | false => rw [h1] at hside; cases hside
      | true =>
        refine range_one ?_ tr
        rw [hda e he]
        exact hv e he
    obtain ⟨t, ht, hm, hout, hst⟩ := onCopy_runs hr hn hs hc hu hone
    obtain ⟨hsm, p, hp⟩ := hr.moveRun_out (s := (copyBegun d s).1) (d := (copyBegun d s).2) (view := view) hn h1 h2
    rw [ha, hb, hbmBytes_congr hbeg] at hp
    exact .of rfl ht ⟨fun a => (hm a).trans ((hsm a).trans (hbeg a)), ⟨p, hout.symm ▸ hp⟩, hst⟩

end Sys2Proof.Machine
end

section
/-! SUPPORT. Conversions of elements (02 R28 to R31, R35, R36, R39, R40). -/
namespace Sys2Proof.Machine

/-! ### Codes of a float format -/

/-- The code with a sign and a magnitude, in its container. -/
def floatCode (f : FloatFmt) (neg : Bool) (m : Nat) : Nat := (m + if neg then 2 ^ f.signBit else 0) * 2 ^ f.shift

/-- What a finite magnitude stands for (R25, R30). -/
def floatVal (f : FloatFmt) (neg : Bool) (m : Nat) : Val :=
  if m / 2 ^ f.mant = 0 then .fin neg (m % 2 ^ f.mant) 1 (1 - (f.bias : Int) - f.mant)
  else .fin neg (2 ^ f.mant + m % 2 ^ f.mant) 1 (((m / 2 ^ f.mant : Nat) : Int) - f.bias - f.mant)

/-- Above the largest finite magnitude stand the infinity and NaNs, or NaN alone, or nothing (R28). -/
def FloatFmt.sound (f : FloatFmt) : Bool := match f.inf, f.nan with
  | some i, some _ => i == f.maxCode + 1 && decide (i < 2 ^ f.signBit)
  | none, some n => n == f.maxCode + 1 && f.maxCode + 2 == 2 ^ f.signBit
  | none, none => f.maxCode + 1 == 2 ^ f.signBit
  | some _, none => false

theorem floatVal_finite (f : FloatFmt) (neg : Bool) (m : Nat) : (floatVal f neg m).isFinite = true := by
  unfold floatVal
  split <;> rfl

section
variable {f : FloatFmt}

theorem floatCode_parts (neg : Bool) {m : Nat} (hm : m < 2 ^ f.signBit) :
    bitAt (floatCode f neg m / 2 ^ f.shift) f.signBit = neg ∧ floatCode f neg m / 2 ^ f.shift % 2 ^ f.signBit = m := by
  have hp : 0 < 2 ^ f.signBit := Nat.two_pow_pos _
  unfold floatCode bitAt
  rw [Nat.mul_div_cancel _ (Nat.two_pow_pos _)]
  cases neg with
  | false => simp [Nat.mod_eq_of_lt hm, Nat.div_eq_of_lt hm]
  | true => simp [Nat.mod_eq_of_lt hm, Nat.div_eq_of_lt hm, hp]

/-- Every code of the container that keeps its low bits 0 has a sign and a magnitude. -/
theorem floatCode_of_raw {raw : Nat} (h : raw < 2 ^ (f.signBit + 1 + f.shift)) (hs : raw % 2 ^ f.shift = 0) :
    ∃ neg m, m < 2 ^ f.signBit ∧ raw = floatCode f neg m := by
  have hc : raw / 2 ^ f.shift < 2 * 2 ^ f.signBit := by
    refine Nat.div_lt_of_lt_mul (h.trans_eq ?_)
    rw [Nat.pow_add, Nat.pow_succ]
    exact (Nat.mul_comm _ _).trans (congrArg _ (Nat.mul_comm _ _))
  have hr : raw = raw / 2 ^ f.shift * 2 ^ f.shift := (Nat.div_mul_cancel (Nat.dvd_of_mod_eq_zero hs)).symm
  by_cases hb : raw / 2 ^ f.shift < 2 ^ f.signBit
  · exact ⟨false, _, hb, hr⟩
  · refine ⟨true, raw / 2 ^ f.shift - 2 ^ f.signBit, by omega, ?_⟩
    unfold floatCode
    rw [if_pos rfl, Nat.sub_add_cancel (by omega)]
    exact hr

variable (hf : f.sound = true)
include hf

theorem maxCode_lt : f.maxCode < 2 ^ f.signBit := by
  unfold FloatFmt.sound at hf
  split at hf <;> simp at hf <;> omega

theorem inf_eq {i : Nat} (h : f.inf = some i) : i = f.maxCode + 1 ∧ i < 2 ^ f.signBit ∧ f.nan.isSome = true := by
  unfold FloatFmt.sound at hf
  rw [h] at hf
  cases hn : f.nan with
  | none => simp [hn] at hf
  | some n =>
    simp only [hn, Bool.and_eq_true, beq_iff_eq, decide_eq_true_eq] at hf
    exact ⟨hf.1, hf.2, rfl⟩

theorem nan_eq (hi : f.inf = none) {m : Nat} (hm : m < 2 ^ f.signBit) : (f.maxCode < m ↔ f.nan = some m) := by
  unfold FloatFmt.sound at hf
  rw [hi] at hf
  cases hn : f.nan with
  | none =>
    simp only [hn, beq_iff_eq] at hf
    simp
    omega
  | some n =>
    simp only [hn, Bool.and_eq_true, beq_iff_eq] at hf
    rw [Option.some_inj]
    omega

/-- A code reads as its magnitude: finite up to the largest, then infinity and NaN. -/
theorem readFloat_code (neg : Bool) {m : Nat} (hm : m < 2 ^ f.signBit) : readFloat f (floatCode f neg m) =
    if m ≤ f.maxCode then floatVal f neg m else if f.inf = some m then .inf neg else .nan := by
  obtain ⟨hsign, hmag⟩ := floatCode_parts (f := f) neg hm
  unfold readFloat
  dsimp only
  rw [hsign, hmag]
  cases hi : f.inf with
  | none =>
    have hiff := nan_eq hf hi hm
    cases hn : f.nan with
    | none =>
      have hle : m ≤ f.maxCode := Nat.le_of_not_lt fun h => by simpa [hn] using hiff.mp h
      simp only [hle, if_true]
      rfl
    | some n =>
      by_cases hle : m ≤ f.maxCode
      · have hne : m ≠ n := fun h => absurd (hiff.mpr (by rw [hn, h])) (by omega)
        simp only [hle, hne, if_true, decide_false]
        rfl
      · have he : m = n := (Option.some.inj (hn.symm.trans (hiff.mp (by omega)))).symm
        simp [he]
        omega
  | some i =>
    obtain ⟨h1, -, h3⟩ := inf_eq hf hi
    obtain ⟨n, hn⟩ := Option.isSome_iff_exists.mp h3
    rw [hn]
    by_cases hle : m ≤ f.maxCode
    · have hne : i ≠ m := by omega
      have hlt : ¬ i < m := by omega
      simp only [hle, hlt, hne, Option.some_inj, if_true, if_false, decide_false]
      rfl
    · by_cases he : i = m
      · simp [hle, he]
      · have hlt : i < m := by omega
        simp [hle, he, hlt]

/-! ### What a conversion to a float format writes -/

/-- The magnitude written for a value is finite, or the format's infinity. -/
theorem writeFloat_magnitude (c : Rnd) {v : Val} (hv : v ≠ .nan) : ∃ neg m, m < 2 ^ f.signBit ∧ (writeFloat f c v).1 = floatCode f neg m ∧
    (m ≤ f.maxCode ∨ f.inf = some m) := by
  have hmax := maxCode_lt hf
  cases v with
  | nan => exact absurd rfl hv
  | inf neg =>
    cases hi : f.inf with
    | none => exact ⟨neg, f.maxCode, hmax, by simp only [writeFloat, hi]; rfl, .inl le_rfl⟩
    | some i => exact ⟨neg, i, (inf_eq hf hi).2.1, by simp only [writeFloat, hi]; rfl, .inr rfl⟩
  | fin neg num den exp =>
    unfold writeFloat
    dsimp only
    by_cases hm : f.maxCode < floatMag f c num den exp
    · rw [if_pos hm]
      cases hi : f.inf with
      | none => exact ⟨neg, f.maxCode, hmax, by simp; rfl, .inl le_rfl⟩
      | some i =>
        by_cases ho : (c.ovf && c.mode != 1) = true
        · exact ⟨neg, i, (inf_eq hf hi).2.1, by rw [if_pos ho]; rfl, .inr rfl⟩
        · exact ⟨neg, f.maxCode, hmax, by rw [if_neg ho]; rfl, .inl le_rfl⟩
    · rw [if_neg hm]
      exact ⟨neg, _, by omega, rfl, .inl (by omega)⟩

omit hf in
/-- Without `OVF` a number stays finite. -/
theorem writeFloat_finite {c : Rnd} (hc : c.ovf = false ∨ c.mode = 1) (neg : Bool) (num den : Nat) (exp : Int) :
    ∃ m, m ≤ f.maxCode ∧ (writeFloat f c (.fin neg num den exp)).1 = floatCode f neg m := by
  have ho : (c.ovf && c.mode != 1) = false := by rcases hc with h | h <;> simp [h]
  unfold writeFloat
  dsimp only
  by_cases hm : f.maxCode < floatMag f c num den exp
  · rw [if_pos hm, ho]
    exact ⟨f.maxCode, le_rfl, rfl⟩
  · rw [if_neg hm]
    exact ⟨_, Nat.le_of_not_lt hm, rfl⟩

end

/-! ### Exact values -/

theorem roundUnits_exact {c : Rnd} (hc : c.r < 2 ^ 16) (num : Nat) (u : Int) : roundUnits c num 1 u u = num := by
  unfold roundUnits
  have hp : pow2 (u - u) = 1 := by simp [pow2]
  simp only [hp, Nat.mul_one, Nat.div_one, Nat.mod_one, Nat.zero_mul, Nat.zero_add, Nat.mul_zero]
  rw [if_neg (show ¬ 65536 ≤ c.r by omega), if_neg (by omega : ¬ (1 < 0 ∨ 0 = 1 ∧ num % 2 = 1))]
  split
  · rfl
  · split <;> rfl

theorem floorLog2_whole {num : Nat} (h : num ≠ 0) (e : Int) : floorLog2 num 1 e = Nat.log2 num + e := by
  have hd : Nat.log2 1 = 0 := by decide
  have h1 : ((Nat.log2 num : Int) - (Nat.log2 1 : Int) + e - e).toNat = Nat.log2 num := by rw [hd]; omega
  have h2 : (e - ((Nat.log2 num : Int) - (Nat.log2 1 : Int) + e)).toNat = 0 := by rw [hd]; omega
  have hle : magLe 1 1 ((Nat.log2 num : Int) - (Nat.log2 1 : Int) + e) num 1 e = true := by
    unfold magLe pow2
    rw [h1, h2]
    simpa using Nat.log2_self_le h
  unfold floorLog2
  dsimp only
  rw [if_pos hle, hd]
  omega

section
variable {f : FloatFmt} {c : Rnd} (hc : c.r < 2 ^ 16)
include hc

theorem floatMag_subnormal {x : Nat} (hx : x < 2 ^ f.mant) : floatMag f c x 1 (1 - (f.bias : Int) - f.mant) = x := by
  unfold floatMag
  split
  · next h => exact h.symm
  · next h =>
    have hl : Nat.log2 x < f.mant := (Nat.log2_lt h).mpr hx
    have hu : max (floorLog2 x 1 (1 - (f.bias : Int) - f.mant) - f.mant) (1 - (f.bias : Int) - f.mant) = 1 - (f.bias : Int) - f.mant := by
      rw [floorLog2_whole h]
      omega
    dsimp only
    rw [hu, roundUnits_exact hc, if_pos hx]

theorem floatMag_normal {x e : Nat} (hx : x < 2 ^ f.mant) (he : e ≠ 0) :
    floatMag f c (2 ^ f.mant + x) 1 ((e : Int) - f.bias - f.mant) = e * 2 ^ f.mant + x := by
  have hp : 0 < 2 ^ f.mant := Nat.two_pow_pos _
  have h0 : 2 ^ f.mant + x ≠ 0 := by omega
  have hl : Nat.log2 (2 ^ f.mant + x) = f.mant := by
    refine (Nat.log2_eq_iff h0).mpr ⟨by omega, ?_⟩
    rw [Nat.pow_succ]
    omega
  have hu : max (floorLog2 (2 ^ f.mant + x) 1 ((e : Int) - f.bias - f.mant) - f.mant) (1 - (f.bias : Int) - f.mant) =
      (e : Int) - f.bias - f.mant := by
    rw [floorLog2_whole h0, hl]
    omega
  unfold floatMag
  rw [if_neg h0]
  dsimp only
  rw [hu, roundUnits_exact hc, if_neg (by omega), hl, Nat.sub_self, Nat.pow_zero, Nat.div_one, Nat.add_sub_cancel_left]
  congr 2
  omega

/-- A value that the format holds is written as it was read. -/
theorem writeFloat_floatVal (neg : Bool) {m : Nat} (hm : m ≤ f.maxCode) : writeFloat f c (floatVal f neg m) = (floatCode f neg m, .none) := by
  have hx : m % 2 ^ f.mant < 2 ^ f.mant := Nat.mod_lt _ (Nat.two_pow_pos _)
  have hd : m / 2 ^ f.mant * 2 ^ f.mant + m % 2 ^ f.mant = m := Nat.div_add_mod' m _
  unfold floatVal
  split
  · next h =>
    have hmm : m % 2 ^ f.mant = m := by rw [h] at hd; omega
    unfold writeFloat
    dsimp only
    rw [floatMag_subnormal hc hx, hmm, if_neg (Nat.not_lt.mpr hm), if_neg (fun h : m = 0 ∧ m ≠ 0 => h.2 h.1)]
    rfl
  · next h =>
    unfold writeFloat
    dsimp only
    have h0 : m ≠ 0 := fun h0 => h (by rw [h0, Nat.zero_div])
    rw [floatMag_normal hc hx h, hd, if_neg (Nat.not_lt.mpr hm), if_neg (fun hz : m = 0 ∧ 2 ^ f.mant + m % 2 ^ f.mant ≠ 0 => h0 hz.1)]
    rfl

/-- A code that is no NaN is what its value is written as. -/
theorem writeFloat_readFloat (hf : f.sound = true) {raw : Nat} (hr : raw < 2 ^ (f.signBit + 1 + f.shift)) (hs : raw % 2 ^ f.shift = 0)
    (hn : readFloat f raw ≠ .nan) : writeFloat f c (readFloat f raw) = (raw, .none) := by
  obtain ⟨neg, m, hm, rfl⟩ := floatCode_of_raw hr hs
  rw [readFloat_code hf neg hm] at hn ⊢
  split at hn
  · next h => rw [if_pos h, writeFloat_floatVal hc neg h]
  · next h =>
    split at hn
    · next hi =>
      rw [if_neg h, if_pos hi]
      simp only [writeFloat, hi]
      rfl
    · exact absurd rfl hn

theorem writeInt_whole (w q : Nat) (neg : Bool) : writeInt w c (.fin neg q 1 0) =
    if neg then (if 2 ^ (w - 1) < q then (2 ^ (w - 1), .sat) else ((2 ^ w - q) % 2 ^ w, .none))
    else (if 2 ^ (w - 1) ≤ q then (2 ^ (w - 1) - 1, .sat) else (q, .none)) := by
  unfold writeInt
  dsimp only
  rw [roundUnits_exact hc, if_neg (fun h : q = 0 ∧ q ≠ 0 => h.2 h.1)]

/-- An integer code is what its value is written as. -/
theorem writeInt_signed {w raw : Nat} (hw : w ≠ 0) (hr : raw < 2 ^ w) : writeInt w c (.ofInt (signed w raw)) = (raw, .none) := by
  obtain ⟨k, rfl⟩ := Nat.exists_eq_succ_of_ne_zero hw
  have hp : 2 ^ (k + 1) = 2 * 2 ^ k := Nat.pow_succ'
  unfold signed
  rw [Nat.mod_eq_of_lt hr, Nat.succ_sub_one]
  by_cases h : raw < 2 ^ k
  · rw [if_pos h, Val.ofInt, writeInt_whole hc, Int.natAbs_natCast, decide_eq_false (by omega), if_neg Bool.false_ne_true, Nat.succ_sub_one,
      if_neg (Nat.not_le.mpr h)]
  · have hneg : ((raw : Int) - (2 ^ (k + 1) : Nat)) < 0 := by omega
    have habs : ((raw : Int) - (2 ^ (k + 1) : Nat)).natAbs = 2 ^ (k + 1) - raw := by omega
    rw [if_neg h, Val.ofInt, writeInt_whole hc, habs, decide_eq_true hneg, if_pos rfl, Nat.succ_sub_one, if_neg (by omega),
      Nat.sub_sub_self hr.le, Nat.mod_eq_of_lt hr]

end

/-! ### O60 -/

/-- The codes 0 to 10 name sound float formats, whose codes fill their containers, and two integer formats. -/
theorem fmtOf_cases {code : Nat} (h : code ≤ 10) :
    (∃ f : FloatFmt, fmtOf code = .float f ∧ f.sound = true ∧ fmtBits code = f.signBit + 1 + f.shift ∧ f.shift = if code = 1 then 13 else 0) ∨
    ∃ w, fmtOf code = .int w ∧ w ≠ 0 ∧ fmtBits code = w := by
  by_cases h9 : code < 9
  · refine .inl ?_
    interval_cases code <;> exact ⟨_, rfl, by decide, rfl, rfl⟩
  · obtain rfl | rfl : code = 9 ∨ code = 10 := by omega
    · exact .inr ⟨8, rfl, by decide, rfl⟩
    · exact .inr ⟨4, rfl, by decide, rfl⟩

theorem elem_float {code : Nat} {f : FloatFmt} (h : fmtOf code = .float f) (c : Rnd) (v : Val) (raw : Nat) :
    writeElem code c v = writeFloat f c v ∧ readElem code raw = readFloat f raw := by simp [writeElem, readElem, h]

theorem elem_int {code w : Nat} (h : fmtOf code = .int w) (c : Rnd) (v : Val) (raw : Nat) :
    writeElem code c v = writeInt w c v ∧ readElem code raw = .ofInt (signed w raw) := by simp [writeElem, readElem, h]

/-- Settles O60: each float code is a sign and a magnitude, which reading and writing keep. -/
theorem conversionsKeepExactValues : Obligations.ConversionsKeepExactValues := by
  unfold Obligations.ConversionsKeepExactValues
  refine ⟨fun code h c => ?nan, fun code h c neg => ?inf, fun code h c v hv => ?number, fun code h c v hv hc => ?finite,
    fun code h c raw hraw hc h1 hn => ?exact⟩
  case nan => interval_cases code <;> rfl
  case inf => interval_cases code <;> cases neg <;> rfl
  case number =>
    obtain ⟨f, hf, hs, -⟩ | ⟨w, hw, -⟩ := fmtOf_cases h
    · obtain ⟨neg, m, hm, he, hk⟩ := writeFloat_magnitude hs c hv
      rw [(elem_float hf c v 0).1, (elem_float hf c v _).2, he, readFloat_code hs neg hm]
      split
      · intro hnan
        have := floatVal_finite f neg m
        rw [hnan] at this
        cases this
      · next hle => rw [if_pos (hk.resolve_left hle)]; exact nofun
    · rw [(elem_int hw c v _).2]
      exact nofun
  case finite =>
    obtain ⟨f, hf, hs, -⟩ | ⟨w, hw, -⟩ := fmtOf_cases h
    · cases v with
      | nan => cases hv
      | inf neg => cases hv
      | fin neg num den exp =>
        obtain ⟨m, hm, he⟩ := writeFloat_finite (f := f) hc neg num den exp
        rw [(elem_float hf c _ 0).1, (elem_float hf c .nan _).2, he, readFloat_code hs neg (hm.trans_lt (maxCode_lt hs)), if_pos hm]
        exact floatVal_finite f neg m
    · rw [(elem_int hw c v _).2]
      rfl
  case exact =>
    obtain ⟨f, hf, hs, hb, hsh⟩ | ⟨w, hw, hw0, hb⟩ := fmtOf_cases h
    · rw [(elem_float hf c .nan raw).2] at hn ⊢
      rw [(elem_float hf c _ 0).1]
      refine writeFloat_readFloat hc hs (hb ▸ hraw) ?_ hn
      rw [hsh]
      split
      · next he => exact h1 he
      · exact Nat.mod_one raw
    · rw [(elem_int hw c .nan raw).2, (elem_int hw c _ 0).1]
      exact writeInt_signed hc hw0 (hb ▸ hraw)

end Sys2Proof.Machine
end
